-- ==== Sys2Proof/Word.lean ====
section
/-! DEFINITION. Words, bit fields, sorted tables and lists: the plain vocabulary every other file is written in. -/

namespace Sys2Proof

/-- One byte (R6: byte 0 of a multi-byte field holds bits [7:0]). -/
abbrev Byte := BitVec 8

/-- A 64-bit word: a header word or a counter. -/
abbrev W64 := BitVec 64

/-- Bits [hi:lo] of a number, both ends included (R6). -/
def bits (n hi lo : Nat) : Nat := (n >>> lo) % 2 ^ (hi + 1 - lo)

/-- One bit of a number. -/
def bit (n i : Nat) : Bool := n.testBit i

/-- `n` with bits [hi:lo] replaced by the low bits of `v`. -/
def setBits (n hi lo v : Nat) : Nat :=
  n - (bits n hi lo <<< lo) + ((v % 2 ^ (hi + 1 - lo)) <<< lo)

/-- Bits [hi:lo] of a 64-bit word. -/
def wbits (w : W64) (hi lo : Nat) : Nat := bits w.toNat hi lo

def b2n (b : Bool) : Nat := if b then 1 else 0

/-- ceil(a / b). -/
def cdiv (a b : Nat) : Nat := (a + b - 1) / b

/-- Little-endian bytes to a number (R6). -/
def leNat : List Byte → Nat
  | [] => 0
  | b :: r => b.toNat + 256 * leNat r

/-- The low `n` bytes of a number, little-endian (R6). -/
def leBytes : Nat → Nat → List Byte
  | 0, _ => []
  | n + 1, v => BitVec.ofNat 8 v :: leBytes n (v / 256)

/-- A sparse table keyed by numbers: entries in strictly rising key order. -/
abbrev Tbl (α : Type) := List (Nat × α)

/-- The entry at a key, if the table lists one. -/
def tfind {α : Type} : Tbl α → Nat → Option α
  | [], _ => none
  | (k', v) :: r, k => if k' = k then some v else tfind r k

/-- The entry at a key, or the table's default. -/
def tget {α : Type} (dflt : α) (t : Tbl α) (k : Nat) : α := (tfind t k).getD dflt

/-- Write an entry, keeping the keys in rising order. -/
def tput {α : Type} : Tbl α → Nat → α → Tbl α
  | [], k, v => [(k, v)]
  | (k', v') :: r, k, v =>
    if k < k' then (k, v) :: (k', v') :: r
    else if k' = k then (k, v) :: r
    else (k', v') :: tput r k v

/-- Remove an entry. -/
def tdel {α : Type} : Tbl α → Nat → Tbl α
  | [], _ => []
  | (k', v') :: r, k => if k' = k then r else (k', v') :: tdel r k

/-- Change the entry at a key, starting from the default. -/
def tmod {α : Type} (dflt : α) (t : Tbl α) (k : Nat) (f : α → α) : Tbl α :=
  tput t k (f (tget dflt t k))

/-- Does the table list the key? -/
def thas {α : Type} (t : Tbl α) (k : Nat) : Bool := (tfind t k).isSome

/-- Keys in strictly rising order. -/
def rising : List Nat → Bool
  | [] => true
  | [_] => true
  | a :: b :: r => decide (a < b) && rising (b :: r)

/-- The canonical form of a table. -/
def twf {α : Type} (t : Tbl α) : Bool := rising (t.map Prod.fst)

/-- Change every element that meets a test. -/
def mapIf {α : Type} (p : α → Bool) (f : α → α) (l : List α) : List α :=
  l.map fun x => if p x then f x else x

/-- Change only the first element that meets a test. -/
def mapFirst {α : Type} (p : α → Bool) (f : α → α) : List α → List α
  | [] => []
  | x :: r => if p x then f x :: r else x :: mapFirst p f r

/-- Remove the first element that meets a test. -/
def dropFirst {α : Type} (p : α → Bool) : List α → List α
  | [] => []
  | x :: r => if p x then r else x :: dropFirst p r

/-- Fold a function over a list of numbers, from the left. -/
def foldOver {σ α : Type} (l : List α) (s : σ) (f : α → σ → σ) : σ := l.foldl (fun a x => f x a) s

/-- A 64-bit counter that saturates without wrapping (R114). -/
def satAdd64 (c : W64) (n : Nat) : W64 :=
  if c.toNat + n < 2 ^ 64 then BitVec.ofNat 64 (c.toNat + n) else BitVec.allOnes 64

def sumNat (l : List Nat) : Nat := l.foldl (· + ·) 0

/-- The low `n` numbers. -/
def upTo (n : Nat) : List Nat := List.range n

end Sys2Proof
end

