-- ==== Sys2Proof/Types.lean ====
section
/-! DEFINITION. The data the outside world and the device exchange: statuses, packets, flits, Basod contexts. -/

namespace Sys2Proof

/-- The status catalogue (R506). -/
inductive Status where
  | ok | partial_ | poisoned | targetLost | mapGone | noFit | denied | broken | overrun | accSat
  | redFail | codeFault | late | retry | badPlate | timeout | unsupported | busy | sealed_ | tight
  deriving DecidableEq, Repr

/-- The value of a status (R506). -/
def Status.code : Status → Nat
  | .ok => 0x00 | .partial_ => 0x01 | .poisoned => 0x02 | .targetLost => 0x03 | .mapGone => 0x04
  | .noFit => 0x05 | .denied => 0x06 | .broken => 0x07 | .overrun => 0x08 | .accSat => 0x09
  | .redFail => 0x0A | .codeFault => 0x0B | .late => 0x0C | .retry => 0x0D | .badPlate => 0x0E
  | .timeout => 0x0F | .unsupported => 0x10 | .busy => 0x11 | .sealed_ => 0x12 | .tight => 0x13

/-- The status a code names; `none` for a reserved value (R506, R507). -/
def Status.ofCode : Nat → Option Status
  | 0x00 => some .ok | 0x01 => some .partial_ | 0x02 => some .poisoned | 0x03 => some .targetLost
  | 0x04 => some .mapGone | 0x05 => some .noFit | 0x06 => some .denied | 0x07 => some .broken
  | 0x08 => some .overrun | 0x09 => some .accSat | 0x0A => some .redFail | 0x0B => some .codeFault
  | 0x0C => some .late | 0x0D => some .retry | 0x0E => some .badPlate | 0x0F => some .timeout
  | 0x10 => some .unsupported | 0x11 => some .busy | 0x12 => some .sealed_ | 0x13 => some .tight
  | _ => none

/-- A TFP packet: the fields of W0 and W1 (R118), the operand words W2 and W3 (R122), extension words, payload. -/
structure Pkt where
  opc    : Nat := 0
  tc     : Nat := 0
  colour : Nat := 0
  hext   : Nat := 0
  len    : Nat := 0
  rtry   : Bool := false
  dlv    : Bool := false
  dup    : Bool := false
  cn     : Bool := false
  last   : Bool := true
  epoch  : Nat := 0
  chase  : Nat := 0
  party  : Nat := 0
  pidx   : Nat := 0
  dst    : Nat := 0
  src    : Nat := 0
  tag    : Nat := 0
  status : Nat := 0
  w2     : W64 := 0
  w3     : W64 := 0
  ext    : List W64 := []
  data   : List Byte := []
  deriving DecidableEq, Repr

/-- The opcode values of the TFP opcode table (R120). -/
abbrev opLOAD : Nat := 0x01
abbrev opSTORE : Nat := 0x02
abbrev opATOMIC : Nat := 0x03
abbrev opFENCE : Nat := 0x04
abbrev opRESP : Nat := 0x05
abbrev opREDUCE_CONTRIB : Nat := 0x10
abbrev opREDUCE_RESULT : Nat := 0x11
abbrev opCARRY : Nat := 0x12
abbrev opGATHER : Nat := 0x20
abbrev opSCATTER_ADD : Nat := 0x21
abbrev opDISPATCH : Nat := 0x22
abbrev opCOMBINE : Nat := 0x23
abbrev opSCAN : Nat := 0x24
abbrev opPUSH : Nat := 0x25
abbrev opMARK_OP : Nat := 0x30
abbrev opMCAST : Nat := 0x31
abbrev opMGMT : Nat := 0x38
abbrev opTIME : Nat := 0x39
abbrev opSNAP : Nat := 0x3A

/-- EID 0xFFFFF is FABRIC (R119). -/
abbrev eidFABRIC : Nat := 0xFFFFF

/-- Virtual lane codes (R88): 0–15 traffic lanes, 16 VLM, 17 VLU. -/
abbrev vlM : Nat := 16
abbrev vlU : Nat := 17

/-- The lane of a request or of a response of class TCn (R123). -/
def vlReq (tc : Nat) : Nat := 2 * tc
def vlResp (tc : Nat) : Nat := 2 * tc + 1

/-- A packet's size for credit purposes (R115), and its sorts and credits (R102, R147). -/
def Pkt.size (p : Pkt) : Nat := 32 + 8 * p.hext + p.len
def Pkt.sorts (p : Pkt) : Nat := cdiv p.size 256

/-- W0 of the base header as a number (R118). -/
def Pkt.w0 (p : Pkt) : Nat :=
  p.opc <<< 56 + p.tc <<< 53 + p.colour <<< 51 + p.hext <<< 46 + p.len <<< 33 + b2n p.rtry <<< 32
    + b2n p.dlv <<< 31 + b2n p.dup <<< 30 + b2n p.cn <<< 29 + b2n p.last <<< 28 + p.epoch <<< 24
    + p.chase <<< 12 + p.party <<< 6 + p.pidx

/-- W1 of the base header as a number (R118). -/
def Pkt.w1 (p : Pkt) : Nat := p.dst <<< 44 + p.src <<< 24 + p.tag <<< 8 + p.status

/-- The packet's bytes: base header, extension words, payload (R115, R118, R6). -/
def Pkt.bytes (p : Pkt) : List Byte :=
  leBytes 8 p.w0 ++ leBytes 8 p.w1 ++ leBytes 8 p.w2.toNat ++ leBytes 8 p.w3.toNat
    ++ p.ext.flatMap (fun w => leBytes 8 w.toNat) ++ p.data

/-- Read a packet's header fields back from its bytes (R118). -/
def Pkt.ofBytes (b : List Byte) : Pkt :=
  let w0 := leNat (b.take 8)
  let w1 := leNat ((b.drop 8).take 8)
  let hext := bits w0 50 46
  { opc := bits w0 63 56, tc := bits w0 55 53, colour := bits w0 52 51, hext := hext, len := bits w0 45 33
    rtry := bit w0 32, dlv := bit w0 31, dup := bit w0 30, cn := bit w0 29, last := bit w0 28
    epoch := bits w0 27 24, chase := bits w0 23 12, party := bits w0 11 6, pidx := bits w0 5 0
    dst := bits w1 63 44, src := bits w1 43 24, tag := bits w1 23 8, status := bits w1 7 0
    w2 := BitVec.ofNat 64 (leNat ((b.drop 16).take 8)), w3 := BitVec.ofNat 64 (leNat ((b.drop 24).take 8))
    ext := (upTo hext).map fun i => BitVec.ofNat 64 (leNat ((b.drop (32 + 8 * i)).take 8))
    data := (b.drop (32 + 8 * hext)).take (bits w0 45 33) }

/-- A packet as it arrives at a port on a lane: the port number and the lane of its flits (R91, R126). -/
structure Rx where
  port : Nat := 0
  vl   : Nat := 0
  pkt  : Pkt := {}
  framed : Bool := true   -- it began at payload offset 0 of its flit and no other packet began there (R144)
  deriving DecidableEq, Repr

/-- Control flits the device sends (R96), by CTYPE. -/
inductive Ctl where
  | hello (eid ptype caps sport : Nat) (spare : Bool)
  | creditInit (counts : List Nat)
  | credit (counts : List (Nat × Nat))
  | spareReq (failed spare : Nat)
  | spareAck (failed spare : Nat) (refuse : Bool)
  | narrowReq (half : Nat)
  | narrowAck (half : Nat) (refuse : Bool)
  | keySwitch (slot : Bool) (first : Nat)
  | trickleReq
  | trickleAck (refuse : Bool)
  | wakeReq
  | wakeReady
  | linkDown (cause : Nat)
  deriving DecidableEq, Repr

/-- CTYPE of a control flit (R96). -/
def Ctl.ctype : Ctl → Nat
  | .hello .. => 0x01 | .creditInit .. => 0x02 | .credit .. => 0x03 | .spareReq .. => 0x04 | .spareAck .. => 0x05
  | .narrowReq .. => 0x06 | .narrowAck .. => 0x07 | .keySwitch .. => 0x08 | .trickleReq => 0x09 | .trickleAck .. => 0x0A
  | .wakeReq => 0x0B | .wakeReady => 0x0C | .linkDown .. => 0x0D

/-- A TFP flit (R87, R88): header fields, payload area as sent, CRC-64. `payload` is bytes 8–247. -/
structure Flit where
  ftype  : Nat := 0
  fseq   : Nat := 0
  ackseq : Nat := 0
  nak    : Bool := false
  vl     : Nat := 0
  sopoff : Nat := 31
  fill   : Nat := 0
  crvl   : Nat := 0
  crcnt  : Nat := 0
  enc    : Bool := false
  kslot  : Bool := false
  payload : List Byte := []
  ctl    : Option Ctl := none   -- the body of a control flit (R96)
  crc    : W64 := 0
  deriving DecidableEq, Repr

/-- The link-layer header every received flit carries (R88), with the verdict of its CRC-64 (R90): the part of
a control or idle flit that the link layer reads besides the control body. -/
structure FlitHdr where
  fseq   : Nat := 0
  ackseq : Nat := 0
  nak    : Bool := false
  crvl   : Nat := 0
  crcnt  : Nat := 0
  crcOk  : Bool := true
  deriving DecidableEq, Repr

/-- The three Basod transports (R540). -/
inductive Transport where
  | eth | inBand | i3c
  deriving DecidableEq, Repr

/-- What carries a Basod command: its transport, its session (`none`: outside any session), its CSEQ, and what
the packet's own format shows (R542, R551 step 1): `good`, a reserved field nonzero or a PLEN that disagrees, with the
byte offset where one field is at fault. `seq` is the sequence number of the secured message it came in (R543); `bad` a length
other than 16 + PLEN, a BVER other than 1 or a KIND of 3 (R542). -/
structure Bas where
  tr    : Transport := .eth
  sess  : Option Nat := none
  seq   : Option Nat := none
  cseq  : Nat := 0
  bad   : Bool := false
  fault : Bool := false
  faultAt : Option Nat := none
  src   : Nat := 0
  deriving DecidableEq, Repr

/-- Names of the nine flag-carrying link states (R92). -/
inductive LinkSt where
  | down | training | notTfp | up | trickle | waking | fault
  deriving DecidableEq, Repr

/-- The code of a link state (R92). -/
def LinkSt.code : LinkSt → Nat
  | .down => 0 | .training => 1 | .notTfp => 2 | .up => 3 | .trickle => 4 | .waking => 5 | .fault => 6

/-- Does a port carry traffic: UP, TRICKLE or WAKING (R92)? -/
def LinkSt.carries : LinkSt → Bool
  | .up | .trickle | .waking => true
  | _ => false

/-- The registers of the field maps of spec/, each under its own name (R554). -/
inductive RegName where
  | kpPaceStat | kpPaceTgt | impFolio | impChaseStat | impChaseCfg | ptOctetCfg | ptTrayTmo | ptPortCfg |
  ptLinkStat | ptLinkPeer | ptTfpCfg | ptClassCfg | ptRedProf | ptEgrCfg | ptMcgrp | ptMcmem | ptMcCfg |
  ptHellStat | schClassCfg | schShaper | schPortCfg | schPolicer | schGateCtl | schGateStart | schGateEnt |
  schPtpCfg | schTimeStat | schTimeNow | impStripeset | impStripemem | impPoolCfg | impGalleyCfg | impLayer |
  gsCohCfg | gsCohMember | gsCohDist | pxFmtdesc | impChunk | impRedStat | impShard | impEmbStat | pxShardload
  | impExpert | impColmask | pxPlateStat | mkMark | mkLink | kpPartyKey | ptKeyStat | mtCfg | mtId | mtSeal |
  mtStat | fltFabpol | fltPortpol | fltComppol | fltThr | fltErrlog | fltLogstat | ptStallCfg | schSnapStat |
  schSnapCut | kpMgmtCfg | kpMgmtAddr | kpPwrStat | kpPwrStart | kpThermCfg | kpDevStat
  deriving DecidableEq, Repr

/-- The counters of the counter tables (R561), in table order. -/
inductive CntName where
  -- set 1: link (R114), per port
  | cFlittx | cFlitrx | cCrcerr | cNaktx | cReplay | cAuthfail | cProtoerr | cVludrop | cLanefail | cFeccorr | cFecuncorr | cWrstdrop
  -- set 2: transaction (R146)
  | cHdrerr | cTrainerr | cLateresp | cResplost | cDuphit | cDupmism | cFiltfull | cCtoexp
  -- set 3: switch core (R179)
  | cNoroute | cDropthr | cDropred | cMarked | cSkip | cSliceerr | cXresend | cXfail | cRsqgap | cGateon | cMcmiss | cMcretrycnt | cMcnoslot | cHellmove
  -- set 4: scheduling (R205)
  | cPromote | cGuardhold | cGuardstuck | cPolyellow | cPolred | cPtpdisc
  -- set 5: pool (R248)
  | cDenycls | cCemerge | cPoisref | cPoisclr | cPoisrd | cTgtlost | cTraytmo | cDegread | cRbslot | cMovjob | cMovfail
  -- set 6: galley (R287)
  | cMirrd | cScrubce | cCachefill | cWback | cCohstale | cCoherr | cDirovf | cDirfull | cDirerr | cLateans | cWininv | cNotsent | cNotmiss
  -- set 7: arithmetic (R317)
  | cNanout | cInfout | cOvfout | cSatout | cCarryin | cCarrybad | cFmtmism
  -- set 8: collective (R346)
  | cRedcontrib | cRedcarryout | cRedbusy | cRedoverrun | cRedfails | cRedrelease | cRedresult | cRedmiss | cRedreissue
  -- set 9: service (R381)
  | cGathers | cRowfetch | cHotsplit | cUpdrows | cUpdpois | cUpdfails | cTverstrag | cMoedrop | cMoeomit | cMoelate | cMoemiss | cScanrec | cScandeny | cScanskip
  -- set 10: plate (R400)
  | cPlatefull | cPlitemerr | cPlfault | cPlitems | cEngidle
  -- set 11: compression (R416)
  | cCmpsheet | cCmpinb | cCmpoutb | cCmpzero | cCmpraw | cExpblk | cCodeflt | cExppois
  -- set 12: mark (R441)
  | cMkops | cMkheld | cMkwfull | cMkwtmo | cMksat | cMkovr | cMkdup | cMkbreak | cMkrecl | cMkupfail
  -- set 13: sealed, fault and stall (R467, R522, R525, R534)
  | cSealfail | cKminfail | cNohop | cBadstat | cSinglecopy | cCredstall | cSnapstray
  -- set 14: keeper (R543)
  | cBadpkt | cSpdmreplay | cMgmtdrop | cCmdrefuse
  deriving DecidableEq, Repr

/-- The check counters of R43, one per step and chase, are counters too. -/
abbrev chkCounters : Nat := 4

end Sys2Proof
end

