-- ==== Sys2Proof/Params.lean ====
section
/-! DEFINITION. The parameters of commands and events: what a row of spec/opcode_table.json carries besides a packet
(Basod parameters of R553 and R593, fields of control flits, of PTP messages, of slices, of tray messages). -/

namespace Sys2Proof

/-- The homes that keep a duplicate filter (R135, R136), and the places that answer. -/
inductive Home where
  | galley (px : Nat)      -- galley controller of PXn
  | core (c : Nat)         -- press core 0–255
  | mark (pt : Nat)        -- mark home on PTn
  | tray (link : Nat)      -- port die of a tray link
  | repl (pt : Nat)        -- replication point
  | stripe (px : Nat)      -- stripe engine (R235)
  | coh (px : Nat)         -- coherence engine
  | remote (eid : Nat)     -- a TFP tray, another switch or an endpoint
  | ingress (pt : Nat)     -- the ingress port die itself
  deriving DecidableEq, Repr

/-- A pool region of a composition request (R40). Class: 0 private, 1 shared read-only, 2 coded, 3 plain. Use: 0 WEIGHT,
1 STATE, 2 SCRATCH, 3 TABLE, 4 RECORD. -/
structure Region where
  base   : Nat := 0        -- PVA, folio-aligned
  size   : Nat := 1        -- folios
  cls    : Nat := 0
  use    : Nat := 0
  party  : Nat := 0
  cache  : Bool := false
  frozen : Bool := false
  deriving DecidableEq, Repr

/-- A declared layer (R40). -/
structure LayerDecl where
  bytes : Nat := 0
  lpush : Nat := 0
  luse  : Nat := 0
  lshb  : Nat := 0
  deriving DecidableEq, Repr

/-- A composition request (R40). -/
structure CompReq where
  parties : Nat := 1
  members : List (Nat × Nat) := []     -- (EID, party)
  regions : List Region := []
  window  : Nat := 0
  depth   : Nat := 0
  layers  : List LayerDecl := []
  shadow  : Nat := 0
  stateF  : Nat := 0                   -- STATE, in folios
  cores   : Nat := 0
  marks   : Nat := 0
  barriers : List Nat := []            -- participants of each checked barrier
  services : Nat := 0
  drainbound : Nat := 50
  drainhold  : Nat := 10
  tightmax   : Nat := 0
  deriving DecidableEq, Repr

/-- A name in REG_READ and REG_WRITE (R554): a register, with the die where its block exists once per die, or a counter of
one die. `unknown` stands for any NAME that names nothing. -/
inductive RegRef where
  | reg (r : RegName) (die : Option Nat)
  | cnt (c : CntName) (die : Nat)
  | unknown
  deriving DecidableEq, Repr

/-- One entry of a REG_WRITE (R556): the name, the element, the reserved bytes, the 32-byte value. -/
structure RegEnt where
  name  : RegRef
  index : Nat := 0
  rsv   : Nat := 0
  value : Nat := 0
  deriving DecidableEq, Repr

/-- The PTP message fields the device reads (R199, R200), with the flit checks of R144: `framed` is 1 when the packet
starts at payload offset 0 and no other packet starts in its flit. -/
structure PtpMsg where
  port   : Nat := 0
  framed : Bool := true
  domain : Nat := 0
  seq    : Nat := 0
  ts     : Nat := 0        -- receive timestamp, in ns (R200)
  twoStep : Bool := true
  time   : Nat := 0        -- originTimestamp, preciseOriginTimestamp, receive or response origin timestamp, in ns
  corr   : Int := 0        -- correctionField in ns
  prio1  : Nat := 0
  cls    : Nat := 0
  prio2  : Nat := 0
  ident  : Nat := 0
  steps  : Nat := 0
  deriving DecidableEq, Repr

/-- A slice as it arrives (R161): side-band header and the verdict of its CHECK. -/
structure Slice where
  src   : Nat := 0
  dst   : Nat := 0
  pseq  : Nat := 0
  sidx  : Nat := 0
  kind  : Nat := 0
  good  : Bool := true
  deriving DecidableEq, Repr

/-- What a REBAL stage moves (R56): folios, each with the kind and target the Imposer chooses for it; chunks (RID, chunk, core);
shard boundaries of a table (TABLE, FIRST of each shard); experts (MOEID, expert, core). -/
structure StageReq where
  moves   : List (Nat × Nat × Nat) := []
  chunks  : List (Nat × Nat × Nat) := []
  shards  : List (Nat × List Nat) := []
  experts : List (Nat × Nat × Nat) := []
  deriving DecidableEq, Repr

/-- What drains (R58, R365, R73): an epoch of a chase, or the draining version of an embedding table. -/
inductive Drain where
  | epoch (e : Nat)
  | table (t : Nat)
  deriving DecidableEq, Repr

/-- The fields of a LAYER_DEF (R261). -/
structure LayerDef where
  layer   : Nat := 0
  pva     : Nat := 0
  lpages  : Nat := 1
  arm     : Nat := 0
  shpva   : Nat := 0
  shpages : Nat := 0
  lmark   : Nat := 0
  deriving DecidableEq, Repr

/-- A ring named by MOVER_BIND or PLATE_BIND (R241, R392). -/
structure RingDef where
  ring : Nat := 0
  pva  : Nat := 0
  ents : Nat := 16
  mark : Nat := 0
  deriving DecidableEq, Repr

/-- Names of the coherence messages (R271), by CMSG. -/
inductive CMsg where
  | gets | getm | upgr | puts | pute | putm | puto | fwds | fwdm | inv | srcs | data | grant | iack | pack | done | snak
  deriving DecidableEq, Repr

def CMsg.code : CMsg → Nat
  | .gets => 0x01 | .getm => 0x02 | .upgr => 0x03 | .puts => 0x04 | .pute => 0x05 | .putm => 0x06 | .puto => 0x07
  | .fwds => 0x08 | .fwdm => 0x09 | .inv => 0x0A | .srcs => 0x0B | .data => 0x10 | .grant => 0x11 | .iack => 0x12
  | .pack => 0x13 | .done => 0x14 | .snak => 0x15

/-- A coherence message (R270): its header fields, line and data. `dest` is the receiving member. -/
structure CohMsg where
  msg    : CMsg
  srcm   : Nat := 0
  reqm   : Nat := 0
  ackcnt : Nat := 0
  grant  : Nat := 0
  stale  : Bool := false
  dirty  : Bool := false
  pmask  : Nat := 0
  dest   : Nat := 0
  line   : Nat := 0              -- the line, keyed by where it lies (kind, target, frame, line of the folio)
  data   : List Byte := []
  deriving DecidableEq, Repr

/-- A child switch of a reduction tree (R319): its EID and the inclusive ranges of ranks and destinations of its subtree. -/
structure RedChild where
  eid : Nat := 0
  rlo : Nat := 1
  rhi : Nat := 0
  dlo : Nat := 1
  dhi : Nat := 0
  deriving DecidableEq, Repr

/-- The reduction definition table (R319, R460). `op`: 0 SUM, 1 COPY, 2 SPARSE; `mode`: 0 EXACT, 1 TIERED. -/
structure RedDef where
  rid : Nat := 0
  op : Nat := 0
  mode : Nat := 0
  ifmt : Nat := 0
  ofmt : Nat := 0
  nelem : Nat := 1
  chunkelem : Nat := 32
  bufs : Nat := 1
  topk : Nat := 0
  tc : Nat := 0
  role : Nat := 0
  parent : Nat := 0
  nrankg : Nat := 1
  ndestg : Nat := 1
  dsel : Nat := 0
  lranks : List (Nat × Nat) := []
  ldests : List (Nat × Nat) := []
  children : List RedChild := []
  cmark : Nat := 0
  dmark : Nat := 0
  rtmo : Nat := 10000
  sealv : Nat := 0
  kmin : Nat := 0
  deriving DecidableEq, Repr

/-- The embedding definition table (R347). `base` of the first version; LR and EPS are FP32 codes. -/
structure EmbDef where
  table : Nat := 0
  home : Nat := 0
  homesw : Nat := 0
  base : Nat := 0
  nrows : Nat := 1
  dim : Nat := 1
  rrow : Nat := 16
  orow : Nat := 16
  grow : Nat := 16
  readmask : Nat := 0
  updmask : Nat := 0
  nshard : Nat := 1
  hotthr : Nat := 65536
  nhot : Nat := 1
  opt : Nat := 0
  lr : Nat := 0
  eps : Nat := 0
  stpva : Nat := 0
  urows : Nat := 1
  uexpect : Nat := 1
  umark : Nat := 0
  udone : Nat := 0
  utmo : Nat := 10000
  deriving DecidableEq, Repr

/-- An expert of a mixture (R369). -/
structure MoeExpert where
  eid : Nat := 0
  cap : Nat := 0
  ovf : Nat := 0
  fbexp : Nat := 0xFFF
  deriving DecidableEq, Repr

/-- The mixture definition table (R369). -/
structure MoeDef where
  moe : Nat := 0
  topkmax : Nat := 1
  trow : Nat := 16
  tokelem : Nat := 1
  ndisp : Nat := 1
  cmbslots : Nat := 1
  dline : Nat := 1
  dlpol : Nat := 0
  renorm : Nat := 0
  dbatch : Nat := 1
  experts : List MoeExpert := []
  deriving DecidableEq, Repr

/-- The parameters of a station (station table, R382). Their layout in the parameter words is not in the spec. -/
structure SParam where
  opset  : Nat := 0
  dsize  : Nat := 64
  serial : Bool := false
  fields : List (Nat × Nat × Nat × Nat) := []   -- PARSE: byte offset, length, output, multiplier
  row    : Nat := 0                              -- FROW, OROW
  bsrc   : Nat := 3
  const  : Nat := 0
  row1   : Nat := 0
  prod   : Bool := false
  nacc   : Nat := 1
  fan    : Nat := 1
  flush  : Nat := 0
  pfmt   : Nat := 0
  terms  : List Nat := []
  k      : Nat := 1
  weights : List Nat := []
  hotthr : Nat := 1
  nkey   : Nat := 1
  limits : List Nat := []
  outmax : Nat := 1
  steer  : Bool := false
  away   : Bool := false                         -- ROUTE steers to another core
  mop    : Nat := 1
  arg0   : Nat := 1
  mark   : Option Nat := none
  signals : Bool := false                        -- MARK: its ARG signals completion
  interval : Nat := 0
  mode   : Nat := 0
  fmt    : Nat := 0
  maxblk : Nat := 1
  deriving DecidableEq, Repr, Inhabited

/-- What a command of the metrology authority carries (R483): its counter, the verdict of its signature. -/
structure MtAuth where
  acnt  : Nat := 0
  sigOk : Bool := true
  deriving DecidableEq, Repr

/-- A folio census (R478): folio count of each party, and of each target (kind, target). -/
structure Census where
  parties : List (Nat × Nat) := []
  targets : List ((Nat × Nat) × Nat) := []
  deriving DecidableEq, Repr

end Sys2Proof
end

