-- ==== Sys2Proof/Syntax.lean ====
section
/-! DEFINITION. The commands of the device: one constructor per row of spec/opcode_table.json, commands and packets
before the other rows, each part in the table's order, with the row's operands. The table lists no fields, so the operands are those the governing rule reads. -/

namespace Sys2Proof

/-- The commands and events of the device, each whole and indivisible (spec/95_what_each_step_holds.md). -/
inductive Instr where
  /-- KP_PACE_TGT_WRITE (R31): A write to KP_PACE_TGT is checked, and if accepted it takes effect at the end of the domain's current window. -/
  | kpPaceTgtWrite (b : Bas) (pwd : Nat) (value : Nat)
  /-- PORT_ENABLE (R93): Setting ENABLE in PT_PORT_CFG starts training of the port's lanes. -/
  | portEnable (b : Bas) (port : Nat) (value : Nat)
  /-- PORT_DISABLE (R94): Clearing ENABLE in PT_PORT_CFG takes the port DOWN at once, losing any flits in flight. -/
  | portDisable (b : Bas) (port : Nat) (value : Nat)
  /-- LOAD (R215): A LOAD packet is checked, resolved and executed at its home, which returns RLEN bytes. -/
  | load (x : Rx)
  /-- STORE (R214): A STORE packet is checked, resolved and written at its home part by part, and it is also the carrier of coherence messages. -/
  | store (x : Rx)
  /-- ATOMIC (R217): An ATOMIC packet is executed indivisibly at its home and returns the old value. -/
  | atomic (x : Rx)
  /-- FENCE (R132): A FENCE is admitted and waits on the earlier requests of its source and chase. -/
  | fence (x : Rx)
  /-- RESP (R128): A RESP is received, matched to its request by (CHASE, TAG), and forwarded by DST or consumed. -/
  | resp (x : Rx)
  /-- REDUCE_CONTRIB (R325): A contribution train is resolved to its chunk core, checked, added, and counted on the round's mark. -/
  | reduceContrib (x : Rx)
  /-- REDUCE_RESULT (R334): A result delivery is received, and a child switch writes it to its release buffer and relays it to its receivers. -/
  | reduceResult (x : Rx)
  /-- CARRY (R331): A child's CARRY train is checked and added exactly at the parent's chunk core. -/
  | carry (x : Rx)
  /-- GATHER (R356): A GATHER is checked whole, split by shard, coalesced, and pooled into its output. -/
  | gather (x : Rx)
  /-- SCATTER_ADD (R361): A SCATTER_ADD adds gradients into the shard update buffers of the open step. -/
  | scatterAdd (x : Rx)
  /-- DISPATCH (R371): A DISPATCH train is checked, its choices are admitted against expert capacity, and steps advance. -/
  | dispatch (x : Rx)
  /-- COMBINE (R374): An expert's COMBINE train is added as gate times output for each awaited choice. -/
  | combine (x : Rx)
  /-- SCAN (R377): A SCAN is checked and run on one core, testing records against its predicate. -/
  | scan (x : Rx)
  /-- PUSH (R262): A PUSH makes room in the window and starts reading a layer into it. -/
  | push (x : Rx)
  /-- MCAST (R141): An MCAST request is replicated at its replication point into one delivery per group member. -/
  | mcast (x : Rx)
  /-- MGMT (R143): An MGMT packet is forwarded, or passed to the active keeper when it is addressed to the switch EID. -/
  | mgmt (x : Rx)
  /-- SNAP (R534): A SNAP is consumed; it closes its lane and triggers the cut if it is the first SNAP of an armed snapshot. -/
  | snap (x : Rx)
  /-- GATE_COMMIT (R193): Writing SCH_GATE_START checks the admin list and commits it as the pending list. -/
  | gateCommit (b : Bas) (port : Nat) (value : Nat)
  /-- GATE_CANCEL (R193): Writing CANCEL in SCH_GATE_CTL discards the pending list. -/
  | gateCancel (b : Bas) (port : Nat) (value : Nat)
  /-- READ (R421): A MARK_OP READ returns the mark's type word. -/
  | read (x : Rx)
  /-- ADD (R426): A MARK_OP ADD adds to a counter, saturating, and evaluates waiters, doorbells and service thresholds. -/
  | add (x : Rx)
  /-- SUB (R426): A MARK_OP SUB subtracts from a counter, floored at zero. -/
  | sub (x : Rx)
  /-- SET (R421): A MARK_OP SET sets a counter's COUNT. -/
  | set (x : Rx)
  /-- TAKE (R426): A MARK_OP TAKE takes n from a counter if COUNT is enough. -/
  | take (x : Rx)
  /-- WAITGE (R421): A MARK_OP WAITGE is answered when COUNT reaches the threshold, or is held. -/
  | waitge (x : Rx)
  /-- ARRIVE (R428): A barrier arrival is checked and counted, possibly releasing a round or climbing to the parent level. -/
  | arrive (x : Rx)
  /-- ARRIVEWAIT (R428): A barrier arrival is counted and held until its round is released. -/
  | arrivewait (x : Rx)
  /-- WAITRND (R428): A WAITRND is held until its round is released, or is answered at once. -/
  | waitrnd (x : Rx)
  /-- ACQUIRE (R433): An ACQUIRE takes a quoin or joins its queue. -/
  | acquire (x : Rx)
  /-- TRYACQ (R433): A TRYACQ takes a quoin if it is free, and is never held. -/
  | tryacq (x : Rx)
  /-- RELEASE (R433): A RELEASE frees a quoin or grants it to the head of its queue. -/
  | release (x : Rx)
  /-- RENEW (R433): A RENEW restarts a quoin's lease. -/
  | renew (x : Rx)
  /-- TICKET (R436): A TICKET returns NEXT and advances it. -/
  | ticket (x : Rx)
  /-- SERVE (R436): A SERVE advances SERVING and releases waiting turns. -/
  | serve (x : Rx)
  /-- WAITTURN (R421): A WAITTURN is held until SERVING reaches its ticket. -/
  | waitturn (x : Rx)
  /-- FLT_FABPOL_WRITE (R495): A write to the fabric policy table takes effect at the next decision, and setting REBUILD or TSTEP acts on pending causes. -/
  | fltFabpolWrite (b : Bas) (value : Nat)
  /-- FINISH (R448): An SPDM FINISH completes the session handshake. -/
  | finish (b : Bas) (digest : Nat) (ok : Bool)
  /-- HEARTBEAT (R448): An SPDM HEARTBEAT is answered. -/
  | heartbeat (b : Bas)
  /-- KEY_UPDATE (R448): An SPDM KEY_UPDATE rekeys a session. -/
  | keyUpdate (b : Bas) (op : Nat)
  /-- END_SESSION (R448): An SPDM END_SESSION ends a session. -/
  | endSession (b : Bas)
  /-- KEY_INSTALL (R451): A party agent's KEY_INSTALL installs a PDK or PSK in every die key store. -/
  | keyInstall (b : Bas) (chase : Nat) (party : Nat) (kind : Nat) (key : Nat)
  /-- KEY_REVOKE (R451): A party agent's KEY_REVOKE zeroises a key in every die key store. -/
  | keyRevoke (b : Bas) (chase : Nat) (party : Nat) (kind : Nat) (slot : Nat)
  /-- COLMASK_SET (R468): A party agent writes an IMP_COLMASK entry for its own party as owner. -/
  | colmaskSet (b : Bas) (chase : Nat) (owner : Nat) (reader : Nat) (allow : Bool) (pvis : Nat) (rvis : Nat)
  /-- CHASE_QUOTE (R471): A party agent receives the chase manifest, signed by Alias. -/
  | chaseQuote (b : Bas) (chase : Nat) (nonce : Nat)
  /-- BASOD_AT_STANDBY (R540): A Basod packet reaches the standby keeper and is answered BUSY with DCODE 0x06 and the device address. -/
  | basodAtStandby (b : Bas)
  /-- IDENT_GET (R1): Returns the part number, stepping, serial, switch EID and firmware versions. -/
  | identGet (b : Bas)
  /-- EID_SET (R119): Sets the switch EID while no chase is bound. -/
  | eidSet (b : Bas) (eid : Nat)
  /-- OWNER_SET (R545): Records the first fabric owner under OWNPRES. -/
  | ownerSet (b : Bas) (pres : Bool)
  /-- OWNER_CHANGE (R545): The fabric owner records a new owner digest. -/
  | ownerChange (b : Bas) (digest : Nat)
  /-- OWNER_CLEAR (R545): Clears the owner and observers under OWNPRES while no chase is bound. -/
  | ownerClear (b : Bas) (pres : Bool)
  /-- OBSERVER_SET (R546): Replaces the observer list. -/
  | observerSet (b : Bas) (digests : List Nat)
  /-- SESSION_INFO (R544): Returns the session's roles and the chases it holds. -/
  | sessionInfo (b : Bas)
  /-- PORT_KEYSET (R109): Installs link keys and salts in a port key slot. -/
  | portKeyset (b : Bas) (port : Nat) (slot : Bool) (txKey : Nat) (rxKey : Nat) (txSalt : Nat) (rxSalt : Nat)
  /-- LINK_DERIVE (R454): Derives a link key slot through an SPDM session with the partner switch's keeper. -/
  | linkDerive (b : Bas) (port : Nat) (slot : Bool) (secret : Option Nat)
  /-- TRICKLE (R111): Takes a port from UP into TRICKLE. -/
  | trickle (b : Bas) (port : Nat)
  /-- WAKE (R112): Wakes a port from TRICKLE to full width and rate. -/
  | wake (b : Bas) (port : Nat)
  /-- ROUTE_WRITE (R149): Writes block or exact-match route entries. -/
  | routeWrite (b : Bas) (table : Nat) (first : Nat) (ents : List (Nat × Nat))
  /-- NHSET_WRITE (R509): Writes a next-hop set and its slots. -/
  | nhsetWrite (b : Bas) (set : Nat) (members : List Nat) (alt : Nat)
  /-- MCGRP_WRITE (R170): Writes a multicast group and its members. -/
  | mcgrpWrite (b : Bas) (group : Nat) (value : Nat) (mem : List (Nat × Nat))
  /-- COMP_CREATE (R45): Admits a composition as OK, TIGHT or NOFIT and stages its first forme. -/
  | compCreate (b : Bas) (chase : Nat) (cowner : Nat) (q : CompReq) (trays : List Nat)
  /-- COMP_DESTROY (R73): Stops admission for a chase and drains its epochs. -/
  | compDestroy (b : Bas) (chase : Nat)
  /-- FORME_STAGE (R65): Stages and admits a changed forme for a running composition. -/
  | formeStage (b : Bas) (chase : Nat) (q : CompReq) (trays : List Nat)
  /-- FORME_COMMIT (R67): Commits the staged forme by writing the epoch record. -/
  | formeCommit (b : Bas) (chase : Nat) (force : Bool)
  /-- PARTY_BIND (R450): Registers a party agent's key digest. -/
  | partyBind (b : Bas) (chase : Nat) (party : Nat) (digest : Nat)
  /-- TRUNK_BIND (R121): Binds or unbinds a chase's trunk entry on a switch port. -/
  | trunkBind (b : Bas) (port : Nat) (chase : Nat) (bind : Bool)
  /-- COMP_OWNER (R546): Replaces a chase's composition owner digest. -/
  | compOwner (b : Bas) (chase : Nat) (digest : Nat)
  /-- CAP_ACCEPT (R207): Accepts offered tray capacity for the Imposer. -/
  | capAccept (b : Bas) (kind : Nat) (target : Nat) (capacity : Nat)
  /-- REGION_FREEZE (R210): Freezes a shared read-only region through a forme commit. -/
  | regionFreeze (b : Bas) (chase : Nat) (base : Nat) (trays : List Nat)
  /-- REGION_SHARE (R210): Maps a frozen region into another chase. -/
  | regionShare (b : Bas) (chase : Nat) (base : Nat) (into : Nat) (trays : List Nat)
  /-- TRAY_OFFLINE (R230): Holds a tray target lost. -/
  | trayOffline (b : Bas) (kind : Nat) (target : Nat)
  /-- TRAY_ONLINE (R233): Restores a target held lost once its cause has cleared. -/
  | trayOnline (b : Bas) (kind : Nat) (target : Nat)
  /-- SPARE_ADD (R238): Registers a hot-spare extent. -/
  | spareAdd (b : Bas) (kind : Nat) (target : Nat) (base : Nat) (extent : Nat)
  /-- SPARE_REMOVE (R238): Removes a hot-spare extent unless a rebuild is writing to it. -/
  | spareRemove (b : Bas) (kind : Nat) (target : Nat) (base : Nat)
  /-- STRIPE_DEFINE (R239): Defines a coded stripe set of ten members. -/
  | stripeDefine (b : Bas) (set : Nat) (extent : Nat) (mem : List (Nat × Nat × Nat))
  /-- STRIPE_DELETE (R239): Deletes a stripe set that no live forme uses. -/
  | stripeDelete (b : Bas) (set : Nat)
  /-- MOVER_BIND (R241): Binds a data-mover ring and its doorbell mark. -/
  | moverBind (b : Bas) (chase : Nat) (party : Nat) (r : RingDef)
  /-- MOVER_UNBIND (R393): Removes a mover ring at the next commit. -/
  | moverUnbind (b : Bas) (chase : Nat) (ring : Nat)
  /-- LAYER_DEF (R261): Defines a streaming layer and its shadow. -/
  | layerDef (b : Bas) (chase : Nat) (l : LayerDef)
  /-- DIR_READ (R273): Returns a coherence directory entry. -/
  | dirRead (b : Bas) (chase : Nat) (block : Nat) (line : Nat)
  /-- NOTICE_BIND (R284): Binds an invalidation notice group to a plain region. -/
  | noticeBind (b : Bas) (chase : Nat) (base : Nat) (group : Nat) (tc : Nat)
  /-- NOTICE_UNBIND (R284): Stops invalidation notices for a region. -/
  | noticeUnbind (b : Bas) (chase : Nat) (base : Nat)
  /-- FMTDESC_WRITE (R297): Writes a format descriptor row. -/
  | fmtdescWrite (b : Bas) (row : Nat) (value : Nat)
  /-- RED_DEFINE (R320): Stages a reduction definition. -/
  | redDefine (b : Bas) (chase : Nat) (q : RedDef)
  /-- RED_DELETE (R319): Removes a reduction definition at the next commit. -/
  | redDelete (b : Bas) (chase : Nat) (rid : Nat)
  /-- EMB_DEFINE (R348): Stages an embedding table. -/
  | embDefine (b : Bas) (chase : Nat) (q : EmbDef)
  /-- EMB_DELETE (R347): Removes an embedding table at the next commit. -/
  | embDelete (b : Bas) (chase : Nat) (table : Nat)
  /-- EMB_VERSION (R365): Accepts a new table version at NEWBASE. -/
  | embVersion (b : Bas) (chase : Nat) (table : Nat) (newbase : Nat)
  /-- EMB_SETOPT (R363): Sets LR and EPS from the next step. -/
  | embSetopt (b : Bas) (chase : Nat) (table : Nat) (lr : Nat) (eps : Nat)
  /-- EMB_RESHARD (R368): Stages new shard boundaries. -/
  | embReshard (b : Bas) (chase : Nat) (table : Nat) (firsts : List Nat)
  /-- MOE_DEFINE (R369): Stages a mixture definition. -/
  | moeDefine (b : Bas) (chase : Nat) (q : MoeDef)
  /-- MOE_DELETE (R553): Removes a mixture unless a step is live. -/
  | moeDelete (b : Bas) (chase : Nat) (moe : Nat)
  /-- PLATE_LOAD (R389): Loads a user plate image piece, checking the whole image on the last piece. -/
  | plateLoad (b : Bas) (chase : Nat) (offset : Nat) (data : List Byte)
  /-- PLATE_UNLOAD (R389): Unloads a user plate that no binding names. -/
  | plateUnload (b : Bas) (chase : Nat) (plate : Nat)
  /-- PLATE_BIND (R392): Binds a user plate to rings on cores. -/
  | plateBind (b : Bas) (chase : Nat) (party : Nat) (plate : Nat) (rings : List RingDef)
  /-- PLATE_UNBIND (R393): Removes a plate binding at the next commit. -/
  | plateUnbind (b : Bas) (chase : Nat) (plate : Nat) (ring : Nat)
  /-- MARK_SET (R439): Sets a mark up with its type, record and link fields. -/
  | markSet (b : Bas) (chase : Nat) (mark : Nat) (type : Nat) (plock : Bool) (party : Nat) (word : Nat) (link : Nat)
  /-- MARK_CLEAR (R439): Clears a mark's FLAGS, or frees a broken quoin. -/
  | markClear (b : Bas) (mark : Nat)
  /-- MARK_EPLOST (R434): Breaks every quoin held by an EID. -/
  | markEplost (b : Bas) (eid : Nat)
  /-- TIME_STEP (R201): Steps fabric time to remove the offset. -/
  | timeStep (b : Bas)
  /-- TIME_SET (R203): Loads the time of day for the next PPS edge. -/
  | timeSet (b : Bas) (tod : Nat)
  /-- SNAP_ARM (R533): Arms a snapshot with its cut time, chases and ports. -/
  | snapArm (b : Bas) (id : Nat) (init : Nat) (tcut : Nat) (chases : List Nat) (ports : List Nat)
  /-- SNAP_READ (R536): Reads snapshot records. -/
  | snapRead (b : Bas) (id : Nat) (offset : Nat)
  /-- SNAP_RELEASE (R536): Frees snapshot records. -/
  | snapRelease (b : Bas) (id : Nat)
  /-- HELL_RECLAIM (R177): Tests the hellbox sorts and returns those that pass to the type case. -/
  | hellReclaim (b : Bas) (pt : Nat) (pass : List Nat)
  /-- ATTEST_POLICY (R454): Writes the approved measurement list. -/
  | attestPolicy (b : Bas) (digests : List Nat)
  /-- ERRLOG_READ (R504): Reads error records. -/
  | errlogRead (b : Bas) (first : Nat) (count : Nat)
  /-- MT_READ (R482): Reads a colophon by SEQ. -/
  | mtRead (b : Bas) (seq : Nat) (offset : Nat)
  /-- MT_ACK (R482): Acknowledges colophons as exported. -/
  | mtAck (b : Bas) (seq : Nat)
  /-- MT_ENROL (R483): Enrols the metrology authority key while ENROL is asserted. -/
  | mtEnrol (b : Bas) (a : MtAuth) (pin : Bool) (digest : Nat)
  /-- MT_AUTHKEY (R483): Replaces the authority key digest. -/
  | mtAuthkey (b : Bas) (a : MtAuth) (digest : Nat)
  /-- MT_SETINT (R484): Sets the colophon INTERVAL from the next boundary. -/
  | mtSetint (b : Bas) (a : MtAuth) (value : Nat)
  /-- MT_FWLR (R485): Installs a legally relevant meter firmware image. -/
  | mtFwlr (b : Bas) (a : MtAuth) (maj : Nat) (min : Nat) (image : List Byte) (ok : Bool)
  /-- MT_CORR (R483): Writes the rail correction table. -/
  | mtCorr (b : Bas) (a : MtAuth) (corr : List (Nat × Nat × Nat))
  /-- FW_WRITE (R563): Writes a firmware piece into the inactive slot or the meter staging buffer. -/
  | fwWrite (b : Bas) (target : Nat) (offset : Nat) (last : Bool) (data : List Byte)
  /-- FW_VERIFY (R564): Verifies the written image's length and signature. -/
  | fwVerify (b : Bas) (target : Nat) (len : Nat) (ok : Bool) (ver : Nat) (svn : Nat)
  /-- FW_ACTIVATE (R565): Activates verified firmware by boot selection, keeper handover, or meter install. -/
  | fwActivate (b : Bas) (target : Nat) (mode : Nat)
  /-- FW_SVN_RAISE (R447): Raises the fused minimum security version number. -/
  | fwSvnRaise (b : Bas)
  /-- FW_STATUS (R565): Returns each keeper's firmware slot status. -/
  | fwStatus (b : Bas)
  /-- NOTICE_SUB (R560): Sets the session's notice group mask. -/
  | noticeSub (b : Bas) (mask : Nat)
  /-- NOTICE_READ (R560): Returns notices from the ring from a given NSEQ. -/
  | noticeRead (b : Bas) (first : Nat)
  /-- TELEM_READ (R561): Returns a counter set of one die in a single access. -/
  | telemRead (b : Bas) (die : Nat) (set : Nat) (first : Nat) (peek : Bool)
  /-- DBG_READ (R444): Reads internal contents only in proof mode with no chase bound. -/
  | dbgRead (b : Bas) (unit : Nat) (addr : Nat) (len : Nat)
  /-- REG_READ (R555): Reads register elements, clearing RC fields for the fabric owner unless PEEK is set. -/
  | regRead (b : Bas) (name : RegRef) (group : Nat) (index : Nat) (count : Nat) (peek : Bool)
  /-- REG_WRITE (R556): Checks and applies a batch of register writes that have no behaviour of their own. -/
  | regWrite (b : Bas) (group : Nat) (ents : List RegEnt)
  /-- GALLEY_CACHE_RESIZE (R253): A write to IMP_GALLEY_CFG lowering CACHE evicts the excess lines before its reply. -/
  | galleyCacheResize (b : Bas) (value : Nat)
  /-- PWR_OFF (R569): Switches off the named domains if they meet the switch-off table. -/
  | pwrOff (b : Bas) (mask : Nat)
  /-- PWR_ON (R571): Switches on the named domains, and their dies self-test and join. -/
  | pwrOn (b : Bas) (mask : Nat) (hot : List Nat)
  /-- STANDBY_ENTER (R578): Enters standby or deep standby. -/
  | standbyEnter (b : Bas) (level : Nat) (die : Nat) (ports : List Nat)
  /-- STANDBY_EXIT (R579): Returns from standby to full power. -/
  | standbyExit (b : Bas)
  /-- RESET_CHASE (R581): Resets every operation of one chase on this switch. -/
  | resetChase (b : Bas) (chase : Nat)
  /-- RESET_PORT (R583): Resets one port or tray link. -/
  | resetPort (b : Bas) (port : Nat)
  /-- RESET_DIE (R584): Resets one die, optionally by force. -/
  | resetDie (b : Bas) (die : Nat) (force : Bool) (hot : List Nat)
  /-- RESET_WARM (R582): Replies, then begins a warm reset after 10 ms. -/
  | resetWarm (b : Bas)
  /-- RESET_COLD (R582): Replies, then begins a cold reset after 10 ms. -/
  | resetCold (b : Bas)
  /-- SHUTDOWN (R576): Shuts the package down by command. -/
  | shutdown (b : Bas)
  /-- BOOT_SELECT (R588): Sets the boot slot of both keepers. -/
  | bootSelect (b : Bas) (slotB : Bool)
  /-- START_SAVE (R589): Saves the start record. -/
  | startSave (b : Bas) (autosvc : Bool)
  /-- START_CLEAR (R589): Erases the start record. -/
  | startClear (b : Bas)
  /-- SERVICE_ENTER (R592): Sets MODE to SERVICE. -/
  | serviceEnter (b : Bas)
  /-- PROOF_ENTER (R592): Sets MODE to PROOF. -/
  | proofEnter (b : Bas)
  /-- SELFTEST_RUN (R591): Reruns the self-test on one die. -/
  | selftestRun (b : Bas) (die : Nat)
  /-- RESERVED_OPCODE_PACKET (R126): A packet with a reserved OPC arrives and is answered UNSUPPORTED on a request lane or discarded and counted in HDRERR on any other lane. -/
  | reservedOpcodePacket (x : Rx)
  /-- PACE_WINDOW_END (R29): At the end of each 100 µs window a clockless domain reports its pace, supply and temperature, and the active keeper may move that domain's supply by one step and check the thermal thresholds. -/
  | paceWindowEnd (pwd : Nat) (pace : Nat) (tj : Nat) (ack : Bool)
  /-- KEEPER_LEASE_RENEW (R516): Every 1 ms the active keeper renews its lease on the management ring. -/
  | keeperLeaseRenew
  /-- KEEPER_LEASE_LAPSE (R516): The active keeper's lease has not been renewed for 5 ms, so the standby begins its takeover. -/
  | keeperLeaseLapse
  /-- KEEPER_FATAL_REPORT (R516): The active keeper reports a fatal error, and the standby begins its takeover at once. -/
  | keeperFatalReport
  /-- KEEPER_TAKEOVER (R37): The standby replays the replicated state, ends every session, settles any key install or revoke in progress, completes any commit past its commit point, and sends a KEEPER notice. -/
  | keeperTakeover
  /-- COMMIT_PRESS_ACKS (R67): All eight press dies acknowledge a chase update, and the keeper sends the update to the port dies. -/
  | commitPressAcks (chase : Nat)
  /-- CHASE_UPDATE_APPLY (R67): A die receives a chase update from the management ring, applies it and acknowledges it. -/
  | chaseUpdateApply (chase : Nat) (die : Nat)
  /-- COMMIT_SWITCH_COMPLETE (R67): The last die acknowledges a chase update, so the switch is complete and the commit reply is sent. -/
  | commitSwitchComplete (chase : Nat)
  /-- DRAINHOLD_EXPIRY (R58): DRAINHOLD elapses after a switch completes, and the keeper sends a close of the draining epoch to every die. -/
  | drainholdExpiry (chase : Nat) (what : Drain)
  /-- DRAIN_CLOSE_APPLY (R58): A die applies the close of a draining epoch, after which that epoch admits only continuations. -/
  | drainCloseApply (chase : Nat) (die : Nat)
  /-- DRAIN_POLL (R59): At each 0.1 ms poll the keeper reads the draining counts and releases the epoch when every die reports zero. -/
  | drainPoll (chase : Nat) (what : Drain)
  /-- DRAINBOUND_EXPIRY (R61): The drain bound expires, every operation still counted becomes a straggler answered MAPGONE, and the epoch is released. -/
  | drainboundExpiry (chase : Nat) (what : Drain)
  /-- EPOCH_RELEASE_APPLY (R59): A die applies the release of an epoch and drops its fast-path entries for that epoch. -/
  | epochReleaseApply (chase : Nat) (die : Nat)
  /-- VACATED_FRAME_FENCED (R63): A target answers the fence or read for a vacated frame, and the frame returns to the free pool. -/
  | vacatedFrameFenced (kind : Nat) (target : Nat) (frame : Nat)
  /-- FASTPATH_FILL_DONE (R51): A forme-store read for a fast-path miss returns, and the waiting request continues with the fetched entry. -/
  | fastpathFillDone (die : Nat) (chase : Nat) (epoch : Nat) (kind : Nat) (key : Nat)
  /-- REBAL_STAGE (R56): While REBAL is armed, the Imposer by itself stages and commits a forme that moves work toward lower load. -/
  | rebalStage (chase : Nat) (r : StageReq)
  /-- MIG_COPY_START (R72): Epoch N is released, so the copy of a dual-written folio starts line by line. -/
  | migCopyStart (chase : Nat) (folio : Nat)
  /-- MIG_COPY_COMPLETE (R72): The copy of a migrating folio completes, and the Imposer stages and commits epoch N+2. -/
  | migCopyComplete (chase : Nat) (folio : Nat)
  /-- CHASE_FREE (R73): Both epochs of a destroyed composition are released, so its resources are freed and the COMP_DESTROY reply is sent. -/
  | chaseFree (chase : Nat)
  /-- FEC_LOCK (R93): Every lane of a training port holds FEC lock, and the port starts sending HELLO. -/
  | fecLock (port : Nat)
  /-- HELLO_REPEAT (R93): Every 10 µs a port resends HELLO until it receives one. -/
  | helloRepeat (port : Nat)
  /-- HELLO_TIMEOUT (R93): No valid HELLO arrives within 1 ms of FEC lock, so the port enters NOTTFP and a NOTTFP notice is sent. -/
  | helloTimeout (port : Nat)
  /-- HELLO (R93): A HELLO control flit is received, the partner is recorded and CREDIT_INIT is sent. -/
  | hello (port : Nat) (h : FlitHdr) (eid : Nat) (ptype : Nat) (caps : Nat) (sport : Nat) (spare : Bool)
  /-- CREDIT_INIT (R103): A CREDIT_INIT is received; the port enters FAULT if any lane has fewer than 17 credits, and otherwise it goes UP once both directions are done. -/
  | creditInit (port : Nat) (h : FlitHdr) (counts : List Nat)
  /-- CREDIT (R102): A CREDIT control flit returns credits to the lanes it names. -/
  | credit (port : Nat) (h : FlitHdr) (counts : List Nat)
  /-- DATA_FLIT_RX (R100): A data flit is checked for CRC, tag, sequence and protocol, then accepted or discarded with a NAK, and its acks, NAK and credits are processed. -/
  | dataFlitRx (port : Nat) (f : Flit)
  /-- IDLE_FLIT_RX (R100): An idle flit's ACKSEQ and NAK are processed, or the flit is discarded and counted in CRCERR if its CRC is bad. -/
  | idleFlitRx (port : Nat) (h : FlitHdr)
  /-- ACK_TIMEOUT (R100): Unacked flits see no change in ACKSEQ for ACKTMO, so the sender replays them or enters FAULT once REPLAYMAX is exceeded. -/
  | ackTimeout (port : Nat)
  /-- NAK_RESEND_TIMEOUT (R100): A NAK unanswered for ACKTMO is sent again. -/
  | nakResendTimeout (port : Nat)
  /-- ACK_SEND_DEADLINE (R99): A flit carrying ACKSEQ is sent no later than 32 flits or 100 ns after a good flit is received. -/
  | ackSendDeadline (port : Nat)
  /-- CREDIT_RETURN_TIMEOUT (R154): Owed credits have gone 200 ns without riding a flit, so a CREDIT control flit is sent. -/
  | creditReturnTimeout (port : Nat)
  /-- LANE_LOCK_LOSS (R104): A lane loses FEC lock and fails, which leads to a spare swap, narrowing or FAULT. -/
  | laneLockLoss (port : Nat) (lane : Nat)
  /-- LANE_WINDOW_END (R104): At the end of a 1 ms window a lane whose corrected-symbol count exceeded 2^LANETHR fails and is swapped. -/
  | laneWindowEnd (port : Nat) (lane : Nat) (corrected : Nat) (uncorrectable : Nat)
  /-- SPARE_REQ (R106): A SPARE_REQ is received and answered with SPARE_ACK. -/
  | spareReq (port : Nat) (h : FlitHdr) (failed : Nat) (spare : Nat)
  /-- SPARE_ACK (R106): A SPARE_ACK is received, and the lane moves onto the spare or the swap fails. -/
  | spareAck (port : Nat) (h : FlitHdr) (failed : Nat) (spare : Nat) (refuse : Bool)
  /-- SPARE_ACK_TIMEOUT (R106): No SPARE_ACK arrives within 4 µs, so the port narrows or enters FAULT with cause 0x04. -/
  | spareAckTimeout (port : Nat)
  /-- SPARE_HELLO_TIMER (R105): Every 100 ms a spare-lane HELLO is sent, and a spare naming another partner is marked unusable with a SPAREBAD notice. -/
  | spareHelloTimer (octet : Nat) (heard : List (Nat × Nat))
  /-- NARROW_REQ (R107): A NARROW_REQ is received and answered with NARROW_ACK. -/
  | narrowReq (port : Nat) (h : FlitHdr) (half : Nat)
  /-- NARROW_ACK (R107): A NARROW_ACK is received, and the port continues at half width or enters FAULT. -/
  | narrowAck (port : Nat) (h : FlitHdr) (half : Nat) (refuse : Bool)
  /-- NARROW_ACK_TIMEOUT (R107): No NARROW_ACK arrives within 4 µs, so the port enters FAULT. -/
  | narrowAckTimeout (port : Nat)
  /-- KEY_SWITCH (R110): A KEY_SWITCH is received naming the new transmit slot and its first FSEQ. -/
  | keySwitch (port : Nat) (h : FlitHdr) (slot : Bool) (first : Nat)
  /-- TX_KEY_EXHAUSTED (R110): A transmit key reaches 2^48 flits without a switch, so the port enters FAULT with cause 0x06. -/
  | txKeyExhausted (port : Nat)
  /-- TRICKLE_REQ (R111): A TRICKLE_REQ is received and answered with TRICKLE_ACK. -/
  | trickleReq (port : Nat) (h : FlitHdr)
  /-- TRICKLE_ACK (R111): A TRICKLE_ACK is received, and the port either moves to one lane at 53.125 Gb/s or stays UP on refusal. -/
  | trickleAck (port : Nat) (h : FlitHdr) (refuse : Bool)
  /-- WAKE_REQ (R112): A WAKE_REQ is received, and the sleeping lanes are brought to full rate. -/
  | wakeReq (port : Nat) (h : FlitHdr)
  /-- WAKE_LANES_READY (R112): All lanes pass the training check, so WAKE_READY is sent. -/
  | wakeLanesReady (port : Nat) (slow : Option Nat)
  /-- WAKE_READY (R112): A WAKE_READY is received, and once both ends are ready the port switches over to full width. -/
  | wakeReady (port : Nat) (h : FlitHdr)
  /-- WAKE_TRAINING_FAIL (R113): Full training of a waking lane fails, so the port returns to TRICKLE and a WAKEFAIL notice is sent. -/
  | wakeTrainingFail (port : Nat) (lane : Nat)
  /-- TRICKLE_LANE_LOSS (R113): The trickle lane fails in TRICKLE or WAKING, so the port enters FAULT with cause 0x08. -/
  | trickleLaneLoss (port : Nat)
  /-- LINKDOWN (R94): A LINKDOWN control flit is received, so the port enters FAULT with cause 0x07. -/
  | linkdown (port : Nat) (h : FlitHdr) (cause : Nat)
  /-- TRAY_LINK_TRAINED (R83): A tray link finishes training; CXL.mem is enabled at full rate and width, or TRAYDEGR is reported. -/
  | trayLinkTrained (link : Nat) (rate : Nat) (width : Nat)
  /-- TRAY_LINK_DOWN (R230): A CXL tray link leaves link-up, so its target is held lost and its outstanding parts end TARGETLOST. -/
  | trayLinkDown (link : Nat)
  /-- CXL_COMPLETION (R214): A CXL.mem completion arrives from an expander and completes its part. -/
  | cxlCompletion (link : Nat) (cid : Nat) (data : List Byte) (poison : Bool)
  /-- TRAY_REQ_TIMEOUT (R232): A CXL.mem request is unanswered at PT_TRAY_TMO, so its part ends TIMEOUT. -/
  | trayReqTimeout (link : Nat) (cid : Nat)
  /-- TRAY_DC_ADD (R86): A tray offers dynamic capacity, which is reported in a TRAYCAP notice. -/
  | trayDcAdd (link : Nat) (capacity : Nat)
  /-- TRAY_DC_FORCED_REMOVAL (R86): A tray removes capacity by force, and the folios on it are treated as lost. -/
  | trayDcForcedRemoval (link : Nat) (first : Nat) (frames : Nat)
  /-- FENCE_ANSWER (R132): Every earlier request covered by a FENCE has completed, so the FENCE is answered. -/
  | fenceAnswer (req : Nat)
  /-- TRAIN_TIMEOUT (R117): A train is incomplete TRAINTMO after its last packet, so it is discarded and answered RETRY. -/
  | trainTimeout (src : Nat) (chase : Nat) (tag : Nat) (resp : Bool)
  /-- COMPLETION_TIMEOUT (R138): An admitted request reaches CTO without a RESP, so its ingress answers it. -/
  | completionTimeout (req : Nat)
  /-- FILTER_ENTRY_EXPIRY (R135): A duplicate-filter entry is freed DUPWIN after its RESP was sent. -/
  | filterEntryExpiry (home : Home) (src : Nat) (chase : Nat) (tag : Nat)
  /-- XBAR_SCHEDULE (R160): The crossbar scheduler picks an eligible queue and sends its packet's sorts across the planes. -/
  | xbarSchedule (die : Nat) (full : Option Nat)
  /-- SLICE_RX (R163): A slice arrives at the destination die, and once four good slices are present the sort is rebuilt and a RACK is sent. -/
  | sliceRx (x : Slice)
  /-- REBUILD_TIMEOUT (R163): Fewer than four good slices are present 1 µs after the first, so an RNAK is sent. -/
  | rebuildTimeout (src : Nat) (dst : Nat) (pseq : Nat)
  /-- RACK (R148): A rebuild acknowledgement is received, and the source frees the sort. -/
  | rack (src : Nat) (dst : Nat) (pseq : Nat)
  /-- RNAK (R163): An RNAK is received, so the sort is resent or, on its third failure, voided. -/
  | rnak (src : Nat) (dst : Nat) (pseq : Nat)
  /-- RACK_TIMEOUT (R163): No RACK or RNAK arrives within 2 µs, so the sort is resent or voided. -/
  | rackTimeout (src : Nat) (dst : Nat) (pseq : Nat)
  /-- XBAR_CREDIT_RX (R165): A destination frees a sort, and the source regains a crossbar credit. -/
  | xbarCreditRx (src : Nat) (port : Nat) (n : Nat)
  /-- GATE_CHANGE_RX (R165): A port gate change arrives from a destination die and updates queue eligibility. -/
  | gateChangeRx (die : Nat) (port : Nat)
  /-- RSQ_GAP_TIMEOUT (R167): An expected PSEQ is still missing 10 µs after a later one, so the resequencer skips it and sends RSQGAP. -/
  | rsqGapTimeout (src : Nat) (dst : Nat)
  /-- PLANE_WINDOW_END (R164): A plane reaches PLANETHR errors in a 1 ms window, so PLANEERR is sent and, with PLANEOFF, the plane is taken out of use. -/
  | planeWindowEnd (plane : Nat)
  /-- EGRESS_SELECT (R181): At a flit boundary the egress scheduler sends owed link-layer flits or picks an eligible lane by rank. -/
  | egressSelect (port : Nat)
  /-- MC_OUTCOME_RX (R172): A member die reports member outcomes to the replication point, which ends the round once all are known. -/
  | mcOutcomeRx (id : Nat) (die : Nat)
  /-- MCWAIT_EXPIRY (R173): A member's delivery is undelivered at MCWAIT, so it is withdrawn and missed for this round. -/
  | mcwaitExpiry (id : Nat) (member : Nat)
  /-- MC_RETRY_TIMER (R173): MCRINT after a round ends, a retry copy naming the missing members is sent. -/
  | mcRetryTimer (id : Nat)
  /-- HELLBOX_AUDIT (R176): Every AUDINT the type case is audited, leaked sorts are moved to the hellbox, and with HBRECL sorts are reclaimed. -/
  | hellboxAudit (die : Nat) (found : List (Nat × Nat × Nat)) (fails : List Nat)
  /-- SORT_SRAM_ERROR (R176): A sort's SRAM reports an uncorrectable error, so the sort goes to the hellbox at once and its packet is discarded. -/
  | sortSramError (die : Nat) (sort : Nat) (chase : Nat) (arr : Nat) (port : Nat) (tc : Nat) (pos : Nat)
  /-- CREDIT_STALL (R525): An egress lane's head waits STALLT for credits or tokens, so CREDSTALL is counted and notified. -/
  | creditStall (port : Nat) (vl : Nat)
  /-- REFILL_BOUNDARY (R186): At a refill boundary, shapers and policers are refilled and pending writes take effect. -/
  | refillBoundary (port : Nat)
  /-- GATE_ENTRY_CHANGE (R190): A gate list entry's time arrives, and class gates change at the next flit boundary. -/
  | gateEntryChange (port : Nat)
  /-- GATE_LIST_TAKEOVER (R193): STARTTIME arrives, so the pending list becomes operational at entry 0 and a GATESW notice is sent. -/
  | gateListTakeover (port : Nat)
  /-- AGE_PROMOTION (R196): A queue head's age exceeds AGETHR, so the head is promoted to VLU precedence. -/
  | agePromotion (egress : Bool) (die : Nat) (port : Nat) (tc : Nat)
  /-- SYNC (R199): A PTP Sync message is received and timestamped for the servo. -/
  | sync (m : PtpMsg)
  /-- FOLLOW_UP (R199): A PTP Follow_Up is received, and the servo updates the rate word or flags the offset. -/
  | followUp (m : PtpMsg)
  /-- ANNOUNCE (R199): A PTP Announce is received and fed to the best master clock algorithm. -/
  | announce (m : PtpMsg)
  /-- PDELAY_REQ (R199): A Pdelay_Req is received and answered with Pdelay_Resp and its Follow_Up. -/
  | pdelayReq (m : PtpMsg)
  /-- PDELAY_RESP (R199): A Pdelay_Resp is received for peer delay measurement. -/
  | pdelayResp (m : PtpMsg)
  /-- PDELAY_RESP_FOLLOW_UP (R199): A Pdelay_Resp_Follow_Up is received, and the link delay is computed. -/
  | pdelayRespFollowUp (m : PtpMsg)
  /-- PTP_UNSUPPORTED_MESSAGE (R199): A Delay_Req, Delay_Resp, Signaling or Management message is discarded and counted in PTPDISC. -/
  | ptpUnsupportedMessage (m : PtpMsg)
  /-- PTP_SYNC_INTERVAL (R199): At each sync interval a master port sends Sync and Follow_Up. -/
  | ptpSyncInterval (port : Nat) (txTime : Nat)
  /-- PTP_PDELAY_INTERVAL (R199): At each Pdelay interval a PTP port sends Pdelay_Req. -/
  | ptpPdelayInterval (port : Nat) (txTime : Nat)
  /-- TIME_SOURCE_LOSS (R201): The time source or a time input is lost, so STATE becomes HOLDOVER and TIMEHOLD is sent. -/
  | timeSourceLoss (input : Nat)
  /-- TIME_SOURCE_REGAIN (R201): The time source returns, and TIMELOCK is sent. -/
  | timeSourceRegain (input : Nat) (offset : Int)
  /-- PPS_EDGE (R203): A 1 PPS input edge aligns fabric time to a whole second and loads any pending time of day. -/
  | ppsEdge
  /-- PPS_OUT_SECOND (R203): At each whole second of fabric time the keeper drives its 1 PPS output. -/
  | ppsOutSecond (keeper : Nat)
  /-- GALLEY_READ_RETURN (R251): A galley read returns through CX3 and is ECC-checked, merged or served. -/
  | galleyReadReturn (job : Nat) (ce : List Nat) (ue : List Nat)
  /-- MIRROR_WRITE_DONE (R255): The mirror copy of a dirty line enters the pair's write queue, so the write part completes. -/
  | mirrorWriteDone (job : Nat)
  /-- STRIPE_MEMBER_ANSWER (R235): A stripe member answers a stripe update, and the part becomes visible once every surviving member has answered. -/
  | stripeMemberAnswer (job : Nat) (member : Nat)
  /-- REBUILD_START (R238): A member is held lost with REBUILD armed and a spare available, so rebuild onto the spare begins. -/
  | rebuildStart (set : Nat)
  /-- REBUILD_SLOT (R238): One slot is rebuilt within RBRATE, and after the last slot the spare becomes the member and REBUILT is sent. -/
  | rebuildSlot (set : Nat)
  /-- MOVER_DESCRIPTOR_TAKE (R242): A mover takes the next descriptor while the doorbell count is above zero, checks it, and issues pieces. -/
  | moverDescriptorTake (chase : Nat) (ring : Nat)
  /-- MOVER_PIECE_DONE (R243): A mover piece's read or write ends, and the next piece is issued or the job moves to completion. -/
  | moverPieceDone (chase : Nat) (ring : Nat)
  /-- MOVER_STATUS_WRITTEN (R245): The RESP of a job's status write arrives, so CMARK is raised. -/
  | moverStatusWritten (chase : Nat) (ring : Nat)
  /-- LAYER_PIECE_DONE (R247): A layer push piece ends; the layer becomes READY with LMARK signalled after the last piece, or FAILED on a failure. -/
  | layerPieceDone (chase : Nat) (layer : Nat)
  /-- LAYER_NEED_REACHED (R264): Fabric time reaches NEED while the layer is PUSHING, so the layer becomes MISSED. -/
  | layerNeedReached (chase : Nat) (layer : Nat)
  /-- PUSH_EARLY_ANSWER (R265): At admission plus CTO − 100 µs a PUSH is answered OK with RVAL 1 while it continues. -/
  | pushEarlyAnswer (chase : Nat) (layer : Nat)
  /-- PATROL_SCRUB (R257): The patrol scrub reads a line, counts correctable granules, reports uncorrectable ones, and rewrites only with SCRUBFIX. -/
  | patrolScrub (stack : Nat) (ce : List Nat) (ue : List Nat)
  /-- GETS (R278): A GETS reaches the home and is served from memory, a sharer or the owner under the directory state. -/
  | gets (chase : Nat) (party : Nat) (pva : Nat) (m : CohMsg)
  /-- GETM (R278): A GETM reaches the home, which grants M and invalidates the other copies. -/
  | getm (chase : Nat) (party : Nat) (pva : Nat) (m : CohMsg)
  /-- UPGR (R278): An UPGR reaches the home, which grants M to the sharer or owner. -/
  | upgr (chase : Nat) (party : Nat) (pva : Nat) (m : CohMsg)
  /-- PUTS (R278): A PUTS reaches the home, which clears the sharer pointer and answers PACK. -/
  | puts (chase : Nat) (party : Nat) (pva : Nat) (m : CohMsg)
  /-- PUTE (R280): A PUTE reaches the home, which accepts it or treats it as stale. -/
  | pute (chase : Nat) (party : Nat) (pva : Nat) (m : CohMsg)
  /-- PUTM (R280): A PUTM reaches the home, which writes the data or discards a stale PUT. -/
  | putm (chase : Nat) (party : Nat) (pva : Nat) (m : CohMsg)
  /-- PUTO (R280): A PUTO reaches the home, which writes the data if dirty or treats it as stale. -/
  | puto (chase : Nat) (party : Nat) (pva : Nat) (m : CohMsg)
  /-- FWDS (R277): An owner receives FWDS and sends DATA to the requester. -/
  | fwds (chase : Nat) (party : Nat) (pva : Nat) (m : CohMsg)
  /-- FWDM (R277): An owner receives FWDM and passes the line in M to the requester. -/
  | fwdm (chase : Nat) (party : Nat) (pva : Nat) (m : CohMsg)
  /-- INV (R277): A cache receives INV, drops any copy and sends IACK. -/
  | inv (chase : Nat) (party : Nat) (pva : Nat) (m : CohMsg)
  /-- SRCS (R276): A sharer receives SRCS and sends DATA to the requester, or SNAK. -/
  | srcs (chase : Nat) (party : Nat) (pva : Nat) (m : CohMsg)
  /-- DATA (R277): A requester receives DATA and installs the line, completing once its IACKs are counted. -/
  | data (chase : Nat) (party : Nat) (pva : Nat) (m : CohMsg)
  /-- GRANT (R277): A requester receives GRANT for an upgrade. -/
  | grant (chase : Nat) (party : Nat) (pva : Nat) (m : CohMsg)
  /-- IACK (R277): A requester counts an IACK and sends DONE once the count is complete. -/
  | iack (chase : Nat) (party : Nat) (pva : Nat) (m : CohMsg)
  /-- PACK (R280): A cache receives PACK and frees its write-back buffer entry. -/
  | pack (chase : Nat) (party : Nat) (pva : Nat) (m : CohMsg)
  /-- DONE (R278): The home receives DONE, takes BNEXT and starts the next queued request. -/
  | done (chase : Nat) (party : Nat) (pva : Nat) (m : CohMsg)
  /-- SNAK (R278): The home receives SNAK, clears the pointer and serves the requester from memory. -/
  | snak (chase : Nat) (party : Nat) (pva : Nat) (m : CohMsg)
  /-- INVAL_NOTICE_FLUSH (R285): An invalidation notice holding its lines is sent as an MCAST at 512 lines or NOTINT after its first line. -/
  | invalNoticeFlush (chase : Nat) (base : Nat)
  /-- ROUND_TIMEOUT (R341): A round's count misses T2 within RTMO, so the round fails with TIMEOUT and REDFAIL notices are sent. -/
  | roundTimeout (chase : Nat) (rid : Nat)
  /-- UPDATE_STEP_TIMEOUT (R364): An update step misses T1 within UTMO, so it fails and ends with UPDFAIL. -/
  | updateStepTimeout (chase : Nat) (table : Nat)
  /-- VERSION_SWITCH (R365): Once the open step has ended, an accepted EMB_VERSION makes the new table version current. -/
  | versionSwitch (chase : Nat) (table : Nat)
  /-- SHARD_LOAD_WINDOW (R367): At the end of each 1 ms window, the shard load counts are latched in PX_SHARDLOAD. -/
  | shardLoadWindow (chase : Nat) (table : Nat)
  /-- MOE_BATCH_TIMER (R373): DBATCH after its first choice, an expert core sends a DISPATCH delivery. -/
  | moeBatchTimer (chase : Nat) (moe : Nat) (step : Nat) (expert : Nat) (core : Nat)
  /-- COMBINE_DEADLINE (R374): DLINE expires, and awaited choices are omitted or sent to their fallback expert. -/
  | combineDeadline (chase : Nat) (moe : Nat) (req : Nat)
  /-- SCAN_EARLY_ANSWER (R380): A scan still running at admission plus CTO − 100 µs is answered OK with RVAL all ones. -/
  | scanEarlyAnswer (svc : Nat)
  /-- SCAN_DONE (R380): Every record write of a scan takes effect, so its header is written with DONE set and the RESP is sent. -/
  | scanDone (svc : Nat)
  /-- STATION_FIRE (R383): A plate station whose inputs hold whole tokens and whose outputs have room fires. -/
  | stationFire (core : Nat) (slot : Nat) (node : Nat)
  /-- PLATE_PIECE_DONE (R382): A FETCH or STORE piece issued by a plate ends and its node emits data or completion. -/
  | platePieceDone (core : Nat) (slot : Nat)
  /-- DEADLINE_EXPIRY (R382): A DEADLINE station's timer expires first, so a timeout token is emitted. -/
  | deadlineExpiry (core : Nat) (slot : Nat) (node : Nat) (item : Nat)
  /-- INGEST_WAIT_TIMEOUT (R396): A packet has waited 2 µs for INGEST room, so it is answered RETRY or discarded. -/
  | ingestWaitTimeout (px : Nat) (x : Rx)
  /-- PLATE_INSTANCE_FAULT (R399): An uncorrectable SRAM error or engine fault puts a plate instance in FAULT and a PLATEFLT notice is sent. -/
  | plateInstanceFault (core : Nat) (slot : Nat)
  /-- HELD_OP_TIMEOUT (R424): A held mark operation is answered TIMEOUT at admission plus CTO − 100 µs. -/
  | heldOpTimeout (req : Nat)
  /-- QUOIN_LEASE_EXPIRY (R434): A quoin owner's lease expires, so the quoin breaks with LEASE. -/
  | quoinLeaseExpiry (mark : Nat)
  /-- BARRIER_PARENT_ANSWER (R432): The parent answers a level's ARRIVEWAIT; the round is released, the level waits again, or UPFAIL is set. -/
  | barrierParentAnswer (mark : Nat) (st : Status)
  /-- BARRIER_UP_RESEND (R432): 10 µs after a BUSY from the parent, the level's ARRIVEWAIT is sent again. -/
  | barrierUpResend (mark : Nat)
  /-- LIVENESS_SEND (R512): Every 0.5 µs each port and press die sends a liveness slice on every plane. -/
  | livenessSend (die : Nat)
  /-- DIE_SILENCE (R512): A die is not heard on any plane for 2 µs, so it is held lost with all its consequences. -/
  | dieSilence (die : Nat)
  /-- FATAL_SLICE_RX (R512): A fatal slice is received, and its die is held lost at once. -/
  | fatalSliceRx (die : Nat)
  /-- NEXTHOP_FAILOVER (R509): A next-hop member leaves UP, so with NHFAIL its slots are reassigned within 2 µs. -/
  | nexthopFailover (set : Nat) (port : Nat)
  /-- GALLEY_STACK_LOSS (R514): A stack becomes unreachable, so requests to it are served from the pair's mirror copies. -/
  | galleyStackLoss (stack : Nat)
  /-- CE_WINDOW_END (R499): A unit counts 2^CETHR corrected errors in a 1 s window, so a class 0 record is made and CESTORM is sent. -/
  | ceWindowEnd (die : Nat) (unit : Nat)
  /-- PORT_TABLE_ERROR (R501): A port-die table entry is uncorrectable, so it acts as absent until it is rewritten. -/
  | portTableError (die : Nat) (table : Nat) (index : Nat)
  /-- FORME_STORE_ERROR (R502): A forme-store entry is bad in both copies, so its chase's requests get TARGETLOST and FORMEERR is sent. -/
  | formeStoreError (chase : Nat) (part : Nat) (key : Nat)
  /-- MARK_RECORD_ERROR (R503): A mark record is uncorrectable, so the mark is poisoned and answers POISONED. -/
  | markRecordError (mark : Nat)
  /-- DIRECTORY_ERROR (R274): A directory entry is bad, so the home broadcasts INV, poisons the line and removes the entry. -/
  | directoryError (line : Nat)
  /-- FATAL_PACKAGE (R520): A fatal-package condition arises, so a class 4 record is made, the fault output is asserted and every port goes DOWN. -/
  | fatalPackage (cause : Nat)
  /-- SNAP_CUT_TIME (R534): Fabric time reaches TCUT, so the switch takes its cut and sends SNAP copies. -/
  | snapCutTime
  /-- SNAP_SWEEP_DONE (R535): The mark sweep ends, and the snapshot becomes DONE once every lane is closed. -/
  | snapSweepDone
  /-- SNAP_TIMEOUT (R536): A lane is still open SNAPTMO after the cut, so the snapshot is marked INCOMPLETE and DONE. -/
  | snapTimeout
  /-- METER_OPEN_NOTICE (R472): An open notice arrives at the meter, which increments ACCGEN and zeroes the chase's accounts. -/
  | meterOpenNotice (chase : Nat)
  /-- METER_CLOSE_NOTICE (R472): A close notice arrives, and the chase's accounts take no further increments. -/
  | meterCloseNotice (chase : Nat)
  /-- METER_SAMPLE_TICK (R474): Every 1 ms of meter time the meter samples occupancy and attributes each domain's energy. -/
  | meterSampleTick (uj : List (Nat × Nat)) (alarms : List (Nat × Nat))
  /-- KEEPER_TIME_TICK (R477): The keeper sends the meter the fabric time at each 1 ms tick. -/
  | keeperTimeTick
  /-- EXPORT_RECORD_DUE (R476): A die sends an accumulated counter record over its export link no later than 1 ms after an increment. -/
  | exportRecordDue (die : Nat)
  /-- METER_EXPORT_RECORD (R476): A counter record reaches the meter and is added to its account. -/
  | meterExportRecord (die : Nat)
  /-- CENSUS_COPY_RX (R478): A forme census copy reaches the meter and is accepted once a majority of copies agree. -/
  | censusCopyRx (chase : Nat) (die : Nat) (copy : Option Census)
  /-- CENSUS_TIMEOUT (R478): No census reaches a majority within 10 ms, so CENSUSDIFF is set and the previous census is kept. -/
  | censusTimeout (chase : Nat)
  /-- COLOPHON_BOUNDARY (R480): An INTERVAL boundary freezes the main bank and the meter assembles, signs and writes a colophon. -/
  | colophonBoundary
  /-- COLOPHON_COMMIT_DONE (R480): The colophon is written and the shadow bank is folded in, ending the commit. -/
  | colophonCommitDone (retried : Bool)
  /-- SENSE_LINE_FAULT (R475): A domain's sense line fails, so it is marked SFAULT and SENSEFLT is sent. -/
  | senseLineFault (pwd : Nat)
  /-- METER_SUPPLY_FAIL (R488): The meter detects supply failure and writes a POWERFAIL colophon. -/
  | meterSupplyFail (held : Bool)
  /-- METER_POWER_RETURN (R488): Power returns to the meter, which resumes from its committed counters. -/
  | meterPowerReturn
  /-- GET_VERSION (R448): An SPDM GET_VERSION is answered. -/
  | getVersion (tr : Transport) (peer : Nat) (has13 : Bool)
  /-- GET_CAPABILITIES (R448): An SPDM GET_CAPABILITIES is answered. -/
  | getCapabilities (tr : Transport) (peer : Nat)
  /-- NEGOTIATE_ALGORITHMS (R448): An SPDM NEGOTIATE_ALGORITHMS is answered. -/
  | negotiateAlgorithms (tr : Transport) (peer : Nat) (common : Bool)
  /-- GET_DIGESTS (R446): An SPDM GET_DIGESTS reports both certificate slots. -/
  | getDigests (tr : Transport) (peer : Nat)
  /-- GET_CERTIFICATE (R446): An SPDM GET_CERTIFICATE returns the active keeper's chain. -/
  | getCertificate (tr : Transport) (peer : Nat) (slot : Nat) (offset : Nat) (length : Nat)
  /-- CHALLENGE (R448): An SPDM CHALLENGE is answered with a signature. -/
  | challenge (tr : Transport) (peer : Nat) (slot : Nat) (nonce : Nat)
  /-- GET_MEASUREMENTS (R469): An SPDM GET_MEASUREMENTS returns the signed measurement blocks. -/
  | getMeasurements (tr : Transport) (peer : Nat) (index : Nat) (nonce : Nat)
  /-- KEY_EXCHANGE (R448): An SPDM KEY_EXCHANGE opens a session, or ends with Busy at 64 sessions. -/
  | keyExchange (tr : Transport) (peer : Nat) (slot : Nat) (both : Bool)
  /-- KEEPER_BOOT (R447): After reset, the keeper ROM verifies and loads BL1 and later images, falling back to the other slot or staying in ROM. -/
  | keeperBoot (keeper : Nat) (selOk : Bool) (altOk : Bool) (ready : Bool)
  /-- BOOT_READY_TIMEOUT (R588): Keeper firmware does not report ready within 2 s, so the keeper starts from the other slot and sets ALTBOOT. -/
  | bootReadyTimeout (keeper : Nat) (altOk : Bool)
  /-- IPV6_NEIGHBOUR_DISCOVERY (R541): An IPv6 neighbour discovery message is answered on management Ethernet. -/
  | ipv6NeighbourDiscovery (keeper : Nat) (target : Nat)
  /-- ICMPV6_ECHO (R541): An ICMPv6 echo request is answered. -/
  | icmpv6Echo (keeper : Nat) (dst : Nat) (data : List Byte)
  /-- PLDM_REQUEST (R562): A PLDM type 2 request over I3C returns sensor readings. -/
  | pldmRequest (keeper : Nat) (sensor : Nat)
  /-- PLDM_SENSOR_UPDATE (R562): Every 100 ms the keeper updates its PLDM sensors. -/
  | pldmSensorUpdate (keeper : Nat) (temps : List Nat) (powers : List Nat) (pkg : Nat)
  /-- STANDBY_FW_READY (R565): The standby restarted from the new slot reports ready, so the activation reply is sent. -/
  | standbyFwReady (ok : Bool)
  /-- LEASE_HANDOVER_TIMER (R565): 10 ms after the activation reply, the active keeper gives up its lease. -/
  | leaseHandoverTimer
  /-- RESET_BEGIN (R582): 10 ms after the reply to RESET_WARM or RESET_COLD, the reset begins. -/
  | resetBegin
  /-- THERMAL_TRIP (R575): A domain's hardware trip cuts it, the die is held lost and THERMTRIP is sent. -/
  | thermalTrip (pwd : Nat)
  /-- THERMSHUT_ASSERT (R576): THERMSHUT_N is asserted, so the package shuts down. -/
  | thermshutAssert
  /-- COLD_RESET_ASSERT (R580): Power-on or PORST_N low starts a cold reset. -/
  | coldResetAssert (power : Bool)
  /-- COLD_RESET_RELEASE (R590): PORST_N is released, so the keepers boot and domain sequencing begins. -/
  | coldResetRelease
  /-- WARM_RESET_INPUT (R585): A WRST_N falling edge starts a warm reset that keeps trickle ports and kept fields. -/
  | warmResetInput
  /-- DOMAIN_SEQUENCE_STEP (R590): The keeper switches on the next domains in order, at most four per ms, after each parent's first valid window. -/
  | domainSequenceStep
  /-- PG_RISE (R606): A domain's PG_PWD land rises, and the domain is on. -/
  | pgRise (pwd : Nat)
  /-- PG_TIMEOUT (R607): PG is not asserted within 10 ms of EN, so the domain fails and its die is held lost. -/
  | pgTimeout (pwd : Nat)
  /-- PG_FALL (R607): PG falls while its domain is on, so the die is held lost. -/
  | pgFall (pwd : Nat)
  /-- SELFTEST_COMPLETE (R591): A die's self-test ends; it joins with its tables and keys written, or it is held lost. -/
  | selftestComplete (die : Nat) (unit : Nat) (sorts : List Nat) (grans : List Nat)
  /-- AUTO_SERVICE (R592): With AUTOSVC saved, the keeper sets SERVICE once self-tests end and enabled ports settle. -/
  | autoService
  /-- AUTOSVC_TIMEOUT (R592): 1 s passes waiting for enabled ports, so AUTOSVC proceeds. -/
  | autosvcTimeout
  /-- REFCLK_LOSS (R608): A die counts ten missing reference cycles and holds its reference lost. -/
  | refclkLoss (die : Nat)
  /-- DELIVERY_TIMEOUT (R335): A delivery the device sent (REDUCE_RESULT, DISPATCH or COMBINE delivery) still has no RESP at CTO of its first issue, so its receiver is counted missed and the operation ends as its chapter states. -/
  | deliveryTimeout (tag : Nat)
  /-- STANDBY_KEEPER_LOSS (R516): The standby keeper suffers a fatal error (such as uncorrectable keeper memory) and goes out of service until a die reset, so a takeover or MODE 1 activation is no longer possible. -/
  | standbyKeeperLoss
  /-- RESERVED_CTYPE_FLIT (R96): A control flit with a good CRC and a reserved CTYPE arrives and is ignored and counted in PROTOERR. -/
  | reservedCtypeFlit (port : Nat) (h : FlitHdr) (ctype : Nat)
  /-- PERST_HOLD_END (R583): 100 ms after a port reset asserted a tray link's PERST#, the device releases it and retrains the link. -/
  | perstHoldEnd (link : Nat)
  /-- RESET_PORT_REPLY_TIMEOUT (R583): 500 ms after a port reset began without the port reaching UP, NOTTFP or FAULT, the RESET_PORT reply is sent. -/
  | resetPortReplyTimeout (port : Nat)
  /-- PTP_ANNOUNCE_INTERVAL (R199): At each announce interval a PTP master port originates an Announce message. -/
  | ptpAnnounceInterval (port : Nat)
  /-- TAP_INSTRUCTION (R601): A JTAG instruction is loaded into the keepers' TAP, and EXTEST, EXTEST_PULSE, EXTEST_TRAIN, CLAMP and HIGHZ take effect only in BOOTING or PROOF with no chase bound, else act as BYPASS. -/
  | tapInstruction (instr : Nat)
  deriving DecidableEq, Repr

end Sys2Proof
end

