-- ==== Sys2Proof/Config.lean ====
section
/-! DEFINITION. What the spec leaves to the implementation or does not state: constants without a body, so that no proof can
see what they are. Each is named in a log entry under notes/assumptions/. -/

namespace Sys2Proof

/-- A free value drawn by a step: applied to the model's counter of draws (log 1). -/
opaque Config.freeNat : Nat → Nat

/-- The stream hash of R131 over (SRC, DST, CHASE, TC): the spec gives its inputs and not the function (log 2). -/
opaque Config.streamHash : Nat → Nat → Nat → Nat → Nat

/-- The 16-bit or longer draw of a port die's early-drop generator, scaled to [0, 2^32): "a 32-bit sequence private to each
port die" whose selection "is not reproducible" (R158; log 3). -/
opaque Config.redDraw : Nat → Nat → Nat

/-- HASH of R53 over (reduction identifier, chunk index, core number) (log 4). -/
opaque Config.placeHash : Nat → Nat → Nat → Nat

/-- The hash of (SRC, TAG) that names a lead core or the core of a request: the spec gives its inputs only (R356, R371, R377; log 32). -/
opaque Config.leadHash : Nat → Nat → Nat

/-- The parameters of a station from its type and its parameter words: their layout is the plate toolkit's (R386; log 36). -/
opaque Config.stationParam : Nat → List Nat → SParam

/-- AES-256-GCM of R108: ciphertext and tag of a payload under (key, salt, extended sequence number, header) (log 5). -/
opaque Config.gcmSeal : Nat → Nat → Nat → Nat → List Byte → List Byte × List Byte

/-- The opening of the same: the plaintext, or `none` when the tag fails (R108; log 5). -/
opaque Config.gcmOpen : Nat → Nat → Nat → Nat → List Byte → List Byte → Option (List Byte)

/-- AES-256-XTS of R455 over one 64-byte granule: (key, tweak, plaintext) to ciphertext, and back (log 21). -/
opaque Config.xtsSeal (key tweak : Nat) (b : List Byte) : List Byte
opaque Config.xtsOpen (key tweak : Nat) (b : List Byte) : List Byte

/-- The device's own clockIdentity in Announce messages (IEEE 1588; log 16). -/
opaque Config.clockIdentity : Nat

/-- SHA-384, as a number (R470, R479, R485; log 37). -/
opaque Config.sha384 : List Byte → Nat

/-- An ECDSA P-384 signature under a key of the device, r then s; the draw is its nonce (R471, R480; log 37). -/
opaque Config.ecdsa : Nat → Nat → List Byte → Nat

/-- SPDM's HKDF-Expand under the label of R454: (label, session secret) (log 37). -/
opaque Config.hkdf : Nat → Nat → Nat

/-- The 48-bit LOC that names a port-die table and its index (R501; log 38). -/
opaque Config.tableLoc : Nat → Nat → Nat

/-- Part numbers, serial number and factory addresses the keeper reports (R1, R541; log 39). -/
opaque Config.ident : Nat → Nat

/-- The certificate chain of a keeper's slot, as a function of the firmware its Alias key is derived from (R445, R446; log 37). -/
opaque Config.cert (slot ver : Nat) : List Byte

/-- The digests of measurements 1 to 5 for a running firmware version (R469; log 37). -/
opaque Config.measure (index ver : Nat) : Nat

/-- The MAC-derived link-local address of a keeper (R541; log 39). -/
opaque Config.linkLocal (keeper : Nat) : Nat

/-- ENGIDLE of a press die at a clock: handshakes of its engines with no busy plate, in thousands (R400; log 41). -/
opaque Config.engIdle (die clk : Nat) : Nat

end Sys2Proof
end

