-- ==== Sys2Proof/Machine/StateComp.lean ====
section
/-! DEFINITION. The state of compositions, chases and formes (Compositions, Chases and Imposition). -/

namespace Sys2Proof.Machine
open Sys2Proof

/-- A membership entry of a port die (R42): a member endpoint, or a trunk entry of a port (R121). -/
structure MemberEnt where
  die   : Nat := 0
  port  : Nat := 0
  chase : Nat := 0
  trunk : Bool := false
  eid   : Nat := 0
  party : Nat := 0
  bad   : Bool := false      -- uncorrectable (R501)
  deriving DecidableEq, Repr

/-- A folio entry (R50): the fields of IMP_FOLIO. -/
structure Folio where
  kind   : Nat := 0
  rclass : Nat := 0
  mig    : Bool := false
  gcache : Bool := false
  party  : Nat := 0
  target : Nat := 0
  frame  : Nat := 0
  mtarget : Nat := 0
  mframe : Nat := 0
  mkind  : Nat := 0
  cstack : Nat := 0
  use    : Nat := 0          -- use of its region (R40), kept by the keeper
  frozen : Bool := false     -- its region is frozen (R210)
  deriving DecidableEq, Repr

/-- The IMP_FOLIO word of an entry (R50). -/
def Folio.word (f : Folio) : Nat :=
  1 <<< 127 + f.kind <<< 124 + f.rclass <<< 122 + b2n f.mig <<< 121 + b2n f.gcache <<< 120 + f.party <<< 114
    + f.target <<< 94 + f.frame <<< 63 + f.mtarget <<< 43 + f.mframe <<< 12 + f.mkind <<< 9 + f.cstack <<< 6

/-- A chunk-map entry (IMP_CHUNK). -/
structure ChunkEnt where
  rid   : Nat := 0
  chunk : Nat := 0
  core  : Nat := 0
  alt   : Option Nat := none
  onAlt : Bool := false
  deriving DecidableEq, Repr

/-- A shard-map entry (IMP_SHARD). -/
structure ShardEnt where
  table : Nat := 0
  first : Nat := 0
  core  : Nat := 0
  deriving DecidableEq, Repr

/-- An expert-map entry (IMP_EXPERT). -/
structure ExpertEnt where
  moe   : Nat := 0
  expert : Nat := 0
  ovf   : Nat := 0
  eid   : Nat := 0
  core  : Nat := 0
  fbexp : Nat := 0xFFF
  cap   : Nat := 0
  deriving DecidableEq, Repr

/-- A forme (R48): the placement of one composition at one epoch. -/
structure Forme where
  folios  : Tbl Folio := []       -- key: folio number, PVA ÷ 2 MiB
  chunks  : List ChunkEnt := []
  shards  : List ShardEnt := []
  experts : List ExpertEnt := []
  cores   : List Nat := []
  marks   : List Nat := []
  req     : CompReq := {}
  allow   : Nat := 0              -- galley allowance in bytes (R44)
  windowB : Nat := 0              -- window bytes after R46
  depth   : Nat := 0
  shadowB : Nat := 0
  dropped : List Nat := []        -- layers whose shadow R46 dropped
  deriving DecidableEq, Repr

/-- A forme staged for a chase, with its admission (R65). -/
structure Staged where
  forme : Forme := {}
  adm   : Status := .ok
  short : Nat := 0                -- resource code and shortfall of a NOFIT
  shortN : Nat := 0
  epochs : Nat := 1               -- 2: the second commit of a writable move follows (R72)
  byImposer : Bool := false       -- staged under REBAL (R547)
  changed : Nat := 0
  ents    : List MemberEnt := []       -- the membership entries of the staged forme
  moving  : List Nat := []             -- frozen folios whose copy is still being made (R71)
  recore  : List (Nat × Nat) := []     -- work of a core that leaves the set: (old core, new core)
  deriving DecidableEq, Repr

/-- Where a commit stands (R67). -/
inductive CommitPh where
  | idle | press | ports | closing
  deriving DecidableEq, Repr

/-- A composition bound to a chase (R40–R73). -/
structure Comp where
  bound    : Bool := false
  cowner   : Nat := 0
  cur      : Nat := 0
  drn      : Nat := 0
  drnLive  : Bool := false
  drnClosed : Bool := false
  strag    : Bool := false
  inflight : Nat := 0             -- DRN_INFLIGHT at the last poll
  curF     : Forme := {}
  drnF     : Option Forme := none
  staged   : Option Staged := none
  count    : Tbl Nat := []        -- key 16 × die + epoch: admitted operations not yet complete (R58)
  phase    : CommitPh := .idle
  late     : List Nat := []       -- dies that have not applied the running commit's update
  lateClose : List Nat := []      -- dies that have not applied the close
  lateRel  : List Nat := []       -- dies that have not applied the release
  drnBound : Nat := 50            -- DRAINBOUND and DRAINHOLD the drain began with (R64)
  drnHold  : Nat := 10
  destroying : Bool := false      -- COMP_DESTROY accepted (R73)
  curDead  : Bool := false        -- the current epoch was released under a destroy
  suspended : Bool := false       -- membership suspended by a chase reset (R581)
  migs     : List (Nat × Nat) := []  -- folios being copied: (folio, lines copied)
  dstBound : Nat := 50            -- DRAINBOUND in force when COMP_DESTROY was accepted (R73)
  pendEnts : List MemberEnt := []  -- membership entries of the running commit, for the port dies that have not applied it
  selfRun  : Bool := false        -- the running commit is the Imposer's own (R56, R72)
  changed  : Nat := 0             -- folio entries the last commit changed
  deriving DecidableEq, Repr

/-- A fast-path cache entry (R51): (die, chase, epoch, kind, key). Kind 0 folio, 1 chunk, 2 shard or expert. -/
structure FastEnt where
  die   : Nat
  chase : Nat
  epoch : Nat
  kind  : Nat
  key   : Nat
  deriving DecidableEq, Repr

structure Imp where
  comps   : Tbl Comp := []           -- key: chase
  members : List MemberEnt := []
  fast    : List FastEnt := []
  waitFill : List (Rx × FastEnt) := []   -- requests waiting for a forme-store read (R51)
  badEnt  : List (Nat × Nat × Nat) := [] -- (chase, part, key) bad in both forme-store copies (R502)
  freeFr  : List (Nat × Nat × Nat) := [] -- frames returned: (kind, target, frame)
  nextFr  : Tbl Nat := []            -- next never-used frame: key 2^20 × kind + target
  vacated : List (Nat × Nat × Nat) := [] -- frames (kind, target, frame) awaiting a fence (R63)
  trayKeys : List (Nat × Nat) := []  -- keys delivered to TFP tray controllers: (EID, key place) (R457)
  attested : List Nat := []          -- TFP trays whose controller passed attestation (R457)
  census  : Tbl Census := []         -- what the last commit of each chase wrote to the port dies (R478)
  cap     : Tbl Nat := []            -- capacity accepted for the Imposer, in bytes: key 2^20 × kind + target (R207)
  deriving DecidableEq, Repr

end Sys2Proof.Machine
end

