-- ==== Sys2Proof/Machine/StateCore.lean ====
section
/-! DEFINITION. The state of the transaction layer, the switch core, scheduling and fabric time
(Twioltan Fabric Protocol Transactions; Switch Core; Scheduling, Shaping and Fabric Time). -/

namespace Sys2Proof.Machine
open Sys2Proof

/-! ### Transactions -/

/-- A request admitted and tracked by its ingress port die until its RESP is sent (R138). -/
structure Outst where
  id    : Nat := 0
  die   : Nat := 0
  port  : Nat := 0
  pkt   : Pkt := {}          -- first packet of the request
  home  : Home := .ingress 0
  left  : Nat := 0           -- parts still open
  fail  : List (Nat × Status) := []   -- failed parts (R130)
  pois  : List Nat := []     -- parts returned poisoned
  data  : List Byte := []    -- bytes gathered for the RESP
  counted : Bool := true     -- counted under its epoch (R58)
  absorbed : Option Nat := none  -- the request whose execution this reissue was absorbed into (R135)
  answered : Bool := false   -- its ingress has answered it; its home still works on it (R138)
  via   : Option Nat := none -- egress port it left through (R134)
  cn    : Bool := false      -- CN of the last packet of its train (R125)
  op    : List Nat := []     -- numbers the operation's own chapter keeps with it
  deriving DecidableEq, Repr

/-- An entry of a duplicate filter (R135). -/
structure FilterEnt where
  home : Home
  src  : Nat
  chase : Nat
  tag  : Nat
  opc  : Nat
  w2   : W64
  w3   : W64
  own  : Nat := 0            -- outstanding id of the request that made or replaced the entry
  done : Bool := false
  resp : Option Pkt := none
  deriving DecidableEq, Repr

/-- A train under assembly at its home (R117). -/
structure Train where
  die   : Nat := 0
  port  : Nat := 0
  resp  : Bool := false      -- a response train
  first : Pkt := {}
  next  : Nat := 1
  pkts  : List Pkt := []
  dead  : Bool := false      -- given up at its core: its further packets are discarded (R396)
  deriving DecidableEq, Repr

/-- A FENCE waiting on earlier requests (R132). -/
structure FenceWait where
  id    : Nat := 0           -- its own outstanding id
  waits : List Nat := []     -- ids of the requests it covers
  deriving DecidableEq, Repr

/-- A delivery the device has sent and whose RESP it awaits (R142, R335). -/
inductive DlvKind where
  | redResult (chase rid round chunk rank : Nat)
  | carryUp (chase rid round chunk : Nat)
  | dispatch (chase moe step expert : Nat)
  | combine (chase moe step origin : Nat)
  | barrierUp (mark : Nat)
  | coh                                       -- a coherence message (R270)
  | notice (chase region group : Nat)
  | trayPart (job cid : Nat)                  -- an access to a TFP tray or remote switch
  deriving DecidableEq, Repr

structure Delivery where
  tag    : Nat := 0
  kind   : DlvKind
  pkts   : List Pkt := []
  port   : Nat := 0
  issues : Nat := 1
  die    : Nat := 0
  failed : Bool := false     -- the fourth reissue failed too (R133, R335)
  deriving DecidableEq, Repr

structure Tfp where
  eid     : Nat := 0               -- switch EID (R119)
  nextId  : Nat := 1
  nextTag : Nat := 0
  outst   : List Outst := []
  filters : List FilterEnt := []
  trains  : List Train := []
  fences  : List FenceWait := []
  dlv     : List Delivery := []
  hdrNotice : Tbl Nat := []        -- per port: clock of the last TFPHDR notice (R126)
  deriving DecidableEq, Repr

/-! ### Switch core -/

/-- A packet in a queue of the switch core. -/
structure QPkt where
  pkt   : Pkt := {}
  port  : Nat := 0          -- egress port
  vl    : Nat := 0          -- lane it leaves on
  die   : Nat := 0          -- die whose sorts hold it
  inp   : Option (Nat × Nat) := none  -- arrival (port, lane) charged for its sorts
  lossy : Bool := false
  req   : Option Nat := none -- outstanding request it carries for its ingress
  dlvTag : Option Nat := none
  mc    : Option (Nat × Nat) := none  -- (multicast, member) it delivers
  prom  : Bool := false
  born  : Nat := 0          -- clock when it became head-eligible
  aged  : Bool := false     -- received on VLU: age set to AGETHR (R197)
  uid   : Nat := 0          -- the model's own number of the packet
  got   : Nat := 0          -- in an egress queue: sorts released to it so far
  sent  : Nat := 0          -- in an egress queue: bytes handed to the link
  deriving DecidableEq, Repr

/-- A sort on its way across the planes (R161–R163). -/
structure Flight where
  src   : Nat := 0
  dst   : Nat := 0
  pseq  : Nat := 0
  idx   : Nat := 0          -- which sort of its packet
  q     : QPkt := {}
  good  : List Nat := []    -- good slices present
  rebuilt : Bool := false   -- rebuilt at the destination: RACK sent
  rnak  : Bool := false     -- RNAK sent for the present try
  acked : Bool := false     -- RACK received by the source: the sort is freed there
  fails : Nat := 0
  void  : Bool := false     -- void marker sent (R163)
  voided : Bool := false    -- void marker received
  out   : Bool := false     -- released by the resequencer, or skipped (R167)
  lost  : Bool := false     -- a sort of the same packet was voided or skipped, or its port left UP
  deriving DecidableEq, Repr

/-- What the member dies and the replication point know of a multicast member in the running round (R172). -/
inductive McOut where
  | waiting | delivered | missed      -- at the member's die, not yet reported
  | gotIt | missing                   -- reported to the replication point
  | idle                              -- not named in this round: delivered in an earlier one
  deriving DecidableEq, Repr

/-- A multicast at its replication point (R171–R173). -/
structure McRun where
  id      : Nat := 0           -- outstanding id of the MCAST
  die     : Nat := 0
  pkt     : Pkt := {}
  members : List (Nat × Nat) := []    -- group order: (egress port, EID), as admitted (R171)
  outs    : List McOut := []
  left    : Nat := 0           -- retry rounds left, from the MCRETRY it was admitted under (R174)
  slot    : Option Nat := none -- the stack whose device reserve gives it a retry slot
  inp     : Option (Nat × Nat) := none  -- the lane its sorts are charged to, while it holds them
  lossless : Bool := true
  px      : Nat := 0           -- of an invalidation notice: its press die (R286)
  resting : Bool := false      -- a round has ended and the next waits for MCRINT
  deriving DecidableEq, Repr

/-- A route: a block or exact-match entry naming a next-hop set (R149). -/
structure NhSet where
  slots   : List (Option Nat) := []   -- 16 slots holding port numbers
  members : List Nat := []
  alt     : Option Nat := none
  bad     : List Nat := []            -- members whose slot entry failed on a die (R501): 1024 × die + port
  deriving DecidableEq, Repr

structure Core where
  routeB  : Tbl Nat := []            -- block table: block → next-hop set
  routeX  : Tbl (Nat × Nat) := []    -- exact-match table: index → (EID, set)
  badB    : List Nat := []           -- entries uncorrectable until rewritten (R501): 65536 × die + index
  badX    : List Nat := []
  nhs     : Tbl NhSet := []
  voq     : Tbl (List QPkt) := []    -- key 32768 × die + 8 × port + TC (R151)
  egq     : Tbl (List QPkt) := []    -- egress queues, one per port and class (R167): key 8 × port + TC
  xRun    : Tbl (QPkt × Nat) := []   -- a packet whose sorts are being sent: key 24 × src + dst → (packet, next sort)
  owed    : Tbl Nat := []            -- sorts a destination freed and the source has not regained: key 1024 × src + port
  nextQ   : Nat := 1                 -- the model's own packet numbers
  flights : List Flight := []
  pseqTx  : Tbl Nat := []            -- key 24 × src + dst: next PSEQ
  pseqRx  : Tbl Nat := []            -- expected PSEQ of the resequencer
  egCred  : Tbl Nat := []            -- sorts a source has outstanding toward one egress port: key 1024 × src + port
  xCred   : Tbl Nat := []            -- crossbar credits in use: key 24 × src + dst (of 1,024)
  gated   : List Nat := []           -- egress ports gated (R165), as raised by their die
  gateSeen : List (Nat × Nat) := []  -- (die, port): gates as seen by each source die
  classPtr : Tbl Nat := []           -- crossbar scheduler's class pointer per die
  classDef : Tbl Nat := []           -- its deficits: key 8 × die + TC
  rrPtr   : Tbl Nat := []            -- its round robin pointer: key 8 × die + TC → port
  planeOff : List Nat := []          -- planes taken out of use (R164)
  planeErr : Tbl Nat := []           -- errors of each plane in the running window
  hell    : Tbl (Bool × Nat × Nat) := []   -- key 98304 × die + sort: (bad, last chase, arrival port)
  leakOnce : List (Nat × Nat) := []  -- (die, sort) neither free nor referenced at the last audit
  auditRun : List Nat := []
  qcharge : Tbl Nat := []            -- sorts held per VOQ (same key)
  mc      : List McRun := []
  mcMem   : Tbl (List (Nat × Nat)) := []   -- members of each group in group order: (egress port, EID) (R170)
  badGroups : List Nat := []         -- groups uncorrectable until rewritten (R501): 65536 × die + group
  stallNoted : List (Nat × Nat) := []  -- (port, lane) whose stall was notified (R525)
  deriving DecidableEq, Repr

/-! ### Scheduling -/

/-- A gate list (R190): entries (MASK, DUR) and a start time. -/
structure GateList where
  ents  : List (Nat × Nat) := []
  start : Nat := 0
  deriving DecidableEq, Repr

/-- Buckets of a shaper or policer, with the register words in force (R186). -/
structure Bucket where
  word : Nat := 0          -- the register word in force
  tc   : Nat := 0          -- tokens (shaper, or committed bucket)
  tp   : Nat := 0          -- peak bucket
  deriving DecidableEq, Repr

structure Sched where
  vlu     : Tbl Nat := []           -- VLU bucket per port (absent: 64)
  vlm     : Tbl Nat := []
  vluFl   : Tbl Nat := []           -- flit times since the last VLU token
  vlmFl   : Tbl Nat := []
  deficit : Tbl Nat := []           -- key 8 × port + TC
  visit   : Tbl Nat := []           -- class being visited
  shaper  : Tbl Bucket := []        -- key 8 × port + TC
  policer : Tbl Bucket := []
  refint  : Tbl Nat := []           -- REFINT in force per port
  oper    : Tbl GateList := []
  pend    : Tbl GateList := []
  entry   : Tbl (Nat × Nat) := []   -- per port: operational entry index, fabric time in ns at which it ends
  stuck   : List (Nat × Nat) := []  -- (port, TC) whose head is counted in GUARDSTUCK
  held    : List (Nat × Nat) := []  -- (port, TC) whose head is counted in GUARDHOLD
  deriving DecidableEq, Repr

/-! ### Fabric time -/

inductive TimeSt where
  | freerun | locking | locked | holdover
  deriving DecidableEq, Repr

def TimeSt.code : TimeSt → Nat
  | .freerun => 0 | .locking => 1 | .locked => 2 | .holdover => 3

/-- PTP data of one port (R199, R200). -/
structure PtpPort where
  seqSync : Nat := 0
  seqPd   : Nat := 0
  seqAnn  : Nat := 0
  syncRx  : Option (Nat × Nat) := none      -- (sequence, receive timestamp) of a two-step Sync awaiting Follow_Up
  pdTx    : Option (Nat × Nat) := none      -- (sequence, t1)
  pdRx    : Option (Nat × Nat × Nat) := none -- (sequence, t2, t4) awaiting Pdelay_Resp_Follow_Up
  syncCorr : Int := 0
  pdCorr  : Int := 0
  delay   : Option Nat := none              -- mean link delay in ns
  best    : Option (Nat × Nat × Nat × Nat × Nat) := none -- best Announce heard: priority1, class, priority2, identity, steps
  state   : Nat := 1                        -- 0 DISABLED 1 MASTER 2 SLAVE 3 PASSIVE
  deriving DecidableEq, Repr

structure Time where
  frac    : Nat := 0            -- fabric time in units of 2^-32 ns
  rate    : Int := 0            -- rate word: parts per billion added to 6.4 ns per reference cycle (R198)
  st      : TimeSt := .freerun
  ppsOk   : Bool := false
  tenOk   : Bool := false
  stepReq : Bool := false
  offset  : Int := 0
  locked1 : Bool := false       -- LOCKED was reached since the last cold or warm reset (R201)
  tod     : Option Nat := none  -- time of day awaiting the next PPS edge (R203)
  ports   : Tbl PtpPort := []
  slave   : Option Nat := none  -- port the device is slaved to
  deriving DecidableEq, Repr

end Sys2Proof.Machine
end

