-- ==== Sys2Proof/Machine/StateLink.lean ====
section
/-! DEFINITION. The state of ports and links (Ports, Lanes and the Link Layer; R453): one record per port, one per tray link. -/

namespace Sys2Proof.Machine
open Sys2Proof

/-- The procedures of which one runs on a link at a time (R97). -/
inductive Proc where
  | spare | narrow | key | trickle | wake
  deriving DecidableEq, Repr

/-- A running procedure: which, whether this end asked, and its operands (R106, R107, R110). -/
structure ProcRun where
  kind : Proc
  mine : Bool := true
  a    : Nat := 0
  b    : Nat := 0
  deriving DecidableEq, Repr

/-- One key slot: a transmit key, a receive key, a salt for each direction (R109), and whether it was derived (R454). -/
structure KeySlot where
  txKey  : Nat := 0
  rxKey  : Nat := 0
  txSalt : Nat := 0
  rxSalt : Nat := 0
  derived : Bool := false
  deriving DecidableEq, Repr

/-- A packet under assembly on a lane (R91, R147): the bytes of it received so far. -/
structure Assembly where
  bytes : List Byte := []
  framed : Bool := true      -- the packet begun started at offset 0 of its flit, alone (R144)
  dead  : Bool := false   -- a flit that carried part of it was discarded: the rest is discarded too (R89)
  deriving DecidableEq, Repr

/-- A TFP port (R92–R114). -/
structure Link where
  st       : LinkSt := .down
  width    : Nat := 0          -- PT_LINK_STAT.WIDTH
  rate     : Nat := 0          -- PT_LINK_STAT.RATE
  spared   : Bool := false
  splane   : Nat := 0
  narrowed : Bool := false
  encact   : Bool := false
  kslot    : Bool := false
  lastdown : Nat := 0
  caps     : Nat := 0          -- PT_LINK_PEER.CAPS
  ptype    : Nat := 0
  peer     : Nat := 0          -- partner EID
  hello    : Bool := false     -- a valid HELLO was received in this bring-up
  fecLock  : Bool := false
  crSent   : Bool := false     -- CREDIT_INIT sent
  crGot    : Bool := false     -- CREDIT_INIT received
  credits  : Tbl Nat := []     -- credits the partner granted, per lane code
  charge   : Tbl Nat := []     -- sorts charged to (port, lane) plus credits outstanding at the partner (R152)
  held     : Tbl Nat := []     -- of that charge, the sorts held
  ret      : Tbl Nat := []     -- credits returnable and not yet sent, per lane (R154)
  txSeq    : Nat := 0          -- FSEQ of the next new sequenced flit
  rxExp    : Nat := 0          -- expected FSEQ
  ackGot   : Nat := 4095       -- last ACKSEQ received: FSEQ of the last flit the partner took
  nakPend  : Bool := false
  replay   : List Flit := []   -- flits sent and not covered by ACKSEQ, oldest first (R98)
  tries    : Tbl Nat := []     -- replays of each FSEQ (R100)
  sinceAck : Nat := 0          -- good sequenced flits received since a flit carrying ACKSEQ was sent (R99)
  asm      : Tbl Assembly := []
  proc     : Option ProcRun := none
  keySusp  : Option ProcRun := none   -- a key switch pre-empted by a swap (R97)
  slot0    : Option KeySlot := none
  slot1    : Option KeySlot := none
  oldRx    : Option (Bool × Nat) := none  -- old receive slot, and the first FSEQ under the new key (R110)
  newTx    : Option (Bool × Nat) := none  -- new transmit slot announced, and its first FSEQ
  rxSlot   : Bool := false
  keyFlits : Nat := 0          -- sequenced flits sent under the transmit key (R110)
  txExt    : Nat := 0          -- extended sequence number of the next sequenced flit sent (R108)
  rxExt    : Nat := 0          -- extended sequence number of the next sequenced flit expected
  ctlQ     : List Ctl := []    -- control flits owed while the replay buffer is full (R98, R180)
  failed   : List Nat := []    -- failed lanes of the port (lane in the octet)
  laneCorr : Tbl Nat := []     -- corrected symbols per lane in the running 1 ms window (R104)
  spareBad : List Nat := []    -- spare lanes marked unusable (R105)
  spareOk  : List Nat := []    -- spare lanes whose spare-lane HELLO names the partner (R105)
  spareUse : List (Nat × Nat) := []   -- (failed lane, spare lane) swapped in
  half     : Nat := 0          -- half kept by narrowing: 0 low, 1 high (R107)
  wakeMine : Bool := false     -- this end's lanes passed the training check (R112)
  wakePeer : Bool := false     -- WAKE_READY received
  wakeSlow : Bool := false     -- a lane runs full training (R113)
  eqStored : Bool := false     -- equaliser settings stored (R112, R583)
  psn      : Bool := false     -- sequenced traffic pauses for a switch of lanes
  deriving DecidableEq, Repr

/-- The state of a CXL tray link (R81–R86, R583). -/
structure TrayLink where
  trained  : Bool := false
  fullRate : Bool := false     -- 64 GT/s at the configured width: CXL.mem enabled (R83)
  rateGot  : Nat := 0
  widthGot : Nat := 0
  perst    : Bool := false     -- PERST# asserted (R583)
  offered  : Nat := 0          -- dynamic capacity offered, in bytes (R86)
  deriving DecidableEq, Repr

end Sys2Proof.Machine
end

