-- ==== Sys2Proof/Machine/StateMark.lean ====
section
/-! DEFINITION. The state of marks: one record per mark, the operations held on marks, the checked-barrier bitmaps
(Marks: Counters, Barriers, Quoins and Sequencers). -/

namespace Sys2Proof.Machine
open Sys2Proof

/-- A mark (MK_MARK, MK_LINK, R420). `type`: 0 unset, 1 COUNTER, 2 BARRIER, 3 QUOIN, 4 SEQUENCER. -/
structure Mark where
  type  : Nat := 0
  chase : Nat := 0
  plock : Bool := false
  party : Nat := 0
  flags : Nat := 0
  wtgt  : Nat := 0
  wkind : Nat := 0
  word  : Nat := 0               -- the type word
  link  : Nat := 0               -- MK_LINK
  bitmap : Option Nat := none    -- which declared checked-barrier bitmap of its chase it uses (R439)
  upMop : Nat := 0               -- the operation sent to its parent (R432)
  saved : Option (Nat × Bool × Nat × Nat × Nat) := none  -- values of its last MARK_SET: TYPE, PLOCK, PARTY, type word, MK_LINK (R580)
  deriving DecidableEq, Repr

/-- An operation held on a mark: its wait record (R423). -/
structure MWait where
  mark : Nat := 0
  id   : Nat := 0                -- the request, as its ingress tracks it
  mop  : Nat := 0
  arg  : Nat := 0                -- threshold, round, ticket, or incarnation
  src  : Nat := 0
  deriving DecidableEq, Repr

structure Marks where
  tbl   : Tbl Mark := []
  waits : List MWait := []                  -- in the order their records were made
  place : Tbl (Nat × Nat) := []             -- where a declared bitmap lies: key 2^16 × chase + which → (stack, first line)
  open_ : Option (Nat × Nat × Nat) := none  -- frame bitmaps are taken from: (stack, frame, next line)
  spare : List (Nat × Nat × Nat) := []      -- places returned: (lines, stack, first line)
  deriving DecidableEq, Repr

end Sys2Proof.Machine
end

