-- ==== Sys2Proof/Machine/StateMeter.lean ====
section
/-! DEFINITION. The state of the meter and of the snapshot (The Chechahus Meter; Guarantees at Scale). -/

namespace Sys2Proof.Machine
open Sys2Proof

/-! ### The meter (R472–R489) -/

/-- The quantities of an account (R473). `galley` is kept in lines × ms and `pool` in folios × ms, so that nothing is rounded before it
is reported. -/
structure Quant where
  galley : Nat := 0
  pool   : Nat := 0
  bin    : Nat := 0
  bout   : Nat := 0
  elem   : Nat := 0
  energy : Nat := 0
  deriving DecidableEq, Repr

/-- A bank of counters: accounts, ports (bytes sent, bytes received), domains, UNATTR (R473, R480). -/
structure MBank where
  acct   : Tbl Quant := []
  port   : Tbl (Nat × Nat) := []
  dom    : Tbl Nat := []
  unattr : Nat := 0
  deriving DecidableEq, Repr

/-- The generation of an account (R472). -/
structure MGen where
  live    : Bool := false
  gen     : Nat := 0
  openSeq : Nat := 0
  deriving DecidableEq, Repr

/-- An account entry of a colophon (R481). -/
structure MEntry where
  acct    : Nat := 0
  gen     : Nat := 0
  closed  : Bool := false
  q       : Quant := {}
  openSeq : Nat := 0
  deriving DecidableEq, Repr

/-- A colophon (R481). `kind`: 0 PERIODIC, 1 POWERFAIL, 2 RESUME. -/
structure Colophon where
  prev     : Nat := 0
  seq      : Nat := 0
  mstart   : Nat := 0
  mend     : Nat := 0
  ftend    : Nat := 0
  sealCnt  : Nat := 0
  lrsum    : Nat := 0
  supp     : Nat := 0
  interval : Nat := 60
  kind     : Nat := 0
  cflags   : Nat := 0
  entries  : List MEntry := []
  port     : Tbl (Nat × Nat) := []
  dom      : Tbl Nat := []
  sfault   : List Nat := []
  unattr   : Nat := 0
  sig      : List Byte := []
  deriving DecidableEq, Repr

/-- A record of a die on its way over an export link, or what it counts (R476): account quantities by number, port bytes. -/
structure ExpRec where
  die  : Nat := 0
  exp  : Tbl Nat := []
  port : Tbl (Nat × Nat) := []
  deriving DecidableEq, Repr

/-- An authority command that waits for the running commit (R480). -/
structure MtCmd where
  opc   : Nat := 0
  auth  : MtAuth := {}
  pin   : Bool := false
  val   : Nat := 0
  val2  : Nat := 0
  image : List Byte := []
  imgOk : Bool := true
  corr  : List (Nat × Nat × Nat) := []
  deriving DecidableEq, Repr

structure Meter where
  powered  : Bool := true
  mtime    : Nat := 0              -- meter time in µs
  mstart   : Nat := 0              -- where the running interval began
  gens     : Tbl MGen := []
  main     : MBank := {}
  shadow   : MBank := {}           -- what arrives while a commit runs (R480)
  saved    : MBank := {}           -- the counters of the newest colophon (R488)
  savedGens : Tbl MGen := []
  finals   : List MEntry := []     -- generations closed in the interval, with their last counters (R481)
  committing : Option Colophon := none
  store    : List (Bool × Colophon) := []   -- colophons, oldest first, with whether they are acknowledged (R482)
  seq      : Nat := 0              -- SEQ of the newest colophon
  prevHash : Nat := 0
  lostRec  : Nat := 0
  interval : Nat := 60             -- MT_CFG.INTERVAL
  newInt   : Option Nat := none    -- MT_SETINT accepted, from the next boundary (R484)
  flagInt  : Bool := false         -- the next colophon has NEWINT
  slow     : Bool := false
  lost     : Bool := false
  diff     : Bool := false         -- CENSUSDIFF in this interval
  lastDiff : Bool := false         -- MT_STAT.CENSUSDIFF
  resume   : Bool := false         -- the next colophon is of KIND 2
  sfault   : List Nat := []        -- domains whose sense line failed (R475)
  supp     : Nat := 0              -- notices suppressed in the interval (R489)
  noted    : Tbl (Nat × Nat) := []  -- per notice type: clock of the last one sent, notices suppressed since
  sealCnt  : Nat := 0
  lastEvt  : Nat := 0
  auth     : Option Nat := none    -- digest of the authority's key (R483)
  repl     : Nat := 0              -- replacements of it
  acnt     : Nat := 0
  corr     : Tbl (Nat × Nat) := []  -- gain and offset per rail
  lrMaj    : Nat := 0
  lrMin    : Nat := 0
  lrSum    : Nat := 0
  lrDigest : Nat := 0
  nlrVer   : Nat := 0
  ft       : Nat := 0              -- fabric time last received (R477)
  notes    : List (Bool × Nat) := []  -- open (true) and close notices on their way (R472)
  wire     : List ExpRec := []     -- records on the export links (R476)
  act      : Tbl Nat := []         -- activity of the running window, by expKey (R474)
  census   : Tbl Census := []      -- accepted, per chase (R478)
  copies   : List (Nat × Nat × Census) := []  -- copies received and not yet decided: (chase, die, census)
  pend     : Option MtCmd := none
  deriving DecidableEq, Repr

/-! ### The snapshot (R533–R536) -/

/-- SSTATE (SCH_SNAP_STAT). -/
inductive SnapSt where
  | idle | armed | cut | done
  deriving DecidableEq, Repr

def SnapSt.code : SnapSt → Nat
  | .idle => 0 | .armed => 1 | .cut => 2 | .done => 3

structure Snap where
  st     : SnapSt := .idle
  id     : Nat := 0
  init   : Nat := 0
  tcut   : Nat := 0
  chases : List Nat := []
  ports  : List Nat := []          -- ports that take part: those named, and those whose partner is a switch
  lanes  : List (Nat × Nat) := []  -- lanes open: (port, VL)
  swept  : Bool := false
  incomp : Bool := false
  early  : Bool := false
  cut    : Nat := 0                -- CUTTIME
  marks  : Tbl Nat := []           -- recorded type words
  flight : Tbl (Nat × Nat) := []   -- packets and bytes in flight at the cut: key 32 × port + VL
  deriving DecidableEq, Repr

end Sys2Proof.Machine
end

