-- ==== Sys2Proof/Machine/Regs.lean ====
section
/-! DEFINITION. The registers of the device: width, elements, writable and reserved fields and reset value of each, from
the field maps of spec/ (R9, R10, R11, R554). -/

namespace Sys2Proof.Machine
open Sys2Proof

/-- What a register exists once per: the device, a port die, a press die (R554). -/
inductive RegUnits where
  | dev | pt | px
  deriving DecidableEq, Repr

/-- A register's shape: width in bits, elements per unit, writable fields, reserved fields, reset word. -/
structure RegDesc where
  width   : Nat
  perUnit : Nat
  units   : RegUnits
  wr      : List (Nat × Nat)
  rsv     : List (Nat × Nat)
  reset   : Nat
  deriving DecidableEq, Repr

/-- The field maps of spec/, one row each. -/
def regDesc : RegName → RegDesc
  | .kpPaceStat => { width := 32, perUnit := 64, units := .dev, wr := [], rsv := [(28, 28)], reset := 0x0 }
  | .kpPaceTgt => { width := 32, perUnit := 64, units := .dev, wr := [(31, 31), (27, 16), (15, 8), (7, 0)], rsv := [(30, 28)], reset := 0x87D0AF4B }
  | .impFolio => { width := 128, perUnit := 0, units := .dev, wr := [], rsv := [(5, 0)], reset := 0x0 }
  | .impChaseStat => { width := 32, perUnit := 4096, units := .dev, wr := [(19, 19)], rsv := [], reset := 0x0 }
  | .impChaseCfg => { width := 32, perUnit := 4096, units := .dev, wr := [(31, 22), (21, 12), (11, 5)], rsv := [(4, 0)], reset := 0xC80A000 }
  | .ptOctetCfg => { width := 32, perUnit := 8, units := .pt, wr := [(31, 31), (30, 30), (29, 27), (26, 25), (24, 24), (23, 23), (15, 8), (7, 0)], rsv := [(22, 16)], reset := 0x6000000 }
  | .ptTrayTmo => { width := 32, perUnit := 32, units := .dev, wr := [(9, 0)], rsv := [(31, 10)], reset := 0x64 }
  | .ptPortCfg => { width := 32, perUnit := 64, units := .pt, wr := [(31, 31), (30, 30), (29, 29), (23, 16), (15, 8), (7, 0)], rsv := [(28, 24)], reset := 0x20080410 }
  | .ptLinkStat => { width := 32, perUnit := 64, units := .pt, wr := [], rsv := [(16, 16), (7, 0)], reset := 0x0 }
  | .ptLinkPeer => { width := 32, perUnit := 64, units := .pt, wr := [], rsv := [(25, 20)], reset := 0x0 }
  | .ptTfpCfg => { width := 32, perUnit := 1, units := .dev, wr := [(31, 16), (15, 8)], rsv := [(7, 0)], reset := 0xC83200 }
  | .ptClassCfg => { width := 32, perUnit := 8, units := .dev, wr := [(31, 31), (30, 28), (27, 20), (15, 0)], rsv := [(19, 16)], reset := 0x41000011 }
  | .ptRedProf => { width := 32, perUnit := 24, units := .dev, wr := [(31, 20), (19, 8), (7, 2), (1, 1), (0, 0)], rsv := [], reset := 0x0 }
  | .ptEgrCfg => { width := 32, perUnit := 1, units := .dev, wr := [(31, 16), (15, 0)], rsv := [], reset := 0x2000180 }
  | .ptMcgrp => { width := 64, perUnit := 65536, units := .dev, wr := [(63, 63), (62, 51), (50, 35), (34, 19)], rsv := [(18, 0)], reset := 0x0 }
  | .ptMcmem => { width := 32, perUnit := 65536, units := .pt, wr := [(31, 26), (19, 0)], rsv := [(25, 20)], reset := 0x0 }
  | .ptMcCfg => { width := 32, perUnit := 1, units := .dev, wr := [(31, 24), (23, 20), (19, 12)], rsv := [(11, 0)], reset := 0x14305000 }
  | .ptHellStat => { width := 32, perUnit := 1, units := .pt, wr := [(30, 24)], rsv := [(23, 17)], reset := 0xA000000 }
  | .schClassCfg => { width := 32, perUnit := 8, units := .dev, wr := [(31, 31), (23, 16), (15, 0)], rsv := [(30, 24)], reset := 0x1000C8 }
  | .schShaper => { width := 32, perUnit := 8192, units := .dev, wr := [(31, 31), (27, 16), (15, 0)], rsv := [(30, 28)], reset := 0x400010 }
  | .schPortCfg => { width := 32, perUnit := 1024, units := .dev, wr := [(31, 31), (30, 30), (29, 28), (25, 16), (15, 0)], rsv := [(27, 26)], reset := 0x10000 }
  | .schPolicer => { width := 64, perUnit := 8192, units := .dev, wr := [(63, 63), (62, 62), (55, 44), (43, 32), (31, 16), (15, 0)], rsv := [(61, 56)], reset := 0x4004000100010 }
  | .schGateCtl => { width := 32, perUnit := 1024, units := .dev, wr := [(30, 30), (22, 16)], rsv := [(29, 23), (15, 7)], reset := 0x10000 }
  | .schGateStart => { width := 64, perUnit := 1024, units := .dev, wr := [(63, 0)], rsv := [], reset := 0x0 }
  | .schGateEnt => { width := 32, perUnit := 65536, units := .dev, wr := [(31, 24), (23, 0)], rsv := [], reset := 0xFF000040 }
  | .schPtpCfg => { width := 32, perUnit := 1, units := .dev, wr := [(31, 31), (30, 30), (29, 29), (23, 16), (15, 12), (11, 8), (7, 0)], rsv := [(28, 24)], reset := 0xCC80 }
  | .schTimeStat => { width := 32, perUnit := 1, units := .dev, wr := [], rsv := [(26, 20)], reset := 0x0 }
  | .schTimeNow => { width := 64, perUnit := 1, units := .dev, wr := [], rsv := [], reset := 0x0 }
  | .impStripeset => { width := 64, perUnit := 1024, units := .dev, wr := [], rsv := [], reset := 0xFFF000000000000 }
  | .impStripemem => { width := 64, perUnit := 10240, units := .dev, wr := [], rsv := [(59, 52)], reset := 0x0 }
  | .impPoolCfg => { width := 32, perUnit := 1, units := .dev, wr := [(31, 20), (19, 12)], rsv := [(11, 0)], reset := 0x1410000 }
  | .impGalleyCfg => { width := 32, perUnit := 1, units := .dev, wr := [(31, 26), (23, 16)], rsv := [(25, 24), (15, 0)], reset := 0x20180000 }
  | .impLayer => { width := 320, perUnit := 16777216, units := .dev, wr := [], rsv := [(47, 0)], reset := 0x0 }
  | .gsCohCfg => { width := 32, perUnit := 1, units := .dev, wr := [(31, 31), (30, 26), (25, 23), (22, 20), (19, 17), (16, 8)], rsv := [(7, 0)], reset := 0x2C60A00 }
  | .gsCohMember => { width := 32, perUnit := 32, units := .dev, wr := [(31, 31), (19, 0)], rsv := [(30, 20)], reset := 0x0 }
  | .gsCohDist => { width := 64, perUnit := 32, units := .dev, wr := [(63, 0)], rsv := [], reset := 0x0 }
  | .pxFmtdesc => { width := 128, perUnit := 1024, units := .dev, wr := [(127, 64), (31, 31), (30, 27), (26, 25), (24, 23), (22, 22), (21, 21), (11, 0)], rsv := [(63, 32), (20, 12)], reset := 0x0 }
  | .impChunk => { width := 64, perUnit := 0, units := .dev, wr := [], rsv := [(45, 0)], reset := 0x0 }
  | .impRedStat => { width := 64, perUnit := 0, units := .dev, wr := [], rsv := [(16, 0)], reset := 0x0 }
  | .impShard => { width := 64, perUnit := 0, units := .dev, wr := [], rsv := [(54, 48)], reset := 0x0 }
  | .impEmbStat => { width := 64, perUnit := 0, units := .dev, wr := [], rsv := [(7, 0)], reset := 0x0 }
  | .pxShardload => { width := 64, perUnit := 0, units := .px, wr := [], rsv := [], reset := 0x0 }
  | .impExpert => { width := 64, perUnit := 0, units := .dev, wr := [], rsv := [(20, 20)], reset := 0x1FFE00000 }
  | .impColmask => { width := 192, perUnit := 16777216, units := .dev, wr := [(128, 128), (127, 64), (63, 0)], rsv := [(191, 129)], reset := 0x0 }
  | .pxPlateStat => { width := 64, perUnit := 2048, units := .dev, wr := [], rsv := [(24, 16)], reset := 0x0 }
  | .mkMark => { width := 128, perUnit := 262144, units := .dev, wr := [], rsv := [], reset := 0x0 }
  | .mkLink => { width := 128, perUnit := 262144, units := .dev, wr := [], rsv := [], reset := 0x0 }
  | .kpPartyKey => { width := 64, perUnit := 262144, units := .dev, wr := [], rsv := [(58, 48)], reset := 0x0 }
  | .ptKeyStat => { width := 32, perUnit := 64, units := .pt, wr := [], rsv := [(27, 0)], reset := 0x0 }
  | .mtCfg => { width := 32, perUnit := 1, units := .dev, wr := [(19, 8)], rsv := [(31, 20), (7, 0)], reset := 0x3C00 }
  | .mtId => { width := 64, perUnit := 1, units := .dev, wr := [], rsv := [(39, 32)], reset := 0x0 }
  | .mtSeal => { width := 64, perUnit := 1, units := .dev, wr := [], rsv := [(23, 0)], reset := 0x0 }
  | .mtStat => { width := 64, perUnit := 1, units := .dev, wr := [], rsv := [], reset := 0x0 }
  | .fltFabpol => { width := 32, perUnit := 1, units := .dev, wr := [(31, 31), (30, 30), (29, 29), (28, 28), (27, 27), (26, 26), (25, 25), (24, 24)], rsv := [(23, 0)], reset := 0x80000000 }
  | .fltPortpol => { width := 32, perUnit := 1024, units := .dev, wr := [(31, 31), (30, 30), (29, 29)], rsv := [(28, 0)], reset := 0xC0000000 }
  | .fltComppol => { width := 32, perUnit := 4096, units := .dev, wr := [(31, 31), (30, 30), (29, 29), (28, 28)], rsv := [(27, 0)], reset := 0x0 }
  | .fltThr => { width := 32, perUnit := 1, units := .dev, wr := [(31, 16), (15, 8), (7, 0)], rsv := [], reset := 0x400C01 }
  | .fltErrlog => { width := 192, perUnit := 4096, units := .dev, wr := [], rsv := [(84, 48)], reset := 0x0 }
  | .fltLogstat => { width := 32, perUnit := 1, units := .dev, wr := [], rsv := [], reset := 0x0 }
  | .ptStallCfg => { width := 32, perUnit := 1, units := .dev, wr := [(31, 16)], rsv := [(15, 0)], reset := 0x640000 }
  | .schSnapStat => { width := 32, perUnit := 1, units := .dev, wr := [], rsv := [(12, 0)], reset := 0x0 }
  | .schSnapCut => { width := 64, perUnit := 1, units := .dev, wr := [], rsv := [], reset := 0x0 }
  | .kpMgmtCfg => { width := 32, perUnit := 1, units := .dev, wr := [(31, 31), (30, 30), (29, 29), (28, 28), (23, 16), (15, 0)], rsv := [(27, 24)], reset := 0xE040B810 }
  | .kpMgmtAddr => { width := 128, perUnit := 2, units := .dev, wr := [(127, 0)], rsv := [], reset := 0x0 }
  | .kpPwrStat => { width := 128, perUnit := 1, units := .dev, wr := [], rsv := [], reset := 0x0 }
  | .kpPwrStart => { width := 64, perUnit := 1, units := .dev, wr := [(63, 0)], rsv := [], reset := 0xFFFFFFFFFFFFFFFF }
  | .kpThermCfg => { width := 32, perUnit := 1, units := .dev, wr := [(31, 24), (23, 16), (15, 15)], rsv := [(14, 8)], reset := 0x919B80A5 }
  | .kpDevStat => { width := 32, perUnit := 1, units := .dev, wr := [], rsv := [(24, 24)], reset := 0x0 }

/-- How many units hold a register of this kind. -/
def RegUnits.count : RegUnits → Nat
  | .dev => 1 | .pt => 16 | .px => 8

/-- Elements of a register over all its units. -/
def regElems (r : RegName) : Nat := (regDesc r).perUnit * (regDesc r).units.count

/-- The reset word of one element: PT_CLASS_CFG sets LOSSLESS for TC0 to TC5; IMP_COLMASK is all ones where owner
and reader are the same party (R379). -/
def regReset (r : RegName) (ix : Nat) : Nat :=
  match r with
  | .ptClassCfg => if ix < 6 then 0xC1000011 else 0x41000011
  | .impColmask => if (ix / 64) % 64 = ix % 64 then 2 ^ 129 - 1 else 0
  | _ => (regDesc r).reset

/-- The block group of a register (R554). -/
def regGroup : RegName → Nat
  | .kpPaceStat | .kpPaceTgt | .kpMgmtCfg | .kpMgmtAddr | .kpPwrStat | .kpPwrStart | .kpThermCfg | .kpDevStat
  | .kpPartyKey => 0x0A
  | .impFolio | .impChaseStat | .impChaseCfg | .impStripeset | .impStripemem | .impPoolCfg | .impGalleyCfg
  | .impLayer | .impChunk | .impRedStat | .impShard | .impEmbStat | .impExpert | .impColmask => 0x03
  | .ptOctetCfg | .ptTrayTmo | .ptPortCfg | .ptLinkStat | .ptLinkPeer | .ptTfpCfg | .ptClassCfg | .ptRedProf
  | .ptEgrCfg | .ptMcgrp | .ptMcmem | .ptMcCfg | .ptHellStat | .ptKeyStat | .ptStallCfg => 0x02
  | .schClassCfg | .schShaper | .schPortCfg | .schPolicer | .schGateCtl | .schGateStart | .schGateEnt | .schPtpCfg
  | .schTimeStat | .schTimeNow | .schSnapStat | .schSnapCut => 0x08
  | .gsCohCfg | .gsCohMember | .gsCohDist => 0x05
  | .pxFmtdesc | .pxShardload | .pxPlateStat => 0x06
  | .mkMark | .mkLink => 0x07
  | .mtCfg | .mtId | .mtSeal | .mtStat => 0x0B
  | .fltFabpol | .fltPortpol | .fltComppol | .fltThr | .fltErrlog | .fltLogstat => 0x09

/-- The key of a register element in the table of register words. -/
def regKey (r : RegName) (ix : Nat) : Nat := r.ctorIdx * 2 ^ 64 + ix

/-- The writable bits of a register as a mask. -/
def regMask (r : RegName) : Nat :=
  ((regDesc r).wr.map fun f => (2 ^ (f.1 + 1 - f.2) - 1) <<< f.2).foldl (· ||| ·) 0

/-- The reserved bits of a register as a mask (R11). -/
def regRsv (r : RegName) : Nat :=
  ((regDesc r).rsv.map fun f => (2 ^ (f.1 + 1 - f.2) - 1) <<< f.2).foldl (· ||| ·) 0

end Sys2Proof.Machine
end

