-- ==== Sys2Proof/Machine/StateMgmt.lean ====
section
/-! DEFINITION. The state of faults and records, the keepers and their sessions, power, heat, reset and start-up
(Faults, Errors and Armed Responses; Basod Command Packets; Power Domains, Reset and Start-Up; R598–R609). -/

namespace Sys2Proof.Machine
open Sys2Proof

/-! ### Faults and records -/

/-- An error record (R504). -/
structure ErrRec where
  time  : Nat := 0
  cls   : Nat := 0
  die   : Nat := 0
  unit  : Nat := 0
  chase : Option Nat := none
  count : Nat := 1
  loc   : Nat := 0
  deriving DecidableEq, Repr

/-- The 192-bit word of a record (FLT_ERRLOG). -/
def ErrRec.word (r : ErrRec) : Nat :=
  (r.time % 2 ^ 64) <<< 128 + r.cls <<< 125 + r.die <<< 119 + r.unit <<< 114 + b2n r.chase.isSome <<< 113
    + r.chase.getD 0 <<< 101 + (min r.count 65535) <<< 85 + r.loc % 2 ^ 48

/-- Values a die keeps for lost occurrences (R504): their count, the highest class, the first time. -/
structure LostVals where
  count : Nat := 0
  cls   : Nat := 0
  time  : Nat := 0
  deriving DecidableEq, Repr

structure Faults where
  ring     : Tbl ErrRec := []        -- FLT_ERRLOG
  head     : Nat := 0
  logLost  : Nat := 0
  dieLog   : Tbl (List ErrRec) := [] -- records a port or press die holds until a keeper collects them
  lostVals : Tbl LostVals := []
  ceCount  : Tbl Nat := []           -- key 32 × die + unit: corrected errors in the running 1 s window (R499)
  lostDies : List Nat := []          -- dies held lost, by DIE code (R512)
  selfFatal : List Nat := []         -- dies that recorded their own fatal error
  heard    : Tbl Nat := []           -- last liveness slice of each die, by clock
  lostTgt  : List (Nat × Nat) := []  -- targets held lost: (kind, target) (R230)
  lostFr   : List (Nat × Nat × Nat) := []  -- capacity removed by force: (tray link, first frame, frames) (R86, R230)
  badMarks : List Nat := []          -- poisoned mark records (R503)
  singleCopy : List Nat := []        -- stacks whose writes keep one copy (R514)
  fatal    : Bool := false           -- fatal-package reached (R520)
  refLost  : List Nat := []          -- dies whose reference is held lost (R608)
  deriving DecidableEq, Repr

/-! ### Keepers -/

/-- An event notice (R558). -/
structure Notice where
  code  : Nat := 0
  nseq  : Nat := 0
  time  : Nat := 0
  die   : Nat := 0
  chase : Option Nat := none
  supp  : Nat := 0
  p0    : Nat := 0
  p1    : Nat := 0
  p2    : Nat := 0
  list  : List Nat := []
  deriving DecidableEq, Repr

/-- A reply of KIND 1 (R551): status, detail, payload as fields in the order of the command's layout. -/
structure Reply where
  opc    : Nat := 0
  cseq   : Nat := 0
  status : Status := .ok
  dcode  : Nat := 0
  dval   : Nat := 0
  dupr   : Bool := false
  data   : List Nat := []
  deriving DecidableEq, Repr

/-- The serialisation domains of R547. -/
inductive Dom where
  | chase (c : Nat) | meter | firmware | device
  deriving DecidableEq, Repr

/-- A command whose reply is still to come (R547, R549). -/
structure Running where
  dom  : Dom
  sess : Option Nat
  tr   : Transport := .eth
  cseq : Nat
  opc  : Nat
  key  : Nat := 0           -- what the command waits on: a port, a chase, a die
  aux  : Nat := 0
  deriving DecidableEq, Repr

/-- An SPDM session (R448, R543, R544). -/
structure Session where
  digest : Nat := 0          -- SHA-384 digest of the requester's leaf key
  mutual_ : Bool := true     -- the handshake included mutual authentication
  fin    : Bool := true      -- FINISH done
  hiSeq  : Option Nat := none   -- highest sequence number received
  seen   : List Nat := []    -- sequence numbers received among the last 64
  cache  : List Reply := []  -- last 64 replies, newest first (R549)
  mask   : Nat := 0          -- NOTICE_SUB mask
  queue  : List Notice := [] -- delivery queue, oldest first (R560)
  dropped : Nat := 0         -- notices dropped since the last NOTLOST
  keys   : Nat := 0          -- KEY_UPDATE generations
  deriving DecidableEq, Repr

/-- One keeper (R516, R563–R565, R588). -/
structure Keeper where
  inService : Bool := true
  slotB    : Bool := false    -- running slot
  runVer   : Nat := 0
  validA   : Bool := true
  validB   : Bool := false
  aver     : Nat := 0
  bver     : Nat := 0
  asvn     : Nat := 0
  bsvn     : Nat := 0
  xfer     : Nat := 0         -- bytes written in the current transfer
  image    : List (Nat × List Byte) := []  -- pieces written to the inactive slot
  booted   : Bool := false    -- keeper firmware reported ready
  selB     : Bool := false    -- SEL of its boot selection record
  altBoot  : Bool := false
  restarting : Bool := false
  bootTo   : Option Bool := none   -- slot an FW_ACTIVATE of MODE 1 restarts it from (R565)
  deriving DecidableEq, Repr

/-- Keeper-side state shared by both keepers through replication (R516). -/
structure Mgmt where
  active   : Option Nat := none     -- which keeper is active; none before boot and during a takeover
  lastActive : Nat := 0             -- the keeper that is active, or was last
  takeover : Option Nat := none     -- cause of a takeover under way
  leaseAge : Nat := 0               -- ms since the lease was renewed
  kp0      : Keeper := {}
  kp1      : Keeper := {}
  owner    : Option Nat := none     -- fabric owner's key digest (R545)
  observers : List Nat := []
  sessions : Tbl Session := []
  conns    : Tbl Nat := []          -- SPDM connection state per transport peer: 1 version, 2 capabilities, 3 algorithms
  running  : List Running := []
  held     : List (Dom × Bas × Instr) := []   -- commands waiting for their domain (R547)
  starting : Option Instr := none   -- the command taken from the keeper's queue, about to run
  nseq     : Nat := 1               -- next NSEQ
  ring     : List Notice := []      -- the last 8,192 notices, newest first (R560)
  rate     : Tbl (Nat × Nat) := []  -- per code and P0: (clock of the last one sent, SUPP) (R559)
  cfgAfter : Tbl Nat := []          -- KP_MGMT_CFG / KP_MGMT_ADDR words to take effect once the reply is sent (R541)
  inbandT  : Nat := 0               -- clock of the running one-second count of in-band MGMT packets
  inbandN  : Nat := 0
  verified : Bool := false          -- FW_VERIFY passed for TARGET 0
  verLen   : Nat := 0
  actPend  : Bool := false          -- a MODE 0 activation is pending
  mtImage  : List (Nat × List Byte) := []   -- staging buffer of the meter image (TARGET 1)
  mtXfer   : Nat := 0
  mtVerified : Bool := false
  mtVer    : Nat := 0               -- version of the verified meter image
  mtEnd    : Bool := false          -- the last piece of the transfer was written
  xferEnd  : Bool := false
  fuseSvn  : Nat := 0
  activating : Bool := false        -- FW_ACTIVATE MODE 1 running
  actSlot  : Option Bool := none    -- slot of an activation whose FWACTIVE is still to come
  handover : Bool := false          -- its reply was sent; the lease is given up 10 ms later
  policy   : List Nat := []         -- ATTEST_POLICY measurement list (R454)
  revoked  : List Nat := []
  debugLock : Bool := true          -- DEBUGLOCK fuse (R444)
  udsLocked : Bool := false         -- the UDS is read and locked (R445)
  sensors  : Tbl Nat := []          -- PLDM sensor values (R562)
  romOnly  : List Nat := []         -- keepers that stay in ROM (R447)
  deriving DecidableEq, Repr

/-! ### Power, reset, start-up, lands -/

/-- Device modes (R592). -/
inductive Mode where
  | booting | proof | service | shutdown
  deriving DecidableEq, Repr

def Mode.code : Mode → Nat
  | .booting => 0 | .proof => 1 | .service => 2 | .shutdown => 3

/-- Pace and supply of one reporting domain (R29–R32, R574, R605). -/
structure Pace where
  valid : Bool := false
  step  : Bool := false
  below : Bool := false
  pace  : Nat := 0
  vcode : Nat := 0
  tj    : Nat := 0
  supply : Nat := 125        -- supply code set now
  acked : Nat := 125         -- last acknowledged value (R605)
  unacked : Nat := 0
  tgtPend : Option Nat := none  -- written, to take effect at the window's end (R31)
  noted : Bool := false      -- PACEBELOW sent in this period (R32)
  warned : Bool := false     -- THERMWARN sent (R574)
  crit  : Bool := false      -- supply held at VMIN (R574)
  stepped : Bool := false    -- the supply changed during the running window
  deriving DecidableEq, Repr

/-- The saved start record (R589). -/
structure StartRec where
  words   : Tbl Nat := []
  routeB  : Tbl Nat := []
  routeX  : Tbl (Nat × Nat) := []
  nhs     : Tbl NhSet := []
  mcMem   : Tbl (List (Nat × Nat)) := []
  eid     : Nat := 0
  autosvc : Bool := false
  deriving DecidableEq, Repr

/-- The order in which domains are switched on: planes, port-die link logic, SerDes, press compute, memory interfaces, stacks (R590). -/
def seqOrder : List Nat :=
  [32, 33, 34, 35, 36, 1, 3, 5, 7, 9, 11, 13, 15, 17, 19, 21, 23, 25, 27, 29, 31, 0, 2, 4, 6, 8, 10, 12, 14, 16, 18, 20, 22, 24, 26, 28, 30,
    37, 39, 41, 43, 45, 47, 49, 51, 38, 40, 42, 44, 46, 48, 50, 52, 53, 54, 55, 56, 57, 58, 59, 60]

structure Power where
  on       : Nat := 2 ^ 64 - 1       -- KP_PWR_STAT.ON
  trip     : Nat := 0
  mode     : Mode := .booting
  level    : Nat := 0
  stest    : List Nat := []          -- dies whose self-test runs
  lastRst  : Nat := 1
  warmCnt  : Nat := 0
  pace     : Tbl Pace := []
  toSeq    : List Nat := seqOrder    -- domains still to be switched on, in the order of R590
  waitPg   : List Nat := []          -- domains enabled whose PG has not risen (R606)
  firstWin : List Nat := []          -- domains on that have not had a first valid window
  start    : Option StartRec := none
  startApplied : Bool := true        -- the start record is applied, or no start-up is under way
  joining  : List Nat := []          -- dies powered whose self-test has not begun
  resetting : List Nat := []         -- dies a RESET_DIE cycles
  seqRun   : Bool := false           -- the start-up's self-tests have not all ended: STEST reads 1 (R592)
  autoEnd  : Bool := false           -- 1 s has passed since the start record was applied (R592)
  saved    : List Nat := []          -- ports recorded at LEVEL 2 entry (R578)
  asked    : List Nat := []          -- ports a standby entry asked to trickle, or an exit wakes (R578, R579)
  exitPh   : Bool := false           -- a standby exit has passed its self-tests and wakes ports (R579)
  offByLevel : List Nat := []        -- domains a standby entry switched off
  rstPend  : Option Bool := none     -- RESET_WARM (false) or RESET_COLD (true) accepted, 10 ms running
  autoDue  : Bool := false           -- AUTOSVC has not acted in this start-up (R592)
  warmRun  : Bool := false           -- a warm reset is running (R586)
  kept     : List Nat := []          -- ports it keeps in TRICKLE (R585)
  porst    : Bool := false           -- PORST_N low
  lastTrip : Option (Nat × Nat) := none  -- (clock, domain) of the last thermal trip
  faultN   : Bool := false           -- fault output asserted
  kpFault  : List Nat := []          -- KPn_FAULT_N asserted
  thermShut : Bool := false
  tap      : Nat := 0                -- TAP instruction loaded: 0 BYPASS (R601)
  deriving DecidableEq, Repr

end Sys2Proof.Machine
end

