-- ==== Sys2Proof/Machine/StatePool.lean ====
section
/-! DEFINITION. The state of the pool, the galley, its coherence engine, the data movers, the streaming window and the key stores
(Pool Memory Semantics; The Galley and Galley Coherence; Tenancy, Keys and Sealed Aggregation). -/

namespace Sys2Proof.Machine
open Sys2Proof

/-! ### Accesses in progress -/

/-- What an access does to the bytes it names. -/
inductive PjOp where
  | load
  | store
  | atomic (aop : Nat)
  deriving DecidableEq, Repr

/-- For whom a group of line accesses works. -/
inductive Cont where
  | request (id : Nat)                       -- a pool request tracked by its ingress
  | moverRead (chase ring piece : Nat)       -- the read of a mover piece (R243)
  | moverWrite (chase ring piece : Nat)      -- its write
  | moverDesc (chase ring : Nat)             -- the mover reads a descriptor (R242)
  | moverStat (chase ring : Nat)             -- the mover writes status into the descriptor (R245)
  | layer (chase layer piece : Nat)          -- a piece of a pushed layer (R247)
  | plate (inst piece : Nat) (write : Bool)  -- a piece issued by a plate (R382)
  | service (svc item : Nat)                 -- an access of a press service
  | homeRead (line : Nat)                    -- the home reads memory for a coherence request (R276)
  | homeWrite (line : Nat)                   -- the home writes a line back (R278, R282)
  | copy (chase folio line : Nat)            -- the copy of a migrating folio (R72)
  deriving DecidableEq, Repr

/-- A range of one 4 KiB block accessed for one owner: its bytes as they come in, the outcome of each of its parts (R130). -/
structure Grp where
  id    : Nat := 0
  cont  : Cont
  pva   : Nat := 0
  len   : Nat := 0
  write : Bool := false
  left  : Nat := 0                       -- accesses still open
  data  : List Byte := []                -- bytes read, or written
  outs  : List (Nat × Status) := []      -- parts that ended other than OK
  pois  : List Nat := []                 -- granules read poisoned, counted from the granule of its first byte
  rval  : Nat := 0
  deriving DecidableEq, Repr

/-- Where bytes lie: kind, target and frame of a folio (R50). -/
structure Loc where
  kind   : Nat := 0
  target : Nat := 0
  frame  : Nat := 0
  deriving DecidableEq, Repr

/-- How far an access at one home has come. -/
inductive PjSt where
  | wait      -- an earlier access holds its line (R219)
  | fill      -- its line is being obtained (R258)
  | galley    -- its galley read is out (R251)
  | mirror    -- its line waits for the mirror copy (R255)
  | tray      -- its tray requests are out
  deriving DecidableEq, Repr

/-- A request to a tray that an access has out: its number on the link (CXL) or its tag (TFP tray), what it covers. -/
structure TrayReq where
  cid    : Nat := 0
  member : Nat := 0          -- member of a stripe set, 0 elsewhere
  gran   : Nat := 0          -- granule of the line range it covers
  write  : Bool := false
  deriving DecidableEq, Repr

/-- What a stripe engine knows of one member during an access (R235): line read, granules poisoned, outcome, answered. -/
structure Member where
  m      : Nat := 0
  line   : Nat := 0          -- which data unit 0–7, 8 for P, 9 for Q
  write  : Bool := false
  data   : List Byte := []
  pois   : List Nat := []
  st     : Status := .ok
  here   : Bool := false     -- every tray request of it has ended
  taken  : Bool := false     -- the stripe engine has its answer
  deriving DecidableEq, Repr

/-- One access at one home: the range of one line, of one stripe for a coded folio. -/
structure PJob where
  id     : Nat := 0
  grp    : Nat := 0
  part   : Nat := 0          -- part of its first byte
  die    : Nat := 0          -- ingress die, or the press die it works for
  chase  : Nat := 0
  epoch  : Nat := 0
  party  : Nat := 0
  op     : PjOp := .load
  pva    : Nat := 0
  len    : Nat := 0
  data   : List Byte := []   -- bytes to store, or operands of an atomic
  loc    : Loc := {}
  dual   : Option Loc := none     -- dual-write destination (R212)
  cached : Option Nat := none     -- stack that caches the line (R258)
  key    : Nat := 0               -- keying party: 64 × chase + party (R459)
  st     : PjSt := .wait
  reqs   : List TrayReq := []     -- tray requests out
  got    : List (Nat × List Byte) := []   -- granules read
  pois   : List Nat := []         -- granules found poisoned
  failed : List (Nat × Status) := []      -- granules that ended TIMEOUT or TARGETLOST
  mem    : List Member := []
  forced : List Nat := []         -- granules to be written poisoned (R244)
  deriving DecidableEq, Repr

/-! ### Coherence -/

/-- States of a cached line (R277). -/
inductive CState where
  | i | s | e | m | o | isD | imAD | imA | smAD | smA | omAD | omA | miA | oiA | eiA | siA | iiA
  deriving DecidableEq, Repr

/-- A line in the cache share, in a transient state or in the write-back buffer (R258, R259, R277). -/
structure CLine where
  key    : Nat := 0
  stack  : Nat := 0
  chase  : Nat := 0
  pva    : Nat := 0
  party  : Nat := 0
  loc    : Loc := {}
  rclass : Nat := 0
  frozen : Bool := false
  window : Bool := false         -- a window or shadow line (R266)
  st     : CState := .i
  dirty  : Bool := false         -- O with DIRTY = 1
  data   : List Byte := []
  pois   : List Nat := []
  acks   : Nat := 0              -- IACKs counted
  need   : Option Nat := none    -- ACKCNT received
  once   : Bool := false         -- GRANT 3: serve the waiting request, keep nothing
  used   : Nat := 0              -- the model's order of use
  drop   : Bool := false         -- its folio stops being cacheable (R260)
  deriving DecidableEq, Repr

/-- States of a directory entry (R273). -/
inductive DState where
  | s | x | o
  deriving DecidableEq, Repr

/-- A directory entry, and the home's queue of its line (R272, R273, R278). -/
structure DirEnt where
  key    : Nat := 0
  px     : Nat := 0              -- press die that keeps it
  chase  : Nat := 0
  pva    : Nat := 0
  party  : Nat := 0
  loc    : Loc := {}
  st     : Option DState := none -- none: I
  ovf    : Bool := false
  owner  : Nat := 0
  ptrs   : List (Option Nat) := [none, none, none]
  busy   : Option (Nat × DState) := none            -- BREQ, BNEXT
  src    : Option Nat := none    -- sharer asked to source
  cur    : Option CohMsg := none -- request being served
  queue  : List CohMsg := []     -- requests waiting, oldest first
  bad    : Bool := false
  inOvf  : Bool := false         -- moved to the directory overflow
  used   : Nat := 0
  deriving DecidableEq, Repr

/-- A bound notice region and its collection (R284, R285). -/
structure NoticeBind where
  chase  : Nat := 0
  base   : Nat := 0
  size   : Nat := 0              -- folios
  group  : Nat := 0
  tc     : Nat := 0
  lines  : List Nat := []
  holdG  : List Grp := []        -- ended writes whose answer waits for the notice
  holdR  : List (Nat × Pkt) := []  -- RESPs of a tray that wait for it, with the request they answer
  deriving DecidableEq, Repr

/-! ### Stripes, movers, layers, keys -/

/-- A member of a stripe set (IMP_STRIPEMEM). -/
structure StripeMem where
  mkind   : Nat := 0
  sparein : Bool := false
  target  : Nat := 0
  base    : Nat := 0
  deriving DecidableEq, Repr

/-- A stripe set (R234–R238). -/
structure Stripe where
  extent : Nat := 0
  mem    : List StripeMem := []
  lost   : List Nat := []        -- members held lost, in the order they were
  rb     : Option (Nat × StripeMem) := none   -- member being rebuilt, and the spare it goes to
  prog   : Nat := 0              -- RBPROG
  stopped : Bool := false        -- REBUILD was cleared: it stopped at a slot boundary (R495)
  waited : Bool := false         -- SPAREWAIT was sent
  deriving DecidableEq, Repr

/-- A registered spare extent (R238). -/
structure Spare where
  kind   : Nat := 0
  target : Nat := 0
  base   : Nat := 0
  extent : Nat := 0
  deriving DecidableEq, Repr

/-- A piece of a mover job (R243). -/
structure MPiece where
  off    : Nat := 0              -- offset in LENGTH
  len    : Nat := 0
  epoch  : Nat := 0
  rgrp   : Option Nat := none    -- its read, its write
  wgrp   : Option Nat := none
  bad    : Option Status := none
  deriving DecidableEq, Repr

/-- A mover ring and the job it runs (R241–R246). -/
structure Ring where
  chase  : Nat := 0
  party  : Nat := 0
  ring   : Nat := 0
  pva    : Nat := 0
  ents   : Nat := 16
  mark   : Nat := 0
  core   : Nat := 0
  next   : Nat := 0              -- next entry
  job    : Bool := false         -- a job runs
  desc   : List Byte := []
  taking : Bool := false         -- the descriptor is being read
  movout : Nat := 16
  pos    : Nat := 0              -- bytes issued
  pieces : List MPiece := []
  failN  : Nat := 0
  dstat  : Status := .ok
  failOff : Nat := 0
  ending : Bool := false         -- the status write is out
  leaving : Bool := false        -- removed at the next commit
  staged : Bool := false         -- bound at the next commit
  gone   : Bool := false         -- unbound: it takes no further descriptor and goes once its job has ended (R393)
  deriving DecidableEq, Repr

/-- LSTATE of a layer (R261). -/
inductive LState where
  | absent | pushing | ready | missed | failed
  deriving DecidableEq, Repr

def LState.code : LState → Nat
  | .absent => 0 | .pushing => 1 | .ready => 2 | .missed => 3 | .failed => 4

/-- A defined layer (IMP_LAYER) and its push. -/
structure Layer where
  chase  : Nat := 0
  layer  : Nat := 0
  need   : Nat := 0
  st     : LState := .absent
  arm    : Nat := 0
  shres  : Bool := false
  lstat  : Nat := 0
  lmark  : Nat := 0
  pva    : Nat := 0
  shpva  : Nat := 0
  lpages : Nat := 0
  shpages : Nat := 0
  stack  : Nat := 0
  die    : Nat := 0              -- port die that admitted its PUSH
  req    : Option Nat := none    -- the PUSH awaiting its answer
  pos    : Nat := 0              -- bytes issued
  grps   : List Nat := []        -- pieces out
  copied : List Nat := []        -- lines copied by the running push
  movout : Nat := 16
  order  : Nat := 0              -- order of pushes, the model's own
  staged : Bool := false         -- defined by a forme not yet current
  deriving DecidableEq, Repr

/-- The keys of one party of a chase (R450, R451; IMP_KP_PARTY_KEY). -/
structure PartyKeys where
  agent : Option Nat := none
  pdk   : Option Nat := none
  psk0  : Option Nat := none
  psk1  : Option Nat := none
  cur   : Bool := false
  deriving DecidableEq, Repr

/-- What happens between the parts of the device within one step, to be handled in turn. -/
inductive PEv where
  | ended (grp : Nat)                  -- every access of a group has ended
  | msg (m : CohMsg)                   -- a coherence message for this switch
  | wake (line : Nat)                  -- a line reached a stable state
  | counted (mark : Nat)               -- an operation on a counting mark of a service has ended (R427)
  deriving DecidableEq, Repr

structure Pool where
  nextG   : Nat := 1
  nextJ   : Nat := 1
  nextCid : Nat := 1
  nextUse : Nat := 1
  grps    : List Grp := []
  jobs    : List PJob := []
  mem     : List Host.Cell := []           -- galley memory: (address, byte), one value for both copies of a mirrored line
  gbad    : Tbl Unit := []                 -- galley granules bad on one stack: key 2^32 × stack + granule
  fold    : Tbl Nat := []                  -- keying party of a region's folio: key 2^36 × (chase + 1) + folio → 64 × chase + party
  lines   : List CLine := []
  dir     : List DirEnt := []
  ev      : List PEv := []
  notices : List NoticeBind := []
  stripes : Tbl Stripe := []
  spares  : List Spare := []
  rings   : List Ring := []
  layers  : List Layer := []
  keys    : Tbl PartyKeys := []            -- key 64 × chase + party
  scrub   : Tbl Nat := []                  -- next line of the patrol scrub, per stack
  deriving DecidableEq, Repr

end Sys2Proof.Machine
end

