-- ==== Sys2Proof/Machine/StatePlate.lean ====
section
/-! DEFINITION. The state of plates: images, bindings, instances, tokens (Plates: Configuring the Press; Tensor Compression). -/

namespace Sys2Proof.Machine
open Sys2Proof

/-- An accumulator: CLASS, and VALUE in units of 2^-149 (sum mode) or 2^-298 (product mode) (R299, R300). -/
structure Acc where
  cls : Nat := 0
  val : Int := 0
  deriving DecidableEq, Repr

/-- What a token carries: bytes, decoded values (units of 2^-149), products (units of 2^-298), accumulators, booleans. -/
inductive TokBody where
  | bytes (b : List Byte)
  | vals (v : List Acc)
  | prods (v : List Acc)
  | accs (prod sat : Bool) (v : List Acc)
  | bools (b : List Bool)
  deriving DecidableEq, Repr

/-- A token with its side band (R383). -/
structure Tok where
  item : Nat := 0
  elem : Nat := 0
  mult : Nat := 1
  last : Bool := false
  stat : Nat := 0
  body : TokBody := .bytes []
  deriving DecidableEq, Repr

/-- A node entry and a queue entry of an image (R386). -/
structure PNode where
  type : Nat := 0
  eng  : Nat := 0
  poff : Nat := 0
  plen : Nat := 0
  rsv  : Nat := 0
  deriving DecidableEq, Repr

structure PQueue where
  pnode : Nat := 0
  pport : Nat := 0
  cnode : Nat := 0
  cport : Nat := 0
  depth : Nat := 2
  rsv   : Nat := 0
  deriving DecidableEq, Repr

/-- A plate image held by a chase (R386, R389). -/
structure PImage where
  chase  : Nat := 0
  id     : Nat := 0
  engsh  : Nat := 0
  keysrc : Nat := 0
  slots  : Nat := 0
  sramu  : Nat := 0
  nodes  : List PNode := []
  queues : List PQueue := []
  words  : List Nat := []
  bytes  : List Byte := []
  deriving DecidableEq, Repr

/-- A piece a node has out: its node, item, what it is for, and how it ended (R243, R382). -/
structure PPiece where
  id   : Nat := 0
  node : Nat := 0
  item : Nat := 0
  elem : Nat := 0
  last : Bool := false
  what : Nat := 0                 -- 0 data or descriptor, 1 + i block i of a sheet, 100 sheet header
  write : Bool := false
  done : Bool := false
  data : List Byte := []
  st   : Nat := 0
  deriving DecidableEq, Repr

/-- What a node keeps between firings. -/
structure NodeSt where
  busy   : Bool := false          -- a group, range, command or sheet is under way
  item   : Nat := 0
  accs   : List Acc := []
  cnt    : Nat := 0
  fail   : Nat := 0
  toks   : List Tok := []         -- tokens held: an item's keys, a sheet's data, the items of armed timers
  pva    : Nat := 0               -- range under way
  len    : Nat := 0
  pos    : Nat := 0
  buf    : List Byte := []
  phase  : Nat := 0
  counts : Tbl Nat := []
  deriving DecidableEq, Repr

/-- A ring of a binding on a core (R392). -/
structure PRing where
  ring : Nat := 0
  pva  : Nat := 0
  ents : Nat := 16
  mark : Nat := 0
  core : Nat := 0
  next : Nat := 0
  count : Nat := 0                -- descriptors taken since binding
  deriving DecidableEq, Repr

/-- An item in flight: its number, its descriptor count, its first nonzero STAT. -/
structure PItem where
  item  : Nat := 0
  count : Nat := 0
  stat  : Nat := 0
  deriving DecidableEq, Repr

/-- A user plate instance on a core, and the binding it serves. -/
structure PInst where
  core   : Nat := 0
  slot   : Nat := 0
  chase  : Nat := 0
  party  : Nat := 0
  plate  : Nat := 0
  ring   : PRing := {}
  fault  : Bool := false
  drain  : Bool := false          -- its binding was removed (R393)
  mute   : Bool := false          -- MARK operations are not performed (R393, R399)
  lastst : Nat := 0
  items  : List PItem := []
  queues : List (List Tok) := []
  nodes  : List NodeSt := []
  pieces : List PPiece := []
  nextP  : Nat := 0
  deriving DecidableEq, Repr

/-- A binding of a user plate (R392). -/
structure PBind where
  chase   : Nat := 0
  party   : Nat := 0
  plate   : Nat := 0
  rings   : List PRing := []
  staged  : Bool := false
  leaving : Bool := false
  deriving DecidableEq, Repr

/-- A standard instance on a core (R390, R391). -/
structure StdInst where
  core  : Nat := 0
  slot  : Nat := 0
  chase : Nat := 0
  plate : Nat := 0
  fault : Bool := false
  deriving DecidableEq, Repr

/-- A PLATE_LOAD under way: its chase and the pieces written (R389). -/
structure PLoad where
  chase : Nat := 0
  data  : List Byte := []
  deriving DecidableEq, Repr

structure Plates where
  images : List PImage := []
  loads  : List PLoad := []
  binds  : List PBind := []
  insts  : List PInst := []
  std    : List StdInst := []
  deriving DecidableEq, Repr

end Sys2Proof.Machine
end

