-- ==== Sys2Proof/Machine/StatePress.lean ====
section
/-! DEFINITION. The state of the services of the press: reductions and their rounds (Reductions and Collectives). -/

namespace Sys2Proof.Machine
open Sys2Proof

/-! ### Reductions (R318–R346, R460–R467) -/

/-- A receiver of a chunk and its outcome (R334, R335): 0 not yet sent, 1 sent, 2 acknowledged, 3 missed. -/
structure RedRcv where
  eid   : Nat := 0
  child : Bool := false
  st    : Nat := 0
  deriving DecidableEq, Repr

/-- How far a chunk of a round has come: open, its output sent up, sealed. -/
inductive ChunkSt where
  | open_ | sent | sealed_
  deriving DecidableEq, Repr

/-- A chunk of a round: its accumulators, bitmap, party mask and release buffer (R321, R329, R464). -/
structure ChunkRun where
  chunk  : Nat := 0
  core   : Nat := 0
  accs   : List Acc := []
  addcnt : Nat := 0
  ins    : List Nat := []          -- inputs added: index into LRANKS, or LRANKS + index into CHILDREN
  units  : List Nat := []          -- COPY: the contribution's packed units
  pmask  : Nat := 0
  st     : ChunkSt := .open_
  result : List (Nat × List Byte) := []   -- release buffer: (ELEMOFF, payload) of each packet of the result train
  resid  : List Acc := []          -- the residual this round writes (R339)
  rcvs   : List RedRcv := []
  up     : Option Nat := none      -- the parent's delivery awaiting its answer (R334)
  deriving DecidableEq, Repr

/-- A live round (R327). -/
structure RedRound where
  rnd    : Nat := 0
  epoch  : Nat := 0
  party  : Nat := 0
  chunks : List ChunkRun := []
  drain  : Bool := false
  failed : Nat := 0                -- FAILWHY; 0: it has not failed
  told   : Bool := false           -- its REDFAIL notices are sent
  sat    : Bool := false           -- an element of a saturated group (R332)
  pois   : Bool := false
  missed : List Nat := []          -- EIDs of receivers missed
  cnt    : Option Nat := none      -- die that counts the round under its epoch until its release (R58)
  deriving DecidableEq, Repr

/-- A reduction definition at this switch and its rounds. -/
structure Red where
  chase   : Nat := 0
  d       : RedDef := {}
  staged  : Bool := false          -- takes effect at the next commit
  leaving : Bool := false          -- goes at the next commit
  dead    : Bool := false          -- its coordinator's die was lost (R344)
  cur     : Nat := 0
  rounds  : List RedRound := []
  lastst  : Nat := 0
  lastrnd : Nat := 0
  failwhy : Nat := 0
  misses  : Nat := 0
  resid   : Tbl (List Acc) := []   -- valid copy of the residual store, per chunk (R339)
  badRes  : List Nat := []         -- chunks whose residual is poisoned in both copies (R340)
  deriving DecidableEq, Repr

/-! ### Press services (R347–R381) -/

/-- What a service job does. -/
inductive SvcKind where
  | gather
  | scatter
  | update (shard : Nat)     -- the optimiser pass of one shard at the close of a step (R362, R363)
  | scan
  deriving DecidableEq, Repr

/-- A service job at its core: a gather, a scatter-update, a shard's optimiser pass, a scan. -/
structure Svc where
  id     : Nat := 0
  kind   : SvcKind := .gather
  chase  : Nat := 0
  epoch  : Nat := 0
  party  : Nat := 0
  req    : Option Nat := none
  table  : Nat := 0
  die    : Nat := 0              -- ingress port die, or the die that started it
  core   : Nat := 0              -- lead core, or the core that executes it
  cores  : List Nat := []        -- shard and hot cores at work for it
  k      : Pkt := {}             -- first packet of the request
  stream : List Byte := []       -- the payload stream; for a by-reference request, header and lists as read
  stage  : Nat := 0              -- 0 lists, 1 rows, gradients or records, 2 writes, 3 header
  left   : Nat := 0              -- accesses out
  got    : Tbl (List Byte) := [] -- bytes read: key 2^16 × item + piece
  bad    : Tbl Status := []      -- items whose access ended otherwise than OK
  rows   : List Nat := []        -- the row of each item
  base   : Nat := 0              -- row 0 of the version it works on
  ver    : Nat := 0
  st     : Status := .ok         -- outcome so far, its position, its flags
  pos    : Nat := 0
  fl     : Nat := 0
  hdr    : List Byte := []       -- header of a scan's output
  deriving DecidableEq, Repr

/-- A row's entry in a shard's update buffer (R361). -/
structure UpdRow where
  row  : Nat := 0
  accs : List Acc := []
  cnt  : Nat := 0
  deriving DecidableEq, Repr

/-- A shard of an open update step, with the core it had when the step opened (R361, R368). -/
structure UpdShard where
  first : Nat := 0
  core  : Nat := 0
  buf   : List UpdRow := []
  deriving DecidableEq, Repr

/-- USTATE (IMP_EMB_STAT). -/
inductive UState where
  | idle | open_ | closing | failed
  deriving DecidableEq, Repr

def UState.code : UState → Nat
  | .idle => 0 | .open_ => 1 | .closing => 2 | .failed => 3

/-- What a shard core counts of its shard in a window (R367): occurrences, rows read, hot splits, rows written. -/
structure ShardLoad where
  occ : Nat := 0
  rd  : Nat := 0
  hot : Nat := 0
  upd : Nat := 0
  deriving DecidableEq, Repr

/-- An embedding table (R347–R368). -/
structure Emb where
  chase    : Nat := 0
  d        : EmbDef := {}
  staged   : Bool := false
  leaving  : Bool := false
  cur      : Nat := 0
  drnLive  : Bool := false
  drn      : Nat := 0
  drnClosed : Bool := false
  drnHold  : Nat := 0
  drnBound : Nat := 0
  curBase  : Nat := 0
  drnBase  : Nat := 0
  newBase  : Option Nat := none    -- accepted by EMB_VERSION, not yet current
  ust      : UState := .idle
  lastst   : Nat := 0
  failwhy  : Nat := 0
  usteps   : Nat := 0
  shards   : List UpdShard := []   -- the shard map of the open step and its buffers
  ubase    : Nat := 0
  sat      : Bool := false         -- a row of the step was saturated
  lr       : Nat := 0              -- LR and EPS of the open step
  eps      : Nat := 0
  nlr      : Nat := 0              -- of the next
  neps     : Nat := 0
  load     : Tbl ShardLoad := []   -- by FIRST of the shard: the running window
  latched  : Tbl ShardLoad := []   -- the last complete one
  deriving DecidableEq, Repr

/-- What became of a choice (R373, R374). -/
inductive ChoiceSt where
  | waiting | used | dropped | omitted
  deriving DecidableEq, Repr

structure Choice where
  expert : Nat := 0               -- as dispatched
  at_    : Nat := 0               -- the expert it went to
  gate   : Nat := 0               -- FP32 code
  fb     : Bool := false          -- overflowed to its fallback
  late   : Bool := false          -- sent to its fallback at its deadline (DLPOL 1)
  st     : ChoiceSt := .waiting
  deriving DecidableEq, Repr

/-- A token and its combine slot (R371, R373). -/
structure Token where
  tokid   : Nat := 0
  slot    : Nat := 0
  data    : List Byte := []
  choices : List Choice := []
  accs    : List Acc := []
  cnt     : Nat := 0
  gates   : Acc := {}             -- exact sum of the used gates
  deriving DecidableEq, Repr

/-- A DISPATCH under way at its dispatch core. -/
structure MoeReq where
  id    : Nat := 0
  core  : Nat := 0
  step  : Nat := 0
  k     : Pkt := {}
  toks  : List Token := []
  extra : Bool := false           -- its further DLINE runs
  sent  : Bool := false           -- its COMBINE delivery is out
  cnt   : Option Nat := none      -- die that counts it under its epoch until it has combined (R58; log 35)
  deriving DecidableEq, Repr

/-- Choices an expert core holds for one dispatch core (R373): (request, token, choice). -/
structure MoeBatch where
  step   : Nat := 0
  expert : Nat := 0
  core   : Nat := 0
  recs   : List (Nat × Nat × Nat) := []
  deriving DecidableEq, Repr

/-- A mixture (R369–R376). -/
structure Moe where
  chase   : Nat := 0
  d       : MoeDef := {}
  staged  : Bool := false
  leaving : Bool := false
  disp    : List Nat := []         -- dispatch cores
  cur     : Option Nat := none     -- step C
  drain   : Option Nat := none     -- the draining step
  counts  : Tbl Nat := []          -- choices admitted: key 2^12 × step + expert
  full    : List (Nat × Nat) := [] -- (step, expert) answered BUSY
  reqs    : List MoeReq := []
  batches : List MoeBatch := []
  deriving DecidableEq, Repr

structure Press where
  reds : List Red := []
  nextS : Nat := 1
  svcs : List Svc := []
  embs : List Emb := []
  moes : List Moe := []
  plates : Plates := {}
  deriving DecidableEq, Repr

end Sys2Proof.Machine
end

