-- ==== Sys2Proof/Machine/State.lean ====
section
/-! DEFINITION. The state of the device, the reasons a step can stop, and the state after reset. -/

namespace Sys2Proof.Machine
open Sys2Proof

/-- Why the machine stops. No command of this device stops it: every effect the spec gives, refusals by status included, is a
next state. The one constructor is kept for a state no step reaches. Nothing raises it (safe). -/
inductive Fault where
  /-- Raised by nothing. -/
  | unreachable_
  deriving DecidableEq, Repr

/-- Why a command has no meaning in the model. -/
inductive Refusal where
  /-- Raised by the arms of `exec` for commands without a meaning yet: safe, nothing can be proved of such a command. -/
  | notModelled (mnemonic : String)
  deriving DecidableEq, Repr

/-- What leaves the device: flits on ports, CXL.mem requests on tray links, replies and notices of the active keeper. -/
inductive Emit where
  | flit (port : Nat) (f : Flit)
  | ackFlit (port : Nat) (ackseq : Nat) (nak : Bool)
  | ptp (port kind seq time : Nat) (corr : Int)
  | pps (keeper second : Nat)
  | cxlRead (link id addr len : Nat)
  | cxlWrite (link id addr : Nat) (data : List Byte) (poison : Bool)
  | reply (sess : Option Nat) (tr : Transport) (r : Reply)
  | notice (sess : Nat) (n : Notice)
  | spdm (sess : Option Nat) (tr : Transport) (peer code : Nat) (body : List Nat)
  | netAnswer (kind : Nat) (body : List Nat)
  | pldm (body : List Nat)
  | ring (die : Nat) (msg : Nat) (body : List Nat)
  | meterFlash (body : List Nat)
  | trayKey (eid key : Nat) (install : Bool)
  | toKeeper (src : Nat) (body : List Byte)
  | avs (domain code : Nat)
  | enable (domain : Nat) (on : Bool)
  | liveness (die : Nat)
  deriving DecidableEq, Repr

/-- Everything the device holds but the queue of waiting commands. -/
structure Dev where
  clk    : Nat := 0              -- cycles of the 156.25 MHz reference since reset (R33, R198)
  free   : Nat := 0              -- the model's own counter of free values drawn
  cfg    : Tbl Nat := []         -- register words written since reset, by regKey; absent: the reset word
  cnt    : Tbl W64 := []         -- counters, by cntKey
  chk    : Tbl W64 := []         -- per-chase check counters of R43: key 4 × chase + step − 1
  out    : List Emit := []       -- what the running step sends, oldest first (the model's own; empty between steps)
  links  : Tbl Link := []        -- by port number
  trays  : Tbl TrayLink := []    -- by tray link number
  arrived : List Rx := []        -- packets assembled from data flits, not yet taken (R91)
  tfp    : Tfp := {}
  core   : Core := {}
  sched  : Sched := {}
  time   : Time := {}
  imp    : Imp := {}
  pool   : Pool := {}
  marks  : Marks := {}
  press  : Press := {}
  flt    : Faults := {}
  mgmt   : Mgmt := {}
  pwr    : Power := {}
  meter  : Meter := {}
  snap   : Snap := {}
  exp    : Tbl Nat := []         -- what a die has counted for an account and not yet exported, by expKey (R476)
  expPort : Tbl (Nat × Nat) := []  -- the same for a port: bytes sent, bytes received
  deriving DecidableEq, Repr

/-- The state of the machine: the device, the commands that are waiting, first in, first out, and what has left the device, oldest first
(the model's own record). -/
structure State where
  dev     : Dev := {}
  pending : List Instr := []
  sent    : List Emit := []
  deriving DecidableEq, Repr

/-- The machine right after a cold reset has ended: every field at its reset value, the queue empty. -/
def State.reset : State := {}

/-- What a meaning answers. -/
abbrev Out := Host.Outcome State Fault Refusal

/-- The state after a step that leaves the device as `d`: what the step sent has left it. -/
def State.put (s : State) (d : Dev) : State := { s with dev := { d with out := [] }, sent := s.sent ++ d.out }

/-- A meaning that changes the device and leaves the queue alone. -/
def onDev (f : Dev → Dev) (s : State) : Out := .next (s.put (f s.dev))

end Sys2Proof.Machine
end

