-- ==== Sys2Proof/Machine/Ops.lean ====
section
/-! DEFINITION. The named operations every meaning is written over: register words, counters, error records, event notices,
replies, clocks, dies and domains. -/

namespace Sys2Proof.Machine
open Sys2Proof

/-! ### Registers and counters -/

/-- The word a register element holds: the last value written, or the reset value (R10). -/
def Dev.reg (d : Dev) (r : RegName) (ix : Nat) : Nat := tget (regReset r ix) d.cfg (regKey r ix)

/-- Field [hi:lo] of a register element. -/
def Dev.fld (d : Dev) (r : RegName) (ix hi lo : Nat) : Nat := bits (d.reg r ix) hi lo

/-- A one-bit field of a register element. -/
def Dev.flag (d : Dev) (r : RegName) (ix i : Nat) : Bool := bit (d.reg r ix) i

/-- Write a register word. -/
def Dev.setReg (d : Dev) (r : RegName) (ix v : Nat) : Dev := { d with cfg := tput d.cfg (regKey r ix) v }

/-- The key of a counter of one unit (a port number, a die code, 8 × die + plane or class). -/
def cntKey (c : CntName) (unit : Nat) : Nat := c.ctorIdx * 2 ^ 20 + unit

def Dev.counter (d : Dev) (c : CntName) (unit : Nat) : W64 := tget 0 d.cnt (cntKey c unit)

/-- The counters of the tables, in the order of R561's sets. -/
def cntAll : List CntName :=
  [.cFlittx, .cFlitrx, .cCrcerr, .cNaktx, .cReplay, .cAuthfail, .cProtoerr, .cVludrop, .cLanefail, .cFeccorr, .cFecuncorr, .cWrstdrop,
    .cHdrerr, .cTrainerr, .cLateresp, .cResplost, .cDuphit, .cDupmism, .cFiltfull, .cCtoexp]
  ++ [.cNoroute, .cDropthr, .cDropred, .cMarked, .cSkip, .cSliceerr, .cXresend, .cXfail, .cRsqgap, .cGateon, .cMcmiss, .cMcretrycnt,
    .cMcnoslot, .cHellmove, .cPromote, .cGuardhold, .cGuardstuck, .cPolyellow, .cPolred, .cPtpdisc]
  ++ [.cDenycls, .cCemerge, .cPoisref, .cPoisclr, .cPoisrd, .cTgtlost, .cTraytmo, .cDegread, .cRbslot, .cMovjob, .cMovfail,
    .cMirrd, .cScrubce, .cCachefill, .cWback, .cCohstale, .cCoherr, .cDirovf, .cDirfull, .cDirerr, .cLateans, .cWininv, .cNotsent, .cNotmiss]
  ++ [.cNanout, .cInfout, .cOvfout, .cSatout, .cCarryin, .cCarrybad, .cFmtmism, .cRedcontrib, .cRedcarryout, .cRedbusy, .cRedoverrun,
    .cRedfails, .cRedrelease, .cRedresult, .cRedmiss, .cRedreissue, .cGathers, .cRowfetch, .cHotsplit, .cUpdrows, .cUpdpois, .cUpdfails]
  ++ [.cTverstrag, .cMoedrop, .cMoeomit, .cMoelate, .cMoemiss, .cScanrec, .cScandeny, .cScanskip, .cPlatefull, .cPlitemerr, .cPlfault,
    .cPlitems, .cEngidle, .cCmpsheet, .cCmpinb, .cCmpoutb, .cCmpzero, .cCmpraw, .cExpblk, .cCodeflt, .cExppois]
  ++ [.cMkops, .cMkheld, .cMkwfull, .cMkwtmo, .cMksat, .cMkovr, .cMkdup, .cMkbreak, .cMkrecl, .cMkupfail, .cSealfail, .cKminfail,
    .cNohop, .cBadstat, .cSinglecopy, .cCredstall, .cSnapstray, .cBadpkt, .cSpdmreplay, .cMgmtdrop, .cCmdrefuse]

/-- What a counter is kept per: a die, a port, a plane or a class of a port die (R114, R179, R205). -/
inductive CntPer where
  | die | port | plane | cls
  deriving DecidableEq, Repr

def cntPer : CntName → CntPer
  | .cFlittx | .cFlitrx | .cCrcerr | .cNaktx | .cReplay | .cAuthfail | .cProtoerr | .cVludrop | .cLanefail | .cFeccorr | .cFecuncorr
  | .cWrstdrop => .port
  | .cSkip | .cSliceerr => .plane
  | .cPromote => .cls
  | _ => .die

/-- The die that keeps the counter at a key. -/
def cntDie (k : Nat) : Nat :=
  let u := k % 2 ^ 20
  match (cntAll[k / 2 ^ 20]?).map cntPer with
  | some .port => u / 64
  | some .plane | some .cls => u / 8
  | _ => u

/-- Add to a counter; it saturates without wrapping (R114). -/
def Dev.countN (d : Dev) (c : CntName) (unit n : Nat) : Dev :=
  { d with cnt := tput d.cnt (cntKey c unit) (satAdd64 (d.counter c unit) n) }

def Dev.count (d : Dev) (c : CntName) (unit : Nat) : Dev := d.countN c unit 1

/-- Send something out of the device. -/
def Dev.emit (d : Dev) (e : Emit) : Dev := { d with out := d.out ++ [e] }

def Dev.emitIf (d : Dev) (b : Bool) (e : Emit) : Dev := if b then d.emit e else d

/-- Draw a free value. -/
def Dev.draw (d : Dev) : Nat × Dev := (Config.freeNat d.free, { d with free := d.free + 1 })

/-! ### Clocks -/

/-- Reference cycles in one millisecond (156.25 MHz, R33). -/
abbrev cycMs : Nat := 156250

/-- Fabric time in ns (R198). -/
def Dev.now (d : Dev) : Nat := d.time.frac / 2 ^ 32

/-- One cycle of the reference: every fabric-time counter adds 6.4 ns scaled by the rate word, keeping fractions of
2^-32 ns (R198). -/
def Dev.tick (d : Dev) : Dev :=
  let base : Nat := 27487790694        -- 6.4 × 2^32, to the nearest unit
  let inc : Int := (base : Int) + (base : Int) * d.time.rate / 1000000000
  { d with clk := d.clk + 1, time := { d.time with frac := d.time.frac + inc.toNat } }

/-! ### Dies and domains (R19, R504, R567) -/

/-- DIE code of PTn, PXn, XPk, KPk, GSn (FLT_ERRLOG map). -/
def dPT (n : Nat) : Nat := n
def dPX (n : Nat) : Nat := 16 + n
def dXP (n : Nat) : Nat := 24 + n
def dKP (n : Nat) : Nat := 29 + n
abbrev dPackage : Nat := 31
def dGS (n : Nat) : Nat := 32 + n

/-- Is a die held lost (R512)? -/
def Dev.lost (d : Dev) (die : Nat) : Bool := d.flt.lostDies.contains die

/-- The domains of a die (domain table, R567). -/
def dieDomains (die : Nat) : List Nat :=
  if die < 16 then [2 * die + 1, 2 * die]
  else if die < 24 then [37 + 2 * (die - 16), 38 + 2 * (die - 16)]
  else if die < 29 then [32 + (die - 24)]
  else if die < 31 then [61 + (die - 29)]
  else if 32 ≤ die ∧ die < 40 then [53 + (die - 32)]
  else []

/-- The die a domain belongs to, by DIE code; the meter has none (R567). -/
def domainDie (p : Nat) : Nat :=
  if p < 32 then p / 2
  else if p < 37 then 24 + (p - 32)
  else if p < 53 then 16 + (p - 37) / 2
  else if p < 61 then 32 + (p - 53)
  else if p = 61 then 29 else if p = 62 then 30 else 31

/-- The parent of a domain (R568). -/
def domainParent (p : Nat) : Option Nat :=
  if p < 32 then (if p % 2 = 0 then some (p + 1) else none)
  else if p < 37 then none
  else if p < 53 then (if (p - 37) % 2 = 1 then some (p - 1) else none)
  else if p < 61 then some (38 + 2 * (p - 53))
  else none

/-- Does a domain report its pace (R29)? The odd port-die domains, the planes, both domains of each press die. -/
def domainReports (p : Nat) : Bool := (p < 32 && p % 2 == 1) || (32 ≤ p && p < 53)

/-- Is a domain on and past its switching on (R568, R590, R606)? -/
def Dev.domOn (d : Dev) (p : Nat) : Bool := bit d.pwr.on p && !d.pwr.toSeq.contains p && !d.pwr.waitPg.contains p

/-- The domain that carries a die's own work: link logic of a port die, compute of a press die (R567). -/
def mainDomain (die : Nat) : Nat := (dieDomains die).headD 63

/-- Does a die take part: its own domain on, not held lost, its self-test ended (R512, R571)? -/
def Dev.dieUp (d : Dev) (die : Nat) : Bool :=
  d.domOn (mainDomain die) && !d.lost die && !d.pwr.stest.contains die && !d.pwr.joining.contains die

/-- Planes that carry slices: on, not lost, in use (R164, R572). -/
def Dev.planes (d : Dev) : List Nat := (upTo 5).filter fun k => d.dieUp (dXP k) && !d.core.planeOff.contains k

/-- Is stack n there: neither GSn nor PXn lost or off (R514)? -/
def Dev.stackThere (d : Dev) (n : Nat) : Bool :=
  !d.lost (dGS n) && !d.lost (dPX n) && d.domOn (37 + 2 * n) && d.domOn (38 + 2 * n) && d.domOn (53 + n)

/-- Can stack n be reached: there, and its dies past their self-tests (R514, R571)? -/
def Dev.stackUp (d : Dev) (n : Nat) : Bool := d.stackThere n && d.dieUp (dGS n) && d.dieUp (dPX n)

/-- The stack that mirrors stack n (R514). -/
def pairOf (n : Nat) : Nat := (n + 4) % 8

/-- The press die that serves stack n: PXn, else the pair's press die from the mirror copies, else none (R514). -/
def Dev.stackServer (d : Dev) (n : Nat) : Option Nat :=
  if d.stackUp n then some n else if d.stackUp (pairOf n) then some (pairOf n) else none

/-! ### Event notices (R558–R560) -/

/-- The bit of NOTICE_SUB a code belongs to: its group (R560). -/
def noticeGroup (code : Nat) : Nat := code / 256

/-- The rate key of a notice, or none where its own rule sets another rate (R559; HELLBOX R176 once per audit). GUARDSTUCK is
limited per port and class (R192). -/
def noticeKey (code p0 p1 : Nat) : Option Nat :=
  if code = 0x020F then none
  else if code = 0x0806 then some (code * 2 ^ 80 + p0 * 8 + p1)
  else some (code * 2 ^ 80 + p0)

/-- Put a notice into the delivery queue of a session that subscribed to its group; a full queue drops its oldest (R560). -/
def Session.push (se : Session) (n : Notice) : Session :=
  if bit se.mask (noticeGroup n.code) then
    if se.queue.length < 256 then { se with queue := se.queue ++ [n] }
    else { se with queue := se.queue.drop 1 ++ [n], dropped := se.dropped + 1 }
  else se

/-- Number a notice, write it to the ring of 8,192 and queue it for every subscribed session (R558, R560). -/
def Dev.putNotice (d : Dev) (n : Notice) : Dev :=
  let n := { n with nseq := d.mgmt.nseq }
  { d with mgmt := { d.mgmt with
      nseq := d.mgmt.nseq + 1
      ring := (n :: d.mgmt.ring).take 8192
      sessions := d.mgmt.sessions.map fun e => (e.1, e.2.push n) } }

/-- Send an event notice: held back at most once per 1 ms for each code and P0 unless its rule says otherwise, numbered,
written to the ring of 8,192, and queued for every subscribed session. Nothing is sent while no keeper is active. -/
def Dev.notice (d : Dev) (code die : Nat) (chase : Option Nat) (p0 p1 p2 : Nat) (list : List Nat := []) : Dev :=
  match d.mgmt.active with
  | none => d
  | some _ =>
    let key := noticeKey code p0 p1
    let last := key.bind (tfind d.mgmt.rate)
    let blocked := match last with
      | some (t, _) => decide (d.clk < t + cycMs)
      | none => false
    if blocked then
      let held := ((last.map Prod.fst).getD 0, (last.map Prod.snd).getD 0 + 1)
      { d with mgmt := { d.mgmt with rate := tput d.mgmt.rate (key.getD 0) held } }
    else
      let n : Notice :=
        { code := code, time := d.now, die := die, chase := chase
          supp := (last.map Prod.snd).getD 0, p0 := p0, p1 := p1, p2 := p2, list := list.take 256 }
      { d with mgmt := { d.mgmt with rate := (match key with | some k => tput d.mgmt.rate k (d.clk, 0) | none => d.mgmt.rate) } }.putNotice n

/-! ### What the dies count for the meter (R473, R476) -/

/-- Key of what a die has counted for an account: quantity 0 BYTESIN, 1 BYTESOUT, 2 ELEMOPS, 3 galley lines read or written. -/
def expKey (die acct q : Nat) : Nat := (die * 2 ^ 18 + acct) * 4 + q

/-- Count for the account of a party of a chase. -/
def Dev.account (d : Dev) (die chase party q n : Nat) : Dev :=
  { d with exp := tmod 0 d.exp (expKey die (64 * chase + party) q) (· + n) }

/-- Count packet bytes sent and received on a port. -/
def Dev.portBytes (d : Dev) (port sent got : Nat) : Dev :=
  { d with expPort := tmod (0, 0) d.expPort port fun x => (x.1 + sent, x.2 + got) }

/-! ### Error records (R499, R504, R505) -/

/-- Does an occurrence coalesce into a record: same DIE, UNIT and LOC within RECCOAL ms of its TIME (R504)? -/
def Dev.coalesces (d : Dev) (r : ErrRec) (die unit loc : Nat) : Bool :=
  r.die == die && r.unit == unit && r.loc == loc && decide (d.now < r.time + 1000000 * d.fld .fltThr 0 7 0)

/-- Write a record into the FLT_ERRLOG ring and, for classes 1 to 4, send the ERROR notice that carries it (R504, R505). -/
def Dev.pushRec (d : Dev) (r : ErrRec) : Dev :=
  let d := { d with flt := { d.flt with ring := tput d.flt.ring d.flt.head r, head := (d.flt.head + 1) % 4096 } }
  if r.cls = 0 then d
  else d.notice 0x0901 r.die r.chase (bits r.word 63 0) (bits r.word 127 64) (bits r.word 191 128)

/-- Does the die keep a log of its own (port and press dies, R504)? -/
def hasLog (die : Nat) : Bool := die < 24

/-- Record an occurrence (R504): while a keeper is active it enters the ring or coalesces there; otherwise a port or press die
keeps it in its own log of 64 records, and what does not fit is counted with the highest class and the first time. -/
def Dev.record (d : Dev) (cls die unit : Nat) (chase : Option Nat) (loc : Nat) : Dev :=
  let r : ErrRec := { time := d.now, cls := cls, die := die, unit := unit, chase := chase, loc := loc }
  match d.mgmt.active with
  | some _ =>
    if d.flt.ring.any (fun e => d.coalesces e.2 die unit loc) then
      let ring := d.flt.ring.map fun e =>
        if d.coalesces e.2 die unit loc then (e.1, { e.2 with count := min 65535 (e.2.count + 1) }) else e
      { d with flt := { d.flt with ring := ring } }
    else d.pushRec r
  | none =>
    let own := tget [] d.flt.dieLog die
    if hasLog die && own.any (fun e => d.coalesces e die unit loc) then
      let own' := own.map fun e =>
        if d.coalesces e die unit loc then { e with count := min 65535 (e.count + 1) } else e
      { d with flt := { d.flt with dieLog := tput d.flt.dieLog die own' } }
    else if hasLog die && decide (own.length < 64) then
      { d with flt := { d.flt with dieLog := tput d.flt.dieLog die (own ++ [r]) } }
    else if hasLog die || (24 ≤ die && die < 29) || 32 ≤ die then
      let lv := tget {} d.flt.lostVals die
      { d with flt := { d.flt with
          logLost := if hasLog die then min (2 ^ 20 - 1) (d.flt.logLost + 1) else d.flt.logLost
          lostVals := tput d.flt.lostVals die
            { count := lv.count + 1, cls := max lv.cls cls, time := if lv.count = 0 then d.now else lv.time } } }
    else d

/-- A keeper that becomes active collects the dies' logs and their lost values: one lost-record report per such die before any
other record of that die (R504). -/
def Dev.collectLogs (d : Dev) : Dev :=
  let reports : List ErrRec := d.flt.lostVals.filterMap fun e =>
    if e.2.count = 0 then none
    else some { time := e.2.time, cls := e.2.cls, die := e.1, unit := 0x1F, count := e.2.count, loc := 0 }
  let planeLost := sumNat (d.flt.lostVals.map fun e => if hasLog e.1 then 0 else e.2.count)
  let held := d.flt.dieLog.flatMap Prod.snd
  let total := min (2 ^ 20 - 1) (d.flt.logLost + planeLost)
  let d := { d with flt := { d.flt with lostVals := [], dieLog := [], logLost := total } }
  foldOver (reports ++ held) d fun r d => d.pushRec r

/-- Count a corrected error of a die's unit (R499). -/
def Dev.corrected (d : Dev) (die unit n : Nat) : Dev :=
  { d with flt := { d.flt with ceCount := tmod 0 d.flt.ceCount (32 * die + unit) (· + n) } }

/-! ### Replies (R547–R551) -/

def Dev.session (d : Dev) (n : Nat) : Option Session := tfind d.mgmt.sessions n

def Dev.modSession (d : Dev) (n : Nat) (f : Session → Session) : Dev :=
  { d with mgmt := { d.mgmt with sessions := d.mgmt.sessions.map fun e => if e.1 = n then (e.1, f e.2) else e } }

/-- The die code of the active keeper, for its counters. -/
def Dev.kpDie (d : Dev) : Nat := dKP (d.mgmt.active.getD 0)

/-- Send a reply: counted in CMDREFUSE unless OK or TIGHT, cached with its session, and register writes that wait for their
reply take effect (R541, R543, R549). -/
def Dev.sendReply (d : Dev) (sess : Option Nat) (tr : Transport) (r : Reply) : Dev :=
  let d := if r.status = .ok ∨ r.status = .tight then d else d.count .cCmdrefuse d.kpDie
  let d := d.emit (.reply sess tr r)
  let d := match sess with
    | some n => d.modSession n fun se => { se with cache := (r :: se.cache).take 64 }
    | none => d
  { d with cfg := d.mgmt.cfgAfter.foldl (fun c e => tput c e.1 e.2) d.cfg, mgmt := { d.mgmt with cfgAfter := [] } }

/-- The reply to the command carried by `b`. -/
def Dev.reply (d : Dev) (b : Bas) (opc : Nat) (st : Status) (dcode : Nat := 0) (dval : Nat := 0) (data : List Nat := []) :
    Dev :=
  d.sendReply b.sess b.tr { opc := opc, cseq := b.cseq, status := st, dcode := dcode, dval := dval, data := data }

/-- Leave a command running: its reply comes later, and its domain stays busy (R547). -/
def Dev.defer (d : Dev) (b : Bas) (dom : Dom) (opc key : Nat) (aux : Nat := 0) : Dev :=
  let r : Running := { dom := dom, sess := b.sess, tr := b.tr, cseq := b.cseq, opc := opc, key := key, aux := aux }
  { d with mgmt := { d.mgmt with running := d.mgmt.running ++ [r] } }

/-- Send the reply of a running command named by its opcode and key. -/
def Dev.finish (d : Dev) (opc key : Nat) (st : Status) (dcode : Nat := 0) (dval : Nat := 0) (data : List Nat := []) : Dev :=
  match d.mgmt.running.find? (fun r => r.opc == opc && r.key == key) with
  | none => d
  | some r =>
    let d := { d with mgmt := { d.mgmt with running := dropFirst (fun r => r.opc == opc && r.key == key) d.mgmt.running } }
    d.sendReply r.sess r.tr { opc := opc, cseq := r.cseq, status := st, dcode := dcode, dval := dval, data := data }

/-- Is a command of this opcode and key running? -/
def Dev.isRunning (d : Dev) (opc key : Nat) : Bool := d.mgmt.running.any fun r => r.opc == opc && r.key == key

/-! ### Roles (R544) -/

/-- The roles a session's key holds when a command starts. -/
structure Roles where
  owner : Bool := false
  observer : Bool := false
  chases : List Nat := []
  deriving DecidableEq, Repr

def Roles.any (r : Roles) : Bool := r.owner || r.observer || !r.chases.isEmpty

def Dev.comp (d : Dev) (c : Nat) : Comp := tget {} d.imp.comps c

def Dev.roles (d : Dev) (digest : Nat) : Roles :=
  { owner := d.mgmt.owner == some digest
    observer := d.mgmt.observers.contains digest
    chases := (d.imp.comps.filter fun e => e.2.bound && e.2.cowner == digest).map Prod.fst }

/-- Who may issue a command (the Who column of R553): F, C of a chase, A, M, Pres, or nobody in particular. -/
inductive Who where
  | f | c (chase : Nat) | a | m | pres | info
  deriving DecidableEq, Repr

def Roles.allows (r : Roles) : Who → Bool
  | .f => r.owner
  | .c ch => r.owner || r.chases.contains ch
  | .a => r.any
  | .m => true
  | .pres => true
  | .info => true

/-! ### The order of execution of a Basod command (R547–R551) -/

/-- What the keeper needs to know of a command before it runs it: opcode, who may issue it, whether the reduced set of R552 holds
it, its serialisation domain (none for the reads of R547), the chase it names. -/
structure CmdInfo where
  opc   : Nat
  who   : Who
  i3c   : Bool := false
  dom   : Option Dom := none
  chase : Option Nat := none
  chaseAt : Nat := 0          -- byte offset of the chase field in the payload (DCODE 0x02, log 12)
  deriving DecidableEq, Repr

/-- Steps 1 to 3 of R551: format, transport, roles; the status of the first that fails. -/
def Dev.early (d : Dev) (b : Bas) (i : CmdInfo) : Option (Status × Nat × Nat) :=
  if b.fault then some (.unsupported, if b.faultAt.isSome then 0x02 else 0, b.faultAt.getD 0)
  else if b.tr = .i3c ∧ !i.i3c then some (.denied, 0, 0)
  else match b.sess.bind d.session with
    | none => some (.sealed_, 0, 0)
    | some se =>
      if !se.mutual_ || !se.fin then some (.sealed_, 0, 0)
      else
        let r := d.roles se.digest
        if !r.any && i.who != .m && i.who != .pres && i.who != .info then some (.sealed_, 0, 0)
        else if !r.allows i.who then some (.denied, 0, 0)
        else none

/-- Outstanding commands of a session: running or waiting for their domain (R548). -/
def Dev.outstanding (d : Dev) (b : Bas) : Nat :=
  (d.mgmt.running.filter fun r => r.sess == b.sess).length
    + (d.mgmt.held.filter fun h => h.2.1.sess == b.sess).length

/-- Is a command of this domain running? -/
def Dev.domRunning (d : Dev) (x : Dom) : Bool := d.mgmt.running.any fun r => r.dom == x

/-- Does a command of this domain run, or wait in the keeper's queue (R547)? -/
def Dev.domBusy (d : Dev) (x : Dom) : Bool := d.domRunning x || d.mgmt.held.any fun h => h.1 == x

/-- Is the command of this CSEQ running or waiting in its session (R549)? -/
def Dev.inProgress (d : Dev) (b : Bas) : Bool :=
  d.mgmt.running.any (fun r => r.sess == b.sess && r.cseq == b.cseq)
    || d.mgmt.held.any (fun h => h.2.1.sess == b.sess && h.2.1.cseq == b.cseq)

/-- Does the session's reply cache hold this CSEQ (R549)? -/
def Dev.cached (d : Dev) (b : Bas) : Option Reply :=
  (b.sess.bind d.session).bind fun se => se.cache.find? fun r => r.cseq == b.cseq

/-- Step 5 of R551: a chase being reset answers BUSY (R581), a command that names a chase without a composition is answered
UNSUPPORTED (R617); then the command's own checks and effect. -/
def Dev.runBody (d : Dev) (b : Bas) (i : CmdInfo) (body : Dev → Dev) : Dev :=
  match i.chase with
  | none => body d
  | some c =>
    if !(d.comp c).bound then d.reply b i.opc .unsupported 0x02 i.chaseAt
    else if (d.comp c).suspended then d.reply b i.opc .busy
    else body d

/-- Start a command: steps 1 to 3 of R551, then its body. -/
def Dev.startCmd (d : Dev) (b : Bas) (i : CmdInfo) (body : Dev → Dev) : Dev :=
  match d.early b i with
  | some (st, dc, dv) => d.reply b i.opc st dc dv
  | none => d.runBody b i body

/-- Does the session take a secured message of this sequence number: one it has not received, at most 63 below the highest (R543)? -/
def Session.takes (se : Session) (n : Nat) : Bool :=
  match se.hiSeq with
  | none => true
  | some h => decide (h < n) || (decide (h ≤ n + 63) && !se.seen.contains n)

/-- Note a sequence number as received (R543). -/
def Session.note (se : Session) (n : Nat) : Session :=
  let h := max n (se.hiSeq.getD 0)
  { se with hiSeq := some h, seen := (n :: se.seen).filter fun x => decide (h ≤ x + 63) }

/-- Is a transport taken (KP_MGMT_CFG, R541)? -/
def Dev.taken (d : Dev) (tr : Transport) : Bool :=
  d.flag .kpMgmtCfg 0 (match tr with | .inBand => 31 | .eth => 30 | .i3c => 29)

/-- What arrives before the order of execution: a transport that is taken, a packet of the right form (R542: else BADPKT), a
sequence number not yet received (R543: else SPDMREPLAY). -/
def Dev.received (d : Dev) (b : Bas) (body : Dev → Dev) : Dev :=
  if !d.taken b.tr then d
  else if b.bad then d.count .cBadpkt d.kpDie
  else match b.seq, b.sess.bind d.session with
    | some n, some se =>
      if se.takes n then body (d.modSession (b.sess.getD 0) fun se => se.note n) else d.count .cSpdmreplay d.kpDie
    | _, _ => body d

/-- A command reaches the keeper: a cached CSEQ resends its reply with DUPR, one in progress is absorbed (R549); beyond the limits
it is answered BUSY (R548); a busy domain holds it in the keeper's queue (R547); otherwise it starts. `self` is the command
itself, to be held. Nothing is accepted while no keeper is active (R37). -/
def Dev.command (d : Dev) (self : Instr) (b : Bas) (i : CmdInfo) (body : Dev → Dev) : Dev :=
  match d.mgmt.active with
  | none => d
  | some _ =>
    if d.mgmt.starting = some self then { d with mgmt := { d.mgmt with starting := none } }.startCmd b i body
    else d.received b fun d => match d.cached b with
      | some r => d.emit (.reply b.sess b.tr { r with dupr := true })
      | none =>
        if d.inProgress b then d
        else match i.dom with
          | none =>
            if decide (16 ≤ d.outstanding b) then
              d.startCmd b { i with chase := none } fun d => d.reply b i.opc .busy
            else d.startCmd b i body
          | some x =>
            if decide (16 ≤ d.outstanding b) || decide (1024 ≤ d.mgmt.held.length) then
              d.startCmd b { i with chase := none } fun d => d.reply b i.opc .busy
            else if d.domBusy x then { d with mgmt := { d.mgmt with held := d.mgmt.held ++ [(x, b, self)] } }
            else d.startCmd b i body

end Sys2Proof.Machine
end

