-- ==== Sys2Proof/Machine/Arith.lean ====
section
/-! DEFINITION. Press arithmetic: what each encoding stands for (R288–R293), accumulators and adding (R299–R304), the single rounding
(R305–R309), row-affine rows (R294), carry forms (R310–R312). Exact values are integers in units of 2^-149. -/

namespace Sys2Proof.Machine
open Sys2Proof

/-! ### Formats (R288–R290) -/

/-- A floating-point format: fraction bits, exponent bits, bias, largest finite magnitude code, does it have infinities, its canonical NaN. -/
structure FpFmt where
  m    : Nat
  e    : Nat
  bias : Nat
  top  : Nat
  inf  : Bool := false
  nan  : Option Nat := none

/-- The floating-point range table (R289); `none` for integer codes. -/
def fpFmt : Nat → Option FpFmt
  | 0 => some { m := 23, e := 8, bias := 127, top := 0x7F7FFFFF, inf := true, nan := some 0x7FC00000 }
  | 1 => some { m := 7, e := 8, bias := 127, top := 0x7F7F, inf := true, nan := some 0x7FC0 }
  | 2 => some { m := 10, e := 5, bias := 15, top := 0x7BFF, inf := true, nan := some 0x7E00 }
  | 3 => some { m := 3, e := 4, bias := 7, top := 0x7E, nan := some 0x7F }
  | 4 => some { m := 2, e := 5, bias := 15, top := 0x7B, inf := true, nan := some 0x7E }
  | 5 => some { m := 2, e := 3, bias := 3, top := 0x1F }
  | 6 => some { m := 3, e := 2, bias := 1, top := 0x1F }
  | 7 => some { m := 1, e := 2, bias := 1, top := 0x7 }
  | _ => none

/-- Element bits (format code table, R288). -/
def elemBits : Nat → Nat
  | 0 => 32 | 1 => 16 | 2 => 16 | 3 => 8 | 4 => 8 | 5 => 6 | 6 => 6 | 7 => 4 | 8 => 32 | 9 => 16 | 10 => 8 | 11 => 4 | _ => 0

/-- A decoded value: finite in units of 2^-149, an infinity, NaN. -/
inductive Num where
  | fin (v : Int)
  | inf (neg : Bool)
  | nan
  deriving DecidableEq, Repr

/-- `v × 2^(x + 149)` as an integer; every use keeps the exponent at 0 or above (R301). -/
def scaleUp (v : Int) (x : Int) : Int := v * ((2 ^ (x + 149).toNat : Nat) : Int)

/-- The value of a floating-point code, its exponent raised by `sc` (R289, R292). -/
def decodeFp (f : FpFmt) (c : Nat) (sc : Int) : Num :=
  let neg := bit c (f.m + f.e)
  let ex := bits c (f.m + f.e - 1) f.m
  let fr := c % 2 ^ f.m
  let mag := c % 2 ^ (f.m + f.e)
  if f.top < mag then (if f.inf && fr == 0 then .inf neg else .nan)
  else
    let mant : Int := if ex = 0 then fr else 2 ^ f.m + fr
    let x : Int := (max ex 1 : Nat) - (f.bias : Int) - f.m + sc
    .fin (scaleUp (if neg then -mant else mant) x)

/-- Two's complement of n bits. -/
def toSigned (n c : Nat) : Int := if bit c (n - 1) then (c : Int) - 2 ^ n else c

/-- Fraction bits of a block-scaled integer element (R290). -/
def intFrac : Nat → Nat
  | 10 => 6 | 11 => 2 | _ => 0

/-- The value of an element code, plain (`sc` none) or in a block of scale 2^sc. -/
def decodeElem (code c : Nat) (sc : Option Int) : Num :=
  match fpFmt code with
  | some f => decodeFp f c (sc.getD 0)
  | none =>
    let v := toSigned (elemBits code) c
    .fin (scaleUp v (match sc with | some s => s - intFrac code | none => 0))

/-! ### Format descriptor rows (R295) -/

structure FmtRow where
  code   : Nat := 0
  layout : Nat := 0
  rmode  : Nat := 0
  isat   : Bool := false
  accm   : Bool := false
  seed   : Nat := 0
  valid  : Bool := false
  chase  : Nat := 0
  fixed  : Bool := false
  deriving DecidableEq, Repr

def fmtOfWord (w : Nat) : FmtRow :=
  { code := bits w 30 27, layout := bits w 26 25, rmode := bits w 24 23, isat := bit w 22, accm := bit w 21
    seed := bits w 127 64, valid := bit w 31, chase := bits w 11 0 }

/-- A row of PX_FMTDESC: rows 0 to 11 fixed, 12 to 15 reserved and zero, the rest as written. -/
def fmtRow (d : Dev) (n : Nat) : FmtRow :=
  if n < 12 then { code := n, valid := true, fixed := true }
  else if n < 16 then {}
  else fmtOfWord (d.reg .pxFmtdesc n)

/-- May a chase use a row (R295)? -/
def fmtUsable (r : FmtRow) (chase : Nat) : Bool := r.valid && (r.fixed || r.chase == chase)

/-- Does a row decode in product mode (R296)? -/
def FmtRow.product (r : FmtRow) : Bool := r.layout != 0 || r.accm

/-! ### Packing (R291, R292) -/

/-- Element i of a packed bit stream. -/
def elemAt (s w i : Nat) : Nat := (s >>> (w * i)) % 2 ^ w

/-- Pack codes of w bits as a little-endian bit stream, padded with zero bits to whole bytes. -/
def packCodes (w : Nat) (cs : List Nat) : List Byte :=
  leBytes (cdiv (w * cs.length) 8) (cs.foldr (fun c a => a * 2 ^ w + c % 2 ^ w) 0)

/-- Size of a block record (R292). -/
def recordSize (code : Nat) : Nat := 1 + 4 * elemBits code

/-- Decode n plain elements. -/
def decodePlain (code n : Nat) (b : List Byte) : List Num :=
  let s := leNat b
  (upTo n).map fun i => decodeElem code (elemAt s (elemBits code) i) none

/-- Decode n elements of block records. -/
def decodeBlocks (code n : Nat) (b : List Byte) : List Num :=
  let z := recordSize code
  (upTo n).map fun i =>
    let r := (b.drop (i / 32 * z)).take z
    let x := ((r.head?).map BitVec.toNat).getD 0
    if x = 255 then .nan else decodeElem code (elemAt (leNat (r.drop 1)) (elemBits code) (i % 32)) (some ((x : Int) - 127))

/-- Decode n elements under a row's layout (0 or 1). -/
def decodeVec (r : FmtRow) (n : Nat) (b : List Byte) : List Num :=
  if r.layout = 1 then decodeBlocks r.code n b else decodePlain r.code n b

/-- Bytes that n elements take under a row's layout. -/
def vecBytes (r : FmtRow) (n : Nat) : Nat :=
  if r.layout = 1 then cdiv n 32 * recordSize r.code else cdiv (n * elemBits r.code) 8

/-! ### Accumulators (R299–R304) -/

/-- The class an addend leaves (R302). -/
def addClass (cls : Nat) (v : Num) : Nat := match v with
  | .nan => 3
  | .inf neg => if cls = 0 ∨ cls = (if neg then 2 else 1) then (if neg then 2 else 1) else 3
  | .fin _ => cls

/-- Add a value in sum mode, with a multiplicity already in it in product mode: `unit` is the addend's scale over the accumulator's. -/
def Acc.add (a : Acc) (v : Num) (scale : Int := 1) : Acc :=
  { cls := addClass a.cls v, val := match v with | .fin x => a.val + x * scale | _ => a.val }

/-- Does a value count as zero? -/
def Num.isZero : Num → Bool
  | .fin v => v == 0
  | _ => false

def Num.neg : Num → Bool
  | .fin v => decide (v < 0)
  | .inf n => n
  | .nan => false

/-- The product of two decoded values, in units of 2^-298 (R301, R302). -/
def Num.mul (a b : Num) : Num :=
  match a, b with
  | .fin x, .fin y => .fin (x * y)
  | .nan, _ => .nan
  | _, .nan => .nan
  | x, y => if x.isZero || y.isZero then .nan else .inf (x.neg != y.neg)

/-- Add a decoded value m times to an accumulator of the given mode (R301, R302). -/
def accAdd (prod : Bool) (a : Acc) (v : Num) (m : Nat := 1) : Acc :=
  if prod then a.add v ((m : Int) * 2 ^ 149) else a.add v

/-- The weight of an accumulator's unit: VALUE × 2^-k. -/
def accK (prod : Bool) : Nat := if prod then 298 else 149

/-- Saturating ADDCNT, and when a group is saturated (R303). -/
def addCnt (n m : Nat) : Nat := min (2 ^ 41 - 1) (n + m)
def cntSat (n : Nat) : Bool := decide (2 ^ 40 < n)

/-! ### Rounding (R305–R308) -/

/-- floor(log2 (a ÷ dn)) for a, dn above 0. -/
def log2Ratio (a dn : Nat) : Int :=
  let la := Nat.log2 a
  let ld := Nat.log2 dn
  if ld ≤ la then
    let t := la - ld
    if dn * 2 ^ t ≤ a then t else (t : Int) - 1
  else
    let t := ld - la
    if dn ≤ a * 2 ^ t then -(t : Int) else -(t : Int) - 1

/-- Round the magnitude a ÷ (dn × 2^s) to an integer: the quotient, raised by one as RMODE and, for RMODE 2, the draw decide. -/
def roundMag (a dn : Nat) (s : Int) (neg : Bool) (rmode draw : Nat) : Nat :=
  let num := if 0 ≤ s then a else a * 2 ^ (-s).toNat
  let den := if 0 ≤ s then dn * 2 ^ s.toNat else dn
  let n := num / den
  let r := num % den
  let up : Bool :=
    if r = 0 then false
    else if rmode = 0 then decide (den < 2 * r) || (2 * r == den && n % 2 == 1)
    else if rmode = 1 then false
    else
      let f := if neg then den - r else r          -- x − lo, over den
      let hi := decide (draw < 2 ^ 32 * f / den)
      if neg then !hi else hi
  if up then n + 1 else n

/-- AFLAGS bits (R309). -/
abbrev fNAN : Nat := 1
abbrev fINF : Nat := 2
abbrev fOVF : Nat := 4
abbrev fACC : Nat := 8

/-- Round x = (±a ÷ dn) × 2^-k to a floating-point code: code and overflow (R305, R307). -/
def roundFp (f : FpFmt) (neg : Bool) (a dn : Nat) (k : Int) (rmode draw : Nat) : Nat × Bool :=
  let sg := if neg then 2 ^ (f.m + f.e) else 0
  if a = 0 then (0, false)
  else
    let emin : Int := 1 - f.bias
    let e := log2Ratio a dn - k
    let q := max e emin - f.m                    -- weight of the last fraction bit
    let n := roundMag a dn (q + k) neg rmode draw
    -- a code that grows past the top of its binade carries into the exponent
    let mag := if e < emin then n else ((e + f.bias).toNat - 1) * 2 ^ f.m + n
    let topE : Int := (f.top / 2 ^ f.m : Nat) - (f.bias : Int)
    let topM := 2 ^ f.m + f.top % 2 ^ f.m         -- largest finite = topM × 2^(topE − m)
    let s := topE - f.m - 1 + k                   -- half of its spacing
    let lim := if rmode = 0 then 2 * topM + 1 else 2 * topM
    let lhs := if 0 ≤ s then a else a * 2 ^ (-s).toNat
    let rhs := (if 0 ≤ s then dn * 2 ^ s.toNat else dn) * lim
    let ovf := if rmode = 0 then decide (rhs ≤ lhs) else decide (rhs < lhs)
    if ovf then
      (sg + (if f.inf && rmode == 0 then (2 ^ f.e - 1) * 2 ^ f.m else f.top), true)
    else (sg + mag, false)

/-- Round x to an integer code of n bits with `fr` fraction bits (R305, R307). -/
def roundInt (n fr : Nat) (isat neg : Bool) (a dn : Nat) (k : Int) (rmode draw : Nat) : Nat × Bool :=
  let m := roundMag a dn (k - fr) neg rmode draw
  let v : Int := if neg then -(m : Int) else m
  let lo : Int := -(2 ^ (n - 1) : Nat)
  let hi : Int := (2 ^ (n - 1) : Nat) - 1
  if lo ≤ v ∧ v ≤ hi then ((v % 2 ^ n).toNat, false)
  else ((if isat then (if v < lo then lo % 2 ^ n else hi) else v % 2 ^ n).toNat, true)

/-- Deliver one accumulator into a code, the value divided by dn × 2^sc: code and flags (R305, R307, R309). -/
def roundAcc (r : FmtRow) (prod sat : Bool) (sc : Int) (draw : Nat) (x : Acc) (dn : Nat := 1) : Nat × Nat :=
  let w := elemBits r.code
  let acc := if sat then fACC else 0
  match fpFmt r.code with
  | some f =>
    if x.cls = 3 then (f.nan.getD 0, fNAN + acc)
    else if x.cls ≠ 0 then
      let sg := if x.cls = 2 then 2 ^ (w - 1) else 0
      (sg + (if f.inf then (2 ^ f.e - 1) * 2 ^ f.m else f.top), fINF + acc)
    else if sat then (f.nan.getD 0, acc)
    else
      let (c, o) := roundFp f (decide (x.val < 0)) x.val.natAbs dn (accK prod + sc) r.rmode draw
      (c, if o then fOVF else 0)
  | none =>
    if x.cls = 3 then (0, fNAN + acc)
    else if x.cls = 1 then (2 ^ (w - 1) - 1, fINF + acc)
    else if x.cls = 2 then (2 ^ (w - 1), fINF + acc)
    else if sat then (0, acc)
    else
      let fr := if r.layout = 1 then intFrac r.code else 0
      let (c, o) := roundInt w fr r.isat (decide (x.val < 0)) x.val.natAbs dn (accK prod + sc) r.rmode draw
      (c, if o then fOVF else 0)

/-- EMAX of a block-scaled element (R308). -/
def emaxOf : Nat → Int
  | 3 => 8 | 4 => 15 | 5 => 4 | 6 => 2 | 7 => 2 | _ => 0

/-- The stochastic draw of an element (R306). -/
def drawOf (seed key e : Nat) : Nat :=
  let w : Nat := 2 ^ 64
  let z := (key * 2 ^ 32 ||| e) % w ^^^ seed
  let z := (z ^^^ z >>> 30) * 0xBF58476D1CE4E5B9 % w
  let z := (z ^^^ z >>> 27) * 0x94D049BB133111EB % w
  let z := z ^^^ z >>> 31
  z >>> 32

/-- The scale of an output block, or none where the block is NaN (R308). -/
def blockScale (code : Nat) (prod sat : Bool) (xs : List Acc) (dn : Nat := 1) : Option Int :=
  if sat || xs.any (fun x => x.cls == 3) then none
  else
    let m := xs.foldl (fun m x => if x.cls = 0 then max m x.val.natAbs else m) 0
    let e : Int := if m = 0 then -127 else log2Ratio m dn - accK prod - emaxOf code
    some (max (-127) (min 127 e))

/-- Deliver accumulators, each divided by dn, into a row's format and layout: the bytes, and the flags of each element (R305–R309). `key` and
`e0` feed the draws. -/
def deliverVec (r : FmtRow) (prod sat : Bool) (key e0 : Nat) (xs : List Acc) (dn : Nat := 1) : List Byte × List Nat :=
  let draw (i : Nat) : Nat := if r.rmode = 2 then drawOf r.seed key (e0 + i) else 0
  let w := elemBits r.code
  if r.layout = 1 then
    let blocks := (upTo (cdiv xs.length 32)).map fun b =>
      let ys := (xs.drop (32 * b)).take 32
      let ys32 := ys ++ List.replicate (32 - ys.length) ({} : Acc)
      match blockScale r.code prod sat ys32 dn with
      | none =>
        let fl := (if ys32.any fun x => x.cls == 3 then fNAN else 0) + (if sat then fACC else 0)
        ((255#8 :: zeros32 w), ys.map fun _ => fl)
      | some e =>
        let cf := ((upTo 32).zip ys32).map fun x => roundAcc r prod sat e (draw (32 * b + x.1)) x.2 dn
        (BitVec.ofNat 8 (e + 127).toNat :: packCodes w (cf.map Prod.fst), (cf.map Prod.snd).take ys.length)
    (blocks.flatMap Prod.fst, blocks.flatMap Prod.snd)
  else
    let cf := ((upTo xs.length).zip xs).map fun x => roundAcc r prod sat 0 (draw x.1) x.2 dn
    (packCodes w (cf.map Prod.fst), cf.map Prod.snd)
where zeros32 (w : Nat) : List Byte := List.replicate (4 * w) 0

/-- AFLAGS of delivered elements: the OR of their flags (R309). -/
def orFlags (fs : List Nat) : Nat := fs.foldl (· ||| ·) 0

/-- Count the elements of each flag (R309, R317). -/
def countFlags (d : Dev) (die : Nat) (fs : List Nat) : Dev :=
  let n (i : Nat) : Nat := (fs.filter fun f => bit f i).length
  (((d.countN .cNanout die (n 0)).countN .cInfout die (n 1)).countN .cOvfout die (n 2)).countN .cSatout die (n 3)

/-! ### Row-affine rows (R293, R294) -/

def fp16 : FpFmt := { m := 10, e := 5, bias := 15, top := 0x7BFF, inf := true, nan := some 0x7E00 }

/-- The values of a row-affine row's elements, in units of 2^-298, from its scale, its offset and its packed codes. -/
def affineVals (code n sw ow : Nat) (b : List Byte) : List Num :=
  let s := leNat b
  match decodeFp fp16 sw 0, decodeFp fp16 ow 0 with
  | .fin x, .fin o => (upTo n).map fun i => .fin (x * toSigned (elemBits code) (elemAt s (elemBits code) i) * 2 ^ 149 + o * 2 ^ 149)
  | _, _ => (upTo n).map fun _ => .nan

/-- Encode exact values (units of 2^-(298 + x)) as a row-affine row: scale, offset, codes (R294). Where a value is NaN or infinite the codes and
the offset are not stated: they are free (log 26). -/
def affineEnc (code : Nat) (free : Nat → Nat) (vs : List Acc) (x : Nat := 0) : Nat × Nat × List Nat :=
  let w := elemBits code
  let q := 2 ^ w - 1
  if vs.any fun v => v.cls == 3 then (0x7E00, free 0 % 2 ^ 16, (upTo vs.length).map fun i => free (i + 1) % 2 ^ w)
  else if vs.any fun v => v.cls != 0 then (0x7C00, free 0 % 2 ^ 16, (upTo vs.length).map fun i => free (i + 1) % 2 ^ w)
  else
    let lo := vs.foldl (fun m v => min m v.val) ((vs.head?.map fun v => v.val).getD 0)
    let hi := vs.foldl (fun m v => max m v.val) lo
    let o := (roundFp fp16 (decide (hi + lo < 0)) (hi + lo).natAbs 1 (299 + x) 0 0).1
    let s := (roundFp fp16 false (hi - lo).natAbs q (298 + x) 0 0).1
    let cmin : Int := -(2 ^ (w - 1) : Nat)
    let cmax : Int := (2 ^ (w - 1) : Nat) - 1
    match decodeFp fp16 s 0, decodeFp fp16 o 0 with
    | .fin sv, .fin ov =>
      if sv = 0 then (s, o, vs.map fun _ => 0)
      else
        let c (v : Acc) : Nat :=
          let num := v.val - ov * 2 ^ (149 + x)
          let n := roundMag num.natAbs (sv.natAbs * 2 ^ (149 + x)) 0 (decide (num < 0)) 0 0
          let y : Int := if num < 0 then -(n : Int) else n
          ((max cmin (min cmax y)) % 2 ^ w).toNat
        (s, o, vs.map c)
    | _, _ => (s, o, (upTo vs.length).map fun i => free (i + 1) % 2 ^ w)

/-! ### Carry forms (R310–R312) -/

/-- Words of an accumulator (R311). -/
def accWords (prod : Bool) : Nat := if prod then 10 else 5

/-- The carry form of an accumulator (R310, R311): its header and words. -/
def carryForm (prod : Bool) (a : Acc) : List Byte :=
  let n := accWords prod
  let u := (a.val % (2 ^ (64 * n) : Nat)).toNat
  let word (i : Nat) : Nat := (u >>> (64 * i)) % 2 ^ 64
  let hdr (cls base nw : Nat) : List Byte := leBytes 4 (cls * 2 ^ 30 + base * 2 ^ 26 + nw * 2 ^ 22)
  if a.cls ≠ 0 then hdr a.cls 0 1 ++ leBytes 8 0
  else if u = 0 then hdr 0 0 1 ++ leBytes 8 0
  else
    let base := ((upTo n).find? fun i => word i != 0).getD 0
    let sgn (i : Nat) : Nat := if bit (word i) 63 then 2 ^ 64 - 1 else 0
    let ok (nw : Nat) : Bool := (upTo n).all fun i => decide (i ≤ base + nw - 1) || word i == sgn (base + nw - 1)
    let nw := (((upTo n).map (· + 1)).find? fun w => decide (base + w ≤ n) && ok w).getD (n - base)
    hdr 0 base nw ++ (upTo nw).flatMap fun i => leBytes 8 (word (base + i))

/-- A carry form read from bytes: the accumulator it stands for and the bytes after it, or none where BASE + NW or NW is out of range (R312) or
the bytes run out. -/
def readForm (prod : Bool) (b : List Byte) : Option (Acc × List Byte) :=
  if b.length < 4 then none
  else
    let h := leNat (b.take 4)
    let base := bits h 29 26
    let nw := bits h 25 22
    if nw = 0 ∨ accWords prod < base + nw ∨ b.length < 4 + 8 * nw then none
    else
      let v := leNat ((b.drop 4).take (8 * nw))
      some ({ cls := bits h 31 30, val := toSigned (64 * nw) v * (2 ^ (64 * base) : Nat) }, b.drop (4 + 8 * nw))

/-- Read n carry forms that fill the bytes to the pad (R310, R312). -/
def readForms (prod : Bool) : Nat → List Byte → Option (List Acc × List Byte)
  | 0, b => some ([], b)
  | n + 1, b => (readForm prod b).bind fun x => (readForms prod n x.2).map fun y => (x.1 :: y.1, y.2)

/-- Combine an accumulator received in a carry into one's own (R312). -/
def Acc.combine (a c : Acc) : Acc :=
  { cls := addClass a.cls (match c.cls with | 0 => .fin 0 | 1 => .inf false | 2 => .inf true | _ => .nan), val := a.val + c.val }

end Sys2Proof.Machine
end

