-- ==== Sys2Proof/Machine/Sheet.lean ====
section
/-! DEFINITION. Tensor compression: CRC-32, the code table, blocks, sheets (R401–R412). -/

namespace Sys2Proof.Machine
open Sys2Proof

/-- One byte into the reflected CRC-32 register (IEEE 802.3). -/
def crc32Byte (c : Nat) (b : Byte) : Nat :=
  (upTo 8).foldl (fun c _ => if c % 2 = 1 then (c / 2) ^^^ 0xEDB88320 else c / 2) (c ^^^ b.toNat)

/-- IEEE 802.3 CRC-32. -/
def crc32 (b : List Byte) : Nat := (b.foldl crc32Byte 0xFFFFFFFF) ^^^ 0xFFFFFFFF

/-! ### Codes (R403, R407) -/

/-- A node of the code tree: its weight and the symbols under it. -/
structure HNode where
  f   : Nat
  syms : List Nat

/-- Insert a node after every node of equal weight. -/
def hInsert (n : HNode) : List HNode → List HNode
  | [] => [n]
  | x :: r => if x.f ≤ n.f then x :: hInsert n r else n :: x :: r

/-- Join nodes until one is left; each join deepens the symbols under it by one. -/
def hJoin : Nat → List HNode → List Nat → List Nat
  | 0, _, l => l
  | k + 1, ns, l => match ns with
    | a :: b :: r =>
      let s := a.syms ++ b.syms
      hJoin k (hInsert { f := a.f + b.f, syms := s } r) (s.foldl (fun l x => l.modify x (· + 1)) l)
    | _ => l

/-- Lengthen codes until the Kraft sum fits (R407). -/
def kraftFix : Nat → Nat → List Nat → List Nat
  | 0, _, l => l
  | k + 1, ex, l =>
    if ex = 0 then l
    else
      let best := (upTo 256).foldl (fun (b : Nat × Nat) s =>
        let x := (l[s]?).getD 0
        if 0 < x ∧ x < 15 ∧ b.1 ≤ x then (x, s) else b) (0, 0)
      if best.1 = 0 then l else kraftFix k (ex - 2 ^ (14 - best.1)) (l.modify best.2 (· + 1))

/-- Code lengths of 256 symbols from their counts (R407). -/
def codeLens (f : List Nat) : List Nat :=
  let present := (upTo 256).filter fun s => (f[s]?).getD 0 != 0
  match present with
  | [] => List.replicate 256 0
  | [s] => (List.replicate 256 0).set s 1
  | _ =>
    let ns := present.foldl (fun a s => hInsert { f := (f[s]?).getD 0, syms := [s] } a) []
    let l := hJoin 256 ns (List.replicate 256 0)
    if l.all fun x => decide (x ≤ 15) then l
    else
      let l := l.map fun x => min x 15
      kraftFix 4096 (sumNat (present.map fun s => 2 ^ (15 - (l[s]?).getD 0)) - 2 ^ 15) l

/-- Canonical codes (R403): (length, code, symbol) in canonical order. -/
def canonGo : List (Nat × Nat) → Nat → Nat → List (Nat × Nat × Nat)
  | [], _, _ => []
  | (n, s) :: r, code, len =>
    let c := code <<< (n - len)
    (n, c, s) :: canonGo r (c + 1) n

def canon (l : List Nat) : List (Nat × Nat × Nat) :=
  canonGo ((upTo 15).flatMap fun n => ((upTo 256).filter fun s => (l[s]?).getD 0 == n + 1).map fun s => (n + 1, s)) 0 0

/-- The code table's 128 bytes (R403). -/
def codeTable (l : List Nat) : List Byte :=
  (upTo 128).map fun i => BitVec.ofNat 8 ((l[2 * i]?).getD 0 + 16 * (l[2 * i + 1]?).getD 0)

def readTable (b : List Byte) : List Nat := b.flatMap fun x => [x.toNat % 16, x.toNat / 16]

/-! ### Blocks (R405, R406) -/

/-- E, m and width of an EXP format (mode table). -/
def expFmt : Nat → Nat × Nat × Nat
  | 0 => (8, 23, 32) | 1 => (8, 7, 16) | 2 => (5, 10, 16) | 3 => (4, 3, 8) | _ => (5, 2, 8)

/-- The symbols of a block, and its low values with their width. -/
def splitBlock (mode fmt : Nat) (b : List Byte) : List Nat × List Nat × Nat :=
  if mode = 1 then (b.map fun x => x.toNat, [], 0)
  else
    let (e, m, w) := expFmt fmt
    let xs := (upTo (32768 / w)).map fun i => leNat ((b.drop (i * (w / 8))).take (w / 8))
    (xs.map fun x => (x >>> m) % 2 ^ e, xs.map fun x => (x >>> (w - 1)) * 2 ^ m + x % 2 ^ m, w - e)

/-- Put the block back together. -/
def joinBlock (mode fmt : Nat) (syms lows : List Nat) : List Byte :=
  if mode = 1 then syms.map fun s => BitVec.ofNat 8 s
  else
    let (_, m, w) := expFmt fmt
    (syms.zip lows).flatMap fun x => leBytes (w / 8) ((x.2 >>> m) * 2 ^ (w - 1) + x.1 * 2 ^ m + x.2 % 2 ^ m)

/-- The bits of a symbol stream, in order: each code from its top bit (R406). -/
def streamBits (codes : List (Nat × Nat × Nat)) (syms : List Nat) : List Bool :=
  let table : List (Nat × Nat × Nat) := codes
  syms.flatMap fun s => match table.find? fun c => c.2.2 == s with
    | some (n, c, _) => (upTo n).map fun i => bit c (n - 1 - i)
    | none => []

/-- Pack bits from bit 0 upward, eight to a byte. -/
def packBits : Nat → List Bool → List Byte
  | 0, _ => []
  | n + 1, l => BitVec.ofNat 8 (((upTo 8).zip (l.take 8)).foldl (fun a x => if x.2 then a + 2 ^ x.1 else a) 0) :: packBits n (l.drop 8)

/-- A block as COMPRESS stores it (R404, R406): TAG, stored bytes. -/
def codeBlock (mode fmt sheetid idx : Nat) (codes : List (Nat × Nat × Nat)) (b : List Byte) : Nat × List Byte :=
  if b.all fun x => x == 0 then (0, [])
  else
    let (syms, lows, lw) := splitBlock mode fmt b
    let bs := streamBits codes syms
    let str := packBits (cdiv bs.length 64 * 8) bs
    let low := packCodes lw lows
    let clen := 8 + low.length + str.length
    if clen ≤ 4032 then (1, leBytes 8 ((sheetid % 2 ^ 16) * 2 ^ 48 + idx * 2 ^ 42 + clen * 2 ^ 29) ++ low ++ str) else (2, b)

/-- Decode `n` symbols; none where a string of no symbol is met or the bits run out. -/
def readSyms (codes : List (Nat × Nat × Nat)) : Nat → List Bool → Option (List Nat × List Bool)
  | 0, bs => some ([], bs)
  | n + 1, bs =>
    let hit := codes.find? fun c => decide (c.1 ≤ bs.length) && ((upTo c.1).all fun i => (bs[i]?).getD false == bit c.2.1 (c.1 - 1 - i))
    match hit with
    | none => none
    | some c => (readSyms codes n (bs.drop c.1)).map fun r => (c.2.2 :: r.1, r.2)

def bitsOf (b : List Byte) : List Bool := b.flatMap fun x => (upTo 8).map fun i => bit x.toNat i

/-! ### Sheets (R402, R409) -/

/-- The blocks of a sheet's bytes. -/
def blocksOf (n : Nat) (b : List Byte) : List (List Byte) := (upTo n).map fun i => (b.drop (4096 * i)).take 4096

/-- COMPRESS over a whole sheet: the stored bytes of each block, and header-slot bytes 0–703 (R402–R409). -/
def compressSheet (mode fmt sheetid nblk : Nat) (b : List Byte) : List (Nat × List Byte) × List Byte :=
  let bl := blocksOf nblk b
  let nz := bl.filter fun x => !(x.all fun y => y == 0)
  let f := nz.foldl (fun f x => (splitBlock mode fmt x).1.foldl (fun f s => f.modify s (· + 1)) f) (List.replicate 256 0)
  let lens := codeLens f
  let codes := canon lens
  let st := ((upTo nblk).zip bl).map fun x => codeBlock mode fmt sheetid x.1 codes x.2
  let ent (x : (Nat × List Byte) × List Byte) : List Byte :=
    leBytes 4 (if x.1.1 = 0 then 0 else crc32 x.2) ++ leBytes 4 (x.1.1 * 2 ^ 30 + (if x.1.1 = 0 then 0 else x.1.2.length))
  let bt := (st.zip bl).flatMap ent
  let hdr (chk : Nat) : List Byte := leBytes 64
    (chk * 2 ^ 96 + sheetid * 2 ^ 64 + 0x5348 * 2 ^ 48 + 1 * 2 ^ 40 + mode * 2 ^ 38 + (if mode = 1 then 0 else fmt) * 2 ^ 34 + nblk * 2 ^ 27)
  let rest := codeTable lens ++ bt ++ zeros64 (512 - bt.length)
  (st, hdr (crc32 (hdr 0 ++ rest)) ++ rest)
where zeros64 (n : Nat) : List Byte := List.replicate n 0

/-- The sheet header's fields (R402). -/
structure SheetHdr where
  sheetid : Nat := 0
  mode : Nat := 0
  fmt  : Nat := 0
  nblk : Nat := 0
  lens : List Nat := []
  ents : List Nat := []

/-- Step 1 of R411. -/
def readHdr (b : List Byte) : Option SheetHdr :=
  let h := leNat (b.take 64)
  let ents := (upTo 64).map fun i => leNat ((b.drop (192 + 8 * i)).take 8)
  let nblk := bits h 33 27
  let mode := bits h 39 38
  let fmt := bits h 37 34
  let zero := h - bits h 127 96 * 2 ^ 96
  if bits h 63 48 ≠ 0x5348 ∨ bits h 47 40 ≠ 1 ∨ 1 < mode ∨ (if mode = 0 then 4 < fmt else fmt ≠ 0) ∨ nblk = 0 ∨ 64 < nblk
      ∨ bits h 26 0 ≠ 0 ∨ bits h 511 128 ≠ 0 ∨ crc32 (leBytes 64 zero ++ (b.drop 64).take 640) ≠ bits h 127 96
      ∨ (ents.drop nblk).any (· != 0) then none
  else some { sheetid := bits h 95 64, mode := mode, fmt := fmt, nblk := nblk, lens := readTable ((b.drop 64).take 128), ents := ents }

/-- Step 2: the code table. -/
def tableOk (s : SheetHdr) : Bool :=
  let e := if s.mode = 1 then 8 else (expFmt s.fmt).1
  s.lens.any (· != 0) && decide (sumNat (s.lens.map fun l => if l = 0 then 0 else 2 ^ (15 - l)) ≤ 2 ^ 15)
    && ((upTo 256).all fun i => decide (i < 2 ^ e) || (s.lens[i]?).getD 0 == 0)

def entTag (e : Nat) : Nat := bits e 63 62
def entClen (e : Nat) : Nat := bits e 44 32

/-- Step 3: the block table entry. -/
def entOk (e : Nat) : Bool :=
  bits e 61 45 == 0 && (match entTag e with
    | 0 => entClen e == 0
    | 1 => decide (16 ≤ entClen e ∧ entClen e ≤ 4032) && entClen e % 8 == 0
    | 2 => entClen e == 4096
    | _ => false)

/-- Steps 3 to 6 of R411 on one block: its bytes, or the step that fails. -/
def expandBlock (s : SheetHdr) (codes : List (Nat × Nat × Nat)) (i : Nat) (stored : List Byte) : Except Nat (List Byte) :=
  let e := (s.ents[i]?).getD 0
  if entTag e = 1 ∧ !tableOk s then .error 2
  else if !entOk e then .error 3
  else match entTag e with
    | 0 => .ok (List.replicate 4096 0)
    | 2 => if crc32 (stored.take 4096) = bits e 31 0 then .ok (stored.take 4096) else .error 6
    | _ =>
      let b := stored.take (entClen e)
      let h := leNat (b.take 8)
      if bits h 63 48 ≠ s.sheetid % 2 ^ 16 ∨ bits h 47 42 ≠ i ∨ bits h 41 29 ≠ entClen e ∨ bits h 28 0 ≠ 0 then .error 4
      else
        let (ne, lw) := if s.mode = 1 then (4096, 0) else (32768 / (expFmt s.fmt).2.2, (expFmt s.fmt).2.2 - (expFmt s.fmt).1)
        let lb := cdiv (ne * lw) 8
        let low := leNat ((b.drop 8).take lb)
        let lows := (upTo ne).map fun j => elemAt low lw j
        match readSyms codes ne (bitsOf (b.drop (8 + lb))) with
        | none => .error 5
        | some (syms, rest) =>
          if rest.any id then .error 5
          else
            let out := joinBlock s.mode s.fmt syms (if s.mode = 1 then [] else lows)
            if crc32 out = bits e 31 0 then .ok out else .error 6

end Sys2Proof.Machine
end

