-- ==== Sys2Proof/Machine/Loader.lean ====
section
/-! DEFINITION. Plate images: their layout, the loader's checks, the standard plates, what a core lends (R386–R391). -/

namespace Sys2Proof.Machine
open Sys2Proof

/-! ### Layout (R386) -/

def word8 (b : List Byte) (o : Nat) : Nat := leNat ((b.drop o).take 8)

def readNode (w : Nat) : PNode := { type := bits w 63 59, eng := bits w 58 52, poff := bits w 51 36, plen := bits w 35 24, rsv := bits w 23 0 }

def readQueue (w : Nat) : PQueue :=
  { pnode := bits w 63 58, pport := bits w 57 56, cnode := bits w 55 50, cport := bits w 49 48, depth := bits w 47 37, rsv := bits w 36 0 }

def readImage (chase : Nat) (b : List Byte) : PImage :=
  let h := leNat (b.take 16)
  let nn := bits h 103 97
  let nq := bits h 96 89
  { chase := chase, id := bits h 127 112, engsh := bits h 88 82, keysrc := bits h 81 80, slots := bits h 79 68, sramu := bits h 67 52
    nodes := (upTo nn).map fun i => readNode (word8 b (16 + 8 * i))
    queues := (upTo nq).map fun i => readQueue (word8 b (16 + 8 * (nn + i)))
    words := (upTo (bits h 51 36)).map fun i => word8 b (16 + 8 * (nn + nq + i)), bytes := b }

def PImage.param (p : PImage) (n : PNode) : SParam := Config.stationParam n.type ((p.words.drop n.poff).take n.plen)

/-- Static footprint of a plate in bytes (R386). -/
def PImage.footprint (p : PImage) : Nat := sumNat (p.queues.map fun q => q.depth * 256) + p.sramu * 64 + p.words.length * 8

/-! ### Ports (station table) -/

/-- Most inputs and outputs of a type. -/
def maxIn (ty : Nat) : Nat :=
  if ty = 1 ∨ ty = 2 then 0 else if ty = 6 ∨ ty = 7 ∨ ty = 0x0A ∨ ty = 0x0B ∨ ty = 0x12 ∨ ty = 0x17 then 2 else if ty = 0x0F then 4 else 1
def maxOut (ty : Nat) : Nat := if ty = 3 ∨ ty = 0x13 then 4 else if ty = 0x0C ∨ ty = 0x0E ∨ ty = 0x10 then 2 else 1

/-- Ports that must have a queue. -/
def needIn (ty : Nat) (s : SParam) : List Nat :=
  if ty = 1 ∨ ty = 2 then [] else if ty = 6 then (if s.bsrc = 0 then [0, 1] else [0]) else if ty = 0x0B ∨ ty = 0x0F ∨ ty = 0x12 then [0, 1]
  else if ty = 0x17 then (if s.mark.isNone then [0, 1] else [0]) else [0]
def needOut (ty : Nat) (s : SParam) : List Nat :=
  if ty = 3 then (s.fields.map fun f => f.2.2.1).eraseDups else if ty = 0x0C ∨ ty = 0x0E ∨ ty = 0x10 then [0, 1] else if ty = 0x17 then [] else [0]

/-- Most tokens a type emits on one output in one firing. -/
def burst (d : Dev) (ty : Nat) (s : SParam) : Nat :=
  if ty = 4 then cdiv (perRow d s.row 256) 64 else if ty = 7 then cdiv s.nacc 64 else if ty = 0x11 ∨ ty = 0x16 then 16 else 1
where perRow (d : Dev) (row bytes : Nat) : Nat :=
  let r := fmtRow d row
  if r.layout = 1 then bytes / recordSize r.code * 32 else 8 * bytes / max 1 (elemBits r.code)

/-- Does a type use engines? -/
def hasEngines (ty : Nat) : Bool := ty == 4 || ty == 6 || ty == 7 || ty == 8 || ty == 0x0A || ty == 0x0C

/-! ### Graph checks -/

/-- Nodes reached from a set along the queues, `skip` nodes passed over. -/
def reachFrom (qs : List PQueue) (skip : Nat → Bool) : Nat → List Nat → List Nat
  | 0, s => s
  | n + 1, s =>
    let new := (qs.filter fun q => s.contains q.pnode && !s.contains q.cnode && !skip q.cnode).map fun q => q.cnode
    if new.isEmpty then s else reachFrom qs skip n (s ++ new.eraseDups)

def PImage.after (p : PImage) (i : Nat) (skip : Nat → Bool := fun _ => false) : List Nat :=
  reachFrom p.queues skip 64 ((p.queues.filter fun q => q.pnode == i && !skip q.cnode).map fun q => q.cnode).eraseDups

def PImage.ty (p : PImage) (i : Nat) : Nat := ((p.nodes[i]?).map fun n => n.type).getD 0
def PImage.par (p : PImage) (i : Nat) : SParam := ((p.nodes[i]?).map p.param).getD {}

def PImage.entry (p : PImage) (i : Nat) : Bool := p.ty i == 1 || p.ty i == 2 || p.ty i == 0x18
def PImage.terminal (p : PImage) (i : Nat) : Bool :=
  p.ty i == 0x14 || p.ty i == 0x12 || (p.ty i == 0x17 && !(p.queues.any fun q => q.pnode == i))

/-- Parameters within the station table's ranges, and rows that exist or are named again at binding. -/
def paramOk (p : PImage) (n : PNode) : Bool :=
  let s := p.param n
  decide (n.poff + n.plen ≤ p.words.length) &&
  (if n.type = 2 then s.dsize == 64 || s.dsize == 128
   else if n.type = 3 then decide (1 ≤ s.fields.length ∧ s.fields.length ≤ 16) && s.fields.all fun f => decide (f.2.2.1 < 4)
   else if n.type = 6 then decide (s.bsrc ≤ 3)
   else if n.type = 7 then decide (1 ≤ s.nacc) && decide (1 ≤ s.fan) && decide (s.flush ≤ 1)
   else if n.type = 0x0A then decide (s.terms.length ≤ 255)
   else if n.type = 0x11 ∨ n.type = 0x12 then decide (1 ≤ s.outmax ∧ s.outmax ≤ 64)
   else if n.type = 0x15 then decide (1 ≤ s.maxblk ∧ s.maxblk ≤ 64) && decide (1 ≤ s.outmax ∧ s.outmax ≤ 64) && decide (s.maxblk * 64 ≤ p.sramu)
   else true)

/-- The loader check table (R388): the REASON and the index at fault of the first check that fails. `std`: a standard image. -/
def loadCheck (d : Dev) (std : Bool) (chase : Nat) (b : List Byte) : Option (Nat × Nat) :=
  let p := readImage chase b
  let h := leNat (b.take 16)
  let ns := upTo p.nodes.length
  let qs := upTo p.queues.length
  let ty := p.ty
  let find (l : List Nat) (c : Nat → Bool) : Option Nat := l.find? c
  let zeroed := leBytes 16 (h - bits h 31 0) ++ b.drop 16
  let bad1 := bits h 111 104 != 1 || crc32 zeroed != bits h 31 0 || b.length != 16 + 8 * (p.nodes.length + p.queues.length + p.words.length)
    || bits h 35 32 != 0 || p.nodes.any (fun n => n.rsv != 0) || p.queues.any (fun q => q.rsv != 0)
    || (if std then decide (0x100 ≤ p.id) else decide (p.id < 0x100))
    || p.nodes.isEmpty || decide (64 < p.nodes.length) || p.queues.isEmpty || decide (128 < p.queues.length) || decide (64 < p.engsh)
    || decide (2048 < p.slots) || decide (8192 < p.words.length)
  let bad2 := find ns fun i => ty i == 0 || decide (0x19 ≤ ty i) || (!std && (ty i == 1 || ty i == 5 || ty i == 0x14 || (ty i == 0x13 && (p.par i).away)))
  let bad3 := find ns fun i => ((p.nodes[i]?).map fun n => !paramOk p n).getD true
  let q? (i : Nat) : PQueue := (p.queues[i]?).getD {}
  let outQ (i port : Nat) : Nat := (p.queues.filter fun q => q.pnode == i && q.pport == port).length
  let inQ (i port : Nat) : Nat := (p.queues.filter fun q => q.cnode == i && q.cport == port).length
  let bad4q := find qs fun i => let q := q? i
    decide (p.nodes.length ≤ q.pnode) || decide (p.nodes.length ≤ q.cnode) || decide (maxOut (ty q.pnode) ≤ q.pport)
      || decide (maxIn (ty q.cnode) ≤ q.cport) || decide (1 < outQ q.pnode q.pport) || decide (1 < inQ q.cnode q.cport)
  let bad4n := find ns fun i => (needIn (ty i) (p.par i)).any (fun k => inQ i k != 1) || (needOut (ty i) (p.par i)).any fun k => outQ i k != 1
  let bad5 := find qs fun i => let q := q? i
    decide (q.depth < 2) || decide (256 < q.depth) || decide (q.depth < burst d (ty q.pnode) (p.par q.pnode))
  let lacc (i : Nat) : Bool := ty i == 7
  let bad6 := find ns fun i => !lacc i && (p.after i lacc).contains i
  let bad7 := find ns fun i =>
    !(p.entry i || ns.any fun e => p.entry e && (p.after e).contains i) || !(p.terminal i || (p.after i).any p.terminal)
  let bad8 := find ns fun i => lacc i && !(p.par i).prod && ns.any fun j =>
    (ty j == 6 || (ty j == 4 && (fmtRow d (p.par j).row).product)) && (p.after j fun k => k != i && lacc k).contains i
  let bad9 := find ns fun i => ty i == 0x17 && (p.par i).signals && ns.any fun s => ty s == 0x12 && ns.any (fun e =>
    p.entry e && (p.after e).contains s && (p.after e).contains i) && !(p.after s).contains i
  let slotsUsed := sumNat ((ns.filter lacc).map fun i => let s := p.par i; cdiv (s.fan * s.nacc * (if s.prod then 2 else 1)) 2)
  let badA := find ns fun i => ((p.nodes[i]?).map fun n => (p.engsh != 0 && decide (p.engsh < n.eng)) || decide (64 < n.eng)
    || (!hasEngines n.type && n.eng != 0)).getD false
  let bigA := decide (p.slots < slotsUsed) || decide (524288 < p.footprint)
  if bad1 then some (0x01, 0xFF)
  else match bad2, bad3, bad4q.or bad4n, bad5, bad6, bad7, bad8, bad9, badA with
    | some i, _, _, _, _, _, _, _, _ => some (0x02, i)
    | _, some i, _, _, _, _, _, _, _ => some (0x03, i)
    | _, _, some i, _, _, _, _, _, _ => some (0x04, i)
    | _, _, _, some i, _, _, _, _, _ => some (0x05, i)
    | _, _, _, _, some i, _, _, _, _ => some (0x06, i)
    | _, _, _, _, _, some i, _, _, _ => some (0x07, i)
    | _, _, _, _, _, _, some i, _, _ => some (0x08, i)
    | _, _, _, _, _, _, _, some i, _ => some (0x09, i)
    | _, _, _, _, _, _, _, _, some i => some (0x0A, i)
    | _, _, _, _, _, _, _, _, _ => if bigA then some (0x0A, 0xFF) else none

/-! ### What a core lends (R387, R390) -/

/-- The standard plate table: nodes, ENGSHARE, static SRAM in bytes. -/
def stdPlate : Nat → Option (Nat × Nat × Nat)
  | 0x01 => some (18, 16, 49152) | 0x02 => some (9, 0, 24576) | 0x03 => some (20, 16, 65536) | 0x04 => some (22, 16, 81920)
  | 0x10 => some (24, 16, 98304) | 0x11 => some (22, 16, 65536) | 0x18 => some (26, 8, 131072) | 0x19 => some (10, 0, 32768)
  | 0x20 => some (14, 16, 65536) | 0x28 => some (8, 0, 32768) | 0x29 => some (6, 0, 16384) | _ => none

def Dev.image (d : Dev) (chase id : Nat) : Option PImage := d.press.plates.images.find? fun p => p.chase == chase && p.id == id

/-- What the instances on a core take: instances, nodes, queues, SRAM bytes, slots, ENGSHARE. -/
structure CoreUse where
  insts : Nat := 0
  nodes : Nat := 0
  queues : Nat := 0
  sram  : Nat := 0
  slots : Nat := 0
  engsh : Nat := 0

def imageUse (p : PImage) : CoreUse :=
  { insts := 1, nodes := p.nodes.length, queues := p.queues.length, sram := p.footprint, slots := p.slots, engsh := p.engsh }

def stdUse (id : Nat) : CoreUse :=
  match stdPlate id with
  | some (n, e, s) => { insts := 1, nodes := n, sram := s, engsh := e }
  | none => {}

def CoreUse.add (a b : CoreUse) : CoreUse :=
  { insts := a.insts + b.insts, nodes := a.nodes + b.nodes, queues := a.queues + b.queues, sram := a.sram + b.sram
    slots := a.slots + b.slots, engsh := a.engsh + b.engsh }

/-- What is resident on a core. -/
def coreUse (d : Dev) (core : Nat) : CoreUse :=
  let u := (d.press.plates.std.filter fun s => s.core == core).foldl (fun a s => a.add (stdUse s.plate)) ({} : CoreUse)
  (d.press.plates.insts.filter fun i => i.core == core).foldl (fun a i => a.add (((d.image i.chase i.plate).map imageUse).getD {})) u

/-- Would a core still be within R387? -/
def CoreUse.fits (u : CoreUse) : Bool :=
  decide (u.insts ≤ 8) && decide (u.nodes ≤ 256) && decide (u.queues ≤ 512) && decide (u.sram ≤ 1048576) && decide (u.slots ≤ 2048)
    && decide (u.engsh ≤ 64)

/-- The lowest free instance slot of a core. -/
def freeSlot (d : Dev) (core : Nat) : Option Nat :=
  (upTo 8).find? fun s => !(d.press.plates.std.any fun x => x.core == core && x.slot == s)
    && !(d.press.plates.insts.any fun x => x.core == core && x.slot == s)

end Sys2Proof.Machine
end

