-- ==== Sys2Proof/Machine/Fabric.lean ====
section
/-! DEFINITION. Ports, buffers and queues: which positions are ports, charges and credits, routes and next hops, and putting a
packet into its queue (R75, R134, R147–R158, R188, R509–R511, R572). -/

namespace Sys2Proof.Machine
open Sys2Proof

/-! ### Octets and ports (R74–R77, R82) -/

def octCfg (d : Dev) (oct : Nat) : Nat := d.reg .ptOctetCfg oct

/-- Lanes of a port of the octet (R77 WIDTH). -/
def octLanes (d : Dev) (oct : Nat) : Nat := 2 ^ bits (octCfg d oct) 26 25

/-- Does the octet run in tray mode, itself or as the odd half of an x16 link (R77, R82)? -/
def octTray (d : Dev) (oct : Nat) : Bool :=
  bit (octCfg d oct) 31 || (oct % 2 == 1 && bit (octCfg d (oct - 1)) 30 && bit (octCfg d (oct - 1)) 31)

/-- Is a position a port under its octet's WIDTH (R75)? A position held as a spare is not a port. -/
def isPort (d : Dev) (p : Nat) : Bool :=
  let oct := p / 8
  let w := octLanes d oct
  decide (p < 1024) && !octTray d oct && (p % 8) % w == 0
    && !(bit (octCfg d oct) 24 && decide (8 - w ≤ p % 8))

/-- The ports of an octet. -/
def octPorts (d : Dev) (oct : Nat) : List Nat := ((upTo 8).map (8 * oct + ·)).filter (isPort d)

/-- Spare lanes of an octet: lane 7 at WIDTH 0, lanes 6 and 7 at WIDTH 1 (R77). -/
def octSpares (d : Dev) (oct : Nat) : List Nat :=
  if bit (octCfg d oct) 24 then
    if bits (octCfg d oct) 26 25 = 0 then [7] else if bits (octCfg d oct) 26 25 = 1 then [6, 7] else []
  else []

/-- The octet of a tray link (R82): link = 8 × (die − 12) + octet. -/
def trayOct (link : Nat) : Nat := 8 * 12 + link
def trayDie (link : Nat) : Nat := 12 + link / 8

/-- Is a number a tray link: an octet in tray mode, not the odd half of an x16 link? -/
def isTray (d : Dev) (link : Nat) : Bool :=
  decide (link < 32) && bit (octCfg d (trayOct link)) 31
    && !(link % 2 == 1 && bit (octCfg d (trayOct link - 1)) 30 && bit (octCfg d (trayOct link - 1)) 31)

def portDie (p : Nat) : Nat := p / 64

def Dev.link (d : Dev) (p : Nat) : Link := tget {} d.links p
def Dev.modLink (d : Dev) (p : Nat) (f : Link → Link) : Dev := { d with links := tmod {} d.links p f }
def Dev.tray (d : Dev) (l : Nat) : TrayLink := tget {} d.trays l
def Dev.modTray (d : Dev) (l : Nat) (f : TrayLink → TrayLink) : Dev := { d with trays := tmod {} d.trays l f }

def Dev.portUp (d : Dev) (p : Nat) : Bool := (d.link p).st.carries

/-- ENABLE of a port (R94 map). -/
def Dev.enabled (d : Dev) (p : Nat) : Bool := d.flag .ptPortCfg p 31

/-! ### Buffer pools, charges and credits (R152–R155) -/

/-- CRMIN of a lane: of its class, or 17 for VLM and VLU (R153). -/
def crMin (d : Dev) (vl : Nat) : Nat := if vl < 16 then d.fld .ptClassCfg (vl / 2) 15 0 else 17

def lossless (d : Dev) (tc : Nat) : Bool := d.flag .ptClassCfg tc 31

/-- floor(ALPHA × x), ALPHA being 2^(field − 4) (R153 map). -/
def alphaOf (d : Dev) (tc x : Nat) : Nat := x * 2 ^ d.fld .ptClassCfg tc 30 28 / 16

/-- The reserved pool of a port die (R152). -/
def reservedPool (d : Dev) (die : Nat) : Nat :=
  let perPort := sumNat ((upTo 8).map fun tc => 2 * d.fld .ptClassCfg tc 15 0) + 34
  let ports := ((upTo 64).map (64 * die + ·)).filter fun p => isPort d p && d.enabled p
  let trays := ((upTo 8).map (8 * die + ·)).filter fun o => bit (octCfg d o) 31 && isTray d (o - 96) && decide (96 ≤ o)
  ports.length * perPort + 256 * trays.length

/-- Sorts in a die's hellbox (R176). -/
def hellCount (d : Dev) (die : Nat) : Nat := (d.core.hell.filter fun e => e.1 / 98304 == die).length

/-- The shared pool (R152). -/
def sharedPool (d : Dev) (die : Nat) : Nat := 98304 - reservedPool d die - hellCount d die

/-- Shared use (R152): every lane's charge above its floor, plus the charge of every lossy queue. -/
def sharedUse (d : Dev) (die : Nat) : Nat :=
  let lanes := d.links.filter fun e => portDie e.1 == die
  let above := sumNat (lanes.map fun e => sumNat (e.2.charge.map fun c => c.2 - crMin d c.1))
  let lossyQ := d.core.qcharge.filter fun e => e.1 / 32768 == die && !lossless d (e.1 % 8)
  above + sumNat (lossyQ.map Prod.snd)

/-- FREE of a port die (R152). -/
def freeSorts (d : Dev) (die : Nat) : Nat := sharedPool d die - sharedUse d die

/-- A packet's sorts arrive on a lane: the credits its partner held become sorts held, so the charge stays (R152). -/
def chargeArrival (d : Dev) (p vl n : Nat) : Dev :=
  d.modLink p fun l => { l with held := tmod 0 l.held vl (· + n) }

/-- A sort charged to a lane is freed: credits are returned up to the lane's cap, or withheld and owed (R153, R154). -/
def freeCharge (d : Dev) (p vl n : Nat) : Dev :=
  let d := d.modLink p fun l =>
    { l with held := tmod 0 l.held vl (· - n), charge := tmod 0 l.charge vl (· - n) }
  let cap := crMin d vl + (if vl < 16 then alphaOf d (vl / 2) (freeSorts d (portDie p)) else freeSorts d (portDie p))
  let ch := tget 0 (d.link p).charge vl
  let give := cap - ch
  if ch < cap then
    d.modLink p fun l => { l with charge := tmod 0 l.charge vl (· + give), ret := tmod 0 l.ret vl (· + give) }
  else d

def freeArrival (d : Dev) (inp : Option (Nat × Nat)) (n : Nat) : Dev :=
  match inp with
  | some (p, vl) => freeCharge d p vl n
  | none => d

/-! ### Routes and next hops (R149, R150, R509–R511) -/

/-- Slots after failover (R509): each slot whose member is not UP goes to the UP members in turn, from the lowest slot. -/
def failSlots (up : Nat → Bool) (members : List Nat) : List (Option Nat) → Nat → List (Option Nat)
  | [], _ => []
  | s :: r, k =>
    let ups := members.filter up
    match s with
    | some p => if up p then s :: failSlots up members r k
                else if ups.isEmpty then s :: failSlots up members r k
                else (ups[k % ups.length]?) :: failSlots up members r (k + 1)
    | none => none :: failSlots up members r k

/-- What a route lookup gives. -/
inductive Route where
  | port (p : Nat)
  | noHop
  | noDest
  deriving DecidableEq, Repr

/-- The next-hop set an EID resolves to: an exact-match entry, else the block entry of EID[19:4] (R149); an uncorrectable entry acts
as absent on its die (R501). The keeper's own view is that of no die (31). -/
def routeSet (d : Dev) (die eid : Nat) : Option Nat :=
  match d.core.routeX.find? (fun e => e.2.1 == eid && !d.core.badX.contains (65536 * die + e.1)) with
  | some e => some e.2.2
  | none => if d.core.badB.contains (65536 * die + eid / 16) then none else tfind d.core.routeB (eid / 16)

/-- The slot a stream's hash selects; where every slot holds one port there is no choice to make. -/
def pickSlot (slots : List (Option Nat)) (h : Nat) : Option Nat :=
  match slots with
  | [] => none
  | s :: r => if r.all (· == s) then s else (slots[h % slots.length]?).join

/-- Next hop of a set for a stream (R131, R509, R511). -/
def hopOf (d : Dev) (die : Nat) (nh : NhSet) (h : Nat) : Route :=
  let armed := d.flag .fltFabpol 0 31
  let serve (s : NhSet) : Option Nat :=
    let slots := if armed then failSlots d.portUp s.members s.slots 0 else s.slots
    (pickSlot slots h).filter fun p => d.portUp p && !s.bad.contains (1024 * die + p)
  match serve nh with
  | some p => .port p
  | none =>
    if armed && !(nh.members.any d.portUp) then
      match nh.alt.bind (tfind d.core.nhs) with
      | some a => (match serve a with | some p => .port p | none => .noHop)
      | none => .noHop
    else .noHop

/-- Resolve an EID for a packet (R149 to R151). -/
def routeEid (d : Dev) (die eid : Nat) (k : Pkt) : Route :=
  match routeSet d die eid with
  | none => .noDest
  | some st => hopOf d die (tget {} d.core.nhs st) (Config.streamHash k.src k.dst k.chase k.tc)

/-! ### Queues (R151, R155, R158) -/

def voqKey (die port tc : Nat) : Nat := 32768 * die + 8 * port + tc
def egqKey (port tc : Nat) : Nat := 8 * port + tc

/-- The ingress queue of a packet: per egress port and class on a port die (R151), per destination die, class and kind on a press
die (R397). -/
def inqKey (q : QPkt) : Nat :=
  if q.die < 16 then voqKey q.die q.port q.pkt.tc
  else voqKey q.die (2 * (q.port / 64) + b2n (q.pkt.opc != opRESP && q.pkt.opc != opREDUCE_RESULT)) q.pkt.tc

/-- The early-drop profile of a class and colour on a queue charge: the probability scaled to 2^32 (R158). -/
def redProb (d : Dev) (tc colour q : Nat) : Nat :=
  let w := d.reg .ptRedProf (8 * tc + min colour 2)
  let minT := bits w 31 20 * 8
  let maxT := bits w 19 8 * 8
  if !bit w 0 || decide (q < minT) then 0
  else if maxT ≤ q then 2 ^ 32
  else bits w 7 2 * 2 ^ 26 * (q - minT) / (maxT - minT)

/-- Does the generator select the packet (R158)? A profile of probability 0 or 1 needs no draw. -/
def redSelect (d : Dev) (die p : Nat) : Bool × Dev :=
  if p = 0 then (false, d) else if 2 ^ 32 ≤ p then (true, d)
  else (decide (Config.redDraw die d.free % 2 ^ 32 < p), { d with free := d.free + 1 })

/-- What admission to a queue did with a packet. -/
inductive Adm where
  | queued | dropThr | dropRed
  deriving DecidableEq, Repr

/-- Admit a packet to a virtual output queue (R151): RED marks or selects (R158), a lossy class is held to its thresholds (R155). -/
def admitQ (d : Dev) (q : QPkt) : Adm × Dev :=
  let tc := q.pkt.tc
  let key := inqKey q
  let n := q.pkt.sorts
  let charge := tget 0 d.core.qcharge key
  let lossy := !lossless d tc && decide (q.vl < 16)
  let put (q : QPkt) (d : Dev) : Dev :=
    { d with core := { d.core with
        voq := tmod [] d.core.voq key (· ++ [{ q with lossy := lossy, born := d.clk, uid := d.core.nextQ }])
        nextQ := d.core.nextQ + 1
        qcharge := tmod 0 d.core.qcharge key (· + n) } }
  if 16 ≤ q.die ∨ 16 ≤ q.vl then (.queued, put q d)
  else
    let (sel, d) := redSelect d q.die (redProb d tc q.pkt.colour charge)
    let mark := sel && (!lossy || d.flag .ptRedProf (8 * tc + min q.pkt.colour 2) 1)
    if !lossy then
      if mark then (.queued, (put { q with pkt := { q.pkt with cn := true } } d).count .cMarked q.die)
      else (.queued, put q d)
    else if !(decide (charge + n ≤ alphaOf d tc (freeSorts d q.die)) && decide (n ≤ freeSorts d q.die)) then
      (.dropThr, d.count .cDropthr q.die)
    else if sel && !mark then (.dropRed, d.count .cDropred q.die)
    else
      let q := if mark then { q with pkt := { q.pkt with cn := true } } else q
      let d := if mark then d.count .cMarked q.die else d
      (.queued, freeArrival (put { q with inp := none } d) q.inp n)

/-- The lane a packet leaves on (R123): VLM for MGMT and TIME, the response lane for RESP and REDUCE_RESULT. -/
def laneOf (k : Pkt) : Nat :=
  if k.opc = opMGMT ∨ k.opc = opTIME then vlM
  else if k.opc = opRESP ∨ k.opc = opREDUCE_RESULT then vlResp k.tc
  else vlReq k.tc

/-- What became of a packet handed to the fabric. -/
inductive Sent where
  | queued (port : Nat) | noDest | noHop | dropped
  deriving DecidableEq, Repr

/-- Hand a packet to the fabric at a die: route by an EID (its DST, R149; the TARGET of a KIND 4 folio, R212), planes (R572), admission
(R155). Counts NOROUTE, NOHOP and the drops; what a request is answered is the caller's. -/
def sendPktTo (d : Dev) (die eid : Nat) (k : Pkt) (q : QPkt := {}) : Sent × Dev :=
  match routeEid d die eid k with
  | .noDest => (.noDest, d.count .cNoroute (min die 15))
  | .noHop => (.noHop, d.count .cNohop (min die 15))
  | .port p =>
    if (d.planes.length < 4) ∧ portDie p ≠ die then (.noDest, d.count .cNoroute (min die 15))
    else
      let (a, d) := admitQ d { q with pkt := k, port := p, vl := laneOf k, die := die }
      ((match a with | .queued => .queued p | _ => .dropped), d)

def sendPkt (d : Dev) (die : Nat) (k : Pkt) (q : QPkt := {}) : Sent × Dev := sendPktTo d die k.dst k q

/-- Send a RESP by its DST (R128): one that cannot leave is discarded, and its sorts' arrival is freed. -/
def sendResp (d : Dev) (die : Nat) (k : Pkt) (inp : Option (Nat × Nat) := none) : Dev :=
  let (r, d) := sendPkt d die k { inp := inp }
  match r with
  | .queued _ => d
  | _ => freeArrival d inp k.sorts

end Sys2Proof.Machine
end

