-- ==== Sys2Proof/Machine/Flits.lean ====
section
/-! DEFINITION. Flits: CRC-64, header and control bodies as bytes, link-layer sequence numbers, acks, replay and credits
(R87–R91, R96–R103, R108). -/

namespace Sys2Proof.Machine
open Sys2Proof

/-! ### CRC-64 (R90): ECMA-182, reflected, initial value and final XOR all ones -/

/-- The reflected ECMA-182 polynomial. -/
abbrev crcPoly : Nat := 0xC96C5795D7870F42

/-- One bit of the reflected CRC. -/
def crcBit (c : Nat) : Nat := if c % 2 = 1 then (c >>> 1) ^^^ crcPoly else c >>> 1

/-- One byte. -/
def crcByte (c : Nat) (b : Byte) : Nat :=
  crcBit (crcBit (crcBit (crcBit (crcBit (crcBit (crcBit (crcBit (c ^^^ b.toNat))))))))

/-- CRC-64 over bytes taken from byte 0 on. -/
def crc64 (bs : List Byte) : Nat := (bs.foldl crcByte 0xFFFFFFFFFFFFFFFF) ^^^ 0xFFFFFFFFFFFFFFFF

/-! ### Bytes of a flit (R87, R88, R96) -/

/-- The flit header word (R88). -/
def flitHdrWord (f : Flit) : Nat :=
  f.ftype <<< 60 + f.fseq <<< 48 + f.ackseq <<< 36 + b2n f.nak <<< 35 + f.vl <<< 30 + f.sopoff <<< 25 + f.fill <<< 20
    + f.crvl <<< 15 + f.crcnt <<< 8 + b2n f.enc <<< 1 + b2n f.kslot

/-- Eighteen 16-bit credit counts, VL0–VL15, VLM, VLU (R96). -/
def creditBytes (counts : List Nat) : List Byte := ((upTo 18).map fun i => leBytes 2 ((counts[i]?).getD 0)).flatten

/-- The body of a control flit from payload byte 0 (R96); bytes not listed are zero. -/
def ctlBytes (c : Ctl) : List Byte :=
  leBytes 1 c.ctype ++
  match c with
  | .hello eid ptype caps sport spare => leBytes 3 eid ++ leBytes 1 ptype ++ leBytes 1 caps ++ leBytes 1 (b2n spare) ++ leBytes 2 sport
  | .creditInit counts => leBytes 1 0 ++ creditBytes counts
  | .credit counts => leBytes 1 0 ++ creditBytes ((upTo 18).map fun i => tget 0 counts i)
  | .spareReq a b => leBytes 1 a ++ leBytes 1 b
  | .spareAck a b r => leBytes 1 a ++ leBytes 1 b ++ leBytes 1 (b2n r)
  | .narrowReq h => leBytes 1 h
  | .narrowAck h r => leBytes 1 h ++ leBytes 1 (b2n r)
  | .keySwitch s q => leBytes 1 (b2n s) ++ leBytes 2 q
  | .trickleReq => [] | .trickleAck r => leBytes 1 (b2n r) | .wakeReq => [] | .wakeReady => []
  | .linkDown cause => leBytes 1 cause

/-- Pad to the 240-byte payload area. -/
def pad240 (b : List Byte) : List Byte := b ++ List.replicate (240 - b.length) 0

/-- Bytes 0–247 of a flit. -/
def flitBytes (f : Flit) : List Byte :=
  leBytes 8 (flitHdrWord f) ++ pad240 (match f.ctl with | some c => ctlBytes c | none => f.payload)

/-- The flit with its CRC-64 (R90). -/
def sealFlit (f : Flit) : Flit := { f with crc := BitVec.ofNat 64 (crc64 (flitBytes f)) }

/-- Is the CRC of a received flit good? -/
def crcGood (f : Flit) : Bool := f.crc == BitVec.ofNat 64 (crc64 (flitBytes f))

/-! ### Sequence numbers, replay buffer, acks (R98–R100) -/

def seqAdd (a n : Nat) : Nat := (a + n) % 4096

/-- Lanes of a port in use (R98: 128 flits of replay buffer per lane of port width). -/
def portLanes (d : Dev) (p : Nat) : Nat := octLanes d (p / 8)

/-- Is there room in the replay buffer (R98)? -/
def replayRoom (d : Dev) (p : Nat) : Bool := decide ((d.link p).replay.length < 128 * portLanes d p)

/-- Credits that ride on the next data or control flit: the first lane owed any, at most 127 of them (R88, R154). -/
def rideCredit (l : Link) : Nat × Nat :=
  match l.ret.find? fun e => decide (0 < e.2) with
  | some (v, n) => (v, min n 127)
  | none => (0, 0)

/-- Send a sequenced flit now (R98, R99, R154): next FSEQ, current ACKSEQ, owed credits, kept for replay, FLITTX counted. From the
first FSEQ of an announced key on, the new slot is the transmit slot (R110). -/
def sendSeq (d : Dev) (p : Nat) (f : Flit) : Dev :=
  let l := d.link p
  let (v, n) := rideCredit l
  let f := sealFlit { f with fseq := l.txSeq, ackseq := seqAdd l.rxExp 4095, nak := l.nakPend, crvl := v, crcnt := n }
  let next := seqAdd l.txSeq 1
  let d := d.modLink p fun l =>
    { l with txSeq := next, replay := l.replay ++ [f], sinceAck := 0, keyFlits := l.keyFlits + b2n l.encact
             txExt := l.txExt + 1, ret := if n = 0 then l.ret else tmod 0 l.ret v (· - n) }
  let turn (l : Link) : Link := match l.newTx with
    | some (s, q) => if q = next then { l with kslot := s, newTx := none, keyFlits := 0, txExt := 0 } else l
    | none => l
  ((d.modLink p turn).count .cFlittx p).emit (.flit p f)

/-- Send a control flit; while the replay buffer is full it is owed (R98, R180). -/
def sendCtl (d : Dev) (p : Nat) (c : Ctl) : Dev :=
  if replayRoom d p && (d.link p).ctlQ.isEmpty then sendSeq d p { ftype := 2, ctl := some c }
  else d.modLink p fun l => { l with ctlQ := l.ctlQ ++ [c] }

/-- Send a flit that carries ACKSEQ only: an idle flit (R99). -/
def sendAck (d : Dev) (p : Nat) : Dev :=
  let l := d.link p
  let f := sealFlit { ackseq := seqAdd l.rxExp 4095, nak := l.nakPend, sopoff := 0 }
  (d.modLink p fun l => { l with sinceAck := 0 }).emit (.flit p f)

/-- Flits of the replay buffer a cumulative ACKSEQ covers (R99). -/
def ackCovers (l : Link) (ackseq : Nat) : Nat :=
  let n := (ackseq + 4096 - l.ackGot) % 4096
  if n ≤ l.replay.length then n else 0

/-- A received ACKSEQ frees what it covers (R98, R99). -/
def ackRx (d : Dev) (p ackseq : Nat) : Dev :=
  let n := ackCovers (d.link p) ackseq
  if n = 0 then d
  else d.modLink p fun l => { l with replay := l.replay.drop n, ackGot := ackseq, tries := [] }

/-- Credits returned by the partner (R102). -/
def creditRx (d : Dev) (p vl n : Nat) : Dev :=
  if n = 0 then d else d.modLink p fun l => { l with credits := tmod 0 l.credits vl (· + n) }

end Sys2Proof.Machine
end

