-- ==== Sys2Proof/Machine/Tfp.lean ====
section
/-! DEFINITION. The transaction layer every packet command goes through: header checks (R126), the steps of R43 with the
epoch check of R60, policers (R188), trains (R117), duplicate filters (R135, R136), responses (R128, R130) and answers (R138). -/

namespace Sys2Proof.Machine
open Sys2Proof

/-- A check that goes on with a device state and a value, or stops with the device state it leaves. -/
abbrev Ck := Except Dev

/-- The device state a check leaves. -/
def Ck.dev (c : Ck Dev) : Dev := match c with | .ok d => d | .error d => d

/-- The packet as the row's own opcode: a command names its opcode by its row. -/
def asOp (opc : Nat) (x : Rx) : Rx := { x with pkt := { x.pkt with opc := opc } }

/-! ### Responses -/

/-- A chase's epoch as one die sees it: (current, draining if live, closed) (R58, R67). A die that has not applied the running
commit still sees the old epoch as current; one that has not applied a close or a release still sees what it had. -/
def epochView (c : Comp) (die : Nat) : Nat × Option Nat × Bool :=
  if c.late.contains die then (c.drn, none, false)
  else if c.drnLive || c.lateRel.contains die then (c.cur, some c.drn, c.drnClosed && !c.lateClose.contains die)
  else (c.cur, none, false)

/-- The RESP to a request (R128, R130): W2 holds ROPC, RVAL, CAUSE; W3 holds CNE, POISMASK, FAILMASK. Under MAPGONE EPOCH is the
chase's current epoch. -/
def mkResp (d : Dev) (die : Nat) (k : Pkt) (st : Status) (rval cause fail pois : Nat) (cne dup : Bool)
    (data : List Byte) : Pkt :=
  { opc := opRESP, tc := k.tc, len := data.length, dup := dup
    epoch := if st = .mapGone then (epochView (d.comp k.chase) die).1 else k.epoch
    chase := k.chase, party := k.party, dst := k.src, src := d.tfp.eid, tag := k.tag, status := st.code
    w2 := BitVec.ofNat 64 (k.opc <<< 56 + (rval % 2 ^ 48) <<< 8 + cause)
    w3 := BitVec.ofNat 64 (b2n cne <<< 63 + pois <<< 16 + fail), data := data }

/-- Cut a payload into the packets of a train of at most 4,096 bytes each (R116). -/
def cutTrain (k : Pkt) (data : List Byte) : List Pkt :=
  let n := max 1 (cdiv data.length 4096)
  (upTo n).map fun i =>
    let part := (data.drop (4096 * i)).take 4096
    { k with pidx := i, last := decide (i + 1 = n), len := part.length, data := part }

def sendResps (d : Dev) (die : Nat) (ks : List Pkt) : Dev := foldOver ks d fun k d => sendResp d die k

/-- Refuse a packet at its ingress with a status (R43, R122, R126): the RESP is sent and the packet's sorts are freed. -/
def refuse (d : Dev) (x : Rx) (st : Status) (rval : Nat := 0) : Dev :=
  let die := portDie x.port
  let d := sendResp d die (mkResp d die x.pkt st rval 0 0 0 x.pkt.cn false [])
  freeCharge d x.port x.vl x.pkt.sorts

/-- Discard a packet at its ingress. -/
def discard (d : Dev) (x : Rx) : Dev := freeCharge d x.port x.vl x.pkt.sorts

/-! ### Header checks (R126) -/

/-- Is the packet a request: an opcode of kind Request without DLV (R120)? -/
def isRequest (k : Pkt) : Bool :=
  (match k.opc with
   | 0x01 | 0x02 | 0x03 | 0x04 | 0x10 | 0x12 | 0x20 | 0x21 | 0x24 | 0x25 | 0x30 => true
   | 0x22 | 0x23 | 0x31 => !k.dlv
   | _ => false)

/-- May an opcode form trains (R120)? -/
def isTrain (opc : Nat) : Bool :=
  opc == opRESP || opc == opREDUCE_CONTRIB || opc == opREDUCE_RESULT || opc == opCARRY || opc == opGATHER
    || opc == opSCATTER_ADD || opc == opDISPATCH || opc == opCOMBINE

/-- LEN and HEXT within the opcode table (R120). -/
def lenOk (k : Pkt) : Bool :=
  decide (k.hext = if k.opc = opSCAN then 1 else 0) &&
  (match k.opc with
   | 0x01 | 0x04 | 0x25 | 0x30 | 0x3A => k.len == 0
   | 0x03 => k.len == 8 || k.len == 16 || k.len == 32
   | 0x05 => decide (k.len ≤ 4096)
   | 0x20 => decide (4 ≤ k.len ∧ k.len ≤ 4096)
   | 0x39 => decide (34 ≤ k.len ∧ k.len ≤ 256)
   | _ => decide (1 ≤ k.len ∧ k.len ≤ 4096))

/-- Is an EID reserved, 0xFFFF0 to 0xFFFFE (R119)? -/
def eidReserved (e : Nat) : Bool := decide (0xFFFF0 ≤ e ∧ e < 0xFFFFF)

/-- Step 3 of R126: HEXT, LEN, PIDX, LAST, RTRY, DLV, DUP and the EIDs within R116 to R120. -/
def fieldsOk (k : Pkt) (ptype : Nat) : Bool :=
  lenOk k
    && (isTrain k.opc || (k.pidx == 0 && k.last))
    && !(k.rtry && (k.opc == opRESP || k.opc == opMGMT || k.opc == opTIME || k.opc == opSNAP))
    && !(k.dup && k.opc != opRESP)
    && !(k.dlv && !(k.opc == opREDUCE_RESULT || k.opc == opDISPATCH || k.opc == opCOMBINE || k.opc == opMCAST))
    && !(k.dlv && (ptype == 1 || ptype == 2))
    && !(k.src == eidFABRIC || eidReserved k.src || eidReserved k.dst)

/-- The lane a packet must arrive on (R123), VLU excepted; a SNAP copy travels on VLk with TC = floor(k ÷ 2). -/
def laneOk (k : Pkt) (vl : Nat) : Bool :=
  vl == vlU || (if k.opc = opSNAP then decide (vl < 16 ∧ k.tc = vl / 2) else vl == laneOf k && (vl != vlM || k.tc == 0))

/-- Count HDRERR and send TFPHDR naming the port, at most once per port per 1 ms (R126). -/
def hdrErr (d : Dev) (port : Nat) : Dev :=
  let d := d.count .cHdrerr (portDie port)
  d.notice 0x0209 (portDie port) none port (d.counter .cHdrerr (portDie port)).toNat 0

/-- A packet has arrived: its bytes on its port (R473) and, after the cut of a snapshot of its chase while its lane is open, as in flight
at the cut (R535). -/
def arrivedPkt (d : Dev) (x : Rx) : Dev :=
  let d := d.portBytes x.port 0 x.pkt.size
  if d.snap.st = .cut ∧ d.snap.chases.contains x.pkt.chase ∧ d.snap.lanes.contains (x.port, x.vl) ∧ x.pkt.opc ≠ opSNAP then
    { d with snap := { d.snap with flight := tmod (0, 0) d.snap.flight (32 * x.port + x.vl) fun c => (c.1 + 1, c.2 + x.pkt.size) } }
  else d

/-- Packet bytes admitted under R43 (R473). -/
def admittedPkt (d : Dev) (x : Rx) : Dev := d.account (portDie x.port) x.pkt.chase x.pkt.party 0 x.pkt.size

/-- The header checks of R126 from step 2 on. A STATUS in a request is taken as zero. -/
def hdrCheck (d : Dev) (x : Rx) : Ck Dev :=
  let d := arrivedPkt d x
  if !laneOk x.pkt x.vl then .error (discard (hdrErr d x.port) x)
  else if !fieldsOk x.pkt (d.link x.port).ptype then
    .error (if isRequest x.pkt then refuse (hdrErr d x.port) x .unsupported else discard (hdrErr d x.port) x)
  else .ok d

/-! ### Membership and epoch (R43, R58, R60, R121) -/

/-- Count a failed step of R43 of a chase. -/
def chkCount (d : Dev) (chase step : Nat) : Dev :=
  { d with chk := tput d.chk (4 * chase + (step - 1)) (satAdd64 (tget 0 d.chk (4 * chase + (step - 1))) 1) }

/-- The membership entry a packet passes step 1 by: its source bound in its chase on the arrival die, or a trunk entry of the
port (R42, R43, R121). -/
def memberOf (d : Dev) (port : Nat) (k : Pkt) : Option MemberEnt :=
  d.imp.members.find? fun m => !m.bad && m.die == portDie port && m.chase == k.chase
    && (if m.trunk then m.port == port else m.eid == k.src)

/-- A failed step: a request is answered, any other packet is dropped and counted (R43). -/
def failStep (d : Dev) (x : Rx) (step : Nat) (st : Status) : Dev :=
  let d := chkCount d x.pkt.chase step
  if isRequest x.pkt then refuse d x st else discard d x

/-- Steps 1 and 2 of R43. A suspended chase fails step 1 (R581). -/
def memberCheck (d : Dev) (x : Rx) : Ck Dev :=
  if (d.comp x.pkt.chase).suspended then .error (failStep d x 1 .denied)
  else match memberOf d x.port x.pkt with
    | none => .error (failStep d x 1 .denied)
    | some m => if m.trunk || m.party == x.pkt.party then .ok d else .error (failStep d x 2 .denied)

def Dev.modComp (d : Dev) (c : Nat) (f : Comp → Comp) : Dev :=
  { d with imp := { d.imp with comps := tmod {} d.imp.comps c f } }

/-- A straggler: MAPGONE and STRAG (R60, R61). -/
def straggle (d : Dev) (x : Rx) : Dev :=
  failStep (d.modComp x.pkt.chase fun c => { c with strag := true }) x 3 .mapGone

/-- The epoch check of R60. `cont`: the packet continues an operation already admitted under its epoch. The answer says
whether the operation is counted now. A chase being destroyed admits nothing new (R73). -/
def epochCheck (d : Dev) (x : Rx) (cont : Bool) : Ck (Dev × Bool) :=
  let c := d.comp x.pkt.chase
  let (cur, drn, closed) := epochView c (portDie x.port)
  if !c.bound then .error (failStep d x 1 .denied)
  else if c.destroying && !cont then .error (failStep d x 3 .denied)
  else if x.pkt.epoch = cur ∧ !c.curDead then .ok (d, !cont)
  else if drn = some x.pkt.epoch then
    if cont then .ok (d, false)
    else if !closed then .ok (d, true)
    else .error (straggle d x)
  else .error (straggle d x)

/-- count(e) of a die (R58, R60). -/
def countEpoch (d : Dev) (die chase e : Nat) : Dev :=
  d.modComp chase fun c => { c with count := tmod 0 c.count (16 * die + e) (· + 1) }

def uncountEpoch (d : Dev) (die chase e : Nat) : Dev :=
  d.modComp chase fun c => { c with count := tmod 0 c.count (16 * die + e) (· - 1) }

/-! ### Policers (R188) -/

/-- The two-rate three-colour marker of the ingress port and class. -/
def police (d : Dev) (x : Rx) : Dev × Pkt :=
  let key := 8 * x.port + x.pkt.tc
  let b := tget {} d.sched.policer key
  let aware := bit b.word 62
  let red := decide (2 ≤ x.pkt.colour)
  if !bit b.word 63 then (d, x.pkt)
  else
    let (colour, tc, tp) :=
      if aware && red then (2, b.tc, b.tp)
      else if b.tp < 1 then (2, b.tc, b.tp)
      else if (aware && x.pkt.colour == 1) || b.tc < 1 then (1, b.tc, b.tp - 1)
      else (0, b.tc - 1, b.tp - 1)
    let d := { d with sched := { d.sched with policer := tput d.sched.policer key { b with tc := tc, tp := tp } } }
    let d := if colour = 1 then d.count .cPolyellow (portDie x.port)
             else if colour = 2 then d.count .cPolred (portDie x.port) else d
    (d, { x.pkt with colour := colour })

/-! ### Admission and answers (R127–R138) -/

/-- Admit a request: its ingress tracks it until its RESP is sent (R138). -/
def track (d : Dev) (x : Rx) (k : Pkt) (counted : Bool) : Dev × Nat :=
  let id := d.tfp.nextId
  let o : Outst :=
    { id := id, die := portDie x.port, port := x.port, pkt := k, counted := counted, cn := k.cn
      home := .ingress (portDie x.port) }
  let d := { d with tfp := { d.tfp with nextId := id + 1, outst := d.tfp.outst ++ [o] } }
  (if counted then countEpoch d (portDie x.port) k.chase k.epoch else d, id)

def Dev.outst (d : Dev) (id : Nat) : Option Outst := d.tfp.outst.find? fun o => o.id == id

def Dev.modOutst (d : Dev) (id : Nat) (f : Outst → Outst) : Dev :=
  { d with tfp := { d.tfp with outst := mapIf (fun o => o.id == id) f d.tfp.outst } }

def Dev.dropOutst (d : Dev) (id : Nat) : Dev :=
  { d with tfp := { d.tfp with outst := d.tfp.outst.filter fun o => o.id != id } }

/-- The die code that counts a home's filter events (R146). -/
def homeDie : Home → Nat
  | .galley n => dPX n | .core c => dPX (c / 32) | .mark n => dPT n | .tray l => dPT (trayDie l)
  | .repl n => dPT n | .stripe n => dPX n | .coh n => dPX n | .remote _ => 0 | .ingress n => dPT n

/-- Capacity of a home's duplicate filter (R136; stripe engine R235, coherence engine R279). -/
def filterCap : Home → Nat
  | .galley _ => 32768 | .core _ => 4096 | .mark _ => 16384 | .tray _ => 8192 | .repl _ => 4096
  | .stripe _ => 8192 | .coh _ => 16384 | .remote _ => 0 | .ingress _ => 0

/-- Record the RESP of an execution in its filter entry: STATUS, W2, W3 and up to 16 bytes (R135). -/
def filterDone (d : Dev) (id : Nat) (r : Pkt) : Dev :=
  let r' := { r with data := r.data.take 16, len := min r.len 16 }
  let done (e : FilterEnt) : FilterEnt := { e with done := true, resp := some r' }
  { d with tfp := { d.tfp with filters := mapIf (fun e => e.own == id && !e.done) done d.tfp.filters } }

/-- The operation of a request has ended: RESP to its source, its count under its epoch goes, its filter entry keeps the answer,
reissues absorbed into it receive a copy with DUP = 1 (R128, R135). A request its ingress already answered is only counted as
LATERESP (R138). -/
def answer (d : Dev) (id : Nat) (st : Status) (rval : Nat := 0) (cause : Nat := 0) (fail : Nat := 0) (pois : Nat := 0)
    (data : List Byte := []) : Dev :=
  match d.outst id with
  | none => d
  | some o =>
    let r := mkResp d o.die o.pkt st rval cause fail pois o.cn false data
    let absorbed := d.tfp.outst.filter fun a => a.absorbed == some id
    let d := filterDone (d.dropOutst id) id r
    let d := if o.answered then d.count .cLateresp o.die
             else
               let d := if o.counted then uncountEpoch d o.die o.pkt.chase o.pkt.epoch else d
               sendResps d o.die (cutTrain r data)
    foldOver absorbed d fun a d =>
      let d := d.dropOutst a.id
      if a.answered then d.count .cLateresp a.die
      else
        let d := if a.counted then uncountEpoch d a.die a.pkt.chase a.pkt.epoch else d
        sendResps d a.die (cutTrain { mkResp d a.die a.pkt st rval cause fail pois a.cn true data with dup := true } data)

/-- The duplicate filter of a home (R135): a fresh request replaces any entry of its key; a reissue finds its entry and is answered
from it, absorbed, or refused; a full filter answers RETRY (R136). -/
def filterCheck (d : Dev) (id : Nat) (home : Home) : Ck Dev :=
  match d.outst id with
  | none => .error d
  | some o =>
    let k := o.pkt
    let hit (e : FilterEnt) : Bool := e.home == home && e.src == k.src && e.chase == k.chase && e.tag == k.tag
    let d := d.modOutst id fun o => { o with home := home }
    let ent : FilterEnt :=
      { home := home, src := k.src, chase := k.chase, tag := k.tag, opc := k.opc, w2 := k.w2, w3 := k.w3, own := id }
    let used := (d.tfp.filters.filter fun e => e.home == home).length
    let insert (d : Dev) : Ck Dev :=
      if filterCap home ≤ used then .error (answer (d.count .cFiltfull (homeDie home)) id .retry)
      else .ok { d with tfp := { d.tfp with filters := d.tfp.filters ++ [ent] } }
    match d.tfp.filters.find? hit with
    | none => insert d
    | some e =>
      if !k.rtry then .ok { d with tfp := { d.tfp with filters := mapFirst hit (fun _ => ent) d.tfp.filters } }
      else if e.opc ≠ k.opc ∨ e.w2 ≠ k.w2 ∨ e.w3 ≠ k.w3 then
        .error (answer (d.count .cDupmism (homeDie home)) id .unsupported)
      else if !e.done then
        .error ((d.modOutst id fun o => { o with absorbed := some e.own }).count .cDuphit (homeDie home))
      else
        let d := d.count .cDuphit (homeDie home)
        let d := d.dropOutst id
        let d := if o.counted then uncountEpoch d o.die k.chase k.epoch else d
        match e.resp with
        | some r => .error (sendResp d o.die { r with dup := true })
        | none => .error d

/-! ### Trains (R116, R117) -/

/-- Must two packets of one train agree in this (R116)? OPC, TC, CHASE, EPOCH, PARTY, SRC, DST, TAG, W2 and W3, ELEMOFF apart in
trains of REDUCE_CONTRIB, REDUCE_RESULT and CARRY. -/
def sameTrain (a b : Pkt) : Bool :=
  a.opc == b.opc && a.tc == b.tc && a.chase == b.chase && a.epoch == b.epoch && a.party == b.party && a.src == b.src
    && a.dst == b.dst && a.tag == b.tag && a.w2 == b.w2
    && (if a.opc = opREDUCE_CONTRIB ∨ a.opc = opREDUCE_RESULT ∨ a.opc = opCARRY
        then wbits a.w3 63 32 == wbits b.w3 63 32 else a.w3 == b.w3)

/-- The open train of a packet's (SRC, CHASE, TAG), requests and responses apart. -/
def openTrain (d : Dev) (k : Pkt) : Option Train :=
  d.tfp.trains.find? fun t => t.resp == (k.opc == opRESP) && t.first.src == k.src && t.first.chase == k.chase
    && t.first.tag == k.tag

def dropTrain (d : Dev) (k : Pkt) : Dev :=
  let hit (t : Train) : Bool :=
    t.resp == (k.opc == opRESP) && t.first.src == k.src && t.first.chase == k.chase && t.first.tag == k.tag
  { d with tfp := { d.tfp with trains := d.tfp.trains.filter fun t => !hit t } }

/-- Does a packet continue a train already admitted (R58)? -/
def continues (d : Dev) (k : Pkt) : Bool := k.pidx != 0 && (openTrain d k).isSome

/-- The outstanding request a packet of a train belongs to. -/
def outstOf (d : Dev) (k : Pkt) : Option Outst :=
  d.tfp.outst.find? fun o => o.pkt.src == k.src && o.pkt.chase == k.chase && o.pkt.tag == k.tag && o.pkt.opc == k.opc
    && o.absorbed.isNone && !o.answered

/-- A train fails at its home: RETRY, what is held of it is discarded, TRAINERR (R117). The sorts of its packets are already freed. -/
def trainFail (d : Dev) (x : Rx) : Dev :=
  let d := (dropTrain d x.pkt).count .cTrainerr (portDie x.port)
  match outstOf d x.pkt with
  | some o => answer d o.id .retry
  | none => d

/-- One packet of a train reaches its home (R117): the whole train once LAST has come, or nothing yet. -/
def trainStep (d : Dev) (x : Rx) : Ck (Dev × Option (List Pkt)) :=
  let k := x.pkt
  match (openTrain d k).filter fun t => !(t.dead && k.pidx == 0) with
  | none =>
    let d := if k.pidx = 0 then dropTrain d k else d
    if k.pidx ≠ 0 then .error (trainFail d x)
    else if k.last then .ok (d, some [k])
    else
      let t : Train := { die := portDie x.port, port := x.port, resp := k.opc == opRESP, first := k, next := 1, pkts := [k] }
      .ok ({ d with tfp := { d.tfp with trains := d.tfp.trains ++ [t] } }, none)
  | some t =>
    if t.dead then
      -- the rest of a train given up at its core is discarded (R396)
      let d := if k.last then dropTrain d k else d
      match outstOf d k with
      | some o =>
        let d := if o.counted then uncountEpoch d o.die k.chase k.epoch else d
        .error (d.dropOutst o.id)
      | none => .error d
    else if k.pidx ≠ t.next ∨ !sameTrain t.first k then .error (trainFail d x)
    else if k.last then .ok (dropTrain d k, some (t.pkts ++ [k]))
    else
      let step (t : Train) : Train := { t with next := t.next + 1, pkts := t.pkts ++ [k] }
      .ok ({ d with tfp := { d.tfp with trains := mapFirst (fun u => u == t) step d.tfp.trains } }, none)

/-! ### The way in -/

/-- Is a packet bound for this switch's own services: FABRIC or the switch EID (R119, R149)? -/
def isLocal (d : Dev) (k : Pkt) : Bool := k.dst == eidFABRIC || k.dst == d.tfp.eid

/-- Admission of a lossy request to its press or tray queue (R155), whose charge is zero between commands: it is dropped and answered
RETRY when FREE does not hold its sorts. -/
def lossyIn (d : Dev) (x : Rx) (k : Pkt) : Ck Dev :=
  let die := portDie x.port
  if isLocal d k && !lossless d k.tc && decide (x.vl < 16) && !(decide (k.sorts ≤ alphaOf d k.tc (freeSorts d die))
      && decide (k.sorts ≤ freeSorts d die)) then
    .error (refuse (d.count .cDropthr die) x .retry)
  else .ok d

/-- A request passes R126, steps 1 to 3 of R43 and its policer; its first packet is tracked by its ingress. Answers the device,
the id of the tracked request and the packet as policed. `cont`: it continues an operation admitted earlier. A packet this switch
serves itself gives its sorts back within the step; one that is forwarded keeps them charged until its crossing (R148). -/
def ingress (d : Dev) (x : Rx) (cont : Bool) : Ck (Dev × Nat × Pkt) := do
  let d ← hdrCheck d x
  let d ← memberCheck d x
  let (d, counted) ← epochCheck d x cont
  let (d, k) := police (admittedPkt d x) x
  let _ ← lossyIn d x k
  let take (d : Dev) : Dev :=
    if isLocal d k && !(k.opc == opMCAST && lossless d k.tc) then freeCharge d x.port x.vl k.sorts else d
  match (if continues d k then outstOf d k else none) with
  | some o => .ok (take (d.modOutst o.id fun o => { o with cn := k.cn }), o.id, k)
  | none =>
    let (d, id) := track d x k counted
    .ok (take d, id, k)

/-- Forward a tracked request to another home, routed by an EID: RETRY if it was dropped, TARGETLOST if it has no way (R150, R155, R511).
`inp` is the arrival lane its sorts stay charged to. -/
def forwardTo (d : Dev) (id eid : Nat) (k : Pkt) (inp : Option (Nat × Nat) := none) : Dev :=
  match d.outst id with
  | none => d
  | some o =>
    let (r, d) := sendPktTo d o.die eid k { req := some id, inp := inp }
    match r with
    | .queued p => d.modOutst id fun o => { o with home := .remote eid, via := some p }
    | .dropped => answer (freeArrival d inp k.sorts) id .retry
    | .noDest | .noHop => answer (freeArrival d inp k.sorts) id .targetLost

def forwardReq (d : Dev) (id : Nat) (k : Pkt) (inp : Option (Nat × Nat) := none) : Dev := forwardTo d id k.dst k inp

end Sys2Proof.Machine
end

