-- ==== Sys2Proof/Machine/Leave.lean ====
section
/-! DEFINITION. What a port that leaves UP takes with it, and the link states a port moves through (R92–R94, R134, R173, R335, R453). -/

namespace Sys2Proof.Machine
open Sys2Proof

/-- Send the packets of a delivery through the fabric. -/
def sendDelivery (d : Dev) (die : Nat) (tag : Nat) (ks : List Pkt) : Dev :=
  foldOver ks d fun k d =>
    let (r, d) := sendPkt d die k { dlvTag := some tag }
    match r with
    | .queued p => { d with tfp := { d.tfp with dlv := mapIf (fun v => v.tag == tag) (fun v => { v with port := p }) d.tfp.dlv } }
    | _ => d

/-- Start a delivery or request of the switch itself (R142): its own tag, SRC = switch EID. -/
def startDelivery (d : Dev) (die : Nat) (kind : DlvKind) (ks : List Pkt) : Dev :=
  let tag := d.tfp.nextTag
  let ks := ks.map fun k => { k with tag := tag, src := d.tfp.eid }
  let v : Delivery := { tag := tag, kind := kind, pkts := ks, die := die }
  sendDelivery { d with tfp := { d.tfp with nextTag := (tag + 1) % 65536, dlv := d.tfp.dlv ++ [v] } } die tag ks

/-- Reissue a delivery with RTRY = 1 through another next hop (R335); after the fourth reissue it is left for its outcome. -/
def reissue (d : Dev) (v : Delivery) : Dev :=
  if 5 ≤ v.issues then
    { d with tfp := { d.tfp with dlv := mapIf (fun w => w.tag == v.tag) (fun w => { w with failed := true }) d.tfp.dlv } }
  else
    let d := { d with tfp := { d.tfp with dlv := mapIf (fun w => w.tag == v.tag) (fun w => { w with issues := w.issues + 1 }) d.tfp.dlv } }
    let d := match v.kind with
      | .redResult .. => d.count .cRedreissue v.die
      | _ => d
    sendDelivery d v.die v.tag (v.pkts.map fun k => { k with rtry := true })

/-- The outcome of one member of a multicast in its running round, known at the member's die (R172). -/
def mcSet (d : Dev) (id m : Nat) (o : McOut) : Dev :=
  let one (r : McRun) : McRun := { r with outs := r.outs.set m o }
  { d with core := { d.core with mc := mapIf (fun r => r.id == id) one d.core.mc } }

/-- A packet on its way to a port that has left UP: a RESP is discarded and counted in RESPLOST, a request is answered RETRY by
its ingress; a multicast delivery is a miss (R134, R173). `held` sorts of it are still in the type case of its ingress. -/
def loseQ (d : Dev) (q : QPkt) (held : Nat) : Dev :=
  let d := freeArrival d q.inp held
  let d := if q.die < 16 then { d with core := { d.core with qcharge := tmod 0 d.core.qcharge (inqKey q) (· - held) } } else d
  let d := match q.mc with
    | some (id, m) => mcSet d id m .missed
    | none => d
  match q.req with
  | some id => answer d id .retry
  | none => if q.pkt.opc = opRESP then d.count .cResplost (portDie q.port) else d

/-- Sorts of a destination's store that are freed go back to their source as owed crossbar credits (R165). -/
def oweSorts (d : Dev) (src port n : Nat) : Dev :=
  { d with core := { d.core with owed := tmod 0 d.core.owed (1024 * src + port) (· + n) } }

/-- The sorts of a packet in flight, and those not yet handed to the planes. -/
def unsentOf (d : Dev) (q : QPkt) : Nat :=
  match d.core.xRun.find? fun e => e.2.1.uid == q.uid with
  | some e => q.pkt.sorts - e.2.2
  | none => 0

/-- A snapshot is DONE: SNAPDONE (R536). -/
def snapDone (d : Dev) : Dev :=
  { d with snap := { d.snap with st := .done } }.notice 0x0805 d.kpDie none d.snap.id
    (2 * b2n d.snap.incomp + b2n d.snap.early) 0

/-- A snapshot that cannot be completed is marked INCOMPLETE, then DONE (R536). -/
def snapIncomplete (d : Dev) : Dev := snapDone { d with snap := { d.snap with incomp := true } }

/-- Everything bound for a port that left UP (R134, R335): its queues are emptied, requests sent over it are answered RETRY,
deliveries sent over it are reissued. A sort still on the planes is freed by its RACK and discarded at the destination. -/
def portLeft (d : Dev) (p : Nat) : Dev :=
  let vq := (d.core.voq.flatMap Prod.snd).filter fun q => q.port == p
  let run := (d.core.xRun.map fun e => e.2).filter fun r => r.1.port == p
  let fl := (d.core.flights.filter fun f => f.q.port == p && f.idx + 1 == f.q.pkt.sorts && !f.out).map fun f => f.q
  let eq := (d.core.egq.filter fun e => e.1 / 8 == p).flatMap Prod.snd
  let core := { d.core with
    voq := (d.core.voq.map fun e => (e.1, e.2.filter fun q => q.port != p)).filter fun e => !e.2.isEmpty
    xRun := d.core.xRun.filter fun e => e.2.1.port != p
    egq := d.core.egq.filter fun e => e.1 / 8 != p
    flights := d.core.flights.map fun f => if f.q.port == p then { f with lost := true } else f }
  let d := { d with core := core }
  let d := foldOver vq d fun q d => loseQ d q q.pkt.sorts
  let d := foldOver run d fun r d => loseQ d r.1 (r.1.pkt.sorts - r.2)
  let d := foldOver (fl ++ eq.filter fun q => q.got == q.pkt.sorts) d fun q d => loseQ d q 0
  let d := foldOver eq d fun q d => if q.die < 24 then oweSorts d q.die p (q.got - q.sent / 256) else d
  let reqs := d.tfp.outst.filter fun o => o.via == some p && !o.answered
  let d := foldOver reqs d fun o d => answer d o.id .retry
  let d := foldOver (d.tfp.dlv.filter fun v => v.port == p) d fun v d => reissue d v
  if d.snap.st = .cut ∧ d.snap.lanes.any fun l => l.1 == p then snapIncomplete d else d

/-- The link-layer fields a bring-up starts from (R93). -/
def freshLink (l : Link) : Link :=
  { l with fecLock := false, hello := false, crSent := false, crGot := false, credits := [], charge := [], held := []
           ret := [], txSeq := 0, rxExp := 0, ackGot := 4095, nakPend := false, replay := [], tries := [], sinceAck := 0
           asm := [], proc := none, keySusp := none, oldRx := none, newTx := none, keyFlits := 0, txExt := 0, rxExt := 0
           ctlQ := [], failed := [], laneCorr := [], spareUse := [], spared := false, narrowed := false, half := 0
           wakeMine := false, wakePeer := false, wakeSlow := false, psn := false }

/-- ENABLE set: training of the port's lanes starts (R93). -/
def linkEnable (d : Dev) (p : Nat) : Dev :=
  d.modLink p fun l =>
    { freshLink l with st := .training, width := d.fld .ptOctetCfg (p / 8) 26 25, rate := d.fld .ptOctetCfg (p / 8) 29 27 }

/-- ENABLE cleared: DOWN at once, flits in flight lost, key slots zeroised (R94 map, R453). -/
def linkDisable (d : Dev) (p : Nat) : Dev :=
  let was := (d.link p).st
  let d := d.modLink p fun l =>
    { freshLink l with st := .down, encact := false, kslot := false, rxSlot := false, slot0 := none, slot1 := none }
  if was.carries then portLeft d p else d

/-- Can a link that fails for this cause still carry a LINKDOWN flit (R94)? Not after a loss of lock (log 7). -/
def carriesAfter (cause : Nat) : Bool := cause != 0x01 && cause != 0x08

/-- A port reset ends: RESETDONE and the reply (R583, R594). -/
def resetPortDone (d : Dev) (p : Nat) : Dev :=
  if d.isRunning 0x0A06 p then (d.notice 0x0A06 d.kpDie none 2 p 0).finish 0x0A06 p .ok else d

/-- A port leaves UP, TRICKLE or WAKING for a cause of the down cause table (R94): FAULT, LASTDOWN, a LINKDOWN notice and, where the link
can carry it, a LINKDOWN flit. A command waiting on the port ends with TIMEOUT. -/
def enterFault (d : Dev) (p cause : Nat) : Dev :=
  let was := (d.link p).st
  if was = .down ∨ was = .fault then d
  else
    let d := if carriesAfter cause then sendCtl d p (.linkDown cause) else d
    let d := d.modLink p fun l =>
      { l with st := .fault, lastdown := cause, proc := none, keySusp := none, encact := false, ctlQ := [] }
    let d := d.notice 0x0202 (portDie p) none p cause 0
    let d := d.finish 0x0203 p .timeout
    let d := resetPortDone (d.finish 0x0204 p .timeout) p
    if was.carries then portLeft d p else d

end Sys2Proof.Machine
end

