-- ==== Sys2Proof/Machine/Imposer.lean ====
section
/-! DEFINITION. The Imposer: checking a composition request, admission, placement and the formes of a chase (R40–R55, R206, R252, R254). -/

namespace Sys2Proof.Machine
open Sys2Proof

/-- Bytes of a folio (R206). -/
abbrev folioB : Nat := 2097152
abbrev gib : Nat := 1073741824

/-! ### The request (R40) -/

/-- Do two regions overlap? -/
def regionMeets (a b : Region) : Bool :=
  decide (a.base < b.base + b.size * folioB) && decide (b.base < a.base + a.size * folioB)

/-- No two regions of a list overlap. -/
def disjointRegions : List Region → Bool
  | [] => true
  | r :: rest => rest.all (fun q => !regionMeets r q) && disjointRegions rest

def shadowSum (q : CompReq) : Nat := sumNat (q.layers.map fun l => l.lshb)

def regionOk (r : Region) (parties : Nat) : Bool :=
  r.base % folioB == 0 && decide (1 ≤ r.size) && decide (r.base + r.size * folioB ≤ 2 ^ 56) && decide (r.cls < 4)
    && decide (r.use < 5) && decide (r.party < parties) && !(r.cls == 2 && r.cache)

/-- Every field of a request within the composition request table, and its three further conditions (R40). -/
def reqOk (q : CompReq) : Bool :=
  decide (1 ≤ q.parties ∧ q.parties ≤ 64)
    && decide (1 ≤ q.members.length ∧ q.members.length ≤ 524288)
    && q.members.all (fun m => decide (m.1 < 0xFFFF0) && decide (m.2 < q.parties))
    && decide (1 ≤ q.regions.length ∧ q.regions.length ≤ 4096)
    && q.regions.all (fun r => regionOk r q.parties) && disjointRegions q.regions
    && decide (q.window ≤ 245760 ∧ q.depth ≤ 64) && (q.window != 0 || q.depth == 0)
    && decide (q.layers.length ≤ 4096) && decide (q.shadow ≤ 245760)
    && decide (cdiv (shadowSum q) folioB ≤ q.shadow)
    && decide (q.stateF ≤ 122880 ∧ q.cores ≤ 256 ∧ q.marks ≤ 262144) && decide (q.services < 128)
    && decide (1 ≤ q.drainbound ∧ q.drainbound ≤ 1000 ∧ q.drainhold ≤ q.drainbound ∧ q.tightmax ≤ 125)

/-! ### Galley admission (R44–R47) -/

/-- Bitmaps of the checked barriers, in whole galley lines (R44). -/
def bitmapBytes (q : CompReq) : Nat := sumNat (q.barriers.map fun n => cdiv (cdiv n 8) 256 * 256)

def needBytes (q : CompReq) : Nat := (q.window + q.shadow + 2 * q.stateF) * folioB + bitmapBytes q

/-- The package's cache share in GiB at a value of CACHE (R252). -/
def cacheShare (c : Nat) : Nat := if c ≤ 59 then 8 * c else 6 * c + 118

/-- Galley space the Imposer may grant against (R44, R252). -/
def admissible (cache : Nat) : Nat := (496 - cacheShare cache) * gib

/-- Allowances of every admitted composition and every staged forme (R44). -/
def allowances (d : Dev) : Nat :=
  sumNat (d.imp.comps.map fun e =>
    if e.2.bound then e.2.curF.allow + ((e.2.staged.map fun g => if g.adm = .noFit then 0 else g.forme.allow).getD 0) else 0)

/-- Allocatable space of the stacks that are off (R252, R570). -/
def offSpace (d : Dev) : Nat := sumNat ((upTo 8).map fun s => if d.domOn (53 + s) then 0 else (if s % 4 = 0 then 59 else 63) * gib)

def freeGalley (d : Dev) : Nat := admissible (d.fld .impGalleyCfg 0 31 26) - offSpace d - allowances d

/-- What admission makes of the galley need: bytes reserved, window, depth and shadow after R46. -/
structure Fit where
  need    : Nat := 0
  window  : Nat := 0
  depth   : Nat := 0
  shadow  : Nat := 0
  dropped : List Nat := []     -- layers whose shadow was dropped
  deriving DecidableEq, Repr

/-- Step 1 of R46 over the layers left, highest first. -/
def dropShadows (free : Nat) : List (Nat × Nat) → Fit → Fit
  | [], f => f
  | (i, n) :: r, f =>
    if f.need ≤ free then f
    else dropShadows free r
      (if n = 0 then f else { f with need := f.need - n, shadow := f.shadow - n, dropped := f.dropped ++ [i] })

/-- Step 2 of R46: DEPTH one layer at a time, never below 1; the window never below the largest layer. -/
def lowerDepth (free big : Nat) : Nat → Fit → Fit
  | 0, f => f
  | k + 1, f =>
    if f.need ≤ free ∨ f.depth ≤ 1 then f
    else
      let w := max (f.window - big) (min f.window big)
      lowerDepth free big k { f with need := f.need - (f.window - w), window := w, depth := f.depth - 1 }

/-- R46: shadows first, then depth; it stops as soon as need no longer exceeds free. -/
def tighten (q : CompReq) (free : Nat) : Fit :=
  let f : Fit := { need := needBytes q, window := q.window * folioB, depth := q.depth, shadow := q.shadow * folioB }
  let spare := q.shadow * folioB - shadowSum q
  let f := if f.need ≤ free then f else { f with need := f.need - spare, shadow := f.shadow - spare }
  let ls := ((upTo q.layers.length).map fun i => (i, ((q.layers[i]?).getD {}).lshb)).reverse
  let f := dropShadows free ls f
  if q.layers.isEmpty then f
  else lowerDepth free (q.layers.foldl (fun a l => max a l.bytes) 0) 64 f

/-- PREDSLOW (R47): halves rounded up. -/
def predSlow (ls : List LayerDecl) (depth : Nat) : Nat :=
  let n := ls.length
  let used := sumNat (ls.map fun l => l.luse)
  let lead (i : Nat) : Nat := sumNat ((upTo (depth - 1)).map fun k => ((ls[(i + n * depth - 1 - k) % n]?).getD {}).luse)
  let exposed := sumNat ((upTo n).map fun i => ((ls[i]?).getD {}).lpush - lead i)
  if used = 0 then 0 else (2000 * exposed + used) / (2 * used)

/-- The galley outcome (R45, R46): OK, TIGHT, or NOFIT with the shortfall. -/
def galleyFit (q : CompReq) (tightmax free : Nat) : Status × Fit :=
  let need := needBytes q
  if need ≤ free then
    (.ok, { need := need, window := q.window * folioB, depth := q.depth, shadow := q.shadow * folioB })
  else
    let f := tighten q free
    if 1000 * (need - free) ≤ tightmax * need ∧ f.need ≤ free then (.tight, f) else (.noFit, f)

/-! ### Formes of a chase (R48, R206) -/

/-- The forme of one live epoch. -/
def formeOf (c : Comp) (e : Nat) : Option Forme :=
  if !c.bound then none
  else if e = c.cur ∧ !c.curDead then some c.curF
  else if c.drnLive ∧ e = c.drn then c.drnF else none

/-- The folio entry of an address under an epoch (R43 step 4, R206). -/
def folioAt (d : Dev) (chase epoch pva : Nat) : Option Folio :=
  ((formeOf (d.comp chase) epoch).bind fun f => tfind f.folios (pva / folioB)).filter fun f => f.kind != 0

/-- Every forme the device holds: current, draining, staged. -/
def liveFormes (d : Dev) : List Forme :=
  d.imp.comps.flatMap fun e =>
    if e.2.bound then [e.2.curF] ++ e.2.drnF.toList ++ (e.2.staged.map fun g => g.forme).toList else []

/-- Where a folio's bytes lie, dual-write destination included. -/
def Folio.locs (f : Folio) : List (Nat × Nat × Nat) :=
  (f.kind, f.target, f.frame) :: (if f.mig then [(f.mkind, f.mtarget, f.mframe)] else [])

/-- Every frame some forme uses. -/
def framesUsed (fs : List Forme) : List (Nat × Nat × Nat) := fs.flatMap fun f => f.folios.flatMap fun e => e.2.locs

/-! ### Frames (R54, R63, R234) -/

def trayKey (kind target : Nat) : Nat := 2 ^ 20 * kind + target

/-- Is a target held lost (R230)? -/
def Dev.heldLost (d : Dev) (kind target : Nat) : Bool := d.flt.lostTgt.contains (kind, target)

/-- Frames of a tray that are not open to folios: extents of stripe members and spares, capacity removed by force (R86). -/
def extentsOn (d : Dev) (kind target : Nat) : List (Nat × Nat) :=
  (d.flt.lostFr.filterMap fun x => if kind = 2 ∧ x.1 = target then some x.2 else none) ++ ((d.pool.stripes.flatMap fun e => e.2.mem.map fun m => (m.mkind, m.target, m.base, e.2.extent))
      ++ d.pool.spares.map fun s => (s.kind, s.target, s.base, s.extent)).filterMap
    fun x => if x.1 == kind && x.2.1 == target then some (x.2.2.1, 512 * x.2.2.2) else none

/-- Folio frames of a tray (its accepted capacity), of a stripe set (its slots, R234), of the allocatable part of a stack pair. -/
def framesOf (d : Dev) (kind target : Nat) : Nat :=
  match kind with
  | 1 => 32768
  | 5 => ((tfind d.pool.stripes target).map fun s => 4096 * s.extent).getD 0
  | _ => tget 0 d.imp.cap (trayKey kind target) / folioB

/-- First frame open to folios: above forme store and device reserve on a stack pair (R252). -/
def firstFrame (kind target : Nat) : Nat := if kind = 1 then (if target % 4 = 0 then 2560 else 512) else 0

/-- The key a location's frames are counted under: the stacks of a mirror pair share their frame numbers (R254). -/
def frameKey (kind target : Nat) : Nat := trayKey kind (if kind = 1 then target % 4 else target)

/-- The next never-used frame outside stripe extents. -/
def skipExtents (ex : List (Nat × Nat)) : Nat → Nat → Nat
  | 0, f => f
  | k + 1, f => match ex.find? fun e => e.1 ≤ f ∧ f < e.1 + e.2 with
    | some e => skipExtents ex k (e.1 + e.2)
    | none => f

/-- Take a free frame of a location: one returned to the pool, else the next never-used one. -/
def takeFrame (d : Dev) (kind target : Nat) : Option (Nat × Dev) :=
  let t := if kind = 1 then target % 4 else target
  match d.imp.freeFr.find? fun f => f.1 == kind && f.2.1 == t with
  | some f => some (f.2.2, { d with imp := { d.imp with freeFr := dropFirst (· == f) d.imp.freeFr } })
  | none =>
    let ex := extentsOn d kind target
    let n := skipExtents ex ex.length (tget (firstFrame kind target) d.imp.nextFr (frameKey kind target))
    if n < framesOf d kind target then
      some (n, { d with imp := { d.imp with nextFr := tput d.imp.nextFr (frameKey kind target) (n + 1) } })
    else none

/-- Return a frame to the free pool. -/
def giveFrame (d : Dev) (x : Nat × Nat × Nat) : Dev :=
  let t := if x.1 = 1 then x.2.1 % 4 else x.2.1
  if x.1 = 2 ∧ d.flt.lostFr.any (fun l => l.1 == x.2.1 && decide (l.2.1 ≤ x.2.2) && decide (x.2.2 < l.2.1 + l.2.2)) then d
  else { d with imp := { d.imp with freeFr := d.imp.freeFr ++ [(x.1, t, x.2.2)] } }

/-- Frames of a tray in use. -/
def occupancy (d : Dev) (fs : List (Nat × Nat × Nat)) (kind target : Nat) : Nat :=
  (fs.filter fun x => x.1 == kind && x.2.1 == target).length + sumNat ((extentsOn d kind target).map Prod.snd)

/-- The trays folios may be placed on: capacity accepted, not held lost, a CXL link at full rate, for a party with a
PDK no TFP tray whose controller did not pass attestation (R54, R83, R230, R457). -/
def placeTrays (d : Dev) (sealed_ : Bool) : List (Nat × Nat) :=
  (d.imp.cap.map fun e => (e.1 / 2 ^ 20, e.1 % 2 ^ 20)).filter fun t =>
    !d.heldLost t.1 t.2 && (t.1 != 2 || (d.tray t.2).fullRate) && (t.1 != 3 || !sealed_ || d.imp.attested.contains t.2)

/-- The least occupied tray with a free frame (R54). -/
def pickTray (d : Dev) (used : List (Nat × Nat × Nat)) (sealed_ : Bool) : Option (Nat × Nat) :=
  let open_ := (placeTrays d sealed_).filter fun t => (takeFrame d t.1 t.2).isSome
  open_.foldl (fun best t => match best with
    | none => some t
    | some b => if occupancy d used t.1 t.2 < occupancy d used b.1 b.2 then some t else some b) none

/-- A stripe set with a free slot and no more than two members lost. -/
def pickSet (d : Dev) : Option Nat :=
  ((d.pool.stripes.filter fun e => decide (e.2.lost.length < 3) && (takeFrame d 5 e.1).isSome).head?).map Prod.fst

/-! ### Cores, marks, members (R42, R52, R55) -/

/-- Press dies whose core set holds cores; with no core, every press die that takes part. -/
def stacksOf (d : Dev) (cores : List Nat) : List Nat :=
  let ds := (upTo 8).filter fun n => cores.any fun c => c / 32 == n
  if ds.isEmpty then (upTo 8).filter fun n => d.dieUp (dPX n) else ds

/-- Cores no forme holds, on press dies that take part. -/
def freeCores (d : Dev) : List Nat :=
  let used := (liveFormes d).flatMap fun f => f.cores
  (upTo 256).filter fun c => !used.contains c && d.dieUp (dPX (c / 32))

/-- Choose cores in number order, no die holding more than its limit (R52). -/
def chooseCores (limit : Nat) : Nat → List Nat → List Nat → List Nat
  | 0, _, got => got
  | _, [], got => got
  | n + 1, c :: r, got =>
    if (got.filter fun g => g / 32 == c / 32).length < limit then chooseCores limit n r (got ++ [c])
    else chooseCores limit (n + 1) r got

/-- The core set of a request: cores the chase holds stay unless their die is down, further ones are added within half a set per die where the free cores
allow it; `none` when too few are free (R52). -/
def coreSet (d : Dev) (n : Nat) (have_ : List Nat) : Except Nat (List Nat) :=
  let keep := (have_.filter fun c => d.dieUp (dPX (c / 32))).take n
  let free := freeCores d
  let want := n - keep.length
  if free.length < want then .error (want - free.length)
  else
    let limit := if n < 2 then n else cdiv n 2
    let got := chooseCores limit want free keep
    let more := (free.filter fun c => !got.contains c).take (n - got.length)
    .ok ((got ++ more).mergeSort)

/-- Ports through which an EID is reached: the members of its next-hop set and ports whose partner it is (R42). -/
def portsOf (d : Dev) (eid : Nat) : List Nat :=
  let nh := ((routeSet d 31 eid).bind (tfind d.core.nhs)).map fun s => s.members
  let direct := (d.links.filter fun e => e.2.peer == eid && e.2.hello).map Prod.fst
  ((nh.getD []) ++ direct).eraseDups

/-- The membership entries of a request: one for each member on each die it is reached through (R42). -/
def memberEnts (d : Dev) (chase : Nat) (q : CompReq) : List MemberEnt :=
  q.members.flatMap fun m =>
    let ps := portsOf d m.1
    ((ps.map portDie).eraseDups).map fun die =>
      { die := die, port := (ps.find? fun p => portDie p == die).getD 0, chase := chase, eid := m.1, party := m.2 }

/-- Entries each die lacks for these, summed (R42): of its 16,384, those of other chases and the trunk entries stay. -/
def memberShort (d : Dev) (chase : Nat) (es : List MemberEnt) : Nat :=
  sumNat ((upTo 16).map fun die =>
    let others := (d.imp.members.filter fun m => m.die == die && (m.trunk || m.chase != chase)).length
    (es.filter fun m => m.die == die).length + others - 16384)

/-- Marks of a package: 16,384 on each port die, home PTn of index n × 16,384 + i. -/
def freeMarksOn (d : Dev) (die : Nat) : List Nat :=
  let used := (liveFormes d).flatMap fun f => f.marks
  if d.dieUp (dPT die) then ((upTo 16384).map (16384 * die + ·)).filter fun m => !used.contains m else []

/-- Shares of n marks in proportion to weights, remainders to the lowest dies (R55, log 20). -/
def shares (n : Nat) (ws : List Nat) : List Nat :=
  let tot := sumNat ws
  if tot = 0 then ws.map fun _ => 0
  else
    let base := ws.map fun w => n * w / tot
    let rest := n - sumNat base
    (base.foldl (fun (a : List Nat × Nat × List Nat) b =>
      match a.2.2 with
      | w :: r => if 0 < a.2.1 ∧ 0 < w then (a.1 ++ [b + 1], a.2.1 - 1, r) else (a.1 ++ [b], a.2.1, r)
      | [] => (a.1 ++ [b], a.2.1, [])) ([], rest, ws)).1

/-- Marks for a request: those held stay, more are added in proportion to the member ports of each die; what a die lacks is taken
from the others (R55). -/
def markSet (d : Dev) (n : Nat) (have_ : List Nat) (es : List MemberEnt) : Except Nat (List Nat) :=
  if n ≤ have_.length then .ok (have_.mergeSort.take n)
  else
    let want := n - have_.length
    let ws := (upTo 16).map fun die => (es.filter fun m => m.die == die).length
    let ws := if sumNat ws = 0 then ws.map fun _ => 1 else ws
    let free := (upTo 16).map (freeMarksOn d)
    let first := ((shares want ws).zip free).flatMap fun x => x.2.take x.1
    let left := (free.flatMap fun l => l).filter fun m => !first.contains m
    let more := left.take (want - first.length)
    if first.length + more.length < want then .error (want - first.length - more.length)
    else .ok ((have_ ++ first ++ more).mergeSort)

end Sys2Proof.Machine
end

