-- ==== Sys2Proof/Machine/Pool.lean ====
section
/-! DEFINITION. Accesses to pool memory at their homes: groups and parts (R130, R213), galley memory (R249–R256), granules at a CXL tray
(R216, R219, R226–R229, R455, R456), accesses to a TFP tray or remote switch (R212, R457). -/

namespace Sys2Proof.Machine
open Sys2Proof

/-! ### Galley memory

One value for both copies of a mirrored line; a granule bad on one stack is listed in `gbad`. A byte nothing has written reads as
zero (log 6). -/

/-- The address of a galley byte: the stack pair, the frame, the offset. -/
def gAddr (l : Loc) (off : Nat) : Nat := (l.target % 4) * 2 ^ 36 + l.frame * folioB + off

/-- The byte at an address: the cell listed, or zero. -/
def memGet (m : List Host.Cell) (a : Nat) : Byte := tget 0 m a

/-- Write one byte; writing zero removes the cell, so that equal memories are equal lists. -/
def memPut (m : List Host.Cell) (a : Nat) (b : Byte) : List Host.Cell := if b = 0 then tdel m a else tput m a b

def memRead (m : List Host.Cell) (a n : Nat) : List Byte := (upTo n).map fun i => memGet m (a + i)

/-- Write bytes from an address up. -/
def memWrite : List Host.Cell → Nat → List Byte → List Host.Cell
  | m, _, [] => m
  | m, a, b :: r => memWrite (memPut m a b) (a + 1) r

/-- The canonical form: addresses strictly rising, no cell equal to what an unlisted address reads as. -/
def Memory.wf (m : List Host.Cell) : Bool := twf m && m.all fun c => c.2 != 0

def gbadKey (stack a : Nat) : Nat := 2 ^ 32 * stack + a / 64

def Dev.gbad (d : Dev) (stack a : Nat) : Bool := thas d.pool.gbad (gbadKey stack a)

def Dev.setGbad (d : Dev) (stack a : Nat) (b : Bool) : Dev :=
  { d with pool := { d.pool with
      gbad := if b then tput d.pool.gbad (gbadKey stack a) () else tdel d.pool.gbad (gbadKey stack a) } }

/-- Replace the bytes [o, o + len) of a list. -/
def splice (l : List Byte) (o : Nat) (v : List Byte) : List Byte := l.take o ++ v ++ l.drop (o + v.length)

def zeros (n : Nat) : List Byte := List.replicate n 0

/-! ### Parts and groups (R130, R224) -/

/-- The graver of two outcomes: TARGETLOST, TIMEOUT, POISONED, OK (R224); a status outside these counts before them. -/
def gravity : Status → Nat
  | .ok => 0 | .poisoned => 1 | .timeout => 2 | .targetLost => 3 | _ => 4

def graver (a b : Status) : Status := if gravity a < gravity b then b else a

/-- Parts a range touches: its 256-byte lines (R130). -/
def partsOf (pva len : Nat) : Nat := (pva + len - 1) / 256 - pva / 256 + 1

def Dev.grp (d : Dev) (id : Nat) : Option Grp := d.pool.grps.find? fun g => g.id == id

def Dev.modGrp (d : Dev) (id : Nat) (f : Grp → Grp) : Dev :=
  { d with pool := { d.pool with grps := mapIf (fun g => g.id == id) f d.pool.grps } }

def Dev.dropGrp (d : Dev) (id : Nat) : Dev :=
  { d with pool := { d.pool with grps := d.pool.grps.filter fun g => g.id != id } }

/-- Count what a part ended with (R248). -/
def partCount (d : Dev) (die : Nat) (write : Bool) (st : Status) : Dev :=
  match st with
  | .poisoned => if write then d else d.count .cPoisrd die
  | .targetLost => d.count .cTgtlost die
  | _ => d

/-- A part of a group ends with an outcome: the graver one stays (R224). -/
def setPart (d : Dev) (gid part : Nat) (st : Status) : Dev :=
  if st = .ok then d
  else d.modGrp gid fun g => { g with outs := tmod .ok g.outs part (graver · st) }

/-- Bytes read for a group, at their place in its range. -/
def grpData (d : Dev) (gid pva : Nat) (b : List Byte) : Dev :=
  d.modGrp gid fun g => { g with data := splice g.data (pva - g.pva) b }

def Dev.event (d : Dev) (e : PEv) : Dev := { d with pool := { d.pool with ev := d.pool.ev ++ [e] } }

/-- One access of a group is over: the last one ends the group. -/
def grpJobEnd (d : Dev) (gid : Nat) : Dev :=
  match d.grp gid with
  | none => d
  | some g =>
    let d := d.modGrp gid fun g => { g with left := g.left - 1 }
    if g.left ≤ 1 then d.event (.ended gid) else d

/-! ### Jobs -/

def Dev.job (d : Dev) (id : Nat) : Option PJob := d.pool.jobs.find? fun j => j.id == id

def Dev.modJob (d : Dev) (id : Nat) (f : PJob → PJob) : Dev :=
  { d with pool := { d.pool with jobs := mapIf (fun j => j.id == id) f d.pool.jobs } }

def Dev.dropJob (d : Dev) (id : Nat) : Dev :=
  { d with pool := { d.pool with jobs := d.pool.jobs.filter fun j => j.id != id } }

def PjOp.writes : PjOp → Bool
  | .load => false
  | _ => true

/-- Offset of a job's first byte in its folio. -/
def PJob.off (j : PJob) : Nat := j.pva % folioB

/-- Granules of its folio a job touches, counted from the folio's start. -/
def PJob.granules (j : PJob) : List Nat := (upTo (cdiv (j.pva % 64 + j.len) 64)).map (j.off / 64 + ·)

/-- Does a job cover a granule completely? -/
def PJob.covers (j : PJob) (g : Nat) : Bool := decide (j.off ≤ 64 * g) && decide (64 * g + 64 ≤ j.off + j.len)

/-- Must a job read a granule first (R216): every granule of a load or atomic, those a store covers only in part? -/
def PJob.reads (j : PJob) (g : Nat) : Bool := match j.op with
  | .store => !j.covers g
  | _ => true

/-- The key of a line by where it lies. -/
def locLine (l : Loc) (off : Nat) : Nat :=
  (((if l.kind = 1 then l.target % 4 else l.target) + 2 ^ 20 * l.kind) * 2 ^ 31 + l.frame) * 2 ^ 13 + off / 256

/-- Do two accesses meet at their home (R213, R219): the line at a galley controller or cache, the granule at a CXL link, the stripe at a
stripe engine, the line elsewhere? -/
def PJob.meets (a b : PJob) : Bool :=
  if a.cached.isSome != b.cached.isSome then false
  else if a.cached.isSome then locLine a.loc a.off == locLine b.loc b.off
  else if a.loc.kind != b.loc.kind || a.loc.frame != b.loc.frame then false
  else match a.loc.kind with
    | 1 => locLine a.loc a.off == locLine b.loc b.off
    | 5 => a.loc.target == b.loc.target && a.off / 2048 == b.off / 2048
    | 2 => a.loc.target == b.loc.target && a.granules.any fun g => b.granules.contains g
    | _ => a.loc.target == b.loc.target && locLine a.loc a.off == locLine b.loc b.off

/-- Does an earlier access hold a waiting one back? -/
def blocked (d : Dev) (j : PJob) : Bool := d.pool.jobs.any fun e => decide (e.id < j.id) && e.meets j

/-- An access is over with one outcome for every part it touches. A dual write that took effect goes on to the destination (R212, R221);
otherwise the group hears of it. -/
def jobEnd (d : Dev) (j : PJob) (st : Status) : Dev :=
  let first := j.pva / 256 - ((d.grp j.grp).map fun g => g.pva / 256).getD 0
  let parts := (upTo (partsOf j.pva j.len)).map (first + ·)
  let d := foldOver parts d fun p d => partCount (setPart d j.grp p st) j.die j.op.writes st
  match j.dual, st with
  | some l, .ok =>
    let nj := { j with loc := l, dual := none, cached := none, op := .store, st := .wait, reqs := [], got := [], pois := []
                       failed := [], mem := [] }
    { d with pool := { d.pool with jobs := mapIf (fun e => e.id == j.id) (fun _ => nj) d.pool.jobs } }
  | _, _ => grpJobEnd (d.dropJob j.id) j.grp

/-- A read ends: the good granules come in, the poisoned ones are noted, and its part is POISONED if any is (R224). -/
def loadEnd (d : Dev) (j : PJob) (gran : Nat → Option (List Byte)) : Dev :=
  let base := ((d.grp j.grp).map fun g => g.pva / 64).getD 0
  let d := foldOver j.granules d fun g d => match gran g with
    | none => d.modGrp j.grp fun x => { x with pois := x.pois ++ [j.pva / 64 - j.off / 64 + g - base] }
    | some b =>
      let lo := max (64 * g) j.off
      let hi := min (64 * g + 64) (j.off + j.len)
      grpData d j.grp (j.pva - j.off + lo) ((b.drop (lo - 64 * g)).take (hi - lo))
  jobEnd d j (if j.granules.any fun g => (gran g).isNone then .poisoned else .ok)

/-! ### Atomics (R217) -/

/-- What an atomic writes: the new value of its operand from the old one. -/
def atomicNew (aop : Nat) (size : Nat) (old : Nat) (arg : List Byte) : Nat :=
  let a := leNat (arg.take size)
  match aop with
  | 0 => (old + a) % 2 ^ (8 * size)
  | 1 => a
  | _ => if old = a then leNat ((arg.drop size).take size) else old

/-! ### The galley controller -/

/-- A granule's condition as a read finds it at stack s: served, served from the mirror, or poisoned (R256). -/
inductive GranRead where
  | good | mirrored | poisoned
  deriving DecidableEq, Repr

/-- Is a line dirty, so that it exists in two copies (R255)? -/
def PJob.mirrored (j : PJob) (d : Dev) : Bool :=
  match j.cached with
  | some _ => d.pool.lines.any fun l => l.key == locLine j.loc j.off && (l.st == .m || (l.st == .o && l.dirty))
  | none =>
    (((formeOf (d.comp j.chase) j.epoch).bind fun f => tfind f.folios (j.pva / folioB)).map fun f => f.use == 1).getD true

/-- What reading one granule at a stack gives. -/
def readGran (d : Dev) (s a : Nat) (mirrored : Bool) : GranRead :=
  if !d.gbad s a then .good
  else if mirrored && d.stackUp (pairOf s) && !d.gbad (pairOf s) a then .mirrored
  else .poisoned

/-- A granule newly found uncorrectable: poison originates there and is recorded (R497, R500). -/
def newBad (d : Dev) (s a : Nat) : Dev :=
  if d.gbad s a then d else (d.setGbad s a true).record 1 (dGS s) 1 none (a / 64)

/-- Bytes of a job's line in galley memory. -/
def PJob.bytesAt (j : PJob) (d : Dev) (off len : Nat) : List Byte := memRead d.pool.mem (gAddr j.loc off) len

/-- Write bytes at a job's line: both copies take them, and the granules given carry fresh ECC. -/
def putLine (d : Dev) (s : Nat) (l : Loc) (off : Nat) (b : List Byte) : Dev :=
  let d := { d with pool := { d.pool with mem := memWrite d.pool.mem (gAddr l off) b } }
  let gs := (upTo (cdiv (off % 64 + b.length) 64)).map fun i => gAddr l (64 * (off / 64 + i))
  foldOver gs d fun a d => (d.setGbad s a false).setGbad (pairOf s) a false

/-- The line is written: the part waits for the mirror copy of a dirty line, or keeps one copy where the pair is unreachable (R255, R514). -/
def afterWrite (d : Dev) (j : PJob) (s : Nat) : Dev :=
  if !j.mirrored d then jobEnd d j .ok
  else if d.stackUp s && d.stackUp (pairOf s) then d.modJob j.id fun j => { j with st := .mirror }
  else jobEnd (d.count .cSinglecopy (dPX ((d.stackServer s).getD s))) j .ok

/-- Take a store at the galley (R216, R226 to R228) once its granules' conditions are known; `ce` are granules found correctable. -/
def galleyStore (d : Dev) (j : PJob) (s : Nat) (ce : List Nat) : Dev :=
  let px := dPX ((d.stackServer s).getD s)
  let mir := j.mirrored d
  let bad := j.granules.filter fun g => readGran d s (gAddr j.loc (64 * g)) mir == .poisoned
  if bad.any fun g => !j.covers g then jobEnd (d.count .cPoisref px) j .poisoned
  else
    let d := d.countN .cPoisclr px bad.length
    let d := d.countN .cCemerge px (ce.filter fun g => !j.covers g).length
    let d := putLine d s j.loc j.off j.data
    let d := foldOver j.forced d fun g d =>
      (d.setGbad s (gAddr j.loc (64 * g)) true).setGbad (pairOf s) (gAddr j.loc (64 * g)) true
    afterWrite d j s

/-- What a galley read served from a mirror copy does: MIRRD, and with MIRFIX armed the primary is rewritten (R256). -/
def mirrorReads (d : Dev) (j : PJob) (s : Nat) (gs : List Nat) : Dev :=
  if gs.isEmpty then d
  else
    let d := d.count .cMirrd (dPX ((d.stackServer s).getD s))
    if d.flag .fltFabpol 0 26 then foldOver gs d fun g d => d.setGbad s (gAddr j.loc (64 * g)) false else d

/-- A galley read of a KIND 1 line returns (R251): granules `ce` were corrected, granules `ue` (of the line) are uncorrectable. -/
def galleyReturn (d : Dev) (j : PJob) (s : Nat) (ce ue : List Nat) : Dev :=
  let line := j.off / 256 * 4
  let gs := (upTo 4).map (line + ·)
  let d := foldOver (gs.filter fun g => ue.contains (g - line)) d fun g d => newBad d s (gAddr j.loc (64 * g))
  let d := d.corrected (dGS s) 1 (gs.filter fun g => ce.contains (g - line)).length
  let d := d.account (dGS s) j.chase j.party 3 1
  let ceG := (ce.map (line + ·)).filter fun g => j.granules.contains g
  let mir := j.mirrored d
  let cond (g : Nat) : GranRead := readGran d s (gAddr j.loc (64 * g)) mir
  let d := mirrorReads d j s (j.granules.filter fun g => cond g == .mirrored && j.reads g)
  match j.op with
  | .load =>
    loadEnd d j fun g => if cond g = .poisoned then none else some (j.bytesAt d (64 * g) 64)
  | .store => galleyStore d j s ceG
  | .atomic aop =>
    if j.granules.any fun g => cond g == .poisoned then
      jobEnd (d.count .cPoisref (dPX ((d.stackServer s).getD s))) j .poisoned
    else
      let old := j.bytesAt d j.off j.len
      let new := leBytes j.len (atomicNew aop j.len (leNat old) j.data)
      let d := d.countN .cCemerge (dPX ((d.stackServer s).getD s)) ceG.length
      let d := grpData d j.grp j.pva old
      let d := putLine d s j.loc j.off new
      afterWrite (d.modJob j.id fun j => { j with data := new }) { j with data := new } s

/-! ### Requests to trays -/

/-- Start a numbered request for a job. -/
def addReq (d : Dev) (jid : Nat) (r : TrayReq) : Nat × Dev :=
  let cid := d.pool.nextCid
  let d := { d with pool := { d.pool with nextCid := cid + 1 } }
  (cid, d.modJob jid fun j => { j with reqs := j.reqs ++ [{ r with cid := cid }], st := .tray })

/-- The data key of a keying party, if one is installed (R451, R459). -/
def Dev.pdk (d : Dev) (key : Nat) : Option Nat := (tfind d.pool.keys key).bind fun k => k.pdk

/-- The tweak of R455: TRAYID and the granule's address at the tray. -/
def tweakOf (tray dpa : Nat) : Nat := tray * 2 ^ 64 ||| dpa / 64

/-- Issue a MemRd of one granule (R216, R456). -/
def cxlRead (d : Dev) (j : PJob) (link dpa gran member : Nat) : Dev :=
  let (cid, d) := addReq d j.id { gran := gran, member := member }
  d.emit (.cxlRead link cid dpa 64)

/-- Issue a full 64-byte MemWr, encrypted under the keying party's key (R216, R455, R456). -/
def cxlWrite (d : Dev) (j : PJob) (link dpa gran member : Nat) (b : List Byte) (poison : Bool) : Dev :=
  let (cid, d) := addReq d j.id { gran := gran, member := member, write := true }
  let c := match d.pdk j.key with
    | some k => Config.xtsSeal k (tweakOf link dpa) b
    | none => b
  d.emit (.cxlWrite link cid dpa c poison)

/-- A granule as it came from a tray, decrypted (R456). -/
def openGran (d : Dev) (key tray dpa : Nat) (b : List Byte) : List Byte := match d.pdk key with
  | some k => Config.xtsOpen k (tweakOf tray dpa) b
  | none => b

/-- Send a LOAD, STORE or ATOMIC of a range to a TFP tray or a remote switch (R212), under a tag of the switch (log 22). -/
def trayPkt (d : Dev) (j : PJob) (l : Loc) (w2pva len gran member : Nat) (data : Option (List Byte)) (atom : Option Nat := none) : Dev :=
  let (cid, d) := addReq d j.id { gran := gran, member := member, write := data.isSome }
  let tag := d.tfp.nextTag
  let k : Pkt :=
    { opc := if atom.isSome then opATOMIC else if data.isSome then opSTORE else opLOAD, tc := 0, epoch := j.epoch, chase := j.chase, party := j.party
      dst := if l.kind = 4 then eidFABRIC else l.target, src := d.tfp.eid, tag := tag, len := (data.getD []).length
      w2 := BitVec.ofNat 64 (w2pva * 256), w3 := BitVec.ofNat 64 (match atom with | some a => (if len = 16 then 16 else 0) + a | none => if data.isSome then 0 else len)
      data := data.getD [] }
  let v : Delivery := { tag := tag, kind := .trayPart j.id cid, pkts := [k], die := min j.die 15 }
  let d := { d with tfp := { d.tfp with nextTag := (tag + 1) % 65536, dlv := d.tfp.dlv ++ [v] } }
  let (r, d) := sendPktTo d j.die l.target k { dlvTag := some tag }
  match r with
  | .queued p =>
    { d with tfp := { d.tfp with dlv := mapIf (fun v => v.tag == tag) (fun v => { v with port := p }) d.tfp.dlv } }
  | .dropped => d
  | _ => { d with tfp := { d.tfp with dlv := mapIf (fun v => v.tag == tag) (fun v => { v with failed := true }) d.tfp.dlv } }

/-! ### Starting an access at a galley, a CXL link, a TFP tray -/

/-- The address at a CXL tray of a granule of a folio frame. -/
def PJob.dpa (j : PJob) (g : Nat) : Nat := j.loc.frame * folioB + 64 * g

/-- Bytes of a job for one granule: the old granule with the job's bytes merged in (R216). -/
def PJob.merge (j : PJob) (g : Nat) (old : List Byte) : List Byte :=
  (upTo 64).map fun i =>
    let a := 64 * g + i
    if j.off ≤ a ∧ a < j.off + j.len then (j.data[a - j.off]?).getD 0 else (old[i]?).getD 0

/-- At a CXL link: MemRd of what R216 or an atomic needs; otherwise the MemWr at once. -/
def cxlWrites (d : Dev) (j : PJob) : Dev :=
  let bad := j.failed.map Prod.fst
  let gs := j.granules.filter fun g => !bad.contains g
  if gs.isEmpty then d
  else
    foldOver gs d fun g d =>
      let old := tget (zeros 64) j.got g
      cxlWrite d j j.loc.target (j.dpa g) g 0 (j.merge g old) (j.forced.contains g)

def startGalley (d : Dev) (j : PJob) : Dev :=
  match d.stackServer j.loc.target with
  | none => jobEnd d j .targetLost
  | some s => if j.granules.any fun g => j.reads g then d.modJob j.id fun j => { j with st := .galley }
              else galleyStore d j s []

def startCxl (d : Dev) (j : PJob) : Dev :=
  let rd := j.granules.filter fun g => j.reads g
  if rd.isEmpty then cxlWrites d j
  else foldOver rd d fun g d => cxlRead d j j.loc.target (j.dpa g) g 0

def startTray (d : Dev) (j : PJob) : Dev :=
  match j.op with
  | .load => trayPkt d j j.loc j.pva j.len 0 0 none
  | .atomic aop => trayPkt d j j.loc j.pva j.len 0 0 (some j.data) (some aop)
  | .store => trayPkt d j j.loc j.pva j.len 0 0 (some j.data)

/-- Every MemRd of a CXL job has ended: a load ends; a partly covered poisoned granule refuses a store or atomic (R227, R229); otherwise the
MemWr go out. -/
def cxlReadsDone (d : Dev) (j : PJob) : Dev :=
  let die := dPT (trayDie j.loc.target)
  let worst := j.failed.foldl (fun a f => graver a f.2) (if j.pois.isEmpty then .ok else .poisoned)
  match j.op with
  | .load =>
    if !j.failed.isEmpty then jobEnd d j worst else loadEnd d j fun g => tfind j.got g
  | .store =>
    if !j.pois.isEmpty then jobEnd (d.count .cPoisref die) j worst
    else if j.granules.all fun g => (j.failed.map Prod.fst).contains g then jobEnd d j worst
    else cxlWrites d j
  | .atomic aop =>
    if !j.pois.isEmpty then jobEnd (d.count .cPoisref die) j worst
    else if worst ≠ .ok then jobEnd d j worst
    else
      let g := j.off / 64
      let old := ((tget (zeros 64) j.got g).drop (j.off % 64)).take j.len
      let new := leBytes j.len (atomicNew aop j.len (leNat old) j.data)
      let d := grpData d j.grp j.pva old
      let j := { j with data := new, op := .store }
      cxlWrites (d.modJob j.id fun _ => j) j

/-- A tray's poison report is recorded once, where the poison originates (R498 unit 15, R500). -/
def trayPoison (d : Dev) (link dpa : Nat) : Dev :=
  let die := dPT (trayDie link)
  if d.flt.ring.any fun e => e.2.die == die && e.2.unit == 15 && e.2.loc == dpa / 64 then d
  else d.record 1 die 15 none (dpa / 64)

/-- A tray request of a CXL job ends (R214, R232): `res` is the granule and its poison, or the status it ended with. -/
def cxlEnd (d : Dev) (j : PJob) (r : TrayReq) (res : Except Status (List Byte × Bool)) : Dev :=
  let upd (j : PJob) : PJob :=
    let j := { j with reqs := j.reqs.filter fun q => q.cid != r.cid }
    match res with
    | .error st => { j with failed := j.failed ++ [(r.gran, st)] }
    | .ok (b, p) =>
      if r.write then j
      else if p then { j with pois := j.pois ++ [r.gran] }
      else { j with got := tput j.got r.gran (openGran d j.key j.loc.target (j.dpa r.gran) b) }
  let j' := upd j
  let d := d.modJob j.id fun _ => j'
  let d := match res with
    | .ok (_, true) => if r.write then d else trayPoison d j.loc.target (j.dpa r.gran)
    | _ => d
  if !j'.reqs.isEmpty then d
  else if r.write then jobEnd d j' (j'.failed.foldl (fun a f => graver a f.2) .ok)
  else cxlReadsDone d j'

end Sys2Proof.Machine
end

