-- ==== Sys2Proof/Machine/Marks.lean ====
section
/-! DEFINITION. Marks: counters, barriers, quoins and sequencers; held operations; hierarchical levels (R417–R441, R503). -/

namespace Sys2Proof.Machine
open Sys2Proof

/-! ### Records -/

def Dev.mark (d : Dev) (i : Nat) : Mark := tget {} d.marks.tbl i

def Dev.modMark (d : Dev) (i : Nat) (f : Mark → Mark) : Dev := { d with marks := { d.marks with tbl := tmod {} d.marks.tbl i f } }

/-- The home port die of a mark: index bits [17:14]. -/
def markDie (i : Nat) : Nat := i / 16384 % 16

def Mark.count (m : Mark) : Nat := m.word % 2 ^ 48
def Mark.round (m : Mark) : Nat := bits m.word 63 56
def Mark.checked (m : Mark) : Bool := bit m.word 55
def Mark.up (m : Mark) : Bool := bit m.word 54
def Mark.upWait (m : Mark) : Bool := bit m.word 53
def Mark.curCnt (m : Mark) : Nat := bits m.word 39 20
def Mark.nxtCnt (m : Mark) : Nat := bits m.word 19 0
def Mark.nPart (m : Mark) : Nat := bits m.link 127 108
def Mark.upEid (m : Mark) : Nat := bits m.link 107 88
def Mark.upMark (m : Mark) : Nat := bits m.link 87 70
def Mark.upIdx (m : Mark) : Nat := bits m.link 69 50
def Mark.bmStack (m : Mark) : Nat := bits m.link 49 47
def Mark.bmLine (m : Mark) : Nat := bits m.link 46 19
def Mark.qState (m : Mark) : Nat := bits m.word 63 62
def Mark.brkWhy (m : Mark) : Nat := bits m.word 61 59
def Mark.owner (m : Mark) : Nat := bits m.word 58 39
def Mark.inc (m : Mark) : Nat := bits m.word 38 23
def Mark.lease (m : Mark) : Nat := bits m.link 127 112
def Mark.next (m : Mark) : Nat := bits m.word 63 32
def Mark.serving (m : Mark) : Nat := bits m.word 31 0

def Mark.put (m : Mark) (hi lo v : Nat) : Mark := { m with word := setBits m.word hi lo v }

/-- Set a flag of FLAGS: 0 SAT, 1 UNDER, 2 OVR, 3 DUP, 4 BRK, 5 UPFAIL. -/
def Mark.raise (m : Mark) (i : Nat) : Mark := { m with flags := setBits m.flags i i 1 }

/-- The MK_MARK word (R420); WAITERS saturates. -/
def markWord (d : Dev) (i : Nat) : Nat :=
  let m := d.mark i
  m.type <<< 125 + m.chase <<< 113 + b2n m.plock <<< 112 + m.party <<< 106 + m.flags <<< 100 + m.wtgt <<< 92 + m.wkind <<< 90
    + (min 65535 (d.marks.waits.filter fun w => w.mark == i).length) <<< 74 + m.word

/-- Is a mark's record poisoned (R503)? -/
def Dev.badMark (d : Dev) (i : Nat) : Bool := d.flt.badMarks.contains i

/-! ### An operation -/

/-- A MARK_OP as its home sees it (R421). `id`: the request to answer; none for a signal of the device itself. -/
structure MOp where
  id    : Option Nat := none
  mark  : Nat := 0
  mop   : Nat := 0
  rtag  : Nat := 0
  arg0  : Nat := 0
  arg1  : Nat := 0
  src   : Nat := 0
  chase : Nat := 0
  party : Nat := 0
  deriving DecidableEq, Repr

/-- What an operation comes to: an answer with GRANT, or held with the value its condition is tested against. -/
inductive MRes where
  | done (st : Status) (grant : Bool)
  | hold (arg : Nat)
  deriving DecidableEq, Repr

/-- The type each operation is valid for; 0: any (operation table, R421). -/
def mopType : Nat → Option Nat
  | 0x00 => some 0
  | 0x01 | 0x02 | 0x03 | 0x04 | 0x05 => some 1
  | 0x10 | 0x11 | 0x12 => some 2
  | 0x20 | 0x21 | 0x22 | 0x23 => some 3
  | 0x30 | 0x31 | 0x32 => some 4
  | _ => none

/-- Step 4 of R418: the fields within their ranges, those not named zero. -/
def mopFields (o : MOp) : Bool :=
  let r0 := o.rtag == 0
  let a0 := o.arg0 == 0
  let a1 := o.arg1 == 0
  match o.mop with
  | 0x01 | 0x02 => r0 && a1
  | 0x03 | 0x05 => r0 && a0 && decide (o.arg1 < 2 ^ 48)
  | 0x04 => r0 && a1 && decide (1 ≤ o.arg0)
  | 0x10 | 0x11 => decide (o.arg0 < 2 ^ 20) && a1
  | 0x12 => a0 && a1
  | 0x20 | 0x21 | 0x22 | 0x23 => r0 && a1 && decide (o.arg0 < 2 ^ 16)
  | 0x32 => r0 && a0 && decide (o.arg1 < 2 ^ 32)
  | _ => r0 && a0 && a1

/-- Answer a request on a mark (R422): FLAGS after the operation, GRANT, and the type word `w`. -/
def markAnswer (d : Dev) (id : Option Nat) (i : Nat) (st : Status) (grant : Bool) (w : Nat) : Dev :=
  match id with
  | none => d
  | some id => answer d id st ((d.mark i).flags + (if grant then 64 else 0)) 0 0 0 (leBytes 8 w)

/-- A wait record is freed and its request answered (R422, R424). -/
def endWait (d : Dev) (w : MWait) (st : Status) (grant : Bool) : Dev :=
  let d := { d with marks := { d.marks with waits := d.marks.waits.filter fun x => x.id != w.id } }
  markAnswer d (some w.id) w.mark st grant (d.mark w.mark).word

def waitsOn (d : Dev) (i : Nat) : List MWait := d.marks.waits.filter fun w => w.mark == i

/-- Answer every operation held on a mark. -/
def endWaits (d : Dev) (i : Nat) (st : Status) : Dev := foldOver (waitsOn d i) d fun w d => endWait d w st false

/-- An operation is held (R423, R425): it counts as completed for its epoch from then on. -/
def holdOp (d : Dev) (o : MOp) (arg : Nat) : Dev :=
  match o.id with
  | none => d
  | some id =>
    let d := match d.outst id with
      | some q => if q.counted then uncountEpoch d q.die q.pkt.chase q.pkt.epoch else d
      | none => d
    let d := d.modOutst id fun q => { q with counted := false }
    let w : MWait := { mark := o.mark, id := id, mop := o.mop, arg := arg, src := o.src }
    { d with marks := { d.marks with waits := d.marks.waits ++ [w] } }.count .cMkheld (dPT (markDie o.mark))

/-- Is a wait record free on a die (R423)? -/
def waitRoom (d : Dev) (die : Nat) : Bool := decide ((d.marks.waits.filter fun w => markDie w.mark == die).length < 32768)

/-! ### Barriers (R428–R432) -/

/-- The address of participant k's bit byte in galley memory. -/
def bitmapAt (m : Mark) (k : Nat) : Nat := (m.bmStack % 4) * 2 ^ 36 + m.bmLine * 256 + k / 8

def bitmapBit (d : Dev) (m : Mark) (k : Nat) : Bool := (memGet d.pool.mem (bitmapAt m k)).getLsbD (k % 8)

def flipBit (d : Dev) (m : Mark) (k : Nat) : Dev :=
  let a := bitmapAt m k
  { d with pool := { d.pool with mem := memPut d.pool.mem a (memGet d.pool.mem a ^^^ BitVec.ofNat 8 (2 ^ (k % 8))) } }

/-- Send a level's operation to its parent (R432): the switch EID as SRC, TC 0, the current epoch of the chase, PARTY 0 (log 27). -/
def sendUp (d : Dev) (i mop : Nat) : Dev :=
  let m := d.mark i
  let tag := d.tfp.nextTag
  let k : Pkt :=
    { opc := opMARK_OP, epoch := (d.comp m.chase).cur, chase := m.chase, dst := m.upEid, src := d.tfp.eid, tag := tag
      w2 := BitVec.ofNat 64 (m.upMark * 2 ^ 46 + mop * 2 ^ 40 + m.round * 2 ^ 32 + (if mop = 0x11 then m.upIdx else 0)) }
  let v : Delivery := { tag := tag, kind := .barrierUp i, pkts := [k], die := markDie i }
  let d := d.modMark i fun m => { m with upMop := mop }
  sendDelivery { d with tfp := { d.tfp with nextTag := (tag + 1) % 65536, dlv := d.tfp.dlv ++ [v] } } (markDie i) tag [k]

/-- A complete round is released (R429); a level with a parent waits for it instead (R432). A second round may be complete at once. -/
def barrierRound : Nat → Nat → Dev → Dev
  | 0, _, d => d
  | n + 1, i, d =>
    let m := d.mark i
    if m.curCnt ≠ m.nPart ∨ m.upWait then d
    else if m.up then sendUp (d.modMark i fun m => m.put 53 53 1) i 0x11
    else
      let r := m.round
      let d := d.modMark i fun m => ((m.put 63 56 (r + 1)).put 39 20 m.nxtCnt).put 19 0 0
      let ws := (waitsOn d i).filter fun w => w.arg == r
      barrierRound n i (foldOver ws d fun w d => endWait d w .ok false)

/-- The round of a level whose parent answered OK is released. -/
def releaseUp (d : Dev) (i : Nat) : Dev :=
  let m := d.mark i
  let r := m.round
  let d := d.modMark i fun m => (((m.put 53 53 0).put 63 56 (r + 1)).put 39 20 m.nxtCnt).put 19 0 0
  let ws := (waitsOn d i).filter fun w => w.arg == r
  barrierRound 2 i (foldOver ws d fun w d => endWait d w .ok false)

/-- An arrival (R428): refused, or counted. -/
def arrival (d : Dev) (o : MOp) (m : Mark) : Except (Status × Dev) Dev :=
  let die := dPT (markDie o.mark)
  let r := o.rtag
  let next := (m.round + 1) % 256
  let counted (d : Dev) : Dev := d.modMark o.mark fun m =>
    if r = m.round then m.put 39 20 (m.curCnt + 1) else m.put 19 0 (m.nxtCnt + 1)
  let ovr (d : Dev) : Dev := (d.modMark o.mark fun m => m.raise 2).count .cMkovr die
  if r ≠ m.round ∧ r ≠ next then .error (.overrun, ovr d)
  else if m.checked then
    if m.nPart ≤ o.arg0 then .error (.unsupported, d)
    else if !d.stackUp m.bmStack then .error (.targetLost, d)
    else if d.gbad m.bmStack (bitmapAt m o.arg0) then .error (.poisoned, d)
    else if bitmapBit d m o.arg0 ≠ decide (r % 2 = 1) then
      .error (.overrun, (d.modMark o.mark fun m => m.raise 3).count .cMkdup die)
    else .ok (counted (flipBit d m o.arg0))
  else if (r = m.round ∧ m.curCnt = m.nPart) ∨ (r = next ∧ r ≠ m.round ∧ m.nxtCnt = m.nPart) then .error (.overrun, ovr d)
  else .ok (counted d)

/-! ### Quoins (R433–R435) -/

/-- Grant a quoin: its lease starts. -/
def grantTo (m : Mark) (src inc : Nat) : Mark := ((m.put 63 62 1).put 58 39 src).put 38 23 inc

/-- Give a quoin to the head of its queue, answered with a status and GRANT 1; none where the queue is empty. -/
def grantHead (d : Dev) (i : Nat) (st : Status) : Option Dev :=
  ((waitsOn d i).find? fun w => w.mop == 0x20).map fun w =>
    endWait (d.modMark i fun m => grantTo m w.src w.arg) w st true

/-- A quoin's owner is lost (R434, R435). -/
def breakQuoin (d : Dev) (i why : Nat) : Dev :=
  let m := d.mark i
  let die := dPT (markDie i)
  let d := d.modMark i fun m => ((m.put 63 62 2).put 61 59 why).raise 4
  let d := (d.count .cMkbreak die).notice 0x0701 die (some m.chase) i m.owner (m.inc * 8 + why)
  if d.flag .fltComppol m.chase 28 then
    match grantHead d i .broken with
    | some d => d.count .cMkrecl die
    | none => d
  else foldOver ((waitsOn d i).filter fun w => w.mop == 0x20) d fun w d => endWait d w .broken false

/-- A quoin operation (quoin table, R433) on a quoin as it stands. -/
def quoinOp (d : Dev) (o : MOp) : Dev × MRes :=
  let m := d.mark o.mark
  let inc := o.arg0
  let mine := m.owner == o.src && m.inc == inc
  let take (d : Dev) : Dev := d.modMark o.mark fun m => grantTo m o.src inc
  let acq := o.mop == 0x20 || o.mop == 0x21
  match m.qState with
  | 0 => if acq then (take d, .done .ok true) else (d, .done .denied false)
  | 1 =>
    if o.mop = 0x20 then (if mine then (d, .done .denied false) else (d, .hold inc))
    else if o.mop = 0x21 then (d, .done (if mine then .denied else .busy) false)
    else if !mine then (d, .done .denied false)
    else if o.mop = 0x23 then (d, .done .ok false)
    else match grantHead d o.mark .ok with
      | some d => (d, .done .ok false)
      | none => (d.modMark o.mark fun m => m.put 63 62 0, .done .ok false)
  | _ =>
    if acq && d.flag .fltComppol m.chase 28 then ((take d).count .cMkrecl (dPT (markDie o.mark)), .done .broken true)
    else (d, .done .broken false)

/-! ### Executing -/

/-- Do an operation that passed R418. -/
def mopEffect (d : Dev) (o : MOp) : Dev × MRes :=
  let m := d.mark o.mark
  let die := dPT (markDie o.mark)
  let setCount (d : Dev) (v : Nat) : Dev := d.modMark o.mark fun m => m.put 47 0 v
  let flagged (d : Dev) (f : Nat) : Dev := (d.modMark o.mark fun m => m.raise f).count .cMksat die
  let ovr (d : Dev) (f : Nat) : Dev := (d.modMark o.mark fun m => m.raise f).count .cMkovr die
  let ok (d : Dev) : Dev × MRes := (d, .done .ok false)
  match o.mop with
  | 0x01 => if 2 ^ 48 - 1 < m.count + o.arg0 then ok (flagged (setCount d (2 ^ 48 - 1)) 0) else ok (setCount d (m.count + o.arg0))
  | 0x02 => if m.count < o.arg0 then ok (flagged (setCount d 0) 1) else ok (setCount d (m.count - o.arg0))
  | 0x03 => ok (setCount d o.arg1)
  | 0x04 => if o.arg0 ≤ m.count then (setCount d (m.count - o.arg0), .done .ok true) else ok d
  | 0x05 => if o.arg1 ≤ m.count then ok d else (d, .hold o.arg1)
  | 0x10 => match arrival d o m with
    | .error (st, d) => (d, .done st false)
    | .ok d => ok d
  | 0x11 => match arrival d o m with
    | .error (st, d) => (d, .done st false)
    | .ok d => (d, .hold o.rtag)
  | 0x12 =>
    if o.rtag = m.round ∨ o.rtag = (m.round + 1) % 256 then (d, .hold o.rtag)
    else if (o.rtag + 1) % 256 = m.round then ok d
    else (ovr d 2, .done .overrun false)
  | 0x30 => if m.next = 2 ^ 32 - 1 then ((d.modMark o.mark fun m => m.raise 0).count .cMksat die |>.count .cMkovr die, .done .overrun false)
            else ok (d.modMark o.mark fun m => m.put 63 32 (m.next + 1))
  | 0x31 => if m.serving = m.next then (ovr d 2, .done .overrun false)
            else ok (d.modMark o.mark fun m => m.put 31 0 (m.serving + 1))
  | 0x32 => if o.arg1 ≤ m.serving then ok d else (d, .hold o.arg1)
  | 0x20 | 0x21 | 0x22 | 0x23 =>
    if m.qState = 1 ∧ m.owner = o.src ∧ m.inc ≠ o.arg0 then quoinOp (breakQuoin d o.mark 2) o else quoinOp d o
  | _ => ok d

/-- Conditions of counters and sequencers are tested after every operation, in the order the records were made (R424). -/
def flushWaits (d : Dev) (i : Nat) : Dev :=
  foldOver (waitsOn d i) d fun w d =>
    let m := d.mark i
    if (w.mop = 0x05 ∧ w.arg ≤ m.count) ∨ (w.mop = 0x32 ∧ w.arg ≤ m.serving) then endWait d w .ok false else d

/-- What follows every operation on a mark: held operations, a complete round, and a service's count (R424, R427, R429). -/
def afterMop (d : Dev) (i : Nat) : Dev :=
  let d := barrierRound 3 i (flushWaits d i)
  if (d.mark i).wkind = 2 then d.event (.counted i) else d

/-- Steps 1 to 4 of R418. -/
def mopCheck (d : Dev) (o : MOp) : Option Status :=
  let m := d.mark o.mark
  if m.type = 0 ∨ m.chase ≠ o.chase then some .denied
  else if m.plock ∧ m.party ≠ o.party then some .denied
  else match mopType o.mop with
    | none => some .unsupported
    | some t => if (t ≠ 0 ∧ t ≠ m.type) ∨ !mopFields o then some .unsupported else none

/-- Could an operation that passed its checks come to be held? Then a wait record must be free first (R423). -/
def wouldHold (d : Dev) (o : MOp) : Bool :=
  match (mopEffect d o).2 with
  | .hold _ => true
  | .done .. => false

/-- Run an operation at the mark's home (R418 to R436, R503). Answers the device and, for the device's own signals, STATUS and GRANT. -/
def markRun (d : Dev) (o : MOp) : Dev × Status × Bool :=
  let die := markDie o.mark
  if !d.dieUp (dPT die) then
    ((match o.id with | some id => answer d id .targetLost | none => d), .targetLost, false)
  else
    let d := d.count .cMkops (dPT die)
    if d.badMark o.mark then
      -- the record cannot be read: FLAGS and the type word of the RESP are free (log 28)
      let (f, d) := d.draw
      let (w, d) := d.draw
      ((match o.id with | some id => answer d id .poisoned (f % 64) 0 0 0 (leBytes 8 w) | none => d), .poisoned, false)
    else
      let w := (d.mark o.mark).word
      match mopCheck d o with
      | some st => (markAnswer d o.id o.mark st false w, st, false)
      | none =>
        if wouldHold d o && !waitRoom d die then
          (markAnswer (d.count .cMkwfull (dPT die)) o.id o.mark .busy false w, .busy, false)
        else match mopEffect d o with
          | (d, .done st g) => (afterMop (markAnswer d o.id o.mark st g w) o.mark, st, g)
          | (d, .hold a) => (afterMop (holdOp d o a) o.mark, .ok, false)

/-- A signal of the device itself on a mark of a chase (R418, last paragraph). -/
def markSignal (d : Dev) (chase mark mop arg0 arg1 : Nat) : Dev × Status × Bool :=
  markRun d { mark := mark, mop := mop, arg0 := arg0, arg1 := arg1, src := d.tfp.eid, chase := chase, party := (d.mark mark).party }

def markAdd (d : Dev) (chase mark n : Nat) : Dev := (markSignal d chase mark 0x01 n 0).1

/-! ### MARK_OP packets -/

/-- A MARK_OP at its ingress (R126, R43, R417): to the switch its DST names, or to the mark's home here. -/
def markOpFx (x : Rx) (d : Dev) : Dev :=
  Ck.dev do
    let (d, id, k) ← ingress d x false
    if !isLocal d k then .ok (forwardReq d id k (some (x.port, x.vl)))
    else
      let i := wbits k.w2 63 46
      if !d.dieUp (dPT (markDie i)) then .ok (answer d id .targetLost)
      else
        let d ← filterCheck d id (.mark (markDie i))
        let o : MOp :=
          { id := some id, mark := i, mop := wbits k.w2 45 40, rtag := wbits k.w2 39 32, arg0 := wbits k.w2 31 0, arg1 := k.w3.toNat
            src := k.src, chase := k.chase, party := k.party }
        .ok (markRun d o).1

/-- The parent of a hierarchical level has answered, or its reissues are used up (R432). -/
def parentAnswer (d : Dev) (i : Nat) (st : Status) : Dev :=
  let m := d.mark i
  if m.type ≠ 2 ∨ !m.upWait then d
  else match st with
    | .ok => afterMop (releaseUp d i) i
    | .timeout => sendUp d i 0x12
    | .busy => d                                   -- sent again after 10 µs (BARRIER_UP_RESEND)
    | st =>
      let die := dPT (markDie i)
      ((d.modMark i fun m => m.raise 5).count .cMkupfail die).notice 0x0702 die (some m.chase) i st.code 0

/-- 10 µs after a BUSY of the parent (R432). -/
def upResend (d : Dev) (i : Nat) : Dev :=
  let m := d.mark i
  if m.type = 2 ∧ m.upWait ∧ !bit m.flags 5 then sendUp d i m.upMop else d

/-- A held operation's time is up (R424). -/
def heldTimeout (d : Dev) (id : Nat) : Dev :=
  match d.marks.waits.find? fun w => w.id == id with
  | none => d
  | some w => endWait (d.count .cMkwtmo (dPT (markDie w.mark))) w .timeout false

/-- A quoin's lease has run out (R433, R434). -/
def leaseExpiry (d : Dev) (i : Nat) : Dev :=
  let m := d.mark i
  if m.type = 3 ∧ m.qState = 1 ∧ m.lease ≠ 0 then breakQuoin d i 3 else d

/-- A mark record is found uncorrectable (R498 unit 8, R503). -/
def markError (d : Dev) (i : Nat) : Dev :=
  let d := d.record 2 (dPT (markDie i)) 8 (some (d.mark i).chase) i
  let d := { d with flt := { d.flt with badMarks := if d.badMark i then d.flt.badMarks else d.flt.badMarks ++ [i] } }
  foldOver (waitsOn d i) d fun w d =>
    let (f, d) := d.draw
    let (v, d) := d.draw
    let d := { d with marks := { d.marks with waits := d.marks.waits.filter fun x => x.id != w.id } }
    answer d w.id .poisoned (f % 64) 0 0 0 (leBytes 8 v)

/-! ### Setting up (R439) -/

/-- Galley lines of a bitmap of n participants (R430). -/
def bitmapLines (n : Nat) : Nat := cdiv (cdiv n 8) 256

/-- The smallest unused declared bitmap of a chase that holds n participants; `skip` is the mark being set up. -/
def freeBitmap (d : Dev) (chase n skip : Nat) : Option Nat :=
  let bs := (d.comp chase).curF.req.barriers
  let used := d.marks.tbl.filterMap fun e => if e.1 ≠ skip ∧ e.2.chase = chase then e.2.bitmap else none
  let fit := (upTo bs.length).filter fun i => !used.contains i && decide (n ≤ (bs[i]?).getD 0)
  fit.foldl (fun (b : Option Nat) i => match b with
    | some j => if (bs[i]?).getD 0 < (bs[j]?).getD 0 then some i else some j
    | none => some i) none

/-- Lines for a bitmap: one returned earlier of that size, else the next lines of the open frame, else of a frame of the first stack with
room (R254; log 29). -/
def takeLines (d : Dev) (n : Nat) : Option ((Nat × Nat) × Dev) :=
  match d.marks.spare.find? fun s => s.1 == n with
  | some s => some ((s.2.1, s.2.2), { d with marks := { d.marks with spare := dropFirst (fun x => x == s) d.marks.spare } })
  | none =>
    match d.marks.open_.filter fun o => decide (o.2.2 + n ≤ 8192) with
    | some (s, f, l) => some ((s, f * 8192 + l), { d with marks := { d.marks with open_ := some (s, f, l + n) } })
    | none =>
      ((upTo 8).filterMap fun s => if d.stackUp s then (takeFrame d 1 s).map fun x => (s, x.1, x.2) else none).head?.map fun x =>
        ((x.1, x.2.1 * 8192), { x.2.2 with marks := { x.2.2.marks with open_ := some (x.1, x.2.1, n) } })

/-- The place of a declared bitmap, chosen when it is first used. -/
def bitmapPlace (d : Dev) (chase which n : Nat) : Option ((Nat × Nat) × Dev) :=
  match tfind d.marks.place (2 ^ 16 * chase + which) with
  | some p => some (p, d)
  | none => (takeLines d (bitmapLines n)).map fun x =>
      (x.1, { x.2 with marks := { x.2.marks with place := tput x.2.marks.place (2 ^ 16 * chase + which) x.1 } })

/-- Write every bit of a checked barrier's bitmap to ROUND mod 2 (R430). -/
def writeBitmap (d : Dev) (m : Mark) : Dev :=
  let v : Byte := if m.round % 2 = 1 then 255 else 0
  let n := bitmapLines m.nPart * 256
  let a := (m.bmStack % 4) * 2 ^ 36 + m.bmLine * 256
  let d := { d with pool := { d.pool with mem := memWrite d.pool.mem a (List.replicate n v) } }
  foldOver (upTo (n / 64)) d fun g d => d.setGbad m.bmStack (a + 64 * g) false

/-- Reserved bits of a type word and of MK_LINK, by TYPE (R420, R11). -/
def markRsv (t : Nat) : List (Nat × Nat) × List (Nat × Nat) :=
  match t with
  | 1 => ([(63, 48)], [(127, 0)])
  | 2 => ([(52, 40)], [(18, 0)])
  | 3 => ([(22, 0)], [(111, 0)])
  | _ => ([], [(127, 0)])

/-- MARK_SET's checks on the values given: UNSUPPORTED where one fails (R439). -/
def markValsOk (d : Dev) (t : Nat) (party word link : Nat) : Bool :=
  let (rw, rl) := markRsv t
  let m : Mark := { type := t, word := word, link := link }
  let zero (v : Nat) (fs : List (Nat × Nat)) : Bool := fs.all fun f => bits v f.1 f.2 == 0
  decide (1 ≤ t ∧ t ≤ 4) && decide (party < 64) && decide (word < 2 ^ 64) && decide (link < 2 ^ 128) && zero word rw && zero link rl &&
    (t != 2 ||
      (decide (1 ≤ m.nPart) && (!m.checked || decide (m.nPart ≤ 65536)) && decide (m.curCnt ≤ m.nPart ∧ m.nxtCnt ≤ m.nPart)
        && !(m.up && m.upEid == d.tfp.eid) && !m.upWait)) &&
    (t != 3 || m.qState == 0)

/-- Is a mark allocated to a chase (R55)? -/
def allocated (d : Dev) (chase i : Nat) : Bool := (d.comp chase).bound && (d.mark i).chase == chase && (liveMarks chase).contains i
where liveMarks (c : Nat) : List Nat := (d.comp c).curF.marks ++ (((d.comp c).drnF.map fun f => f.marks).getD [])

/-- Set a mark up (R439): the status of its refusal, or the device with the mark set. -/
def setMark (d : Dev) (chase i t : Nat) (plock : Bool) (party word link : Nat) : Except (Status × Nat) Dev :=
  let m := d.mark i
  if !allocated d chase i then .error (.denied, 0)
  else if !markValsOk d t party word link then .error (.unsupported, 0)
  else
    let new : Mark := { m with type := t, plock := plock, party := party, flags := 0, word := word, link := link, bitmap := none }
    let bm := if t = 2 ∧ new.checked then some (freeBitmap d chase new.nPart i) else none
    let busy := !(waitsOn d i).isEmpty || (m.type == 3 && m.qState == 1) || (m.type == 2 && m.upWait && !bit m.flags 5) || m.wkind != 0
    let fresh (d : Dev) : Dev :=
      { d with flt := { d.flt with badMarks := d.flt.badMarks.filter (· != i) } }
    let keep (m : Mark) : Mark := { m with saved := some (m.type, m.plock, m.party, m.word, m.link) }
    if bm = some none then .error (.noFit, 12)
    else if busy then .error (.busy, 0)
    else match bm with
      | some (some b) => match bitmapPlace d chase b (((d.comp chase).curF.req.barriers[b]?).getD 0) with
        | none => .error (.noFit, 12)
        | some ((s, l), d) =>
          let new := { new with link := setBits (setBits link 49 47 s) 46 19 l, bitmap := some b }
          .ok (writeBitmap (fresh (d.modMark i fun _ => keep new)) new)
      | _ => .ok (fresh (d.modMark i fun _ => keep { new with link := if t = 2 then setBits link 49 19 0 else link }))

/-- MARK_CLEAR (R439). -/
def clearMark (d : Dev) (i : Nat) : Dev :=
  d.modMark i fun m =>
    if m.type = 3 ∧ m.qState = 2 then { m.put 63 62 0 with flags := setBits m.flags 4 4 0 } else { m with flags := 0 }

/-- Break every quoin an EID holds (R434, R439). -/
def eidLost (d : Dev) (eid why : Nat) (chase : Option Nat) : Dev :=
  let hit := d.marks.tbl.filter fun e => e.2.type == 3 && e.2.qState == 1 && e.2.owner == eid && (chase == none || chase == some e.2.chase)
    && !d.badMark e.1 && d.dieUp (dPT (markDie e.1))
  foldOver hit d fun e d => breakQuoin d e.1 why

/-! ### Allocation and loss (R55, R425, R440) -/

/-- Marks allocated to a chase start unset. -/
def allocMarks (d : Dev) (chase : Nat) (ms : List Nat) : Dev :=
  foldOver ms d fun i d => if (d.mark i).chase = chase ∧ (d.mark i).type ≠ 0 then d else d.modMark i fun _ => { chase := chase }

/-- A chase's marks end with it (R425): held operations are answered DENIED, the marks become unset and free. -/
def freeMarks (d : Dev) (chase : Nat) (ms : List Nat) : Dev :=
  let d := foldOver ms d fun i d =>
    let d := endWaits d i .denied
    { d with marks := { d.marks with tbl := tdel d.marks.tbl i }, flt := { d.flt with badMarks := d.flt.badMarks.filter (· != i) } }
  let gone := d.marks.place.filter fun e => e.1 / 2 ^ 16 == chase
  let lines (w : Nat) : Nat := bitmapLines (((d.comp chase).curF.req.barriers[w]?).getD 0)
  { d with marks := { d.marks with
      place := d.marks.place.filter fun e => e.1 / 2 ^ 16 != chase
      spare := d.marks.spare ++ gone.map fun e => (lines (e.1 % 2 ^ 16), e.2) } }

/-- The marks of a lost port die (R440): held operations are answered TARGETLOST; the marks keep their allocation with TYPE 0. -/
def loseMarks (d : Dev) (die : Nat) : Dev :=
  let hit := (d.marks.tbl.filter fun e => markDie e.1 == die).map Prod.fst
  foldOver hit d fun i d =>
    let d := foldOver (waitsOn d i) d fun w d =>
      answer { d with marks := { d.marks with waits := d.marks.waits.filter fun x => x.id != w.id } } w.id .targetLost
    d.modMark i fun m => { chase := m.chase }

end Sys2Proof.Machine
end

