-- ==== Sys2Proof/Machine/Stripe.lean ====
section
/-! DEFINITION. Coded stripe sets: layout, parity, reads and updates, members held lost, rebuild onto spares (R234–R239). -/

namespace Sys2Proof.Machine
open Sys2Proof

/-! ### GF(2^8) with x^8 + x^4 + x^3 + x^2 + 1 (R234) -/

/-- Multiply by x. -/
def gfX (a : Nat) : Nat := if 128 ≤ a then (2 * a) ^^^ 0x11D else 2 * a

/-- Multiply: the bits of b from the lowest. -/
def gfMulGo : Nat → Nat → Nat → Nat → Nat
  | 0, _, _, acc => acc
  | n + 1, a, b, acc => gfMulGo n (gfX a) (b / 2) (if b % 2 = 1 then acc ^^^ a else acc)

def gfMul (a b : Nat) : Nat := gfMulGo 8 a b 0

/-- 2^i in the field. -/
def gfPow2 : Nat → Nat
  | 0 => 1
  | n + 1 => gfX (gfPow2 n)

/-- The inverse: a^254. -/
def gfInv (a : Nat) : Nat := (upTo 253).foldl (fun acc _ => gfMul acc a) a

def bXor (a b : List Byte) : List Byte := (a.zip b).map fun x => x.1 ^^^ x.2
def bScale (c : Nat) (a : List Byte) : List Byte := a.map fun x => BitVec.ofNat 8 (gfMul c x.toNat)

/-- P of eight granules: their bytewise XOR. -/
def parP (ds : List (List Byte)) : List Byte := ds.foldl bXor (zeros 64)

/-- Q of eight granules: the sum of 2^i × D_i. -/
def parQ (ds : List (List Byte)) : List Byte :=
  ((upTo ds.length).zip ds).foldl (fun acc x => bXor acc (bScale (gfPow2 x.1) x.2)) (zeros 64)

/-- The data granules of a stripe with up to two missing ones solved from P and Q (R237); `none` when it cannot be. -/
def solveGran (ds : List (Option (List Byte))) (p q : Option (List Byte)) : Option (List (List Byte)) :=
  let miss := (upTo 8).filter fun i => ((ds[i]?).join).isNone
  let known := ds.map fun x => x.getD (zeros 64)
  match miss with
  | [] => some known
  | [i] =>
    match p, q with
    | some p, _ => some (known.set i (bXor p (parP known)))
    | none, some q => some (known.set i (bScale (gfInv (gfPow2 i)) (bXor q (parQ known))))
    | none, none => none
  | [i, j] =>
    match p, q with
    | some p, some q =>
      let a := bXor p (parP known)              -- D_i + D_j
      let b := bXor q (parQ known)              -- 2^i D_i + 2^j D_j
      let c := gfInv (gfPow2 i ^^^ gfPow2 j)
      let di := bScale c (bXor b (bScale (gfPow2 j) a))
      some ((known.set i di).set j (bXor a di))
    | _, _ => none
  | _ => none

/-! ### Geometry (R234) -/

/-- The stripe number of a job within its set. -/
def stripeG (j : PJob) : Nat := j.loc.frame * 1024 + j.off / 2048

/-- The member that holds data unit i, or P (8), or Q (9). -/
def unitMember (g u : Nat) : Nat := if u = 8 then g % 10 else if u = 9 then (g + 1) % 10 else (g + 2 + u) % 10

/-- Byte address of a stripe's line at a member: its extent, the slot, the stripe within the folio. -/
def memberAddr (m : StripeMem) (frame s : Nat) : Nat := m.base * folioB + frame * 262144 + s * 256

def Dev.stripe (d : Dev) (s : Nat) : Stripe := tget {} d.pool.stripes s

def Dev.modStripe (d : Dev) (s : Nat) (f : Stripe → Stripe) : Dev :=
  { d with pool := { d.pool with stripes := tmod {} d.pool.stripes s f } }

/-- STATE of a set (R236). -/
def stripeState (s : Stripe) : Nat :=
  if 3 ≤ s.lost.length then 3 else if s.rb.isSome then 4 else s.lost.length

/-- Where a member's line of a slot is served: the member, or the spare below RBPROG (R238); `none` while it is held lost. -/
def memberAt (s : Stripe) (m frame : Nat) : Option StripeMem :=
  if s.lost.contains m then
    match s.rb with
    | some (r, sp) => if r = m ∧ frame < s.prog then some sp else none
    | none => none
  else s.mem[m]?

/-- Send STRIPESTATE when STATE has changed (R236). P0 is the set, P1 the new STATE. -/
def stripeNote (old d : Dev) (s : Nat) : Dev :=
  let a := stripeState (old.stripe s)
  let b := stripeState (d.stripe s)
  if a = b then d else d.notice 0x0402 (dPX (s % 8)) none s b a

/-- Data units a job touches. -/
def PJob.units (j : PJob) : List Nat :=
  let a := (j.off % 2048) / 256
  (upTo (partsOf j.pva j.len)).map (a + ·)

/-- Rebuilding from parity is armed for the job's chase (R237). -/
def degrd (d : Dev) (j : PJob) : Bool := d.flag .fltComppol j.chase 30

/-- The press die whose stripe engine serves a set: PX(s mod 8), or its pair's (R212, R515). -/
def stripeDie (d : Dev) (s : Nat) : Option Nat :=
  if d.dieUp (dPX (s % 8)) then some (s % 8) else if d.dieUp (dPX ((s + 4) % 8)) then some ((s + 4) % 8) else none

/-! ### Requests to members -/

/-- Read or write one line at a member: four granules on a CXL link, one request to a TFP tray. -/
def memberReq (d : Dev) (j : PJob) (u : Nat) (m : StripeMem) (mi : Nat) (write : Option (List Byte × List Nat)) : Dev :=
  let a := memberAddr m j.loc.frame (j.off % folioB / 2048)
  let nm : Member := { m := mi, line := u, write := write.isSome, data := (write.map Prod.fst).getD (zeros 256) }
  let d := d.modJob j.id fun j => { j with mem := j.mem.filter (fun x => x.line != u) ++ [nm], st := .tray }
  if m.mkind = 2 then
    foldOver (upTo 4) d fun g d => match write with
      | none => cxlRead d j m.target (a + 64 * g) (4 * u + g) mi
      | some (b, bad) => cxlWrite d j m.target (a + 64 * g) (4 * u + g) mi ((b.drop (64 * g)).take 64) (bad.contains g)
  else trayPkt d j { kind := 3, target := m.target, frame := 0 } a 256 (4 * u) mi (write.map Prod.fst)

def readUnits (d : Dev) (j : PJob) (us : List Nat) : Dev :=
  let s := d.stripe j.loc.target
  let g := stripeG j
  foldOver us d fun u d =>
    match memberAt s (unitMember g u) j.loc.frame with
    | some m => memberReq d j u m (unitMember g u) none
    | none => d

/-- Units of a stripe whose member can be read. -/
def unitsHere (d : Dev) (j : PJob) : List Nat :=
  let s := d.stripe j.loc.target
  (upTo 10).filter fun u => (memberAt s (unitMember (stripeG j) u) j.loc.frame).isSome

/-! ### Executing -/

/-- A part of a stripe job, by its data unit. -/
def unitPart (d : Dev) (j : PJob) (u : Nat) : Nat :=
  (j.pva / 256 - j.off % 2048 / 256 + u) - ((d.grp j.grp).map fun g => g.pva / 256).getD 0

/-- The job's bytes that fall on data unit u: their offset in the line and themselves. -/
def PJob.onUnit (j : PJob) (u : Nat) : Nat × List Byte :=
  let base := j.off / 2048 * 2048 + 256 * u
  let lo := max base j.off
  let hi := min (base + 256) (j.off + j.len)
  (lo - base, (j.data.drop (lo - j.off)).take (hi - lo))

/-- A granule as the engine holds it after its reads: `none` when its member is lost, has not answered or is poisoned there. -/
def granOf (j : PJob) (u g : Nat) : Option (List Byte) :=
  match j.mem.find? fun m => m.line == u && !m.write with
  | some m => if m.st = .ok ∧ !m.pois.contains g then some ((m.data.drop (64 * g)).take 64) else none
  | none => none

/-- Outcome a unit's own read gives: TARGETLOST where its member is held lost, TIMEOUT, POISONED, OK. -/
def unitSt (j : PJob) (u : Nat) (gs : List Nat) : Status :=
  match j.mem.find? fun m => m.line == u && !m.write with
  | none => .targetLost
  | some m => if m.st ≠ .ok then m.st else if gs.any fun g => m.pois.contains g then .poisoned else .ok

/-- Granules of a unit a job touches, 0 to 3. -/
def PJob.unitGrans (j : PJob) (u : Nat) : List Nat :=
  let x := j.onUnit u
  let n := (min (j.off / 2048 * 2048 + 256 * u + 256) (j.off + j.len)) - max (j.off / 2048 * 2048 + 256 * u) j.off
  (upTo 4).filter fun g => decide (64 * g < x.1 + n) && decide (x.1 < 64 * g + 64)

/-- Does a unit's own read leave something to rebuild? -/
def needsRebuild (j : PJob) (u : Nat) : Bool := unitSt j u (j.unitGrans u) != .ok && unitSt j u (j.unitGrans u) != .timeout

/-- Every data granule g of the stripe, rebuilt where the reads allow it. -/
def stripeGran (j : PJob) (g : Nat) : Option (List (List Byte)) :=
  solveGran ((upTo 8).map fun u => granOf j u g) (granOf j 8 g) (granOf j 9 g)

/-- Finish a read: each unit from its own line, or rebuilt when DEGRD is armed (R237). -/
def stripeLoad (d : Dev) (j : PJob) : Dev :=
  let armed := degrd d j
  let px := dPX (j.loc.target % 8)
  let d := foldOver j.units d fun u d =>
    let gs := j.unitGrans u
    let own := unitSt j u gs
    let x := j.onUnit u
    let n := (min (j.off / 2048 * 2048 + 256 * u + 256) (j.off + j.len)) - max (j.off / 2048 * 2048 + 256 * u) j.off
    let pva := j.pva - j.off + (j.off / 2048 * 2048 + 256 * u) + x.1
    let solved := (upTo 4).map fun g => (stripeGran j g).map fun l => (l[u]?).getD (zeros 64)
    if own = .ok then
      let line := (upTo 4).flatMap fun g => (granOf j u g).getD (zeros 64)
      grpData d j.grp pva ((line.drop x.1).take n)
    else if armed && own != .timeout && gs.all fun g => ((solved[g]?).join).isSome then
      let line := solved.flatMap fun o => o.getD (zeros 64)
      (grpData d j.grp pva ((line.drop x.1).take n)).count .cDegread px
    else partCount (setPart d j.grp (unitPart d j u) own) j.die false own
  grpJobEnd (d.dropJob j.id) j.grp

/-- What a write decides for one unit: refused with a status, or the new line. -/
def unitWrite (d : Dev) (j : PJob) (u : Nat) : Except Status (List Byte) :=
  let gs := j.unitGrans u
  let x := j.onUnit u
  let whole (g : Nat) : Bool := decide (x.1 ≤ 64 * g) && decide (64 * g + 64 ≤ x.1 + x.2.length)
  let own := unitSt j u gs
  let old (g : Nat) : Option (List Byte) :=
    match granOf j u g with
    | some b => some b
    | none => if degrd d j then (stripeGran j g).map fun l => (l[u]?).getD (zeros 64) else none
  if own = .timeout then .error .timeout
  else if own = .targetLost ∧ !degrd d j then .error .targetLost
  else if gs.any fun g => !whole g && (old g).isNone then .error (if own = .targetLost then .targetLost else .poisoned)
  else .ok (splice ((upTo 4).flatMap fun g => (old g).getD (zeros 64)) x.1 x.2)

/-- New parity of one granule: from all eight new data granules where they are known, else by the difference, else none (R235). -/
def newParity (j : PJob) (news : List (Nat × List Byte)) (g : Nat) : Option (List Byte) × Option (List Byte) :=
  let gr (l : List Byte) : List Byte := (l.drop (64 * g)).take 64
  let full := (stripeGran j g).map fun ds => news.foldl (fun ds n => ds.set n.1 (gr n.2)) ds
  let cover := (upTo 8).all fun u => news.any fun n => n.1 == u
  match (if cover then some ((upTo 8).map fun u => gr (((news.find? fun n => n.1 == u).map Prod.snd).getD [])) else full) with
  | some ds => (some (parP ds), some (parQ ds))
  | none =>
    let diffs := news.map fun n => (n.1, (granOf j n.1 g).map fun o => bXor o (gr n.2))
    if diffs.any fun x => x.2.isNone then (none, none)
    else
      let p := (granOf j 8 g).map fun p => diffs.foldl (fun p x => bXor p (x.2.getD (zeros 64))) p
      let q := (granOf j 9 g).map fun q => diffs.foldl (fun q x => bXor q (bScale (gfPow2 x.1) (x.2.getD (zeros 64)))) q
      (p, q)

/-- Issue the writes of an update: the units taken, then P and Q on members not held lost; a parity granule that cannot be computed is
written poisoned. Units refused end with their status. -/
def stripeWrites (d : Dev) (j : PJob) : Dev :=
  let px := dPX (j.loc.target % 8)
  let res := j.units.map fun u => (u, unitWrite d j u)
  let d := foldOver res d fun x d => match x.2 with
    | .error st => partCount (setPart d j.grp (unitPart d j x.1) st) j.die true st
    | .ok _ => d
  let d := d.countN .cPoisref px (res.filter fun x => match x.2 with | .error .poisoned => true | _ => false).length
  let news := res.filterMap fun x => match x.2 with | .ok b => some (x.1, b) | .error _ => none
  let clr := sumNat (news.map fun n =>
    ((j.unitGrans n.1).filter fun g => unitSt j n.1 [g] == .poisoned).length)
  let d := d.countN .cPoisclr px clr
  let s := d.stripe j.loc.target
  let g := stripeG j
  if news.isEmpty then grpJobEnd (d.dropJob j.id) j.grp
  else
    let par := (upTo 4).map fun i => newParity j news i
    let pline := par.flatMap fun x => x.1.getD (zeros 64)
    let qline := par.flatMap fun x => x.2.getD (zeros 64)
    let pbad := (upTo 4).filter fun i => ((par[i]?).bind fun x => x.1).isNone
    let qbad := (upTo 4).filter fun i => ((par[i]?).bind fun x => x.2).isNone
    let forced (u : Nat) : List Nat :=
      (j.unitGrans u).filter fun g => j.forced.contains (j.off / 2048 * 32 + 4 * u + g)
    let all := news.map (fun n => (n.1, n.2, forced n.1)) ++ [(8, pline, pbad), (9, qline, qbad)]
    let out := all.filterMap fun x => (memberAt s (unitMember g x.1) j.loc.frame).map fun m => (x, m)
    let d := d.modJob j.id fun j => { j with mem := [] }
    if out.isEmpty then grpJobEnd (d.dropJob j.id) j.grp
    else foldOver out d fun o d => memberReq d j o.1.1 o.2 (unitMember g o.1.1) (some (o.1.2.1, o.1.2.2))

/-- A member is held lost in a set (R235, R236). A rebuild that wrote to a spare goes on for its member; a third loss ends it. -/
def loseMember (d : Dev) (s m : Nat) : Dev :=
  let st := d.stripe s
  if st.lost.contains m then d
  else
    let d' := d.modStripe s fun st =>
      let lost := st.lost ++ [m]
      if 3 ≤ lost.length then { st with lost := lost, rb := none, prog := 0 } else { st with lost := lost }
    stripeNote d d' s

/-- Every writing member has answered: members that did not are held lost, their parts end TIMEOUT, the job is over (R214, R235). -/
def stripeDone (d : Dev) (j : PJob) : Dev :=
  let late := j.mem.filter fun m => m.write && m.st != .ok
  let d := foldOver late d fun m d =>
    let d := if m.st = .timeout then loseMember d j.loc.target m.m else d
    if m.line < 8 then partCount (setPart d j.grp (unitPart d j m.line) m.st) j.die true m.st else d
  grpJobEnd (d.dropJob j.id) j.grp

/-- Every answer of the running phase has been taken: rebuild reads if they are needed and armed, else the phase that follows. -/
def stripeNext (d : Dev) (j : PJob) : Dev :=
  if j.mem.any fun m => m.write then stripeDone d j
  else
    let d := if j.op.writes then
        foldOver (j.mem.filter fun m => m.st == .timeout) d fun m d => loseMember d j.loc.target m.m
      else d
    let want := degrd d j && j.units.any (needsRebuild j) || (j.op.writes && j.mem.any fun m => !m.pois.isEmpty)
    let more := (unitsHere d j).filter fun u => !j.mem.any fun m => m.line == u
    if want ∧ !more.isEmpty then readUnits d j more
    else match j.op with
      | .load => stripeLoad d j
      | .store => stripeWrites d j
      | .atomic aop =>
        let u := (j.units.head?).getD 0
        let x := j.onUnit u
        let lns := (upTo 4).map fun g => match granOf j u g with
          | some b => some b
          | none => if degrd d j then (stripeGran j g).map fun l => (l[u]?).getD (zeros 64) else none
        if (j.unitGrans u).any fun g => ((lns[g]?).join).isNone then
          let st := unitSt j u (j.unitGrans u)
          jobEnd (if st = .poisoned then d.count .cPoisref (dPX (j.loc.target % 8)) else d) j st
        else
          let old := ((lns.flatMap fun o => o.getD (zeros 64)).drop x.1).take j.len
          let j := { j with data := leBytes j.len (atomicNew aop j.len (leNat old) j.data), op := .store }
          stripeWrites (grpData (d.modJob j.id fun _ => j) j.grp j.pva old) j

/-- Start an access at a stripe engine (R235): the whole stripe written at once, or the lines it replaces, P and Q read first; a load reads
the lines it needs. A FAILED set ends every part TARGETLOST (R236). -/
def startStripe (d : Dev) (j : PJob) : Dev :=
  let s := d.stripe j.loc.target
  if 3 ≤ s.lost.length ∨ (stripeDie d j.loc.target).isNone ∨ s.mem.isEmpty then jobEnd d j .targetLost
  else
    let here := unitsHere d j
    let fullWrite := j.op == .store && decide (j.len = 2048) && decide (here.length = 10)
    if fullWrite then stripeWrites d j
    else
      let us := if j.op.writes then j.units ++ [8, 9] else j.units
      let rd := us.filter fun u => here.contains u
      if rd.isEmpty then stripeNext d j else readUnits d j rd

/-- A tray request of a member ends (R232, R235): when its last one has, the member's answer is ready for the stripe engine. -/
def memberEnd (d : Dev) (j : PJob) (r : TrayReq) (tray dpa : Nat) (res : Except Status (List Byte × List Nat)) : Dev :=
  let u := r.gran / 4
  let g := r.gran % 4
  let reqs := j.reqs.filter fun q => q.cid != r.cid
  let last := !reqs.any fun q => q.gran / 4 == u
  let upd (m : Member) : Member :=
    let m := { m with here := last }
    match res with
    | .error st => { m with st := graver m.st st }
    | .ok (b, p) =>
      if r.write then m
      else if b.length = 64 then
        if p.isEmpty then { m with data := splice m.data (64 * g) (openGran d j.key tray dpa b) }
        else { m with pois := m.pois ++ [g] }
      else { m with data := b, pois := p }
  d.modJob j.id fun j => { j with reqs := reqs, mem := mapIf (fun m => m.line == u && m.write == r.write) upd j.mem }

/-- The stripe engine takes a member's answer; with the last one the access goes on (R235). -/
def takeAnswer (d : Dev) (j : PJob) (member : Nat) : Dev :=
  match j.mem.find? fun m => m.m == member && m.here && !m.taken with
  | none => d
  | some _ =>
    let j' := { j with mem := mapFirst (fun m => m.m == member && m.here && !m.taken) (fun m => { m with taken := true }) j.mem }
    let d := d.modJob j.id fun _ => j'
    if j'.mem.all fun m => m.taken then stripeNext d j' else d

end Sys2Proof.Machine
end

