-- ==== Sys2Proof/Machine/Coherence.lean ====
section
/-! DEFINITION. The line cache, the coherence domain and its directory (R258–R260, R266–R283): both ends of every message. -/

namespace Sys2Proof.Machine
open Sys2Proof

/-! ### Members and messages (R267–R271) -/

def cohEn (d : Dev) : Bool := d.flag .gsCohCfg 0 31

/-- This switch's member number; a domain of one has number 0 (R267). -/
def selfM (d : Dev) : Nat := if cohEn d then d.fld .gsCohCfg 0 30 26 else 0

def memberValid (d : Dev) (m : Nat) : Bool := cohEn d && d.flag .gsCohMember m 31
def memberEid (d : Dev) (m : Nat) : Nat := d.fld .gsCohMember m 19 0

/-- The VALID members of the domain. -/
def membersOf (d : Dev) : List Nat := (upTo 32).filter (memberValid d)

/-- The member an EID belongs to. -/
def memberOfEid (d : Dev) (eid : Nat) : Option Nat := (membersOf d).find? fun m => memberEid d m == eid

/-- DIST between two members (GS_COH_DIST map). -/
def dist (d : Dev) (i j : Nat) : Nat := bits (d.reg .gsCohDist i) (2 * j + 1) (2 * j)

/-- The home of a location: this switch, a member, or none (an ordinary LOAD fills the line, R269, R283). -/
def homeM (d : Dev) (l : Loc) : Option Nat := if l.kind ≠ 4 then some (selfM d) else memberOfEid d l.target

/-- The class a message is sent on (R271). -/
def cohTc (d : Dev) (m : CMsg) : Nat :=
  match m with
  | .gets | .getm | .upgr | .puts | .pute | .putm | .puto => d.fld .gsCohCfg 0 25 23
  | .fwds | .fwdm | .inv | .srcs => d.fld .gsCohCfg 0 22 20
  | _ => d.fld .gsCohCfg 0 19 17

/-- Is a message one for the home (the others are for a cache)? -/
def msgToHome : CMsg → Bool
  | .gets | .getm | .upgr | .puts | .pute | .putm | .puto | .done | .snak => true
  | _ => false

/-- The coherence header (R270). -/
def cohHeader (m : CohMsg) (line : Nat) : Nat :=
  m.msg.code <<< 59 + m.srcm <<< 54 + m.reqm <<< 49 + m.ackcnt <<< 44 + m.grant <<< 41 + b2n m.stale <<< 40
    + b2n m.dirty <<< 39 + line <<< 35 + m.pmask <<< 31

/-- Send a message about a line of this chase at this PVA: within the switch, or as a STORE to the member (R270). -/
def cohSend (d : Dev) (chase party pva px : Nat) (m : CohMsg) : Dev :=
  if m.dest = selfM d then d.event (.msg m)
  else
    let tag := d.tfp.nextTag
    let data := leBytes 8 (cohHeader m (pva / 256 % 16)) ++ m.data
    let k : Pkt :=
      { opc := opSTORE, tc := cohTc d m.msg, epoch := (d.comp chase).cur, chase := chase, party := party
        dst := memberEid d m.dest, src := d.tfp.eid, tag := tag, len := data.length
        w2 := BitVec.ofNat 64 (pva / 4096 * 4096 * 256), data := data }
    let v : Delivery := { tag := tag, kind := .coh, pkts := [k], die := px }
    let d := { d with tfp := { d.tfp with nextTag := (tag + 1) % 65536, dlv := d.tfp.dlv ++ [v] } }
    let (r, d) := sendPkt d (dPX px) k { dlvTag := some tag }
    match r with
    | .queued p => { d with tfp := { d.tfp with dlv := mapIf (fun v => v.tag == tag) (fun v => { v with port := p }) d.tfp.dlv } }
    | _ => d

/-- A message discarded: COHERR, counted and noticed (R271, R279). -/
def cohErr (d : Dev) (px : Nat) (m : CohMsg) : Dev :=
  (d.count .cCoherr (dPX px)).notice 0x0502 (dPX px) none m.srcm m.msg.code 0

/-! ### The cache: lines and their states (R258, R259, R277) -/

def Dev.line (d : Dev) (key : Nat) : Option CLine := d.pool.lines.find? fun l => l.key == key

def Dev.setLine (d : Dev) (l : CLine) : Dev :=
  if d.pool.lines.any fun x => x.key == l.key then
    { d with pool := { d.pool with lines := mapIf (fun x => x.key == l.key) (fun _ => l) d.pool.lines } }
  else { d with pool := { d.pool with lines := d.pool.lines ++ [l] } }

def Dev.dropLine (d : Dev) (key : Nat) : Dev :=
  { d with pool := { d.pool with lines := d.pool.lines.filter fun l => l.key != key } }

/-- The layer a line of a chase belongs to, by its PVA, if that layer is in force. -/
def layerOf (d : Dev) (chase pva : Nat) : Option Layer :=
  d.pool.layers.find? fun l => l.chase == chase && !l.staged && decide (l.pva ≤ pva ∧ pva < l.pva + 4096 * l.lpages)

/-- Retire a layer: ABSENT, its window lines dropped without a message (R262, R266). -/
def retireLayer (d : Dev) (l : Layer) : Dev :=
  let mine (x : CLine) : Bool :=
    x.window && x.st == .s && x.chase == l.chase && decide (l.pva ≤ x.pva ∧ x.pva < l.pva + 4096 * l.lpages)
  { d with pool := { d.pool with
      lines := d.pool.lines.filter fun x => !mine x
      layers := mapIf (fun y => y.chase == l.chase && y.layer == l.layer)
        (fun y => { y with st := .absent, copied := [] }) d.pool.layers } }

/-- A line of a layer that is not ABSENT is written: the layer becomes ABSENT, WININV (R266). -/
def windowInv (d : Dev) (chase pva px : Nat) : Dev :=
  match layerOf d chase pva with
  | some l => if l.st = .absent then d else (retireLayer d l).count .cWininv (dPX px)
  | none => d

/-- Is a line's clean eviction silent (R281), as it is for a line filled from outside the domain (R283)? -/
def CLine.silent (d : Dev) (l : CLine) : Bool := (l.rclass == 1 && l.frozen) || l.window || (homeM d l.loc).isNone

/-- Lines the cache share of a stack holds (R252). -/
def shareLines (d : Dev) (s : Nat) : Nat :=
  let c := d.fld .impGalleyCfg 0 31 26
  (if s % 4 = 0 then min c 59 else c) * 4194304

/-- Lines in a press die's write-back buffer (R259). -/
def inBuffer (d : Dev) (s : Nat) : Nat :=
  (d.pool.lines.filter fun l => l.stack == s && (l.st == .miA || l.st == .oiA || l.st == .iiA)).length

def CState.stable : CState → Bool
  | .i | .s | .e | .m | .o => true
  | _ => false

/-- Evict a line in a stable state: a PUT for it, or nothing where its eviction is silent (R259, R277, R281). -/
def evict (d : Dev) (l : CLine) : Dev :=
  let px := (d.stackServer l.stack).getD l.stack
  let home := (homeM d l.loc).getD (selfM d)
  let m : CohMsg := { msg := .puts, srcm := selfM d, dest := home, line := l.key }
  let pm := l.pois.foldl (fun a g => a + 2 ^ g) 0
  let send (d : Dev) (m : CohMsg) : Dev := cohSend d l.chase l.party l.pva px m
  match l.st with
  | .s => if l.silent d then d.dropLine l.key else send (d.setLine { l with st := .siA }) m
  | .e => send (d.setLine { l with st := .eiA }) { m with msg := .pute }
  | .m => send ((d.setLine { l with st := .miA }).count .cWback (dPX px)) { m with msg := .putm, data := l.data, pmask := pm }
  | .o => send (if l.dirty then (d.setLine { l with st := .oiA }).count .cWback (dPX px) else d.setLine { l with st := .oiA })
            { m with msg := .puto, dirty := l.dirty, data := l.data, pmask := pm }
  | .i => d.dropLine l.key
  | _ => d

/-- Make room for one line in a stack's share: the least recently used line in a stable state goes; a dirty one only while the write-back
buffer has room (R259). -/
def makeRoom (d : Dev) (s : Nat) : Bool × Dev :=
  let mine := d.pool.lines.filter fun l => l.stack == s && !l.window && l.st != .i
  if mine.length < shareLines d s then (true, d)
  else
    let can := mine.filter fun l => l.st.stable && (inBuffer d s < 1024 || l.st == .s || l.st == .e)
    match can.foldl (fun (b : Option CLine) l => match b with
        | none => some l
        | some x => if l.used < x.used then some l else some x) none with
    | some l => (true, evict d l)
    | none => (false, d)

/-- Which states serve an access (R258, R277). -/
def CState.serves (st : CState) (write : Bool) : Bool :=
  if write then st == .m || st == .e
  else match st with
    | .s | .e | .m | .o | .smAD | .omAD => true
    | _ => false

/-- The line an access needs, in state I. -/
def freshLine (d : Dev) (j : PJob) (stack : Nat) : CLine :=
  let f := folioAt d j.chase j.epoch j.pva
  { key := locLine j.loc j.off, stack := stack, chase := j.chase, pva := j.pva / 256 * 256, party := j.party, loc := j.loc
    rclass := (f.map fun f => f.rclass).getD 0, frozen := (f.map fun f => f.frozen).getD false }

/-- Does an access belong to a layer push, whose fills ask for S only (R281)? -/
def isPush (d : Dev) (j : PJob) : Bool := match (d.grp j.grp).map fun g => g.cont with
  | some (Cont.layer ..) => true
  | _ => false

/-! ### Serving an access from a line -/

/-- Line-relative granules of a job. -/
def lineGrans (j : PJob) : List Nat := j.granules.map (· % 4)

/-- The write part of a cached access is done: its mirror copy first (R255). -/
def cachedStore (d : Dev) (j : PJob) (l : CLine) (ce : List Nat) : Dev :=
  let s := (d.stackServer l.stack).getD l.stack
  let bad := (lineGrans j).filter fun g => l.pois.contains g
  let cov (g : Nat) : Bool := j.covers (j.off / 256 * 4 + g)
  if bad.any fun g => !cov g then jobEnd (d.count .cPoisref (dPX s)) j .poisoned
  else
    let d := (d.countN .cPoisclr (dPX s) bad.length).countN .cCemerge (dPX s) (ce.filter fun g => !cov g).length
    let forced := (j.forced.map (· % 4))
    let l := { l with data := splice l.data (j.off % 256) j.data
                      pois := (l.pois.filter fun g => !(lineGrans j).contains g) ++ forced }
    afterWrite (d.setLine l) j s

/-- Serve an access whose line is in a state that serves it: `ce`, `ue` are the granules its read found correctable or uncorrectable. -/
def cachedServe (d : Dev) (j : PJob) (l : CLine) (ce ue : List Nat) : Dev :=
  let s := (d.stackServer l.stack).getD l.stack
  let mir := j.mirrored d && d.stackUp (pairOf l.stack)
  let d := (d.corrected (dGS l.stack) 1 ce.length).account (dGS l.stack) j.chase j.party 3 1
  let d := if mir && ue.any fun g => (lineGrans j).contains g then d.count .cMirrd (dPX s) else d
  let newPois := if mir then [] else ue.filter fun g => !l.pois.contains g
  let d := foldOver newPois d fun _ d => d.record 1 (dGS l.stack) 1 (some l.chase) l.key
  let l := { l with pois := l.pois ++ newPois, used := d.pool.nextUse }
  let d := { d.setLine l with pool := { (d.setLine l).pool with nextUse := d.pool.nextUse + 1 } }
  let bad := (lineGrans j).any fun g => l.pois.contains g
  match j.op with
  | .load => loadEnd d j fun g => if l.pois.contains (g % 4) then none else some ((l.data.drop (64 * (g % 4))).take 64)
  | .store => cachedStore d j l ce
  | .atomic aop =>
    if bad then jobEnd (d.count .cPoisref (dPX s)) j .poisoned
    else
      let old := (l.data.drop (j.off % 256)).take j.len
      let j := { j with data := leBytes j.len (atomicNew aop j.len (leNat old) j.data) }
      cachedStore (grpData (d.modJob j.id fun _ => j) j.grp j.pva old) j l ce

/-! ### Starting accesses -/

/-- A new group and its jobs for a range of one folio: one job per line, per stripe of a coded folio. -/
def pieces (kind pva len : Nat) : List (Nat × Nat) :=
  let u := if kind = 5 then 2048 else 256
  (upTo ((pva + len - 1) / u - pva / u + 1)).map fun i =>
    let lo := max pva ((pva / u + i) * u)
    (lo, min (pva + len) ((pva / u + i + 1) * u) - lo)

/-- Bring a line to the state an access needs: GETS, GETM or UPGR to its home (R277). The access waits (R258). -/
def obtain (d : Dev) (j : PJob) (stack : Nat) : Dev :=
  let d := d.modJob j.id fun j => { j with st := .fill }
  let key := locLine j.loc j.off
  let px := (d.stackServer stack).getD stack
  let w := j.op.writes
  let l := (d.line key).getD (freshLine d j stack)
  let home := (homeM d l.loc).getD (selfM d)
  let msg (c : CMsg) (g : Nat) : CohMsg := { msg := c, srcm := selfM d, reqm := selfM d, grant := g, dest := home, line := key }
  let send (d : Dev) (m : CohMsg) : Dev := cohSend d l.chase l.party l.pva px m
  match l.st with
  | .i =>
    let (room, d) := if l.window then (true, d) else makeRoom d stack
    if !room then d
    else if (homeM d l.loc).isNone then
      let gid := d.pool.nextG
      let jid := d.pool.nextJ
      let g : Grp := { id := gid, cont := .homeRead key, pva := l.pva, len := 256, left := 1, data := zeros 256 }
      let nj : PJob := { j with id := jid, grp := gid, op := .load, pva := l.pva, len := 256, cached := none, dual := none, st := .tray
                                reqs := [], die := dPX px }
      let d := d.setLine { l with st := .isD }
      let d := { d with pool := { d.pool with nextG := gid + 1, nextJ := jid + 1, grps := d.pool.grps ++ [g], jobs := d.pool.jobs ++ [nj] } }
      startTray d nj
    else if w then send (d.setLine { l with st := .imAD, acks := 0, need := none }) (msg .getm 0)
    else send (d.setLine { l with st := .isD }) (msg .gets (if l.silent d || isPush d j then 0 else 1))
  | .s => if w then send (d.setLine { l with st := .smAD, acks := 0, need := none, window := false }) (msg .upgr 0) else d
  | .o => if w then send (d.setLine { l with st := .omAD, acks := 0, need := none }) (msg .upgr 0) else d
  | _ => d

/-- Start an access that a cache serves (R258): a line in the state it needs is read, written at once where no granule of it is needed, or
obtained first. -/
def startCached (d : Dev) (j : PJob) (stack : Nat) : Dev :=
  match d.stackServer stack with
  | none => jobEnd d j .targetLost
  | some _ => match d.line (locLine j.loc j.off) with
    | some l =>
      if l.st.serves j.op.writes then
        let l := if j.op.writes ∧ l.st = .e then { l with st := .m } else l
        let d := d.setLine l
        if j.granules.any fun g => j.reads g then d.modJob j.id fun j => { j with st := .galley }
        else cachedStore d j l []
      else obtain d j stack
    | none => obtain d j stack

/-- Start an access at its home. -/
def startJob (d : Dev) (j : PJob) : Dev :=
  match j.cached with
  | some s => startCached d j s
  | none => match j.loc.kind with
    | 1 => startGalley d j
    | 2 => if d.heldLost 2 j.loc.target then jobEnd d j .targetLost else startCxl d j
    | 5 => startStripe d j
    | _ => if d.heldLost j.loc.kind j.loc.target then jobEnd d j .targetLost else startTray d j

/-- Start every waiting access that no earlier one holds back, in order of arrival (R219, R235). -/
def kick (d : Dev) : Dev :=
  foldOver (d.pool.jobs.map fun j => j.id) d fun id d => match d.job id with
    | some j => if j.st = .wait ∧ !blocked d j then startJob d j else d
    | none => d

/-- Open a group over a range of one folio with its entry; the accesses wait until `kick`. `part0` names the keying party; a load's bytes
start as zeros (R215). -/
def openGrp (d : Dev) (cont : Cont) (die chase epoch party pva len : Nat) (op : PjOp) (data : List Byte) (f : Folio) (key : Nat)
    (forced : List Nat := []) : Dev :=
  let gid := d.pool.nextG
  let l : Loc := { kind := f.kind, target := f.target, frame := f.frame }
  let dual : Option Loc := if f.mig ∧ op.writes then some { kind := f.mkind, target := f.mtarget, frame := f.mframe } else none
  let ps := pieces (if f.gcache then 0 else f.kind) pva len
  let js : List PJob := (upTo ps.length).map fun i =>
    let p := (ps[i]?).getD (pva, len)
    { id := d.pool.nextJ + i, grp := gid, part := p.1 / 256 - pva / 256, die := die, chase := chase, epoch := epoch, party := party
      op := op, pva := p.1, len := p.2, data := (match op with | .store => (data.drop (p.1 - pva)).take p.2 | _ => data)
      loc := l, dual := dual, cached := if f.gcache then some f.cstack else none, key := key, forced := forced }
  let g : Grp := { id := gid, cont := cont, pva := pva, len := len, write := op.writes, left := js.length, data := zeros len }
  let g := match op with | .store => { g with data := data } | _ => g
  { d with pool := { d.pool with nextG := gid + 1, nextJ := d.pool.nextJ + js.length, grps := d.pool.grps ++ [g]
                                 jobs := d.pool.jobs ++ js } }

/-! ### The home (R272–R278) -/

def Dev.dirEnt (d : Dev) (key : Nat) : Option DirEnt := d.pool.dir.find? fun e => e.key == key

def Dev.setDir (d : Dev) (e : DirEnt) : Dev :=
  if d.pool.dir.any fun x => x.key == e.key then
    { d with pool := { d.pool with dir := mapIf (fun x => x.key == e.key) (fun _ => e) d.pool.dir } }
  else { d with pool := { d.pool with dir := d.pool.dir ++ [e] } }

/-- An entry back in I with nothing waiting goes (R273). -/
def Dev.putDir (d : Dev) (e : DirEnt) : Dev :=
  if e.st.isNone ∧ e.busy.isNone ∧ e.queue.isEmpty ∧ e.cur.isNone then
    { d with pool := { d.pool with dir := d.pool.dir.filter fun x => x.key != e.key } }
  else d.setDir e

/-- Room for one more directory entry of a press die: its SRAM, else the least recently used entry moves to the overflow of its stack; false
when both are full (R273). -/
def dirRoom (d : Dev) (px : Nat) : Bool × Dev :=
  let mine := d.pool.dir.filter fun e => e.px == px && e.st.isSome
  let sram := mine.filter fun e => !e.inOvf
  if sram.length < 262144 then (true, d)
  else if 33554432 ≤ mine.length - sram.length then (false, d)
  else match sram.foldl (fun (b : Option DirEnt) e => match b with
      | none => some e
      | some x => if e.used < x.used then some e else some x) none with
    | some e => (true, d.setDir { e with inOvf := true })
    | none => (false, d)

/-- A lookup: DIROVF when the entry sits in the overflow; the entry becomes the most recently used (R273). -/
def dirTouch (d : Dev) (e : DirEnt) : DirEnt × Dev :=
  let d := if e.inOvf then d.count .cDirovf (dPX e.px) else d
  let e := { e with used := d.pool.nextUse, inOvf := false }
  (e, { d with pool := { d.pool with nextUse := d.pool.nextUse + 1 } })

/-- The home sends a message about a line. -/
def homeSend (d : Dev) (e : DirEnt) (m : CohMsg) : Dev :=
  cohSend d e.chase e.party e.pva e.px { m with srcm := selfM d, line := e.key }

/-- Read the line's memory for a requester; the DATA follows when it has come (R276). -/
def homeRead (d : Dev) (e : DirEnt) : Dev :=
  let f : Folio := { kind := e.loc.kind, target := e.loc.target, frame := e.loc.frame, use := if e.loc.kind = 1 then 1 else 0 }
  openGrp d (.homeRead e.key) (dPX e.px) e.chase (d.comp e.chase).cur e.party e.pva 256 .load [] f
    (tget (64 * e.chase + e.party) d.pool.fold (e.pva / folioB + 2 ^ 36 * (e.chase + 1)))

/-- Write a line to its memory (R278, R282); PACK goes to `ack` when it has taken effect. -/
def homeWrite (d : Dev) (e : DirEnt) (b : List Byte) (pm : Nat) : Dev :=
  let f : Folio := { kind := e.loc.kind, target := e.loc.target, frame := e.loc.frame, use := if e.loc.kind = 1 then 1 else 0 }
  let base := e.pva % folioB / 64
  openGrp d (.homeWrite e.key) (dPX e.px) e.chase (d.comp e.chase).cur e.party e.pva 256 .store b f
    (tget (64 * e.chase + e.party) d.pool.fold (e.pva / folioB + 2 ^ 36 * (e.chase + 1)))
    (((upTo 4).filter fun g => bit pm g).map (base + ·))

def DirEnt.sharers (e : DirEnt) : List Nat := e.ptrs.filterMap id

/-- Add a sharer: a free pointer, or OVF (R275). -/
def DirEnt.addSharer (e : DirEnt) (m : Nat) : DirEnt :=
  if e.sharers.contains m then e
  else match (upTo 3).find? fun i => ((e.ptrs[i]?).join).isNone with
    | some i => { e with ptrs := e.ptrs.set i (some m) }
    | none => { e with ovf := true }

def DirEnt.dropSharer (e : DirEnt) (m : Nat) : DirEnt := { e with ptrs := e.ptrs.map fun p => if p == some m then none else p }

/-- Whom the INVs for a request go to: the other sharers, or with OVF every member but the requester and the owner (R275). -/
def invList (d : Dev) (e : DirEnt) (req : Nat) : List Nat :=
  if e.ovf then (membersOf d).filter fun m => m != req && !(e.st == some .o && m == e.owner)
  else e.sharers.filter fun m => m != req

def sendInvs (d : Dev) (e : DirEnt) (req : Nat) (tos : List Nat) : Dev :=
  foldOver tos d fun m d => homeSend d e { msg := .inv, reqm := req, dest := m }

/-- The nearest sharer other than the requester (R276). -/
def nearest (d : Dev) (e : DirEnt) (req : Nat) : Option Nat :=
  ((e.sharers.filter fun m => m != req).mergeSort).foldl (fun (b : Option Nat) m => match b with
    | none => some m
    | some x => if dist d req m < dist d req x then some m else some x) none

/-- Is the line's folio writable: not frozen (R278)? -/
def writable (d : Dev) (e : DirEnt) : Bool :=
  ((folioAt d e.chase (d.comp e.chase).cur e.pva).map fun f => !(f.rclass == 1 && f.frozen)).getD true

/-- Serve a request at the head of a line's queue, the line not in B (R278). -/
def homeServe (d : Dev) (e : DirEnt) (m : CohMsg) : Dev :=
  let (e, d) := dirTouch d e
  let r := m.srcm
  let pack (stale : Bool) : CohMsg := { msg := .pack, reqm := r, dest := r, stale := stale }
  let b (next : DState) (e : DirEnt) : DirEnt := { e with busy := some (r, next), cur := some m }
  let owner := e.st != none && e.st != some .s && e.owner == r
  let sharer := e.sharers.contains r || e.ovf
  let emptied (e : DirEnt) : DirEnt :=
    if e.sharers.isEmpty ∧ !e.ovf then { e with st := none, ovf := false } else { e with st := some .s }
  match m.msg, e.st with
  | .gets, none =>
    let (room, d) := dirRoom d e.px
    if room then homeRead (d.setDir (b (if m.grant = 1 ∧ writable d e then .x else .s) e)) e
    else homeRead ((d.setDir { e with cur := some m }).count .cDirfull (dPX e.px)) e
  | .getm, none | .upgr, none =>
    let (room, d) := dirRoom d e.px
    if room then homeRead (d.setDir (b .x e)) e
    else homeRead ((d.setDir { e with cur := some m }).count .cDirfull (dPX e.px)) e
  | .gets, some .s => match nearest d e r with
    | some n => homeSend (d.setDir { b .s e with src := some n }) e { msg := .srcs, reqm := r, dest := n }
    | none => homeRead (d.setDir (b .s e)) e
  | .getm, some .s =>
    let tos := invList d e r
    homeRead (sendInvs (d.setDir (b .x { e with src := none })) e r tos) e
  | .upgr, some .s =>
    let tos := invList d e r
    if e.sharers.contains r then
      homeSend (sendInvs (d.setDir (b .x e)) e r tos) e { msg := .grant, reqm := r, dest := r, ackcnt := tos.length }
    else homeRead (sendInvs (d.setDir (b .x e)) e r tos) e
  | .puts, some .s =>
    if sharer then homeSend (d.putDir (emptied (e.dropSharer r))) e (pack false)
    else homeSend ((d.setDir e).count .cCohstale (dPX e.px)) e (pack true)
  | .gets, some .x => homeSend (d.setDir (b .o e)) e { msg := .fwds, reqm := r, dest := e.owner }
  | .getm, some .x | .upgr, some .x =>
    homeSend (d.setDir (b .x e)) e { msg := .fwdm, reqm := r, dest := e.owner, ackcnt := 0 }
  | .putm, some .x =>
    if owner then homeWrite (d.setDir { e with st := none, ovf := false, ptrs := [none, none, none], cur := some m }) e m.data m.pmask
    else homeSend ((d.setDir e).count .cCohstale (dPX e.px)) e (pack true)
  | .pute, some .x =>
    if owner then homeSend (d.putDir { e with st := none, ovf := false, ptrs := [none, none, none] }) e (pack false)
    else homeSend ((d.setDir e).count .cCohstale (dPX e.px)) e (pack true)
  | .gets, some .o => homeSend (d.setDir (b .o e)) e { msg := .fwds, reqm := r, dest := e.owner }
  | .getm, some .o | .upgr, some .o =>
    let tos := invList d e r
    if m.msg = .upgr ∧ owner then
      homeSend (sendInvs (d.setDir (b .x e)) e r tos) e { msg := .grant, reqm := r, dest := r, ackcnt := tos.length }
    else
      let d := sendInvs (d.setDir (b .x e)) e r tos
      homeSend d e { msg := .fwdm, reqm := r, dest := e.owner, ackcnt := tos.length }
  | .puto, some .o | .putm, some .o | .pute, some .o =>
    if owner then
      let e' := emptied e
      if m.dirty ∨ m.msg = .putm then homeWrite (d.setDir { e' with cur := some m }) e m.data m.pmask
      else homeSend (d.putDir e') e (pack false)
    else homeSend ((d.setDir e).count .cCohstale (dPX e.px)) e (pack true)
  | .puts, some .o =>
    if sharer then homeSend (d.setDir (e.dropSharer r)) e (pack false)
    else homeSend ((d.setDir e).count .cCohstale (dPX e.px)) e (pack true)
  | .puts, _ | .pute, _ | .putm, _ | .puto, _ => homeSend ((d.putDir e).count .cCohstale (dPX e.px)) e (pack true)
  | _, _ => cohErr d e.px m

/-- Is a line at its home taken up with a request: in B, or its memory being read or written for one (R278)? -/
def DirEnt.taken (e : DirEnt) : Bool := e.busy.isSome || e.cur.isSome

/-- Start the next queued request of a line (R272). -/
def homeNext (d : Dev) (key : Nat) : Dev :=
  match d.dirEnt key with
  | some e => if e.taken then d else match e.queue with
    | m :: r => homeServe (d.setDir { e with queue := r }) { e with queue := r } m
    | [] => d.putDir e
  | none => d

/-- A request reaches the home: served, or queued behind the one being served (R272, R278). -/
def homeReq (d : Dev) (e : DirEnt) (m : CohMsg) : Dev :=
  if e.taken ∨ !e.queue.isEmpty then d.setDir { e with queue := e.queue ++ [m] } else homeServe (d.setDir e) e m

/-- DONE and SNAK reach a line in B (R278). A DONE after a GRANT of 3, for which the home keeps no entry, ends there (log 23). -/
def homeDone (d : Dev) (key px : Nat) (m : CohMsg) : Dev :=
  match d.dirEnt key with
  | none => if m.msg = .done then d else cohErr d px m
  | some e => match m.msg, e.busy with
    | .done, some (req, next) =>
      if req ≠ m.srcm then cohErr d px m
      else
        let e := { e with busy := none, cur := none, src := none }
        let e := match next with
          | .x => { e with st := some .x, owner := req, ptrs := [none, none, none], ovf := false }
          | .s => { e.addSharer req with st := some .s }
          | .o => { e.addSharer req with st := some .o }
        homeNext (d.setDir e) key
    | .snak, some (_, _) =>
      if e.src = some m.srcm then
        let e := { e.dropSharer m.srcm with src := none }
        homeRead (d.setDir e) e
      else cohErr d px m
    | .done, none => if e.cur.isSome then d else cohErr d px m
    | _, _ => cohErr d px m

/-- The line's memory has been read for the request being served: DATA to it (R276, R278), use once where no entry could be made. -/
def homeReadDone (d : Dev) (key : Nat) (g : Grp) : Dev :=
  match d.dirEnt key with
  | none => d
  | some e => match e.cur with
    | none => d
    | some m =>
      let pm := if g.outs.any fun o => o.2 != .poisoned then 15 else g.pois.foldl (fun a i => a + 2 ^ i) 0
      let grant := match e.busy, m.msg with
        | none, _ => 3
        | some (_, .x), .gets => 1
        | some _, .gets => 0
        | some _, _ => 2
      let acks := if grant = 2 then (invList d e m.srcm).length else 0
      let acks := if e.st = some .s then acks else 0
      let d := homeSend d e { msg := .data, reqm := m.srcm, dest := m.srcm, grant := grant, ackcnt := acks, pmask := pm, data := g.data }
      if e.busy.isNone then homeNext (d.setDir { e with cur := none }) key else d

/-- A line written back has reached its memory: PACK (R278), or nothing for a line poisoned under R274. -/
def homeWriteDone (d : Dev) (key : Nat) : Dev :=
  match d.dirEnt key with
  | none => d
  | some e => match e.cur with
    | some m =>
      let d := homeSend d e { msg := .pack, reqm := m.srcm, dest := m.srcm }
      homeNext (d.setDir { e with cur := none }) key
    | none => d

/-- A directory error (R274): INV to every other member, every granule of the line poisoned at its memory, the entry removed. -/
def dirError (d : Dev) (e : DirEnt) : Dev :=
  let others := (membersOf d).filter fun m => m != selfM d
  let d := sendInvs d e (selfM d) others
  let d := homeWrite d e (zeros 256) 15
  let d := { d with pool := { d.pool with dir := d.pool.dir.filter fun x => x.key != e.key } }
  (d.count .cDirerr (dPX e.px)).notice 0x0503 (dPX e.px) (some e.chase) (e.pva / 4096 * 4096) (e.pva / 256 % 16) 0

/-! ### The cache's side of the messages (R277) -/

/-- DONE when complete: the count of IACKs equals ACKCNT; the line is M (R277). -/
def complete (d : Dev) (l : CLine) (px wait : Nat) (st : CState) : Dev :=
  if l.need = some l.acks then
    let home := (homeM d l.loc).getD (selfM d)
    let d := d.setLine { l with st := .m, acks := 0, need := none }
    (cohSend d l.chase l.party l.pva px { msg := .done, srcm := selfM d, reqm := selfM d, dest := home, line := l.key }).event (.wake l.key)
  else if wait = 0 then d.setLine { l with st := st } else d.setLine l

/-- A message reaches a cache whose line is in the state the table lists (R277); a message it does not list changes no line and is a COHERR
(R279). An INV is answered IACK in those states too (R275; log 84). -/
def cacheRx (d : Dev) (l : CLine) (px : Nat) (m : CohMsg) : Dev :=
  let self := selfM d
  let home := (homeM d l.loc).getD self
  let pm := l.pois.foldl (fun a g => a + 2 ^ g) 0
  let send (d : Dev) (m : CohMsg) : Dev := cohSend d l.chase l.party l.pva px { m with srcm := self, line := l.key }
  let iack (d : Dev) : Dev := send d { msg := .iack, reqm := m.reqm, dest := m.reqm }
  let dataTo (d : Dev) (g n : Nat) : Dev :=
    send d { msg := .data, reqm := m.reqm, dest := m.reqm, grant := g, ackcnt := n, pmask := pm, data := l.data }
  let snak (d : Dev) : Dev := send d { msg := .snak, reqm := m.reqm, dest := home }
  let done (d : Dev) : Dev := send d { msg := .done, reqm := self, dest := home }
  let inst : CLine := { l with data := m.data, pois := (upTo 4).filter fun g => bit m.pmask g }
  let fill (d : Dev) : Dev := d.count .cCachefill (dPX px)
  let bad : Dev := cohErr d px m
  match m.msg, l.st with
  | .inv, .i | .inv, .isD | .inv, .imAD => iack d
  | .srcs, .i | .srcs, .isD | .srcs, .imAD | .srcs, .iiA => snak d
  | .inv, .s =>
    let d := if l.window then windowInv d l.chase l.pva px else d
    iack (d.dropLine l.key)
  | .inv, .smAD => iack (d.setLine { l with st := .imAD, data := [], pois := [] })
  | .inv, .siA => iack (d.setLine { l with st := .iiA })
  | .inv, .iiA => iack d
  | .srcs, .s | .srcs, .smAD | .srcs, .siA => dataTo d 0 0
  | .fwds, .e => dataTo (d.setLine { l with st := .o, dirty := false }) 0 0
  | .fwds, .m => dataTo (d.setLine { l with st := .o, dirty := true }) 0 0
  | .fwds, .o | .fwds, .omAD | .fwds, .oiA => dataTo d 0 0
  | .fwds, .miA => dataTo (d.setLine { l with st := .oiA, dirty := true }) 0 0
  | .fwds, .eiA => dataTo (d.setLine { l with st := .oiA, dirty := false }) 0 0
  | .fwdm, .e | .fwdm, .m | .fwdm, .o => dataTo (d.dropLine l.key) 2 m.ackcnt
  | .fwdm, .omAD => dataTo (d.setLine { l with st := .imAD, data := [], pois := [] }) 2 m.ackcnt
  | .fwdm, .miA | .fwdm, .oiA | .fwdm, .eiA => dataTo (d.setLine { l with st := .iiA }) 2 m.ackcnt
  | .data, .isD =>
    if m.grant = 0 then (done (fill (d.setLine { inst with st := .s }))).event (.wake l.key)
    else if m.grant = 1 then (done (fill (d.setLine { inst with st := .e }))).event (.wake l.key)
    else if m.grant = 3 then (done (d.setLine { inst with st := .s, once := true })).event (.wake l.key)
    else bad
  | .data, .imAD =>
    if m.grant = 2 then complete (fill d) { inst with need := some m.ackcnt } px 0 .imA
    else if m.grant = 3 then (done (d.setLine { inst with st := .m, once := true })).event (.wake l.key)
    else bad
  | .grant, .smAD => complete d { l with need := some m.ackcnt } px 0 .smA
  | .grant, .omAD => complete d { l with need := some m.ackcnt } px 0 .omA
  | .iack, .imAD | .iack, .smAD | .iack, .omAD => d.setLine { l with acks := l.acks + 1 }
  | .iack, .imA | .iack, .smA | .iack, .omA => complete d { l with acks := l.acks + 1 } px 1 l.st
  | .pack, .miA | .pack, .oiA | .pack, .eiA | .pack, .siA | .pack, .iiA => (d.dropLine l.key).event (.wake l.key)
  | .inv, _ => iack bad
  | _, _ => bad

/-- Deliver a message of this switch: to the directory of the press die that serves the line's stack, or to its cache. `px` is that
press die; chase, PVA, party and location say which line (R269, R270). -/
def cohRx (d : Dev) (px stack chase party pva : Nat) (l : Loc) (m : CohMsg) : Dev :=
  if msgToHome m.msg then
    let e : DirEnt := (d.dirEnt m.line).getD { key := m.line, px := px, chase := chase, pva := pva, party := party, loc := l }
    match m.msg with
    | .done | .snak => homeDone d m.line px m
    | _ => homeReq d e m
  else
    let f := folioAt d chase (d.comp chase).cur pva
    let x : CLine := (d.line m.line).getD
      { key := m.line, stack := stack, chase := chase, pva := pva, party := party, loc := l
        rclass := (f.map fun f => f.rclass).getD 0, frozen := (f.map fun f => f.frozen).getD false }
    cacheRx d x px m

end Sys2Proof.Machine
end

