-- ==== Sys2Proof/Machine/Xbar.lean ====
section
/-! DEFINITION. Crossing the planes: the crossbar scheduler, slices, rebuild and resend, credits and gates, the resequencer, and
the type case's audit (Switch Core: Sorts, Queues and Planes). -/

namespace Sys2Proof.Machine
open Sys2Proof

/-! ### Deficit round robin (R160, R183) -/

/-- One choice by deficit round robin over eight classes: `cost` is the head's cost where the class is eligible, `empty` whether its
queue is empty; moving on to an eligible class adds its quantum. Answers the class, the deficits and the class being visited. -/
def drr (cost : Nat → Option Nat) (empty : Nat → Bool) (quantum : Nat → Nat) : Nat → Nat → (Nat → Nat) →
    Option (Nat × (Nat → Nat))
  | 0, _, _ => none
  | fuel + 1, c, defs =>
    let give (n v x : Nat) : Nat := if x = n then v else defs x
    match cost c with
    | some n =>
      if n ≤ defs c then some (c, give c (defs c - n))
      else
        let c' := (c + 1) % 8
        let add := if (cost c').isSome then quantum c' else 0
        drr cost empty quantum fuel c' (give c' (defs c' + add))
    | none =>
      let c' := (c + 1) % 8
      let add := if (cost c').isSome then quantum c' else 0
      let defs1 (x : Nat) : Nat := if x = c ∧ empty c then 0 else defs x
      drr cost empty quantum fuel c' (fun x => if x = c' then defs1 c' + add else defs1 x)

/-- Write the eight deficits back. -/
def putDefs (t : Tbl Nat) (base : Nat) (defs : Nat → Nat) : Tbl Nat :=
  (upTo 8).foldl (fun t c => tput t (base + c) (defs c)) t

/-! ### The crossbar scheduler (R160–R162, R165) -/

def xKey (src dst : Nat) : Nat := 24 * src + dst

/-- May one more sort go from a source to an egress port: a crossbar credit for its die, and fewer than 256 outstanding toward the
port (R165)? -/
def xCredOk (d : Dev) (src port : Nat) : Bool :=
  decide (tget 0 d.core.xCred (xKey src (portDie port)) < 1024) && decide (tget 0 d.core.egCred (1024 * src + port) < 256)

/-- One sort crosses as slices under the next PSEQ (R161); where one plane's spoke is full its slice is skipped (R162). -/
def sendSort (d : Dev) (src : Nat) (q : QPkt) (i : Nat) (full : Option Nat) : Dev :=
  let dst := portDie q.port
  let ps := tget 0 d.core.pseqTx (xKey src dst)
  let core := { d.core with
    flights := d.core.flights ++ [{ src := src, dst := dst, pseq := ps, idx := i, q := q }]
    pseqTx := tput d.core.pseqTx (xKey src dst) ((ps + 1) % 65536)
    xCred := tmod 0 d.core.xCred (xKey src dst) (· + 1)
    egCred := tmod 0 d.core.egCred (1024 * src + q.port) (· + 1) }
  let d := { d with core := core }
  match full with
  | some k =>
    if d.planes.length = 5 ∧ k < 5 then
      { d.count .cSkip (8 * src + k) with core := { d.core with planeErr := tmod 0 d.core.planeErr k (· + 1) } }
    else d
  | none => d

/-- Send the sorts of a packet from the i-th on while credits last: how far it came. -/
def sendSorts (src : Nat) (q : QPkt) (full : Option Nat) : Nat → Nat → Dev → Nat × Dev
  | 0, i, d => (i, d)
  | fuel + 1, i, d =>
    if q.pkt.sorts ≤ i ∨ !xCredOk d src q.port then (i, d)
    else sendSorts src q full fuel (i + 1) (sendSort d src q i full)

/-- Send a packet's sorts from the i-th on; what credits do not cover waits for its turn, ahead of any other packet to that die. -/
def crossFrom (d : Dev) (src : Nat) (q : QPkt) (i : Nat) (full : Option Nat) : Dev :=
  let (j, d) := sendSorts src q full q.pkt.sorts i d
  let key := xKey src (portDie q.port)
  if q.pkt.sorts ≤ j then { d with core := { d.core with xRun := tdel d.core.xRun key } }
  else { d with core := { d.core with xRun := tput d.core.xRun key (q, j) } }

/-- Is a queue's head eligible (R160): a credit for its destination die, its port not gated as this die knows, and no other packet of
this source on its way to the same die? -/
def headEligible (d : Dev) (src : Nat) (q : QPkt) : Bool :=
  xCredOk d src q.port && !d.core.gateSeen.contains (src, q.port) && !thas d.core.xRun (xKey src (portDie q.port))

/-- The eligible queues of a die with their heads. -/
def eligible (d : Dev) (src : Nat) : List (Nat × QPkt) :=
  d.core.voq.filterMap fun e =>
    match e.2 with
    | q :: _ => if e.1 / 32768 = src ∧ headEligible d src q then some (e.1, q) else none
    | [] => none

/-- Oldest first. -/
def oldest : List (Nat × QPkt) → Option (Nat × QPkt)
  | [] => none
  | x :: r => match oldest r with
    | some y => if y.2.born < x.2.born then some y else some x
    | none => some x

/-- The next queue of a class in round robin order: the first one past the pointer, else the first of all (R160). -/
def nextRR (c : List (Nat × QPkt)) (ptr : Nat) : Option (Nat × QPkt) :=
  match c.find? fun e => decide (ptr < e.1) with
  | some e => some e
  | none => c.head?

/-- Take the head of a queue and send it across (R160). -/
def takeHead (d : Dev) (src : Nat) (e : Nat × QPkt) (full : Option Nat) : Dev :=
  let core := { d.core with
    voq := match tget [] d.core.voq e.1 with
      | _ :: q2 :: r => tput d.core.voq e.1 ({ q2 with born := d.clk, prom := false } :: r)
      | _ => tdel d.core.voq e.1 }
  crossFrom { d with core := core } src e.2 0 full

/-- On a press die, response queues are served before request queues (R397). -/
def kindFirst (src : Nat) (c : List (Nat × QPkt)) : List (Nat × QPkt) :=
  if src < 16 then c
  else
    let r := c.filter fun e => (e.1 % 32768 / 8) % 2 == 0
    if r.isEmpty then c else r

/-- XBAR_SCHEDULE: the die's scheduler goes on with a packet under way, else picks promoted heads oldest first, then a class by
deficit round robin in proportion to XWEIGHT (in sorts, log 13), then a queue of it round robin (R160). `full` names the plane whose
spoke queue is full (R162). -/
def xbarFx (src : Nat) (full : Option Nat) (d : Dev) : Dev :=
  match d.core.xRun.find? fun e => e.1 / 24 == src && xCredOk d src e.2.1.port with
  | some e => crossFrom d src e.2.1 e.2.2 full
  | none =>
    let c := eligible d src
    match oldest (c.filter fun e => e.2.prom) with
    | some e => takeHead d src e full
    | none =>
      let c := kindFirst src c
      let cand (tc : Nat) : Option (Nat × QPkt) :=
        nextRR (c.filter fun e => e.1 % 8 == tc) (tget 0 d.core.rrPtr (8 * src + tc))
      let noneWaits (tc : Nat) : Bool := !d.core.voq.any fun e => e.1 / 32768 == src && e.1 % 8 == tc
      match drr (fun tc => (cand tc).map fun e => e.2.pkt.sorts) noneWaits (fun tc => d.fld .ptClassCfg tc 27 20) 160
          (tget 0 d.core.classPtr src) (fun tc => tget 0 d.core.classDef (8 * src + tc)) with
      | none => d
      | some (tc, defs) =>
        match cand tc with
        | none => d
        | some e =>
          let core := { d.core with
            classPtr := tput d.core.classPtr src tc
            classDef := putDefs d.core.classDef (8 * src) defs
            rrPtr := tput d.core.rrPtr (8 * src + tc) e.1 }
          takeHead { d with core := core } src e full

def execXbarSchedule (die : Nat) (full : Option Nat) (s : State) : Out := onDev (xbarFx die full) s

/-! ### Egress store, port gates (R165) -/

/-- Sorts a port's egress queues hold. -/
def egSorts (d : Dev) (port : Nat) : Nat :=
  sumNat ((upTo 8).map fun tc => sumNat ((tget [] d.core.egq (egqKey port tc)).map fun q => q.got - q.sent / 256))

/-- A port die raises or lifts a port's gate, and each change goes to every die (R165). -/
def gateCheck (d : Dev) (port : Nat) : Dev :=
  let n := egSorts d port
  let on := d.core.gated.contains port
  if !on && decide (d.fld .ptEgrCfg 0 31 16 < n) then
    { d.count .cGateon (portDie port) with core := { d.core with gated := d.core.gated ++ [port] } }
  else if on && decide (n < d.fld .ptEgrCfg 0 15 0) then
    { d.count .cGateon (portDie port) with core := { d.core with gated := d.core.gated.filter (· != port) } }
  else d

/-- XBAR_CREDIT_RX: credits for sorts the destination freed reach their source (R165). -/
def xCreditFx (src port n : Nat) (d : Dev) : Dev :=
  let k := min n (tget 0 d.core.owed (1024 * src + port))
  let core := { d.core with
    owed := tmod 0 d.core.owed (1024 * src + port) (· - k)
    xCred := tmod 0 d.core.xCred (xKey src (portDie port)) (· - k)
    egCred := tmod 0 d.core.egCred (1024 * src + port) (· - k) }
  { d with core := core }

def execXbarCreditRx (src port n : Nat) (s : State) : Out := onDev (xCreditFx src port n) s

/-- GATE_CHANGE_RX: a die learns a port's gate as its own die has it (R165). -/
def gateChangeFx (die port : Nat) (d : Dev) : Dev :=
  let seen := d.core.gateSeen.filter fun g => g != (die, port)
  { d with core := { d.core with gateSeen := if d.core.gated.contains port then seen ++ [(die, port)] else seen } }

def execGateChangeRx (die port : Nat) (s : State) : Out := onDev (gateChangeFx die port) s

/-! ### The resequencer (R167) -/

/-- A released sort joins the egress queue of its port and class, or is discarded if a sort of its packet was lost (R163, R167). -/
def arriveSort (d : Dev) (f : Flight) : Dev :=
  let key := egqKey f.q.port f.q.pkt.tc
  if f.lost then oweSorts d f.src f.q.port 1
  else if f.idx = 0 then
    let q := { f.q with got := 1, sent := 0, born := d.clk }
    gateCheck { d with core := { d.core with egq := tmod [] d.core.egq key (· ++ [q]) } } f.q.port
  else
    let more (q : QPkt) : QPkt := { q with got := q.got + 1 }
    let egq := tmod [] d.core.egq key (mapIf (fun q => q.uid == f.q.uid) more)
    gateCheck { d with core := { d.core with egq := egq } } f.q.port

def sameFlight (f g : Flight) : Bool := f.src == g.src && f.dst == g.dst && f.pseq == g.pseq && f.out == g.out

/-- Release rebuilt sorts of one source in PSEQ order; a void marker releases its PSEQ and nothing else (R167). -/
def releaseSeq (src dst : Nat) : Nat → Dev → Dev
  | 0, d => d
  | fuel + 1, d =>
    let want := tget 0 d.core.pseqRx (xKey src dst)
    match d.core.flights.find? fun f => f.src == src && f.dst == dst && f.pseq == want && !f.out && (f.rebuilt || f.voided) with
    | none => d
    | some f =>
      let gone (g : Flight) : Flight := { g with out := true }
      let fl := if f.acked || f.voided then dropFirst (sameFlight f) d.core.flights else mapFirst (sameFlight f) gone d.core.flights
      let d := { d with core := { d.core with flights := fl, pseqRx := tput d.core.pseqRx (xKey src dst) ((want + 1) % 65536) } }
      releaseSeq src dst fuel (if f.voided then d else arriveSort d f)

def release (d : Dev) (src dst : Nat) : Dev := releaseSeq src dst (d.core.flights.length) d

/-- A packet is lost in crossing: every other sort of it is discarded at the destination, and its sorts still at the source are freed
(R163, R167). -/
def losePacket (d : Dev) (q : QPkt) : Dev :=
  let key := egqKey q.port q.pkt.tc
  let inEg := (tget [] d.core.egq key).find? fun e => e.uid == q.uid
  let left := unsentOf d q
  let d := freeArrival d q.inp left
  let core := { d.core with
    flights := mapIf (fun f => f.q.uid == q.uid) (fun f => { f with lost := true }) d.core.flights
    xRun := d.core.xRun.filter fun e => e.2.1.uid != q.uid
    qcharge := if q.die < 16 then tmod 0 d.core.qcharge (inqKey q) (· - left) else d.core.qcharge
    egq := if inEg.isSome then tmod [] d.core.egq key (fun l => l.filter fun e => e.uid != q.uid) else d.core.egq }
  let d := { d with core := core }
  match inEg with
  | some e => gateCheck (oweSorts d e.die q.port (e.got - e.sent / 256)) q.port
  | none => d

/-! ### Slices, acknowledgements, resends (R161–R163) -/

def modFlight (d : Dev) (src dst pseq : Nat) (f : Flight → Flight) : Dev :=
  let hit (g : Flight) : Bool := g.src == src && g.dst == dst && g.pseq == pseq
  { d with core := { d.core with flights := mapFirst hit f d.core.flights } }

def findFlight (d : Dev) (src dst pseq : Nat) : Option Flight :=
  d.core.flights.find? fun g => g.src == src && g.dst == dst && g.pseq == pseq

/-- SLICE_RX (R161, R163): reserved codes and bad CHECKs are discarded, a bad CHECK counted; four good slices rebuild the sort; a void
marker releases its PSEQ. Control slices are the commands of their own rows. -/
def sliceFx (x : Slice) (d : Dev) : Dev :=
  if 24 ≤ x.src ∨ 24 ≤ x.dst ∨ 5 ≤ x.sidx ∨ x.kind = 3 then d
  else if !x.good then
    { d.count .cSliceerr (8 * x.dst + x.sidx) with core := { d.core with planeErr := tmod 0 d.core.planeErr x.sidx (· + 1) } }
  else
    match findFlight d x.src x.dst x.pseq with
    | none => d
    | some f =>
      if x.kind = 1 then
        if f.void then release (modFlight d x.src x.dst x.pseq fun f => { f with voided := true }) x.src x.dst else d
      else if x.kind ≠ 0 ∨ f.rebuilt ∨ f.void then d
      else
        let good := if f.good.contains x.sidx then f.good else f.good ++ [x.sidx]
        let d := modFlight d x.src x.dst x.pseq fun f => { f with good := good, rebuilt := decide (4 ≤ good.length) }
        if 4 ≤ good.length then release d x.src x.dst else d

def execSliceRx (x : Slice) (s : State) : Out := onDev (sliceFx x) s

/-- REBUILD_TIMEOUT: fewer than four good slices 1 µs after the first: RNAK (R163). -/
def rebuildTmoFx (src dst pseq : Nat) (d : Dev) : Dev :=
  modFlight d src dst pseq fun f => if !f.rebuilt ∧ !f.good.isEmpty then { f with rnak := true, good := [] } else f

def execRebuildTimeout (src dst pseq : Nat) (s : State) : Out := onDev (rebuildTmoFx src dst pseq) s

/-- The source frees one sort: its arrival lane, its queue's charge (R148). -/
def freeSort (d : Dev) (q : QPkt) : Dev :=
  let d := freeArrival d q.inp 1
  if q.die < 16 then { d with core := { d.core with qcharge := tmod 0 d.core.qcharge (inqKey q) (· - 1) } } else d

/-- RACK: the source frees the sort (R148, R163). -/
def rackFx (src dst pseq : Nat) (d : Dev) : Dev :=
  match findFlight d src dst pseq with
  | none => d
  | some f =>
    if f.acked || f.void || !f.rebuilt then d
    else
      let d := freeSort d f.q
      if f.out then { d with core := { d.core with flights := dropFirst (sameFlight f) d.core.flights } }
      else modFlight d src dst pseq fun f => { f with acked := true }

def execRack (src dst pseq : Nat) (s : State) : Out := onDev (rackFx src dst pseq) s

/-- A failed try (R163): the sort is sent again, or on its third failure voided: the sort is freed, the packet lost, a request whose
ingress is the source die answered RETRY. -/
def crossFail (d : Dev) (src dst pseq : Nat) : Dev :=
  match findFlight d src dst pseq with
  | none => d
  | some f =>
    if f.acked || f.void then d
    else if f.fails < 2 then
      (modFlight d src dst pseq fun f => { f with fails := f.fails + 1, rnak := false }).count .cXresend src
    else
      let d := modFlight d src dst pseq fun f => { f with fails := f.fails + 1, void := true }
      let d := freeSort (d.count .cXfail src) f.q
      let core := { d.core with
        xCred := tmod 0 d.core.xCred (xKey src dst) (· - 1)
        egCred := tmod 0 d.core.egCred (1024 * src + f.q.port) (· - 1) }
      let d := { d with core := core }
      let d := d.notice 0x020C src none src dst pseq
      let d := d.record 2 src 11 none pseq
      let d := losePacket d f.q
      match f.q.req with
      | some id => answer d id .retry
      | none => d

/-- RNAK (R163). -/
def execRnak (src dst pseq : Nat) (s : State) : Out := onDev (fun d => crossFail d src dst pseq) s

/-- RACK_TIMEOUT: neither answer within 2 µs of sending (R163). -/
def execRackTimeout (src dst pseq : Nat) (s : State) : Out :=
  onDev (fun d => match findFlight d src dst pseq with
    | some f => if f.rebuilt then d else crossFail d src dst pseq
    | none => d) s

/-- RSQ_GAP_TIMEOUT: the expected PSEQ is skipped, counted and notified; later sorts of its packet are discarded (R167). -/
def rsqGapFx (src dst : Nat) (d : Dev) : Dev :=
  let want := tget 0 d.core.pseqRx (xKey src dst)
  if !(d.core.flights.any fun f => f.src == src && f.dst == dst && f.rebuilt && !f.out && f.pseq != want) then d
  else
    let d := match findFlight d src dst want with
      | some f => losePacket (modFlight d src dst want fun f => { f with out := true }) f.q
      | none => d
    let d := { d with core := { d.core with pseqRx := tput d.core.pseqRx (xKey src dst) ((want + 1) % 65536) } }
    let d := (d.count .cRsqgap dst).notice 0x020E dst none src want 0
    release d src dst

def execRsqGapTimeout (src dst : Nat) (s : State) : Out := onDev (rsqGapFx src dst) s

/-! ### Planes (R164, R493) -/

/-- A plane is taken out of use and powered down. -/
def planeOut (d : Dev) (k : Nat) : Dev :=
  if d.planes.contains k ∧ d.planes.length = 5 then
    let pwr := { d.pwr with on := d.pwr.on - (if bit d.pwr.on (32 + k) then 2 ^ (32 + k) else 0) }
    { d with pwr := pwr, core := { d.core with planeOff := d.core.planeOff ++ [k] } }
  else d

/-- PLANE_WINDOW_END: at PLANETHR bad or skipped slices in the 1 ms window, PLANEERR and, with PLANEOFF armed, the plane goes out of use
(R164). A second plane is not taken out: its loss is not covered. -/
def planeWindowFx (k : Nat) (d : Dev) : Dev :=
  let n := tget 0 d.core.planeErr k
  let d := { d with core := { d.core with planeErr := tdel d.core.planeErr k } }
  if n < d.fld .fltThr 0 31 16 then d
  else
    let d := d.notice 0x020D (dXP k) none k n 0
    if d.flag .fltFabpol 0 30 then planeOut d k else d

def execPlaneWindowEnd (plane : Nat) (s : State) : Out := onDev (planeWindowFx plane) s

/-! ### The hellbox (R148, R176, R177) -/

/-- A sort goes to the hellbox: its index, last chase and arrival port are logged (R176). -/
def toHell (d : Dev) (die : Nat) (x : Nat × Nat × Nat) : Dev :=
  let key := 98304 * die + x.1
  if thas d.core.hell key then d
  else { d.count .cHellmove die with core := { d.core with hell := tput d.core.hell key (false, x.2.1, x.2.2) } }

/-- Test the sorts of a die's hellbox: those that pass go back to the type case, the others are marked bad (R177). `fails` are the
indices that fail the two patterns. -/
def reclaim (d : Dev) (die : Nat) (fails : List Nat) : Dev :=
  let out (e : Nat × Bool × Nat × Nat) : Option (Nat × Bool × Nat × Nat) :=
    if e.1 / 98304 ≠ die ∨ e.2.1 then some e
    else if fails.contains (e.1 % 98304) then some (e.1, true, e.2.2) else none
  { d with core := { d.core with hell := d.core.hell.filterMap out } }

/-- HELLBOX_AUDIT: `found` are the sorts (index, last chase, arrival port) that are neither free nor referenced now; those found at two
successive audits are leaked and move. One HELLBOX notice goes out when sorts moved or the shared pool is below 16,384 (R156, R176);
with HBRECL armed the audit ends with a reclaim (R177). -/
def auditFx (die : Nat) (found : List (Nat × Nat × Nat)) (fails : List Nat) (d : Dev) : Dev :=
  let leaked := found.filter fun x => d.core.leakOnce.contains (die, x.1)
  let fresh := found.filter fun x => !d.core.leakOnce.contains (die, x.1)
  let once := d.core.leakOnce.filter (fun e => e.1 != die) ++ fresh.map fun x => (die, x.1)
  let before := hellCount d die
  let d := foldOver leaked { d with core := { d.core with leakOnce := once } } fun x d => toHell d die x
  let moved := hellCount d die - before
  let d := if moved ≠ 0 ∨ sharedPool d die < 16384 then d.notice 0x020F die none moved (hellCount d die) 0 else d
  if d.flag .fltFabpol 0 29 then reclaim d die fails else d

def execHellboxAudit (die : Nat) (found : List (Nat × Nat × Nat)) (fails : List Nat) (s : State) : Out :=
  onDev (auditFx die found fails) s

/-- SORT_SRAM_ERROR: the sort goes to the hellbox at once and its packet is discarded, a request answered RETRY (R176, R498 unit 2).
`port` and `tc` name the ingress queue whose `pos`-th packet the sort holds part of; where none stands there the sort held none. -/
def sramFx (die sort chase arr port tc pos : Nat) (d : Dev) : Dev :=
  let d := toHell (d.record 2 die 2 none sort) die (sort, chase, arr)
  let key := voqKey die port tc
  match (tget [] d.core.voq key)[pos]? with
  | none => d
  | some q =>
    let d := freeArrival d q.inp q.pkt.sorts
    let rest := (tget [] d.core.voq key).filter fun e => e.uid != q.uid
    let core := { d.core with
      voq := if rest.isEmpty then tdel d.core.voq key else tput d.core.voq key rest
      qcharge := tmod 0 d.core.qcharge key (· - q.pkt.sorts) }
    let d := { d with core := core }
    match q.req with
    | some id => answer d id .retry
    | none => d

def execSortSramError (die sort chase arr port tc pos : Nat) (s : State) : Out :=
  onDev (sramFx die sort chase arr port tc pos) s

end Sys2Proof.Machine
end

