-- ==== Sys2Proof/Machine/Egress.lean ====
section
/-! DEFINITION. Egress: which lane sends next, buckets, shapers and policers, time gates, age promotion and stalls
(Scheduling, Shaping and Fabric Time; R525). -/

namespace Sys2Proof.Machine
open Sys2Proof

/-! ### Time gates (R190–R195) -/

/-- The operational gate list in force on a port, if gates are applied (R193). -/
def gatesOf (d : Dev) (p : Nat) : Option GateList :=
  if d.flag .schPortCfg p 31 then tfind d.sched.oper p else none

/-- Time in ns a class gate stays open from an entry on, over the following entries of the cycle; `none` at its end: never closes. -/
def openRun (tc : Nat) : List (Nat × Nat) → Nat → Option Nat
  | [], _ => none
  | e :: r, acc => if bit e.1 tc then openRun tc r (acc + e.2) else some acc

/-- The entries of a list from the i-th on, once round. -/
def rotate (l : List (Nat × Nat)) (i : Nat) : List (Nat × Nat) := l.drop i ++ l.take i

/-- How long a class gate stays open: `none` closed now, `some none` never closes, `some (some n)` n ns more (R191). -/
def gateLeft (d : Dev) (p tc : Nat) : Option (Option Nat) :=
  match gatesOf d p with
  | none => some none
  | some g =>
    let (i, ends) := tget (0, g.start) d.sched.entry p
    match rotate g.ents i with
    | [] => some none
    | e :: r => if bit e.1 tc then some (openRun tc r (ends - d.now)) else none

/-- The longest opening of a class in a list: `none` unbounded (R192). -/
def longest (g : GateList) (tc : Nat) : Option Nat :=
  if g.ents.all fun e => bit e.1 tc then none
  else some (((upTo g.ents.length).map fun i => (openRun tc (rotate g.ents i) 0).getD 0).foldl max 0)

/-- Flit time of a port at its current width and rate, in units of 10 ps (R80). -/
def flitTime (l : Link) : Nat := 1024 * 2 ^ l.rate / 2 ^ l.width

/-- Payload bytes of a data flit (R87). -/
def flitRoom (l : Link) : Nat := if l.encact then 224 else 240

/-- The guard G of a packet in units of 10 ps (R191). -/
def guardOf (l : Link) (k : Pkt) : Nat := (cdiv k.size (flitRoom l) + 1) * flitTime l

/-- May a class packet begin under its gate and guard (R191)? -/
def gateOk (d : Dev) (p : Nat) (k : Pkt) : Bool :=
  match gateLeft d p k.tc with
  | none => false
  | some none => true
  | some (some n) => decide (guardOf (d.link p) k ≤ 100 * n)

/-- The entry and its end that a list stands at, at a fabric time (R190, R195). -/
def gatePos (g : GateList) (now : Nat) : Nat × Nat :=
  let cycle := sumNat (g.ents.map Prod.snd)
  if cycle = 0 ∨ now < g.start then (0, g.start)
  else
    let base := g.start + (now - g.start) / cycle * cycle
    let step (a : (Nat × Nat) × Bool) (e : Nat × Nat) : (Nat × Nat) × Bool :=
      if a.2 then a
      else if now < a.1.2 + e.2 then ((a.1.1, a.1.2 + e.2), true) else ((a.1.1 + 1, a.1.2 + e.2), false)
    (g.ents.foldl step ((0, base), false)).1

/-- The pending list of a port becomes operational, positioned at the present time, and GATESW is sent (R193, R195). -/
def takeOver (d : Dev) (p : Nat) : Dev :=
  match tfind d.sched.pend p with
  | none => d
  | some g =>
    let sched := { d.sched with
      oper := tput d.sched.oper p g
      pend := tdel d.sched.pend p
      entry := tput d.sched.entry p (gatePos g d.now)
      stuck := d.sched.stuck.filter fun e => e.1 != p }
    ({ d with sched := sched }).notice 0x0801 (portDie p) none p g.start 0

/-- GATE_LIST_TAKEOVER (R193). -/
def takeoverFx (p : Nat) (d : Dev) : Dev :=
  match tfind d.sched.pend p with
  | none => d
  | some g =>
    if g.start ≤ d.now then takeOver d p
    else takeOver { d with time := { d.time with frac := max d.time.frac (g.start * 2 ^ 32) } } p

def execGateListTakeover (port : Nat) (s : State) : Out := onDev (takeoverFx port) s

/-- GATE_ENTRY_CHANGE: the next entry of the operational list, at the end of the present one (R190). -/
def entryFx (p : Nat) (d : Dev) : Dev :=
  match tfind d.sched.oper p with
  | none => d
  | some g =>
    let (i, ends) := tget (0, g.start) d.sched.entry p
    let j := (i + 1) % max 1 g.ents.length
    { d with sched := { d.sched with entry := tput d.sched.entry p (j, ends + ((g.ents[j]?).getD (0, 0)).2) } }

def execGateEntryChange (port : Nat) (s : State) : Out := onDev (entryFx port) s

/-- A step of fabric time by `delta` ns (R195, R201): every port recomputes its list position; a pending list whose start the step
has passed becomes operational as if it had started then. -/
def stepTime (d : Dev) (delta : Int) : Dev :=
  let d := { d with time := { d.time with frac := ((d.time.frac : Int) + delta * (2 : Int) ^ 32).toNat } }
  let due := d.sched.pend.filter fun e => decide (e.2.start ≤ d.now)
  let d := foldOver due d fun e d => takeOver d e.1
  { d with sched := { d.sched with entry := d.sched.oper.map fun e => (e.1, gatePos e.2 d.now) } }

/-! ### Shapers and policers (R185–R188) -/

/-- A bucket at a refill boundary: the written word takes effect; an enabled one that was not starts full (R186). -/
def refillShaper (b : Bucket) (w : Nat) : Bucket :=
  let depth := bits w 27 16
  if !bit w 31 then { word := w, tc := b.tc, tp := b.tp }
  else if !bit b.word 31 then { word := w, tc := depth, tp := 0 }
  else { word := w, tc := min depth (b.tc + bits w 15 0), tp := 0 }

def refillPolicer (b : Bucket) (w : Nat) : Bucket :=
  if !bit w 63 then { word := w, tc := b.tc, tp := b.tp }
  else if !bit b.word 63 then { word := w, tc := bits w 43 32, tp := bits w 55 44 }
  else { word := w, tc := min (bits w 43 32) (b.tc + bits w 15 0), tp := min (bits w 55 44) (b.tp + bits w 31 16) }

/-- One refill boundary of a port (R186). -/
def refillPort (d : Dev) (p : Nat) : Dev :=
  let sched := { d.sched with
    shaper := (upTo 8).foldl (fun t c => tput t (8 * p + c) (refillShaper (tget {} t (8 * p + c)) (d.reg .schShaper (8 * p + c)))) d.sched.shaper
    policer := (upTo 8).foldl (fun t c => tput t (8 * p + c) (refillPolicer (tget {} t (8 * p + c)) (d.reg .schPolicer (8 * p + c)))) d.sched.policer
    refint := tput d.sched.refint p (d.fld .schPortCfg p 25 16) }
  { d with sched := sched }

/-- REFILL_BOUNDARY (R186). -/
def execRefillBoundary (port : Nat) (s : State) : Out := onDev (fun d => refillPort d port) s

/-- Does a class's shaper let a packet begin (R185)? -/
def shaperOk (d : Dev) (p tc : Nat) : Bool :=
  let b := tget {} d.sched.shaper (8 * p + tc)
  !bit b.word 31 || decide (0 < b.tc)

/-! ### Egress order (R180–R183, R197) -/

/-- The lane a queued packet leaves on: VLU once promoted (R197). -/
def QPkt.lane (q : QPkt) : Nat := if q.prom then vlU else q.vl

def egHead (d : Dev) (p tc : Nat) : Option QPkt := (tget [] d.core.egq (egqKey p tc)).head?

/-- Bytes of a packet that are in the egress store and not yet sent (R169). -/
def QPkt.ready (q : QPkt) : Nat := (if q.got = q.pkt.sorts then q.pkt.size else 256 * q.got) - q.sent

/-- Is a class's head eligible to begin (R180)? -/
def laneEligible (d : Dev) (p tc : Nat) (q : QPkt) : Bool :=
  q.sent == 0 && decide (0 < q.got) && decide (q.pkt.sorts ≤ tget 0 (d.link p).credits q.lane)
    && (decide (16 ≤ q.lane) || (gateOk d p { q.pkt with tc := tc } && shaperOk d p tc))

/-- The classes whose eligible head leaves on a lane, the oldest head first. -/
def onLane (d : Dev) (p vl : Nat) : Option Nat :=
  let c := (upTo 8).filterMap fun tc =>
    (egHead d p tc).bind fun q => if q.lane = vl ∧ laneEligible d p tc q then some (tc, q) else none
  (oldest c).map Prod.fst

/-- The class chosen at a flit boundary (R181), and the deficits that choice leaves. -/
def chooseClass (d : Dev) (p : Nat) : Option (Nat × Option (Nat → Nat)) :=
  let cls (tc : Nat) : Option QPkt := (egHead d p tc).filter fun q => decide (q.lane < 16) && laneEligible d p tc q
  let sp (tc : Nat) : Bool := d.flag .schClassCfg tc 31
  let vlu := onLane d p vlU
  let vlm := onLane d p vlM
  let rank3 := ((upTo 8).reverse).find? fun tc => sp tc && (cls tc).isSome
  if vlu.isSome ∧ 0 < tget 64 d.sched.vlu p then vlu.map fun c => (c, none)
  else if vlm.isSome ∧ 0 < tget 64 d.sched.vlm p then vlm.map fun c => (c, none)
  else match rank3 with
    | some c => some (c, none)
    | none =>
      match drr (fun tc => if sp tc then none else (cls tc).map fun q => q.pkt.size) (fun tc => (egHead d p tc).isNone)
          (fun tc => 256 * d.fld .schClassCfg tc 23 16) 160 (tget 0 d.sched.visit p) (fun tc => tget 0 d.sched.deficit (8 * p + tc)) with
      | some (c, defs) => some (c, some defs)
      | none => match vlu with
        | some c => some (c, none)
        | none => vlm.map fun c => (c, none)

/-- The flit that carries `n` bytes of a packet's byte stream from `sent` on (R87, R88, R91, R108). -/
def dataFlit (d : Dev) (p : Nat) (q : QPkt) (n : Nat) : Flit :=
  let l := d.link p
  let part := (q.pkt.bytes.drop q.sent).take n
  let f : Flit :=
    { ftype := 1, fseq := l.txSeq, vl := q.lane, sopoff := if q.sent = 0 then 0 else 31, fill := cdiv n 8
      enc := l.encact, kslot := l.encact && l.kslot }
  if !l.encact then { f with payload := part ++ List.replicate (240 - n) 0 }
  else
    let plain := part ++ List.replicate (224 - n) 0
    match if l.kslot then l.slot1 else l.slot0 with
    | some s =>
      let (c, tag) := Config.gcmSeal s.txKey s.txSalt l.txExt (flitHdrWord f) plain
      { f with payload := c ++ tag }
    | none => { f with payload := plain }

/-- Spend a token of VLU or VLM on a flit of that lane, where one is left (R182). -/
def spendToken (d : Dev) (p vl : Nat) : Dev :=
  if vl = vlU then { d with sched := { d.sched with vlu := tmod 64 d.sched.vlu p (· - 1) } }
  else if vl = vlM then { d with sched := { d.sched with vlm := tmod 64 d.sched.vlm p (· - 1) } } else d

/-- Hand the next flit of a class's head to the link; once its last byte has gone the packet leaves its queue, and sorts handed over
are owed to their source (R165, R169). -/
def sendSegment (d : Dev) (p tc : Nat) (q : QPkt) : Dev :=
  let n := min (flitRoom (d.link p)) q.ready
  let d := spendToken (sendSeq d p (dataFlit d p q n)) p q.lane
  let sent := q.sent + n
  let done := decide (sent = q.pkt.size)
  let freed := (if done then q.pkt.sorts else sent / 256) - q.sent / 256
  let key := egqKey p tc
  let rest := (tget [] d.core.egq key).drop 1
  let tail := if done then (match rest with | r :: t => { r with born := d.clk } :: t | [] => []) else { q with sent := sent } :: rest
  let d := { d with core := { d.core with egq := if tail.isEmpty then tdel d.core.egq key else tput d.core.egq key tail } }
  gateCheck (oweSorts d q.die p freed) p

/-- The bytes of a packet that leaves: on its port, and for the member it is sent to (R473). -/
def sentPkt (d : Dev) (p : Nat) (k : Pkt) : Dev :=
  let d := d.portBytes p k.size 0
  match d.imp.members.find? fun m => !m.trunk && m.die == portDie p && m.chase == k.chase && m.eid == k.dst with
  | some m => d.account (portDie p) k.chase m.party 1 k.size
  | none => d

/-- Begin a class's head: link credits for the whole packet, a shaper token, the deficit; a multicast delivery counts as delivered, and a
stalled lane has moved (R102, R172, R183, R185, R525). -/
def beginPacket (d : Dev) (p tc : Nat) (q : QPkt) (defs : Option (Nat → Nat)) : Dev :=
  let d := d.modLink p fun l => { l with credits := tmod 0 l.credits q.lane (· - q.pkt.sorts) }
  let spend (b : Bucket) : Bucket := if bit b.word 31 then { b with tc := b.tc - 1 } else b
  let sched := { d.sched with
    shaper := if q.lane < 16 then tmod {} d.sched.shaper (8 * p + tc) spend else d.sched.shaper
    deficit := match defs with | some f => putDefs d.sched.deficit (8 * p) f | none => d.sched.deficit
    visit := if defs.isSome then tput d.sched.visit p tc else d.sched.visit
    held := d.sched.held.filter fun e => e != (p, tc)
    stuck := d.sched.stuck.filter fun e => e != (p, tc) }
  let d := { d with sched := sched, core := { d.core with stallNoted := d.core.stallNoted.filter fun e => e != (p, q.lane) } }
  let d := sentPkt d p q.pkt
  let d := match q.mc with
    | some (id, m) => mcSet d id m .delivered
    | none => d
  sendSegment d p tc q

/-- Count class heads a guard holds, once each, and those no opening of their list can fit (R191, R192). -/
def guardNote (d : Dev) (p tc : Nat) : Dev :=
  match egHead d p tc, gatesOf d p with
  | some q, some g =>
    if 16 ≤ q.lane ∨ q.sent ≠ 0 ∨ q.got = 0 then d
    else
      let k := { q.pkt with tc := tc }
      let d :=
        if (gateLeft d p tc).isSome && !gateOk d p k && !d.sched.held.contains (p, tc) then
          { d.count .cGuardhold (portDie p) with sched := { d.sched with held := d.sched.held ++ [(p, tc)] } }
        else d
      match longest g tc with
      | none => d
      | some n =>
        if 100 * n < guardOf (d.link p) k && !d.sched.stuck.contains (p, tc) then
          let d := { d.count .cGuardstuck (portDie p) with sched := { d.sched with stuck := d.sched.stuck ++ [(p, tc)] } }
          d.notice 0x0806 (portDie p) none p tc 0
        else d
  | _, _ => d

/-- One flit time passes: the VLU bucket gains a token every 20, the VLM bucket every 32 (R182). -/
def tokenTick (d : Dev) (p : Nat) : Dev :=
  let u := tget 0 d.sched.vluFl p + 1
  let m := tget 0 d.sched.vlmFl p + 1
  let sched := { d.sched with
    vluFl := tput d.sched.vluFl p (u % 20)
    vlmFl := tput d.sched.vlmFl p (m % 32)
    vlu := if u = 20 then tmod 64 d.sched.vlu p (fun t => min 64 (t + 1)) else d.sched.vlu
    vlm := if m = 32 then tmod 64 d.sched.vlm p (fun t => min 64 (t + 1)) else d.sched.vlm }
  { d with sched := sched }

/-- EGRESS_SELECT: at a flit boundary a port sends an owed control flit, else goes on with a packet begun, else begins the packet its
order picks, else sends an idle flit (R180, R181). A full replay buffer sends idle flits (R98). -/
def egressFx (p : Nat) (d : Dev) : Dev :=
  if !d.portUp p then d
  else
    let d := tokenTick d p
    if !replayRoom d p || (d.link p).psn then sendAck d p
    else match (d.link p).ctlQ with
      | c :: r => sendSeq (d.modLink p fun l => { l with ctlQ := r }) p { ftype := 2, ctl := some c }
      | [] =>
        let begun := (upTo 8).findSome? fun tc =>
          (egHead d p tc).bind fun q => if q.sent ≠ 0 ∧ q.ready ≠ 0 then some (tc, q) else none
        match begun with
        | some (tc, q) => sendSegment d p tc q
        | none =>
          let d := foldOver (upTo 8) d fun tc d => guardNote d p tc
          match chooseClass d p with
          | none => sendAck d p
          | some (tc, defs) =>
            match egHead d p tc with
            | some q => beginPacket d p tc q defs
            | none => sendAck d p

def execEgressSelect (port : Nat) (s : State) : Out := onDev (egressFx port) s

/-! ### Age promotion (R196, R197) -/

/-- Promote the head of a queue: not where AGETHR is 0, not an MGMT packet, not twice. -/
def promoteHead (d : Dev) (die tc : Nat) (l : List QPkt) : Option (List QPkt × Dev) :=
  match l with
  | q :: r =>
    if d.fld .schClassCfg tc 15 0 = 0 ∨ q.prom ∨ q.pkt.opc = opMGMT ∨ q.sent ≠ 0 then none
    else some ({ q with prom := true } :: r, d.count .cPromote (8 * die + tc))
  | [] => none

/-- AGE_PROMOTION: a queue head's age exceeds AGETHR of its class (R196). A packet promoted at ingress keeps its promotion at egress. -/
def promoteFx (egress : Bool) (die port tc : Nat) (d : Dev) : Dev :=
  if egress then
    match promoteHead d (portDie port) tc (tget [] d.core.egq (egqKey port tc)) with
    | some (l, d) => { d with core := { d.core with egq := tput d.core.egq (egqKey port tc) l } }
    | none => d
  else
    match promoteHead d die tc (tget [] d.core.voq (voqKey die port tc)) with
    | some (l, d) => { d with core := { d.core with voq := tput d.core.voq (voqKey die port tc) l } }
    | none => d

def execAgePromotion (egress : Bool) (die port tc : Nat) (s : State) : Out := onDev (promoteFx egress die port tc) s

/-! ### Stalls (R525) -/

/-- CREDIT_STALL: a lane's head has waited STALLT for link credits or tokens: counted, and notified once until the lane moves a packet. -/
def stallFx (p vl : Nat) (d : Dev) : Dev :=
  let waits := (upTo 8).any fun tc => ((egHead d p tc).map fun q => q.lane == vl && q.sent == 0).getD false
  if !d.portUp p || !waits then d
  else
    let d := d.count .cCredstall (portDie p)
    if d.core.stallNoted.contains (p, vl) then d
    else
      let d := { d with core := { d.core with stallNoted := d.core.stallNoted ++ [(p, vl)] } }
      d.notice 0x0210 (portDie p) none p vl 0

def execCreditStall (port vl : Nat) (s : State) : Out := onDev (stallFx port vl) s

end Sys2Proof.Machine
end

