-- ==== Sys2Proof/Machine/Mcast.lean ====
section
/-! DEFINITION. Multicast: groups, replication, rounds and retries (R141, R170–R175). The copies cross the planes within the step that
replicates them (log 15). -/

namespace Sys2Proof.Machine
open Sys2Proof

/-- A group's members in group order: by die from PT00 to PT15, then as written within each die (R170). `badMembers` are entries that
act as absent (R501). -/
def groupMembers (d : Dev) (g : Nat) : List (Nat × Nat) := tget [] d.core.mcMem g

def modRun (d : Dev) (id : Nat) (f : McRun → McRun) : Dev :=
  { d with core := { d.core with mc := mapIf (fun r => r.id == id) f d.core.mc } }

def Dev.mcRun (d : Dev) (id : Nat) : Option McRun := d.core.mc.find? fun r => r.id == id

/-- Sorts in one class's egress queue of a port. -/
def egCharge (d : Dev) (p tc : Nat) : Nat := sumNat ((tget [] d.core.egq (egqKey p tc)).map fun q => q.got)

/-- One delivery at its member's die (R172): queued with DLV = 1 and DST = the member's EID; missed at once where its port is not UP, or
on a lossy class where admission refuses it (R155, R173, R175). -/
def deliver (d : Dev) (r : McRun) (m : Nat) (mem : Nat × Nat) : Dev :=
  let k := { r.pkt with dlv := true, dst := mem.2, rtry := false }
  let die := portDie mem.1
  let full := alphaOf d k.tc (freeSorts d die) < egCharge d mem.1 k.tc + k.sorts ∨ freeSorts d die < k.sorts
  if !d.portUp mem.1 ∨ (!r.lossless ∧ full) then
    mcSet (if r.lossless then d else d.count .cMcmiss die) r.id m .missed
  else
    let q : QPkt :=
      { pkt := k, port := mem.1, vl := vlReq k.tc, die := die, mc := some (r.id, m), got := k.sorts, born := d.clk
        uid := d.core.nextQ, lossy := !r.lossless }
    let core := { d.core with
      egq := tmod [] d.core.egq (egqKey mem.1 k.tc) (· ++ [q])
      nextQ := d.core.nextQ + 1
      egCred := tmod 0 d.core.egCred (1024 * die + mem.1) (· + k.sorts)
      xCred := tmod 0 d.core.xCred (xKey die die) (· + k.sorts) }
    gateCheck (mcSet { d with core := core } r.id m .waiting) mem.1

/-- Start a round: a delivery for every member it names. -/
def mcRound (d : Dev) (r : McRun) (which : List Nat) : Dev :=
  foldOver which d fun m d => match r.members[m]? with
    | some mem => deliver d r m mem
    | none => d

/-- The miss bitmap of R141: bit i for the i-th member, in whole 64-bit words. -/
def missBitmap (outs : List McOut) : List Byte :=
  let n := ((upTo outs.length).filter fun i => outs[i]? == some McOut.missing).foldl (fun a i => a + 2 ^ i) 0
  leBytes (8 * cdiv outs.length 64) n

/-- End a multicast: its retry slot and its sorts are freed, the RESP is sent (R141, R173, R175). One without a request is an invalidation
notice: on a lossless class its misses are counted and noticed (R286). -/
def mcEnd (d : Dev) (r : McRun) : Dev :=
  let d := freeArrival d r.inp r.pkt.sorts
  let d := { d with core := { d.core with mc := d.core.mc.filter fun x => x.id != r.id } }
  let n := (r.outs.filter fun o => o == McOut.missing).length
  let miss := (upTo r.outs.length).filter fun i => r.outs[i]? == some McOut.missing
  if (d.outst r.id).isNone then
    if r.lossless ∧ n ≠ 0 then
      (d.count .cNotmiss (dPX r.px)).notice 0x0504 (dPT r.die) (some r.pkt.chase) (wbits r.pkt.w2 63 48) n 0 miss
    else d
  else if r.lossless ∧ n ≠ 0 then answer d r.id .timeout n 0 0 0 (missBitmap r.outs) else answer d r.id .ok

/-- Retry slots in use in the device reserve of a stack (R173). -/
def slotsOn (d : Dev) (s : Nat) : Nat := (d.core.mc.filter fun r => r.slot == some s).length

/-- Where the next retry slot is taken: the stack in reach with the fewest slots in use, of 16,384 on each (R173; log 40). A stack
whose PWR_OFF waits for its slots hands out none (R569). -/
def freeSlotStack (d : Dev) : Option Nat :=
  let going (s : Nat) : Bool := d.mgmt.running.any fun r => r.opc == 0x0A01 && bit r.key (53 + s)
  let l := (upTo 8).filter fun s => d.stackUp s && !going s && decide (slotsOn d s < 16384)
  (l.find? fun s => l.all fun t => decide (slotsOn d s ≤ slotsOn d t))

/-- A round has ended once every member has an outcome reported: the RESP, or a retry slot and a wait of MCRINT (R173). -/
def roundEnd (d : Dev) (id : Nat) : Dev :=
  match d.mcRun id with
  | none => d
  | some r =>
    let open_ := r.outs.any fun o => o == McOut.waiting || o == McOut.delivered || o == McOut.missed
    let missing := r.outs.any fun o => o == McOut.missing
    if open_ ∨ r.resting then d
    else if !r.lossless ∨ !missing ∨ r.left = 0 then mcEnd d r
    else if r.slot.isSome then modRun d id fun r => { r with resting := true }
    else match freeSlotStack d with
      | some s =>
        let d := freeArrival d r.inp r.pkt.sorts
        modRun d id fun r => { r with slot := some s, resting := true, inp := none }
      | none => mcEnd (d.count .cMcnoslot r.die) r

/-- A member die's report reaches the replication point (R172). -/
def report (d : Dev) (id die : Nat) : Dev :=
  match d.mcRun id with
  | none => d
  | some r =>
    let upd (i : Nat) (o : McOut) : McOut :=
      if portDie ((r.members[i]?).getD (0, 0)).1 ≠ die then o
      else match o with
        | .delivered => .gotIt
        | .missed => .missing
        | o => o
    roundEnd (modRun d id fun r => { r with outs := (upTo r.outs.length).map fun i => upd i ((r.outs[i]?).getD .idle) }) id

/-- MC_OUTCOME_RX (R172). -/
def execMcOutcomeRx (id die : Nat) (s : State) : Out := onDev (fun d => report d id die) s

/-- MCAST (R141, R170 to R175): its checks, its group, its filter entry, the first round. A group with VALID = 0 or of another chase
is DENIED; a nonzero reserved field is UNSUPPORTED (R122). -/
def mcastFx (x : Rx) (d : Dev) : Dev :=
  Ck.dev do
    let (d, id, k) ← ingress d x false
    let die := portDie x.port
    let fail (d : Dev) (st : Status) : Dev :=
      answer (if lossless d k.tc then freeCharge d x.port x.vl k.sorts else d) id st
    let g := wbits k.w2 63 48
    if wbits k.w2 47 0 ≠ 0 ∨ k.dst ≠ eidFABRIC then .error (fail d .unsupported)
    else if !d.flag .ptMcgrp g 63 || d.fld .ptMcgrp g 62 51 != k.chase || d.core.badGroups.contains (65536 * die + g) then .error (fail d .denied)
    else
      let d ← match filterCheck d id (.repl die) with
        | .ok d => .ok d
        | .error d => .error (if lossless d k.tc then freeCharge d x.port x.vl k.sorts else d)
      let mem := groupMembers d g
      let ll := lossless d k.tc
      let r : McRun :=
        { id := id, die := die, pkt := k, members := mem, outs := mem.map fun _ => .waiting, left := d.fld .ptMcCfg 0 23 20
          inp := if ll then some (x.port, x.vl) else none, lossless := ll }
      let d := { d with core := { d.core with mc := d.core.mc ++ [r] } }
      .ok (if mem.isEmpty then roundEnd d id else mcRound d r (upTo mem.length))

def execMcast (x : Rx) (s : State) : Out := onDev (mcastFx (asOp opMCAST x)) s

/-- MCWAIT_EXPIRY: a member's delivery not begun within MCWAIT is withdrawn and missed for this round (R173). -/
def mcWaitFx (id m : Nat) (d : Dev) : Dev :=
  match d.mcRun id with
  | none => d
  | some r =>
    if r.outs[m]? ≠ some .waiting ∨ !r.lossless then d
    else
      let p := ((r.members[m]?).getD (0, 0)).1
      let key := egqKey p r.pkt.tc
      let keep := (tget [] d.core.egq key).filter fun q => q.mc != some (id, m)
      let d := { d with core := { d.core with egq := if keep.isEmpty then tdel d.core.egq key else tput d.core.egq key keep } }
      mcSet (gateCheck (oweSorts d (portDie p) p r.pkt.sorts) p) id m .missed

def execMcwaitExpiry (id member : Nat) (s : State) : Out := onDev (mcWaitFx id member) s

/-- MC_RETRY_TIMER: MCRINT after a round, a retry naming the members still missing (R173). -/
def mcRetryFx (id : Nat) (d : Dev) : Dev :=
  match d.mcRun id with
  | none => d
  | some r =>
    if !r.resting then d
    else
      let which := (upTo r.outs.length).filter fun i => r.outs[i]? == some McOut.missing
      let outs := r.outs.map fun o => if o == McOut.missing then McOut.waiting else McOut.idle
      let r := { r with outs := outs, left := r.left - 1, resting := false }
      mcRound ((modRun d id fun _ => r).count .cMcretrycnt r.die) r which

def execMcRetryTimer (id : Nat) (s : State) : Out := onDev (mcRetryFx id) s

end Sys2Proof.Machine
end

