-- ==== Sys2Proof/Machine/PoolReq.lean ====
section
/-! DEFINITION. LOAD, STORE and ATOMIC from their ingress to their answer (R43, R122, R206–R233), targets held lost, the Imposer
fast-path cache (R51), invalidation notices (R284–R286), rebuild (R238), and what one step sets going inside the device. -/

namespace Sys2Proof.Machine
open Sys2Proof

/-! ### Targets held lost (R230–R233) -/

/-- Folios of a forme that lie on a target. -/
def foliosOn (f : Forme) (kind target : Nat) : Nat :=
  (f.folios.filter fun e => e.2.locs.any fun l => l.1 == kind && l.2.1 == target).length

/-- End every access out at a target with TARGETLOST; parts already completed keep their outcome (R231). -/
def endAtTarget (d : Dev) (kind target : Nat) : Dev :=
  let js := d.pool.jobs.filter fun j => j.cached.isNone && j.loc.kind == kind && j.loc.target == target && j.st == .tray
  foldOver js d fun j d => foldOver j.reqs d fun r d => match d.job j.id with
    | some j => if kind = 2 then cxlEnd d j r (.error .targetLost) else jobEnd d j .targetLost
    | none => d

/-- Accesses of stripe engines out at a member's tray end there too. -/
def endMembers (d : Dev) (kind target : Nat) : Dev :=
  let js := d.pool.jobs.filter fun j => j.loc.kind == 5
  foldOver js d fun j d =>
    let s := d.stripe j.loc.target
    foldOver j.reqs d fun r d =>
      match s.mem[r.member]? with
      | some m =>
        if m.mkind == kind && m.target == target then
          match d.job j.id with
          | some j => memberEnd d j r 0 0 (.error .targetLost)
          | none => d
        else d
      | none => d

/-- A target becomes held lost (R230, R233): one TRAYLOST notice naming the folios mapped on it in each live forme; members of stripe sets
on it are held lost; its accesses end. -/
def holdLost (d : Dev) (kind target : Nat) : Dev :=
  if d.heldLost kind target then d
  else
    let d := { d with flt := { d.flt with lostTgt := d.flt.lostTgt ++ [(kind, target)] } }
    let die := if kind = 2 then dPT (trayDie target) else d.kpDie
    let d := d.notice 0x0401 die none target kind 0 ((liveFormes d).map fun f => foliosOn f kind target)
    let d := endMembers (endAtTarget d kind target) kind target
    foldOver d.pool.stripes d fun e d =>
      let ms := (upTo e.2.mem.length).filter fun i => match e.2.mem[i]? with
        | some m => m.mkind == kind && m.target == target
        | none => false
      let d := foldOver ms d fun m d => loseMember d e.1 m
      d.modStripe e.1 fun s => match s.rb with
        | some (_, sp) => if sp.mkind == kind && sp.target == target then { s with rb := none, prog := 0 } else s
        | none => s

/-- Is a folio's place gone: its target held lost, its capacity removed by force, or, for a stack, no server left (R230, R514)? -/
def placeLost (d : Dev) (f : Folio) : Bool :=
  match f.kind with
  | 1 => (d.stackServer f.target).isNone
  | 2 => d.heldLost 2 f.target
      || d.flt.lostFr.any fun x => x.1 == f.target && decide (x.2.1 ≤ f.frame) && decide (f.frame < x.2.1 + x.2.2)
  | 5 => false
  | k => d.heldLost k f.target

/-! ### The fast-path cache (R51) -/

def fastHas (d : Dev) (e : FastEnt) : Bool := d.imp.fast.contains e

/-- Capacity of the cache per die and content (fast-path cache table). -/
def fastCap (kind : Nat) : Nat := if kind = 0 then 65536 else 8192

/-- Put an entry into the cache of its die; the oldest of its content makes room. -/
def fastPut (d : Dev) (e : FastEnt) : Dev :=
  if fastHas d e then d
  else
    let same (x : FastEnt) : Bool := x.die == e.die && (x.kind == 0) == (e.kind == 0)
    let l := if (d.imp.fast.filter same).length < fastCap e.kind then d.imp.fast else dropFirst same d.imp.fast
    { d with imp := { d.imp with fast := l ++ [e] } }

/-- A request waits in the ingress buffer while the entry it needs is fetched. -/
def park (d : Dev) (x : Rx) (e : FastEnt) : Dev := { d with imp := { d.imp with waitFill := d.imp.waitFill ++ [(x, e)] } }

/-- The checks before the forme is read: R126, then steps 1 to 3 of R43. -/
def preChecks (d : Dev) (x : Rx) (cont : Bool) : Ck Unit := do
  let d ← hdrCheck d x
  let d ← memberCheck d x
  let _ ← epochCheck d x cont
  .ok ()

/-- Run a packet command that needs one forme entry: its first checks, a miss that parks it, or the command itself. -/
def withEntry (d : Dev) (x : Rx) (cont : Bool) (kind key : Nat) (body : Dev → Dev) : Dev :=
  let e : FastEnt := { die := portDie x.port, chase := x.pkt.chase, epoch := x.pkt.epoch, kind := kind, key := key }
  match preChecks d x cont with
  | .error d => d
  | .ok _ => if isLocal d x.pkt && !fastHas d e then park d x e else body d

/-! ### Access rules (R208, R209, R211) -/

/-- Does the region access table permit an access of a party? -/
def accessOk (d : Dev) (f : Folio) (party : Nat) (write : Bool) : Bool :=
  let mine := f.party == party
  let table := if f.rclass = 1 then !write || (mine && !f.frozen) else mine
  table && !(write && d.pwr.mode == .proof && (f.kind == 2 || f.kind == 3 || f.kind == 4) && f.rclass != 2)

/-- The keying party of a folio: the owner its region was created with (R459). -/
def keyOf (d : Dev) (chase pva : Nat) (f : Folio) : Nat :=
  tget (64 * chase + f.party) d.pool.fold (pva / folioB + 2 ^ 36 * (chase + 1))

/-! ### Limits of the operands (R122, R217) -/

def rangeOk (pva len : Nat) : Bool := decide (1 ≤ len) && decide (pva % 4096 + len ≤ 4096)

/-- Operand size of an ATOMIC. -/
def atomSize (k : Pkt) : Nat := if wbits k.w3 4 4 = 1 then 16 else 8

def operandsOk (k : Pkt) : Bool :=
  let pva := wbits k.w2 63 8
  wbits k.w2 7 0 == 0 &&
  (if k.opc = opLOAD then wbits k.w3 63 13 == 0 && rangeOk pva (wbits k.w3 12 0)
   else if k.opc = opSTORE then k.w3 == 0 && rangeOk pva k.len
   else
    let z := atomSize k
    wbits k.w3 63 5 == 0 && decide (wbits k.w3 3 0 ≤ 2) && pva % z == 0 && k.len == (if wbits k.w3 3 0 = 2 then 2 * z else z))

/-! ### Answers (R130, R224) -/

def maskOf (l : List Nat) : Nat := (l.eraseDups).foldl (fun a i => a + 2 ^ i) 0

/-- Answer a pool request from the outcome of its parts. -/
def answerParts (d : Dev) (id : Nat) (k : Pkt) (g : Grp) : Dev :=
  if k.opc = opATOMIC then
    match g.outs with
    | [] => answer d id .ok 0 0 0 0 g.data
    | o :: _ => answer d id o.2
  else
    let n := partsOf g.pva g.len
    let set := g.outs.map Prod.fst
    let read := k.opc == opLOAD
    let fail := maskOf ((g.outs.filter fun o => !read || o.2 != .poisoned).map Prod.fst)
    let pois := if read then maskOf set else 0
    let first := ((g.outs.head?).map Prod.snd).getD .ok
    let data := (upTo g.data.length).map fun i =>
      if set.contains ((g.pva + i) / 256 - g.pva / 256) then 0 else (g.data[i]?).getD 0
    let body := if read then data else []
    if set.isEmpty then answer d id .ok 0 0 0 0 body
    else if set.length < n then answer d id .partial_ 0 first.code fail pois body
    else answer d id first 0 0 fail pois body

/-- Every part of a request ends TARGETLOST at its ingress (R231). -/
def answerLost (d : Dev) (id : Nat) (k : Pkt) : Dev :=
  let pva := wbits k.w2 63 8
  let len := if k.opc = opLOAD then wbits k.w3 12 0 else k.len
  let n := if k.opc = opATOMIC then 1 else partsOf pva len
  let die := ((d.outst id).map fun o => o.die).getD 0
  let g : Grp := { cont := .request id, pva := pva, len := len, data := zeros len, outs := (upTo n).map fun i => (i, .targetLost) }
  answerParts (d.countN .cTgtlost die n) id k g

/-! ### Invalidation notices (R284–R286) -/

/-- The binding a written line belongs to. -/
def noticeOf (d : Dev) (chase pva : Nat) : Option NoticeBind :=
  d.pool.notices.find? fun b => b.chase == chase && decide (b.base ≤ pva ∧ pva < b.base + b.size * folioB)

def modNotice (d : Dev) (b : NoticeBind) (f : NoticeBind → NoticeBind) : Dev :=
  { d with pool := { d.pool with notices := mapIf (fun x => x.chase == b.chase && x.base == b.base) f d.pool.notices } }

/-- Lines a write covered, in address order. -/
def linesIn (pva len : Nat) : List Nat := (upTo (partsOf pva len)).map fun i => (pva / 256 + i) * 256

/-- Send a collection as an MCAST on its group (R285), then the answers that waited for it. -/
def flushNotice (d : Dev) (b : NoticeBind) : Dev :=
  if b.lines.isEmpty then d
  else
    let id := d.tfp.nextId
    let tag := d.tfp.nextTag
    let data := b.lines.flatMap fun p => leBytes 8 (p * 256)
    let k : Pkt :=
      { opc := opMCAST, tc := b.tc, epoch := (d.comp b.chase).cur, chase := b.chase, dst := eidFABRIC, src := d.tfp.eid, tag := tag
        len := data.length, w2 := BitVec.ofNat 64 (b.group * 2 ^ 48), w3 := BitVec.ofNat 64 b.lines.length, data := data }
    let mem := groupMembers d b.group
    let die := ((mem.head?).map fun m => portDie m.1).getD 0
    let px := ((folioAt d b.chase (d.comp b.chase).cur b.base).map fun f => f.cstack).getD 0
    let r : McRun :=
      { id := id, die := die, pkt := k, members := mem, outs := mem.map fun _ => .waiting, left := d.fld .ptMcCfg 0 23 20
        lossless := lossless d b.tc, px := px }
    let d := { d with tfp := { d.tfp with nextId := id + 1, nextTag := (tag + 1) % 65536 }, core := { d.core with mc := d.core.mc ++ [r] } }
    let d := mcRound (d.count .cNotsent (dPX px)) r (upTo mem.length)
    let d := modNotice d b fun b => { b with lines := [], holdG := [], holdR := [] }
    let d := foldOver b.holdG d fun g d => match g.cont with
      | .request id => (match d.outst id with | some o => answerParts d id o.pkt g | none => d)
      | _ => { d with pool := { d.pool with grps := d.pool.grps ++ [g], ev := d.pool.ev ++ [.ended g.id] } }
    foldOver b.holdR d fun x d => match d.outst x.1 with
      | some o =>
        let d := d.dropOutst x.1
        let d := if o.counted then uncountEpoch d o.die o.pkt.chase o.pkt.epoch else d
        sendResp d o.die x.2
      | none => d

/-- Collect the lines of a write that took effect; the notice goes at 512 lines. -/
def collect (d : Dev) (b : NoticeBind) (ls : List Nat) : Dev :=
  let d := modNotice d b fun b => { b with lines := b.lines ++ ls.filter fun l => !b.lines.contains l }
  match d.pool.notices.find? fun x => x.chase == b.chase && x.base == b.base with
  | some b => if 512 ≤ b.lines.length then flushNotice d b else d
  | none => d

/-- A write group of a bound region has ended: its lines are collected first and it ends once their notice is admitted (R285). Answers
`none` where nothing holds it. -/
def holdForNotice (d : Dev) (chase : Nat) (g : Grp) : Option Dev :=
  let done := (linesIn g.pva g.len).filter fun l => !(g.outs.map Prod.fst).contains (l / 256 - g.pva / 256)
  if !g.write || done.isEmpty then none
  else (noticeOf d chase g.pva).map fun b =>
    let d := modNotice d b fun b => { b with holdG := b.holdG ++ [g] }
    collect (d.dropGrp g.id) b done

/-! ### What one step sets going -/

/-- The chase a group works for. -/
def grpChase (d : Dev) (g : Grp) : Nat := match g.cont with
  | .request id => ((d.outst id).map fun o => o.pkt.chase).getD 0
  | .moverRead c _ _ | .moverWrite c _ _ | .moverDesc c _ | .moverStat c _ | .layer c _ _ | .copy c _ _ => c
  | _ => 0

/-- The memory a line's fill was read from, outside any domain: installed in S, or the waiting accesses end as the read did (R283). -/
def externalFill (d : Dev) (key : Nat) (g : Grp) : Dev :=
  match d.line key with
  | none => d
  | some l =>
    if l.st ≠ .isD then d
    else if g.outs.all fun o => o.2 == .poisoned then
      let d := d.setLine { l with st := .s, data := g.data, pois := g.pois }
      (d.count .cCachefill (dPX ((d.stackServer l.stack).getD l.stack))).event (.wake key)
    else
      let st := ((g.outs.head?).map Prod.snd).getD .targetLost
      let js := d.pool.jobs.filter fun j => j.st == .fill && j.cached.isSome && locLine j.loc j.off == key
      foldOver js (d.dropLine key) fun j d => jobEnd d j st

/-- A group whose accesses have ended: a pool request is answered, a home's read or write goes on; what works for a mover, a layer, a plate
or a press service stays for its own command. `true` when the event was dealt with. -/
def grpEnded (d : Dev) (g : Grp) : Bool × Dev :=
  match g.cont with
  | .request id =>
    match d.outst id with
    | none => (true, d.dropGrp g.id)
    | some o => match holdForNotice d o.pkt.chase g with
      | some d => (true, d)
      | none => (true, answerParts (d.dropGrp g.id) id o.pkt g)
  | .homeRead key =>
    let d := d.dropGrp g.id
    if ((d.dirEnt key).bind fun e => e.cur).isSome then (true, homeReadDone d key g) else (true, externalFill d key g)
  | .homeWrite key => (true, homeWriteDone (d.dropGrp g.id) key)
  | _ => (false, d)

/-- A line reached a state that may serve what waits for it: the accesses that wait are looked at again; a line kept for one use, or of a
folio no longer cacheable, goes (R260, R277). -/
def wakeLine (d : Dev) (key : Nat) : Dev :=
  let waits := d.pool.jobs.filter fun j => j.st == .fill && j.cached.isSome &&
    (locLine j.loc j.off == key || (d.line (locLine j.loc j.off)).isNone)
  let once := ((d.line key).map fun l => l.once).getD false
  let d := foldOver (waits.map fun j => j.id) d fun id d => match d.job id with
    | some j =>
      if blocked d j then d
      else if once && locLine j.loc j.off == key then match d.line key with
        | some l =>
          if j.op.writes ∧ j.loc.kind ≠ 4 then
            let j := { j with cached := none, st := .wait }
            d.modJob j.id fun _ => j
          else cachedServe d j l [] []
        | none => d
      else startCached d j (j.cached.getD 0)
    | none => d
  match d.line key with
  | some l => if l.once then d.dropLine key else if l.drop ∧ l.st.stable then evict d l else d
  | none => d

/-- The line, stack and press die a message of this switch is about: from its directory entry, its cached line, or the accesses under way. -/
def deliverMsg (d : Dev) (m : CohMsg) : Dev :=
  let fromE := (d.dirEnt m.line).map fun e => (e.chase, e.party, e.pva, e.loc, e.px)
  let fromL := (d.line m.line).map fun l => (l.chase, l.party, l.pva, l.loc, l.stack)
  match (if msgToHome m.msg then fromE.or fromL else fromL.or fromE) with
  | some (c, p, pva, loc, s) => cohRx d ((d.stackServer s).getD s) s c p pva loc m
  | none => d

/-- Deal with one event. Those left for other commands go to the end. -/
def oneEvent (d : Dev) (e : PEv) : Dev :=
  match e with
  | .msg m => deliverMsg d m
  | .wake k => wakeLine d k
  | .counted _ => d
  | .ended g => match d.grp g with
    | some x => (grpEnded d x).2
    | none => d

/-- Is an event one that only another command deals with? -/
def eventStays (d : Dev) (e : PEv) : Bool :=
  match e with
  | .ended g => match (d.grp g).map fun x => x.cont with
    | some (Cont.request _) | some (Cont.homeRead _) | some (Cont.homeWrite _) | none => false
    | _ => true
  | .counted _ => true
  | _ => false

/-- Run events and start accesses until nothing more can happen within the step. -/
def settlePool : Nat → Dev → Dev
  | 0, d => d
  | n + 1, d =>
    match d.pool.ev.find? fun e => !eventStays d e with
    | some e => settlePool n (oneEvent { d with pool := { d.pool with ev := dropFirst (· == e) d.pool.ev } } e)
    | none =>
      let d' := kick d
      if d'.pool.ev.any fun e => !eventStays d' e then settlePool n d' else d'

/-- The bound on events within one step; a step never comes near it. -/
abbrev settleFuel : Nat := 4096

/-! ### LOAD, STORE, ATOMIC -/

/-- The home whose filter a request passes (R135, R212, R235, R258). -/
def homeOf (d : Dev) (f : Folio) : Home :=
  if f.gcache then .galley ((d.stackServer f.cstack).getD f.cstack)
  else match f.kind with
    | 1 => .galley ((d.stackServer f.target).getD f.target)
    | 2 => .tray f.target
    | 5 => .stripe ((stripeDie d f.target).getD (f.target % 8))
    | _ => .remote f.target

/-- The next hop toward a TFP tray or remote switch; none holds it lost from then on (R230, R511). -/
def remoteLost (d : Dev) (die kind target : Nat) (k : Pkt) : Option Dev :=
  match routeEid d die target k with
  | .noHop => some (holdLost (d.count .cNohop (min 15 die)) kind target)
  | _ => none

/-- A request whose folio entry has been found: R209, R211, R458, R122, then to its home (R135, R206 to R231, R263). -/
def toHome (d : Dev) (id : Nat) (die : Nat) (k : Pkt) (f : Folio) : Dev :=
  let pva := wbits k.w2 63 8
  let write := k.opc != opLOAD
  let key := keyOf d k.chase pva f
  let len := if k.opc = opLOAD then wbits k.w3 12 0 else if k.opc = opATOMIC then atomSize k else k.len
  let op : PjOp := if k.opc = opLOAD then .load else if k.opc = opSTORE then .store else .atomic (wbits k.w3 3 0)
  let layer := if write then none else (layerOf d k.chase pva).filter fun l => l.st == .missed
  if !accessOk d f k.party write then answer (d.count .cDenycls die) id .denied
  else if (f.kind = 2 ∨ f.kind = 3 ∨ f.kind = 5) ∧ (d.pdk key).isNone then answer d id .sealed_
  else if !operandsOk k then answer d id .unsupported
  else if placeLost d f && !f.gcache then answerLost d id k
  else match layer with
    | some l =>
      let rv := if l.arm = 1 ∧ l.shres then 1 else if l.arm = 2 then 2 else 0
      let all := 2 ^ partsOf pva len - 1
      answer (d.count .cLateans (dPX ((d.stackServer l.stack).getD l.stack))) id .late rv 0 all all
    | none =>
      let win := ((layerOf d k.chase pva).map fun l => write && l.st != .absent).getD false
      let px := dPX ((d.stackServer f.cstack).getD f.cstack) - 16
      if (f.kind = 3 ∨ f.kind = 4) ∧ !f.mig ∧ (!f.gcache ∨ (win ∧ f.kind = 4)) then
        match remoteLost d die f.kind f.target k with
        | some d => answerLost d id k
        | none => forwardTo d id f.target (if f.kind = 3 then { k with dst := f.target } else k)
      else
        let d := if win then windowInv d k.chase pva px else d
        Ck.dev do
          let d ← if write then filterCheck d id (homeOf d f) else .ok d
          .ok (openGrp d (.request id) die k.chase k.epoch k.party pva len op k.data f key)

/-- A pool request at its ingress. A packet whose DST is another EID passes through (log 25). -/
def poolReqFx (x : Rx) (d : Dev) : Dev :=
  Ck.dev do
    let (d, id, k) ← ingress d x false
    if !isLocal d k then .ok (forwardReq d id k (some (x.port, x.vl)))
    else if d.imp.badEnt.contains (k.chase, 1, wbits k.w2 63 8 / folioB) then .ok (answerLost d id k)
    else match folioAt d k.chase k.epoch (wbits k.w2 63 8) with
      | none => .ok (answer (chkCount d k.chase 4) id .denied)
      | some f => .ok (toHome d id (portDie x.port) k f)

def poolFx (x : Rx) (d : Dev) : Dev :=
  withEntry d x false 0 (wbits x.pkt.w2 63 8 / folioB) (poolReqFx x)

/-! ### STORE as the carrier of coherence messages (R270–R272) -/

def msgOf (n : Nat) : Option CMsg :=
  ([.gets, .getm, .upgr, .puts, .pute, .putm, .puto, .fwds, .fwdm, .inv, .srcs, .data, .grant, .iack, .pack, .done, .snak].find?
    fun (m : CMsg) => m.code == n)

/-- The message a coherence STORE carries, if its CMSG and GRANT are not reserved. -/
def cohOf (k : Pkt) (self : Nat) (line : Nat) : Option CohMsg :=
  let h := leNat (k.data.take 8)
  if 3 < bits h 43 41 then none
  else (msgOf (bits h 63 59)).map fun m =>
    { msg := m, srcm := bits h 58 54, reqm := bits h 53 49, ackcnt := bits h 48 44, grant := bits h 43 41, stale := bit h 40
      dirty := bit h 39, pmask := bits h 34 31, dest := self, line := line, data := k.data.drop 8 }

/-- Requests in the home queues of a press die (R272). -/
def homeQueued (d : Dev) (px : Nat) : Nat := sumNat ((d.pool.dir.filter fun e => e.px == px).map fun e => e.queue.length)

/-- A STORE addressed to this switch: a coherence message, from a member over a switch link (R270, R271). -/
def cohStoreFx (x : Rx) (d : Dev) : Dev :=
  Ck.dev do
    let (d, id, k) ← ingress d x false
    let pva := wbits k.w2 63 8 / 4096 * 4096 + 256 * bits (leNat (k.data.take 8)) 38 35
    let f := (folioAt d k.chase k.epoch pva).getD {}
    let px := (d.stackServer f.cstack).getD f.cstack
    if (d.link x.port).ptype ≠ 0 ∨ (memberOfEid d k.src).isNone then .error (answer (d.count .cCoherr (dPX px)) id .denied)
    else
      let l : Loc := { kind := f.kind, target := f.target, frame := f.frame }
      let d ← filterCheck d id (.coh px)
      match cohOf k (selfM d) (locLine l (pva % folioB)) with
      | none => .ok (answer (cohErr d px { msg := .done, srcm := (memberOfEid d k.src).getD 0 }) id .ok)
      | some m =>
        if cohTc d m.msg ≠ k.tc then .ok (answer (cohErr d px m) id .ok)
        else
          let req := msgToHome m.msg && m.msg != .done && m.msg != .snak
          if req && decide (8192 ≤ homeQueued d px) then .ok (answer d id .retry)
          else .ok (cohRx (answer d id .ok) px f.cstack k.chase k.party pva l m)

def storeFx (x : Rx) (d : Dev) : Dev := if x.pkt.dst = d.tfp.eid then cohStoreFx x d else poolFx x d

end Sys2Proof.Machine
end

