-- ==== Sys2Proof/Machine/Collect.lean ====
section
/-! DEFINITION. Reductions and collectives: rounds, contributions, carries, sealing, release, failure (R318–R346), sealed aggregation
(R460–R467). -/

namespace Sys2Proof

/-! ### Definitions -/

def RedDef.nchunk (q : RedDef) : Nat := cdiv q.nelem q.chunkelem
def RedDef.first (q : RedDef) (c : Nat) : Nat := c * q.chunkelem
def RedDef.stop (q : RedDef) (c : Nat) : Nat := min q.nelem ((c + 1) * q.chunkelem)

/-- The rank that owns a chunk (R323). -/
def RedDef.owner (q : RedDef) (c : Nat) : Nat := c * q.nrankg / q.nchunk

/-- NIN (R328). -/
def RedDef.nin (q : RedDef) (c : Nat) : Nat :=
  if q.op = 1 then
    b2n (q.lranks.any (fun r => r.1 == q.owner c) || q.children.any fun h => decide (h.rlo ≤ q.owner c ∧ q.owner c ≤ h.rhi))
  else q.lranks.length + q.children.length

/-- The receivers of a chunk at this switch (R334). -/
def RedDef.recvs (q : RedDef) (c : Nat) : List Machine.RedRcv :=
  let own := c * q.ndestg / q.nchunk
  let loc := q.ldests.filter fun x => q.dsel == 0 || x.1 == own
  let kids := q.children.filter fun h => if q.dsel = 0 then decide (h.dlo ≤ h.dhi) else decide (h.dlo ≤ own ∧ own ≤ h.dhi)
  loc.map (fun x => { eid := x.2 }) ++ kids.map fun h => { eid := h.eid, child := true }

/-- The thresholds T2 and T3 (R328). -/
def RedDef.t2 (q : RedDef) : Nat :=
  sumNat ((upTo q.nchunk).map fun c => q.nin c + b2n (decide (0 < q.nin c)))
def RedDef.t3 (q : RedDef) : Nat := q.t2 + ((upTo q.nchunk).filter fun c => !(q.recvs c).isEmpty).length

/-- The counting mark of a round, and its coordinator's die. -/
def RedDef.countMark (q : RedDef) (n : Nat) : Nat := q.cmark + n % 4

end Sys2Proof

namespace Sys2Proof.Machine
open Sys2Proof

/-- Is the definition run in product mode (R296)? -/
def redProd (d : Dev) (q : RedDef) : Bool := (fmtRow d q.ifmt).product

def sameRed (chase rid : Nat) (r : Red) : Bool := r.chase == chase && r.d.rid / 16 == rid / 16 && !r.staged

/-- The definition in effect that a RID names. -/
def Dev.red (d : Dev) (chase rid : Nat) : Option Red := d.press.reds.find? (sameRed chase rid)

def Dev.modRed (d : Dev) (chase rid : Nat) (f : Red → Red) : Dev :=
  { d with press := { d.press with reds := mapIf (sameRed chase rid) f d.press.reds } }

def Red.round (r : Red) (n : Nat) : Option RedRound := r.rounds.find? fun x => x.rnd == n

def Dev.modRound (d : Dev) (chase rid n : Nat) (f : RedRound → RedRound) : Dev :=
  d.modRed chase rid fun r => { r with rounds := mapIf (fun x => x.rnd == n) f r.rounds }

def Dev.modChunk (d : Dev) (chase rid n c : Nat) (f : ChunkRun → ChunkRun) : Dev :=
  d.modRound chase rid n fun r => { r with chunks := mapIf (fun x => x.chunk == c) f r.chunks }

def RedRound.chunk (r : RedRound) (c : Nat) : Option ChunkRun := r.chunks.find? fun x => x.chunk == c

/-- The die of a reduction's coordinator. -/
def coordDie (q : RedDef) : Nat := dPT (markDie q.cmark)

/-- The chunk-map entry of a chunk under an epoch (R322, R325). -/
def chunkEnt (d : Dev) (chase epoch rid c : Nat) : Option ChunkEnt :=
  (formeOf (d.comp chase) epoch).bind fun f => f.chunks.find? fun e => e.rid / 16 == rid / 16 && e.chunk == c

def ChunkEnt.at_ (e : ChunkEnt) : Nat := if e.onAlt then e.alt.getD e.core else e.core

def coreDie (c : Nat) : Nat := dPX (c / 32)

/-- Does a core serve one of these standard plates: its press die takes part and the core's instance is not in FAULT (R399, R512)? -/
def coreServes (d : Dev) (core : Nat) (plates : List Nat) : Bool :=
  d.dieUp (coreDie core) && !d.press.plates.std.any fun s => s.core == core && s.fault && plates.contains s.plate

/-- The standard plate that runs a definition's rounds (standard plate table, R390). -/
def redPlate (q : RedDef) : Nat := if q.sealv ≠ 0 then 0x0004 else if q.op = 1 then 0x0002 else if q.op = 2 then 0x0003 else 0x0001

/-! ### Result packets (R333) -/

/-- The result header (R333). -/
def resultHdr (st aflags rnd : Nat) (pairs : Bool) (n : Nat) : List Byte :=
  leBytes 8 (st * 2 ^ 56 + aflags * 2 ^ 52 + rnd * 2 ^ 48 + b2n pairs * 2 ^ 47 + n * 2 ^ 33)

/-- A payload with its RSTATUS set. -/
def withStatus (b : List Byte) (st : Nat) : List Byte := b.set 7 (BitVec.ofNat 8 st)

/-- Cut a range into runs of at most n. -/
def runsOf (n lo hi : Nat) : List (Nat × Nat) :=
  (upTo (cdiv (hi - lo) (max n 1))).map fun i => (lo + n * i, min n (hi - lo - n * i))

/-- Elements that fit in `bytes` bytes under a row's layout. -/
def perPacket (r : FmtRow) (bytes : Nat) : Nat :=
  if r.layout = 1 then bytes / recordSize r.code * 32 else 8 * bytes / elemBits r.code

/-- Width and elements of a COPY unit: an element, or a block record (R323). -/
def unitW (r : FmtRow) : Nat := if r.layout = 1 then 8 * recordSize r.code else elemBits r.code
def unitN (r : FmtRow) : Nat := if r.layout = 1 then 32 else 1

/-- Pairs of a chunk delivered in the pair layout: packets of indices and values behind the result header (R337–R339; log 30). -/
def pairPkts (r : FmtRow) (prod sat : Bool) (key first rnd : Nat) (ps : List (Nat × Acc)) : List (Nat × List Byte) × List Nat :=
  let w := elemBits r.code
  let per := max 1 (4088 * 8 / (32 + w))
  let per := if 4088 < 4 * per + cdiv (per * w) 8 then per - 1 else per
  let runs := if ps.isEmpty then [(0, 0)] else runsOf per 0 ps.length
  let cut := runs.map fun u =>
    let xs := (ps.drop u.1).take u.2
    let cf := xs.map fun x => roundAcc r prod sat 0 (if r.rmode = 2 then drawOf r.seed key x.1 else 0) x.2
    let fl := cf.map Prod.snd
    ((first, resultHdr 0 (orFlags fl) rnd true xs.length ++ xs.flatMap (fun x => leBytes 4 x.1) ++ packCodes w (cf.map Prod.fst)), fl)
  (cut.map Prod.fst, cut.flatMap Prod.snd)

/-- A chunk's elements rounded and packed as result packets (R333). -/
def densePkts (r : FmtRow) (prod sat : Bool) (key first rnd : Nat) (xs : List Acc) : List (Nat × List Byte) × List Nat :=
  let cut := (runsOf (perPacket r 4088) 0 xs.length).map fun u =>
    let (b, fl) := deliverVec r prod sat key (first + u.1) ((xs.drop u.1).take u.2)
    ((first + u.1, resultHdr 0 (orFlags fl) rnd false u.2 ++ b), fl)
  (cut.map Prod.fst, cut.flatMap Prod.snd)

/-- A COPY chunk's result packets: the owner's bytes unchanged (R323). -/
def copyPkts (r : FmtRow) (first len rnd : Nat) (us : List Nat) : List (Nat × List Byte) :=
  (runsOf (perPacket r 4088) 0 len).map fun u =>
    let n := cdiv u.2 (unitN r)
    (first + u.1, resultHdr 0 0 rnd false u.2 ++ packCodes (unitW r) ((us.drop (u.1 / unitN r)).take n))

/-! ### Reading contributions (R324, R337) -/

/-- Elements of a packet (R324): none where its payload breaks the rule. -/
def packetElems (r : FmtRow) (off stop len : Nat) : Option Nat :=
  if r.layout = 1 then
    if off % 32 ≠ 0 ∨ len = 0 ∨ len % recordSize r.code ≠ 0 ∨ stop ≤ off then none
    else some (min (32 * len / recordSize r.code) (stop - off))
  else if stop ≤ off then none
  else
    let n := min (8 * len / elemBits r.code) (stop - off)
    if n = 0 ∨ len ≠ cdiv (n * elemBits r.code) 8 then none else some n

/-- Walk the packets of a dense train: (ELEMOFF, payload) in order, without gap or overlap, to the chunk's end. -/
def readDense (r : FmtRow) (stop : Nat) : Nat → List (Nat × List Byte) → Option (List (Nat × Nat × List Byte))
  | pos, [] => if pos = stop then some [] else none
  | pos, (off, b) :: rest =>
    if off ≠ pos then none
    else (packetElems r off stop b.length).bind fun n => (readDense r stop (pos + n) rest).map fun l => (off, n, b) :: l

/-- Walk the packets of a sparse train: pairs strictly ascending within the chunk (R337). -/
def readSparse (code first stop : Nat) : Option Nat → List (Nat × List Byte) → Option (List (Nat × Num))
  | _, [] => some []
  | last, (off, b) :: rest =>
    let w := elemBits code
    let n := bits (leNat (b.take 8)) 63 50
    if off ≠ first ∨ bits (leNat (b.take 8)) 49 0 ≠ 0 ∨ 2048 < n ∨ b.length ≠ 8 + 4 * n + cdiv (n * w) 8 then none
    else
      let ix := (upTo n).map fun i => leNat ((b.drop (8 + 4 * i)).take 4)
      let vs := decodePlain code n (b.drop (8 + 4 * n))
      let asc := rising (last.toList ++ ix) && ix.all fun i => decide (first ≤ i ∧ i < stop)
      if !asc then none
      else (readSparse code first stop (if n = 0 then last else ix.getLast?) rest).map fun l => ix.zip vs ++ l

/-- Carry forms of a train: (ELEMOFF, payload) to positions and accumulators, with MODE and ADDCNT alike in every packet (R310, R312). -/
def readCarry (prod : Bool) (head : Nat) (ps : List (Nat × List Byte)) : Option (List (Nat × List Acc)) :=
  ps.mapM fun p =>
    let h := leNat (p.2.take 8)
    let n := bits h 55 42
    if bits h 41 0 ≠ head ∨ bit h 41 ≠ prod ∨ n = 0 ∨ 340 < n then none
    else (readForms prod n (p.2.drop 8)).bind fun x =>
      if x.2.length < 8 ∧ p.2.length % 8 = 0 then some (p.1, x.1) else none

/-- What a train adds to a chunk. -/
inductive Input where
  | dense (vs : List Num)
  | sparse (vs : List (Nat × Num))
  | units (us : List Nat)
  | forms (cnt : Nat) (vs : List (Nat × List Acc))

/-- Do the runs of an EXACT SUM carry cover the chunk in order? For SPARSE they are runs within it. -/
def formsOk (sparse : Bool) (stop : Nat) : Nat → List (Nat × List Acc) → Bool
  | pos, [] => sparse || pos == stop
  | pos, (off, xs) :: rest =>
    (if sparse then decide (pos ≤ off) else off == pos) && decide (off + xs.length ≤ stop) && formsOk sparse stop (off + xs.length) rest

/-- Read a train's operands (steps 1 and 3 of the contribution check table). -/
def readInput (d : Dev) (q : RedDef) (c : Nat) (carry : Bool) (ps : List (Nat × List Byte)) : Option Input :=
  let first := q.first c
  let stop := q.stop c
  let r := if carry && q.mode == 1 then fmtRow d q.ofmt else fmtRow d q.ifmt
  if carry && q.mode == 0 && q.op != 1 then
    let h := bits (leNat ((ps.head?.map Prod.snd).getD [] |>.take 8)) 41 0
    (readCarry (redProd d q) h ps).bind fun l =>
      if formsOk (q.op == 2) stop first l then some (.forms (h % 2 ^ 41) l) else none
  else if q.op = 2 then (readSparse r.code first stop none ps).map .sparse
  else (readDense r stop first ps).map fun l =>
    if q.op = 1 then .units (l.flatMap fun x => (upTo (cdiv x.2.1 (unitN r))).map fun i => elemAt (leNat x.2.2) (unitW r) i)
    else .dense (l.flatMap fun x => decodeVec r x.2.1 x.2.2)

/-- Element operations of an input (R316). -/
def Input.ops : Input → Nat
  | .dense vs => vs.length
  | .sparse vs => vs.length
  | .units _ => 0
  | .forms _ runs => sumNat (runs.map fun x => x.2.length)

/-- Add an input into a chunk's accumulators (R302, R326, R331, R338). -/
def addInput (prod : Bool) (first n : Nat) (accs : List Acc) (cnt : Nat) : Input → List Acc × Nat
  | .dense vs =>
    let base := if accs.isEmpty then List.replicate n {} else accs
    ((base.zip vs).map fun x => accAdd prod x.1 x.2, addCnt cnt 1)
  | .sparse vs =>
    let base : List Acc := if accs.isEmpty then List.replicate n {} else accs
    (vs.foldl (fun a v => a.modify (v.1 - first) fun x => accAdd prod x v.2) base, addCnt cnt 1)
  | .units _ => (accs, cnt)
  | .forms m runs =>
    let base : List Acc := if accs.isEmpty then List.replicate n {} else accs
    (runs.foldl (fun a r => ((upTo r.2.length).zip r.2).foldl (fun a x => a.modify (r.1 - first + x.1) fun y => y.combine x.2) a) base,
      addCnt cnt m)

/-! ### Deliveries, outcomes, release (R332–R336, R341–R343) -/

/-- A REDUCE_RESULT packet. -/
def resultPkt (q : RedDef) (chase : Nat) (r : RedRound) (c fmt eid : Nat) (p : Nat × List Byte) : Pkt :=
  { opc := opREDUCE_RESULT, tc := q.tc, dlv := true, epoch := r.epoch, chase := chase, party := r.party, dst := eid, len := p.2.length
    w2 := BitVec.ofNat 64 ((q.rid + r.rnd) * 2 ^ 32 + c * 256 + fmt * 16), w3 := BitVec.ofNat 64 p.1, data := p.2 }

/-- Number the packets of a train (R116). -/
def asTrain (ks : List Pkt) : List Pkt := ((upTo ks.length).zip ks).map fun x => { x.2 with pidx := x.1, last := decide (x.1 + 1 = ks.length) }

/-- Send a chunk's result to each of its receivers (R334). -/
def sendChunk (d : Dev) (chase rid n c : Nat) : Dev :=
  match (d.red chase rid).bind fun r => (r.round n).bind fun rr => (rr.chunk c).map fun ch => (r, rr, ch) with
  | none => d
  | some (r, rr, ch) =>
    let rs := (r.d.recvs c).map fun x => { x with st := 1 }
    let d := d.modChunk chase rid n c fun ch => { ch with rcvs := rs }
    foldOver ((upTo rs.length).zip rs) d fun x d =>
      let ks := asTrain (ch.result.map fun p => resultPkt r.d chase rr c (fmtRow d r.d.ofmt).code x.2.eid p)
      (startDelivery d (coreDie ch.core) (.redResult chase r.d.rid n c x.1) ks).count .cRedresult (coreDie ch.core)

/-- Has every receiver of a chunk an outcome? -/
def ChunkRun.settled (c : ChunkRun) : Bool := c.rcvs.all fun r => decide (2 ≤ r.st)

/-- Has every receiver of every chunk of a failed round an outcome? -/
def RedRound.allSettled (r : RedRound) : Bool := r.told && r.chunks.all ChunkRun.settled

/-- A round ends at this switch (R327, R336): DMARK advances, the counting mark returns to 0, CUR moves on where the round was current. -/
def redEnd (d : Dev) (chase rid n : Nat) : Dev :=
  match (d.red chase rid).bind fun r => (r.round n).map fun rr => (r, rr) with
  | none => d
  | some (r, rr) =>
    let st := if rr.failed ≠ 0 then Status.redFail else if rr.pois then .poisoned else if rr.sat then .accSat else .ok
    let die := coordDie r.d
    let d := if rr.missed.isEmpty then d else d.notice 0x0603 die (some chase) (r.d.rid + n) rr.missed.length 0 rr.missed
    let d := if rr.failed = 0 ∧ r.d.role = 0 then d.count .cRedrelease die else d
    let good := rr.failed = 0 ∧ r.d.role = 0 ∧ r.d.topk ≠ 0
    let d := d.modRed chase rid fun r =>
      { r with
        rounds := r.rounds.filter fun x => x.rnd != n
        cur := if r.cur = n then (n + 1) % 16 else r.cur
        lastst := st.code, lastrnd := n, misses := min 1048575 rr.missed.length
        resid := if good then rr.chunks.foldl (fun t c => tput t c.chunk c.resid) r.resid else r.resid }
    let d := match rr.cnt with
      | some die => uncountEpoch d die chase rr.epoch
      | none => d
    if r.dead then d
    else
      let d := markAdd d chase r.d.dmark 1
      (markSignal d chase (r.d.countMark n) 0x03 0 0).1

/-- A round fails before its result is released (R341, R342): nothing of it leaves; every receiver gets a REDFAIL notice. A draining round
fails only by its parent's notice. -/
def redFail (d : Dev) (chase rid n why : Nat) : Dev :=
  match (d.red chase rid).bind fun r => (r.round n).map fun rr => (r, rr) with
  | none => d
  | some (r, rr) =>
    if rr.failed ≠ 0 ∨ (rr.drain ∧ why ≠ 9) then d
    else
      let die := coordDie r.d
      let d := (d.count .cRedfails die).notice 0x0601 die (some chase) (r.d.rid + n) why 0
      let core (c : Nat) : Nat := ((rr.chunk c).map fun x => x.core).getD
        (((chunkEnt d chase rr.epoch rid c).map fun e => e.at_).getD 0)
      let old (c : Nat) : Option Nat := (rr.chunk c).bind fun x => x.up
      let told : List ChunkRun := (upTo r.d.nchunk).map fun c =>
        { chunk := c, core := core c, up := old c, rcvs := (r.d.recvs c).map fun x => { x with st := 1 }
          result := [(r.d.first c, resultHdr Status.redFail.code 0 n false 0)] }
      let d := d.modRed chase rid fun r => { r with failwhy := why }
      let d := d.modRound chase rid n fun x => { x with failed := why, told := true, chunks := told }
      let d := foldOver told d fun ch d => if ch.rcvs.isEmpty then d else sendChunk d chase rid n ch.chunk
      match (d.red chase rid).bind fun r => (r.round n).map fun rr => (r, rr) with
      | some (r, rr) => if rr.allSettled ∧ (r.cur = n ∨ rr.drain) then redEnd d chase rid n else d
      | none => d

/-! ### Sealing (R329–R331, R337–R339, R464, R465) -/

/-- The order of top-k ranking (R339): CLASS 3, then 1 and 2, then exact magnitude. -/
def rankBefore (a b : Nat × Acc) : Bool :=
  let k (x : Acc) : Nat := if x.cls = 3 then 2 else if x.cls ≠ 0 then 1 else 0
  if k a.2 ≠ k b.2 then decide (k b.2 < k a.2)
  else if k a.2 = 0 ∧ a.2.val.natAbs ≠ b.2.val.natAbs then decide (b.2.val.natAbs < a.2.val.natAbs)
  else decide (a.1 ≤ b.1)

def Acc.zero (a : Acc) : Bool := a.cls == 0 && a.val == 0

/-- The K first-ranked positions of a chunk, in index order (R339). -/
def topK (k : Nat) (xs : List (Nat × Acc)) : List (Nat × Acc) :=
  let sel := ((xs.filter fun x => !x.2.zero).mergeSort rankBefore).take k
  sel.mergeSort fun a b => decide (a.1 ≤ b.1)

/-- Carry forms cut into packets of at most 340 forms and `room` bytes: (first position, forms) each (R330). -/
def carryPkts (prod : Bool) (room : Nat) : List (Nat × Acc) → Nat × Nat × List Byte → List (Nat × Nat × List Byte)
  | [], cur => if cur.2.1 = 0 then [] else [cur]
  | (p, a) :: rest, cur =>
    let f := carryForm prod a
    if cur.2.1 = 0 then carryPkts prod room rest (p, 1, f)
    else if cur.1 + cur.2.1 = p ∧ cur.2.1 < 340 ∧ cur.2.2.length + f.length + 8 ≤ room - 7 then
      carryPkts prod room rest (cur.1, cur.2.1 + 1, cur.2.2 ++ f)
    else cur :: carryPkts prod room rest (p, 1, f)

/-- Positions an EXACT SPARSE carry covers: those not zero, or runs merged until at most 64 packets remain: then the whole span. -/
def sparseSpan (prod : Bool) (room : Nat) (xs : List (Nat × Acc)) : List (Nat × Acc) :=
  let nz := xs.filter fun x => !x.2.zero
  if nz.isEmpty then xs.take 1
  else if (carryPkts prod room nz (0, 0, [])).length ≤ 64 then nz
  else
    let lo := ((nz.head?).map Prod.fst).getD 0
    let hi := ((nz.getLast?).map Prod.fst).getD 0
    xs.filter fun x => decide (lo ≤ x.1 ∧ x.1 ≤ hi)

def pad8 (b : List Byte) : List Byte := b ++ zeros ((8 - b.length % 8) % 8)

/-- The CARRY train of a chunk (R330): its packets' (ELEMOFF, payload), FMT and flags. -/
def carryTrain (d : Dev) (q : RedDef) (n : Nat) (ch : ChunkRun) : List (Nat × List Byte) × Nat × List Nat :=
  let prod := redProd d q
  let c := ch.chunk
  let first := q.first c
  let len := q.stop c - first
  let accs := if ch.accs.isEmpty then List.replicate len {} else ch.accs
  let xs := ((upTo len).map (first + ·)).zip accs
  let sl := if q.sealv = 1 then leBytes 8 ch.pmask else []
  let room := 4096 - sl.length
  if q.op = 1 then
    let r := fmtRow d q.ifmt
    ((runsOf (perPacket r room) 0 len).map fun u =>
      (first + u.1, sl ++ packCodes (unitW r) ((ch.units.drop (u.1 / unitN r)).take (cdiv u.2 (unitN r)))), r.code, [])
  else if q.mode = 0 then
    let ys := if q.op = 2 then sparseSpan prod room xs else xs
    let hdr (m : Nat) : List Byte := leBytes 8 (m * 2 ^ 42 + b2n prod * 2 ^ 41 + ch.addcnt)
    ((carryPkts prod room ys (0, 0, [])).map fun x => (x.1, sl ++ pad8 (hdr x.2.1 ++ x.2.2)), 15, [])
  else
    let r := fmtRow d q.ofmt
    let sat := cntSat ch.addcnt
    let key := q.rid + n
    if q.op = 2 then
      let nz := xs.filter fun x => !x.2.zero
      let w := elemBits r.code
      let per := min 2048 (max 1 ((room - 16) * 8 / (32 + w)))
      let runs := if nz.isEmpty then [(0, 0)] else runsOf per 0 nz.length
      let cut := runs.map fun u =>
        let ys := (nz.drop u.1).take u.2
        let cf := ys.map fun x => roundAcc r prod sat 0 (if r.rmode = 2 then drawOf r.seed key x.1 else 0) x.2
        ((first, sl ++ leBytes 8 (ys.length * 2 ^ 50) ++ ys.flatMap (fun x => leBytes 4 x.1) ++ packCodes w (cf.map Prod.fst)), cf.map Prod.snd)
      (cut.map Prod.fst, r.code, cut.flatMap Prod.snd)
    else
      let cut := (runsOf (perPacket r room) 0 len).map fun u =>
        let (b, fl) := deliverVec r prod sat key (first + u.1) ((accs.drop u.1).take u.2)
        ((first + u.1, sl ++ b), fl)
      (cut.map Prod.fst, r.code, cut.flatMap Prod.snd)

/-- Is a port a sealed trunk: encryption active under a derived slot (R453)? -/
def sealedTrunk (d : Dev) (p : Nat) : Bool :=
  let l := d.link p
  l.encact && ((if l.kslot then l.slot1 else l.slot0).map fun k => k.derived).getD false

def popCount (n : Nat) : Nat := ((upTo 64).filter fun i => bit n i).length

/-- A chunk counts as sealed: its accumulators are given up, the coordinator counts it. -/
def chunkSealed (d : Dev) (chase rid n c : Nat) : Dev :=
  match d.red chase rid with
  | none => d
  | some r =>
    let d := d.modChunk chase rid n c fun x => { x with st := .sealed_, accs := [], units := [] }
    markAdd d chase (r.d.countMark n) 1

/-- Seal a complete chunk at the root (R329, R338, R339, R464). -/
def sealRoot (d : Dev) (r : Red) (n : Nat) (ch : ChunkRun) : Dev :=
  let q := r.d
  let c := ch.chunk
  let prod := redProd d q
  let first := q.first c
  let len := q.stop c - first
  let die := coreDie ch.core
  if q.sealv = 1 ∧ popCount ch.pmask < q.kmin then redFail (d.count .cKminfail die) r.chase q.rid n 7
  else if q.topk ≠ 0 ∧ r.badRes.contains c then redFail d r.chase q.rid n 8
  else
    let orow := fmtRow d q.ofmt
    let base : List Acc := if ch.accs.isEmpty then List.replicate len {} else ch.accs
    let old := tget [] r.resid c
    let accs := if q.topk ≠ 0 ∧ !old.isEmpty then (base.zip old).map fun x => x.1.combine x.2 else base
    let cnt := if q.topk ≠ 0 then addCnt ch.addcnt 1 else ch.addcnt
    let sat := cntSat cnt
    let xs := ((upTo len).map (first + ·)).zip accs
    let key := q.rid + n
    let (pk, fl, res) :=
      if q.op = 1 then (copyPkts orow first len n ch.units, [], [])
      else if q.topk ≠ 0 then
        let sel := topK q.topk xs
        let (pk, fl) := pairPkts orow prod sat key first n sel
        (pk, fl, xs.map fun x => if sel.any fun s => s.1 == x.1 then ({} : Acc) else x.2)
      else if q.op = 2 then
        let (pk, fl) := pairPkts orow prod sat key first n (xs.filter fun x => !x.2.zero)
        (pk, fl, [])
      else
        let (pk, fl) := densePkts orow prod sat key first n accs
        (pk, fl, [])
    let d := countFlags d die fl
    let d := d.modRound r.chase q.rid n fun rr => { rr with sat := rr.sat || fl.any fun f => bit f 3 }
    let d := d.modChunk r.chase q.rid n c fun x => { x with result := pk, resid := res }
    chunkSealed d r.chase q.rid n c

/-- Send a complete chunk upward (R329, R330, R465). -/
def sealUp (d : Dev) (r : Red) (rr : RedRound) (ch : ChunkRun) : Dev :=
  let q := r.d
  let n := rr.rnd
  let die := coreDie ch.core
  let (pk, fmt, fl) := carryTrain d q n ch
  let probe : Pkt := { opc := opCARRY, tc := q.tc, chase := r.chase, dst := q.parent, src := d.tfp.eid }
  let secret := match routeEid d die q.parent probe with
    | .port p => sealedTrunk d p
    | _ => false
  if q.sealv = 1 ∧ !secret then redFail (d.count .cKminfail die) r.chase q.rid n 7
  else
    let d := countFlags d die fl
    let d := if q.mode = 1 ∧ cntSat ch.addcnt then d.notice 0x0604 die (some r.chase) (q.rid + n) ch.chunk 0 else d
    let ks := asTrain (pk.map fun p =>
      { opc := opCARRY, tc := q.tc, epoch := rr.epoch, chase := r.chase, party := rr.party, dst := q.parent, len := p.2.length
        w2 := BitVec.ofNat 64 ((q.rid + n) * 2 ^ 32 + ch.chunk * 256 + fmt * 16), w3 := BitVec.ofNat 64 p.1, data := p.2 })
    let d := d.modChunk r.chase q.rid n ch.chunk fun x => { x with st := .sent }
    (startDelivery d die (.carryUp r.chase q.rid n ch.chunk) ks).count .cRedcarryout die

/-- Seal every complete chunk of the current round, unless a round still drains (R327, R329). -/
def sealReady (d : Dev) (chase rid : Nat) : Dev :=
  match d.red chase rid with
  | none => d
  | some r =>
    if r.rounds.any fun x => x.drain then d
    else match r.round r.cur with
      | none => d
      | some rr =>
        foldOver rr.chunks d fun ch d =>
          match (d.red chase rid).bind fun r => (r.round rr.rnd).map fun x => (r, x) with
          | none => d
          | some (r, now) =>
            if now.failed ≠ 0 ∨ ch.st ≠ .open_ ∨ ch.ins.length < r.d.nin ch.chunk ∨ r.d.nin ch.chunk = 0 then d
            else if r.d.role = 0 then sealRoot d r rr.rnd ch
            else sealUp d r now ch

/-- A round's release lets the next one go on: what is complete is sealed, a failed round that became current ends (R327). -/
def redNext (d : Dev) (chase rid : Nat) : Dev :=
  let d := match (d.red chase rid).bind fun r => (r.round r.cur).map fun x => (r, x) with
    | some (r, rr) => if rr.failed ≠ 0 ∧ rr.allSettled then redEnd d chase rid r.cur else d
    | none => d
  sealReady d chase rid

/-- The count of a round has moved (R327, R332, R336): at T2 it drains and the root delivers; at T3 it is released. -/
def redCounted (d : Dev) (mark : Nat) : Dev :=
  match d.press.reds.find? fun r => !r.staged && !r.dead && decide (r.d.cmark ≤ mark ∧ mark < r.d.cmark + 4) with
  | none => d
  | some r =>
    let rid := r.d.rid
    let hit (rr : RedRound) : Bool := r.d.countMark rr.rnd == mark && rr.failed == 0 && (rr.drain || rr.rnd == r.cur)
    match r.rounds.find? hit with
    | none => d
    | some rr =>
      let n := (d.mark mark).count
      if !rr.drain ∧ r.d.t2 ≤ n ∧ !(r.rounds.any fun x => x.drain) then
        let d := d.modRed r.chase rid fun r => { r with cur := (rr.rnd + 1) % 16 }
        let mark2 (x : RedRound) : RedRound := { x with
          drain := true
          chunks := x.chunks.map fun c => { c with result := c.result.map fun p => (p.1, if rr.sat then withStatus p.2 Status.accSat.code else p.2) } }
        let d := d.modRound r.chase rid rr.rnd mark2
        let d := if r.d.role = 0 then
            foldOver rr.chunks d fun ch d => if (r.d.recvs ch.chunk).isEmpty then d else sendChunk d r.chase rid rr.rnd ch.chunk
          else d
        if r.d.t3 ≤ n then redNext (redEnd d r.chase rid rr.rnd) r.chase rid else redNext d r.chase rid
      else if rr.drain ∧ r.d.t3 ≤ n then redNext (redEnd d r.chase rid rr.rnd) r.chase rid
      else d

/-- A receiver's outcome is known (R335): the last one of a chunk is counted, and answers the parent (R334); of a failed round, ends it. -/
def redOutcome (d : Dev) (chase rid n c i : Nat) (missed : Bool) : Dev :=
  match (d.red chase rid).bind fun r => (r.round n).bind fun rr => (rr.chunk c).map fun ch => (r, rr, ch) with
  | none => d
  | some (r, rr, ch) =>
    if ((ch.rcvs[i]?).map fun x => decide (2 ≤ x.st)).getD true then d
    else
      let eid := ((ch.rcvs[i]?).map fun x => x.eid).getD 0
      let d := if missed then
          (d.count .cRedmiss (coreDie ch.core)).modRound chase rid n fun x =>
            { x with missed := if x.missed.contains eid then x.missed else x.missed ++ [eid] }
        else d
      let d := d.modChunk chase rid n c fun x => { x with rcvs := x.rcvs.modify i fun y => { y with st := if missed then 3 else 2 } }
      match (d.red chase rid).bind fun r => (r.round n).bind fun rr => (rr.chunk c).map fun ch => (rr, ch) with
      | none => d
      | some (now, ch) =>
        if !ch.settled then d
        else
          let d := match ch.up with
            | some id => answer d id .ok
            | none => d
          if rr.failed ≠ 0 then (if now.allSettled ∧ (r.cur = n ∨ rr.drain) then redNext (redEnd d chase rid n) chase rid else d)
          else if r.dead then (if now.chunks.all ChunkRun.settled then redNext (redEnd d chase rid n) chase rid else d)
          else markAdd d chase (r.d.countMark n) 1

/-- The parent's answer to a CARRY (R329). A BUSY sends it again as a new request (log 31). -/
def carryAnswered (d : Dev) (chase rid n c : Nat) (st : Status) (ks : List Pkt) : Dev :=
  match (d.red chase rid).bind fun r => (r.round n).bind fun rr => (rr.chunk c).map fun ch => (rr, ch) with
  | none => d
  | some (rr, ch) =>
    if rr.failed ≠ 0 ∨ ch.st ≠ .sent then d
    else match st with
      | .ok => chunkSealed d chase rid n c
      | .busy => startDelivery d (coreDie ch.core) (.carryUp chase rid n c) (ks.map fun k => { k with rtry := false })
      | _ => d

/-! ### Contributions and carries at their core (R325, R326, R331, R463) -/

/-- The payloads of a sealed train, opened (R461–R463); none where one fails. -/
def openSealed (d : Dev) (ks : List Pkt) : Option (List (Nat × List Byte)) :=
  ks.mapM fun k =>
    let h := leNat (k.data.take 16)
    let p := (tfind d.pool.keys (64 * k.chase + k.party)).bind fun x => if bit h 64 then x.psk1 else x.psk0
    let b := { k with colour := 0, rtry := false, cn := false }
    let aad := leNat (b.bytes.take 32 ++ k.data.take 16)
    let body := k.data.drop 16
    if k.data.length < 32 then none
    else p.bind fun key =>
      (Config.gcmOpen key k.src (h % 2 ^ 64) aad (body.take (body.length - 16)) (body.drop (body.length - 16))).map fun m =>
        (wbits k.w3 31 0, m)

/-- Open the round a contribution names, if it is not open yet (R327). -/
def openRound (d : Dev) (chase rid n : Nat) (k : Pkt) : Dev :=
  d.modRed chase rid fun r => match r.round n with
    | some _ => r
    | none => { r with rounds := r.rounds ++ [{ rnd := n, epoch := k.epoch, party := k.party }] }

/-- The round takes over a contribution's count under its epoch, until its release (R58). -/
def takeCount (d : Dev) (chase rid n id : Nat) : Dev :=
  match d.outst id with
  | some o =>
    if !o.counted then d
    else
      let d := d.modOutst id fun o => { o with counted := false }
      match (d.red chase rid).bind fun r => r.round n with
      | some rr => if rr.cnt.isSome then uncountEpoch d o.die chase o.pkt.epoch
                   else d.modRound chase rid n fun x => { x with cnt := some o.die }
      | none => uncountEpoch d o.die chase o.pkt.epoch
  | none => d

/-- The core has a whole train (contribution check table, R325, R331, R463). -/
def redTrain (d : Dev) (id core : Nat) (ks : List Pkt) : Dev :=
  match ks with
  | [] => d
  | k :: _ =>
    let carry := k.opc == opCARRY
    let rid := wbits k.w2 63 32
    let n := rid % 16
    let c := wbits k.w2 31 8
    let fmt := wbits k.w2 7 4
    let die := coreDie core
    match d.red k.chase rid with
    | none => answer d id .unsupported
    | some r =>
      let q := r.d
      let bad (d : Dev) : Dev :=                     -- a refused CARRY fails its round (R331)
        if carry then redFail (openRound d k.chase rid n k) k.chase rid n 3 else d
      let rank := wbits k.w3 63 44
      let local_ := (upTo q.lranks.length).find? fun i => q.lranks[i]? == some (rank, k.src)
      let child := (upTo q.children.length).find? fun i => ((q.children[i]?).map fun h => h.eid) == some k.src
      let owns := q.op != 1 || (if carry then ((child.bind fun i => q.children[i]?).map fun h =>
          decide (h.rlo ≤ q.owner c ∧ q.owner c ≤ h.rhi)).getD false else rank == q.owner c)
      let who := if carry then child.map (q.lranks.length + ·) else local_
      let fmtOk := if carry then (if q.mode = 0 ∧ q.op ≠ 1 then fmt == 15 else fmt == (fmtRow d q.ofmt).code)
                   else fmt == (fmtRow d q.ifmt).code
      let live := r.round n
      let failedR := (live.map fun x => x.failed != 0).getD false
      let nextOk := q.bufs == 2 && !(r.rounds.any fun x => x.drain)
      if !fmtOk then
        let d := d.count .cFmtmism die
        bad (answer (if carry then d.count .cCarrybad die else d) id .unsupported)
      else if who.isNone ∨ !owns then answer d id .denied
      else
        let plain := if q.sealv = 1 ∧ !carry then openSealed d ks else some (ks.map fun k => (wbits k.w3 31 0, k.data))
        match plain with
        | none => answer (d.count .cSealfail die) id .sealed_
        | some ps =>
          let mask := if q.sealv = 1 ∧ carry then leNat ((ps.head?.map Prod.snd).getD [] |>.take 8) else 2 ^ k.party
          let body := if q.sealv = 1 ∧ carry then ps.map fun p => (p.1, p.2.drop 8) else ps
          let sameMask := !(q.sealv == 1 && carry) || ps.all fun p => leNat (p.2.take 8) == mask
          match (if sameMask then readInput d q c carry body else none) with
          | none => bad (answer (if carry then d.count .cCarrybad die else d) id .unsupported)
          | some inp =>
            if r.dead then answer d id .redFail
            else if n ≠ r.cur ∧ n ≠ (r.cur + 1) % 16 then answer (d.count .cRedoverrun die) id .overrun
            else if n ≠ r.cur ∧ !nextOk then answer (d.count .cRedbusy die) id .busy
            else if failedR then answer d id .redFail
            else
              let slot := who.getD 0
              let ch := (live.bind fun x => x.chunk c).getD { chunk := c, core := core }
              if ch.ins.contains slot then
                answer ((d.count .cRedoverrun die).notice 0x0602 die (some k.chase) rid c (if carry then k.src else rank)) id .overrun
              else if (live.map fun x => x.epoch != k.epoch).getD false then redFail (answer d id .redFail) k.chase rid n 4
              else
                let (accs, cnt) := addInput (redProd d q) (q.first c) (q.stop c - q.first c) ch.accs ch.addcnt inp
                let us := match inp with
                  | .units us => us
                  | _ => ch.units
                let new : ChunkRun := { ch with accs := accs, addcnt := cnt, units := us, ins := ch.ins ++ [slot], pmask := ch.pmask ||| mask }
                let d := (openRound d k.chase rid n k).account die k.chase k.party 2 inp.ops
                let d := d.modRound k.chase rid n fun x =>
                  { x with chunks := if (x.chunk c).isSome then mapIf (fun y => y.chunk == c) (fun _ => new) x.chunks else x.chunks ++ [new] }
                let d := takeCount d k.chase rid n id
                let d := match inp with
                  | .forms _ runs => d.countN .cCarryin die (sumNat (runs.map fun x => x.2.length))
                  | _ => d
                let d := if carry then d else d.count .cRedcontrib die
                let d := answer (markAdd d k.chase (q.countMark n) 1) id .ok
                sealReady d k.chase rid

/-- Is the round a contribution names open under its epoch, so that it continues an operation (R58)? -/
def roundOpen (d : Dev) (k : Pkt) : Bool :=
  let rid := wbits k.w2 63 32
  ((d.red k.chase rid).bind fun r => r.round (rid % 16)).any fun x => x.epoch == k.epoch

/-- A REDUCE_CONTRIB or CARRY at its ingress (R325, R330). -/
def contribFx (x : Rx) (d : Dev) : Dev :=
  let rid := wbits x.pkt.w2 63 32
  let c := wbits x.pkt.w2 31 8
  let cont := roundOpen d x.pkt || continues d x.pkt
  withEntry d x cont 1 (rid / 16 * 2 ^ 24 + c) fun d => Ck.dev do
    let (d, id, k) ← ingress d x cont
    if !isLocal d k then .ok (forwardReq d id k (some (x.port, x.vl)))
    else if d.imp.badEnt.contains (k.chase, 2, rid / 16 * 2 ^ 24 + c) then .ok (answer d id .targetLost)
    else if wbits k.w2 3 0 ≠ 0 ∨ wbits k.w3 43 32 ≠ 0 ∨ (k.opc = opCARRY ∧ wbits k.w3 63 44 ≠ 0) then .ok (answer d id .unsupported)
    else match chunkEnt d k.chase k.epoch rid c with
      | none => .ok (answer d id .unsupported)
      | some e =>
        let core := e.at_
        let (d, whole) ← trainStep d { x with pkt := k }
        match whole with
        | none => .ok d
        | some ks =>
          if !coreServes d core (((d.red k.chase rid).map fun r => redPlate r.d).toList) then
            let d := openRound d k.chase rid (rid % 16) k
            .ok (redFail (answer d id .redFail) k.chase rid (rid % 16) 2)
          else
            let d ← filterCheck d id (.core core)
            .ok (redTrain d id core ks)

/-! ### Result deliveries at a child switch (R334, R342) -/

/-- A delivery to this switch is tracked so that its answer goes back to its sender. -/
def takeDelivery (d : Dev) (x : Rx) : Ck (Dev × Option Nat) := do
  let d ← hdrCheck d x
  let d ← memberCheck d x
  let (d, _) ← epochCheck d x true
  let d := admittedPkt d x
  if !isLocal d x.pkt then
    let (r, d) := sendPkt d (portDie x.port) x.pkt { inp := some (x.port, x.vl) }
    match r with
    | .queued _ => .ok (d, none)
    | _ => .ok (discard d x, none)
  else
    match (if continues d x.pkt then outstOf d x.pkt else none) with
    | some o => .ok (freeCharge d x.port x.vl x.pkt.sorts, some o.id)
    | none =>
      let (d, id) := track d x x.pkt false
      .ok (freeCharge d x.port x.vl x.pkt.sorts, some id)

/-- A whole result train from the parent: kept in the release buffer and relayed; a REDFAIL fails the child's round (R334, R342, R343). -/
def resultTrain (d : Dev) (id core : Nat) (ks : List Pkt) : Dev :=
  match ks with
  | [] => d
  | k :: _ =>
    let rid := wbits k.w2 63 32
    let n := rid % 16
    let c := wbits k.w2 31 8
    let st := bits (leNat (k.data.take 8)) 63 56
    match d.red k.chase rid with
    | none => answer d id .unsupported
    | some r =>
      let d := if n = r.cur ∧ st = Status.redFail.code then openRound d k.chase rid n k else d
      match (d.red k.chase rid).bind fun r => r.round n with
      | none => answer d id .ok
      | some rr =>
        let base : ChunkRun := (rr.chunk c).getD { chunk := c, core := core }
        let seat (d : Dev) (ch : ChunkRun) : Dev := d.modRound k.chase rid n fun x =>
          { x with chunks := if (x.chunk c).isSome then mapIf (fun y => y.chunk == c) (fun _ => ch) x.chunks else x.chunks ++ [ch] }
        let done (d : Dev) : Dev :=
          match ((d.red k.chase rid).bind fun r => r.round n).bind fun x => x.chunk c with
          | some ch => if ch.settled then answer d id .ok else seat d { ch with up := some id }
          | none => answer d id .ok
        if st = Status.redFail.code then done (redFail d k.chase rid n 9)
        else if rr.failed ≠ 0 ∨ !base.rcvs.isEmpty then done d
        else
          let d := seat d { base with result := ks.map fun k => (wbits k.w3 31 0, k.data), up := some id }
          let d := d.modRound k.chase rid n fun x =>
            { x with pois := x.pois || st == Status.poisoned.code, sat := x.sat || st == Status.accSat.code }
          if (r.d.recvs c).isEmpty then answer d id .ok else sendChunk d k.chase rid n c

/-- A REDUCE_RESULT arrives (R334): for this switch, or on its way to another receiver. -/
def resultFx (x : Rx) (d : Dev) : Dev :=
  Ck.dev do
    let (d, id) ← takeDelivery d x
    match id with
    | none => .ok d
    | some id =>
      let rid := wbits x.pkt.w2 63 32
      let core := ((chunkEnt d x.pkt.chase x.pkt.epoch rid (wbits x.pkt.w2 31 8)).map fun e => e.at_).getD 0
      let (d, whole) ← trainStep d x
      match whole with
      | none => .ok d
      | some ks =>
        let d ← filterCheck d id (.core core)
        .ok (resultTrain d id core ks)

/-- A round's time is up (R341). -/
def roundTimeout (d : Dev) (chase rid : Nat) : Dev :=
  match (d.red chase rid).bind fun r => (r.round (rid % 16)).map fun x => (r, x) with
  | some (r, rr) =>
    if rr.drain ∨ rr.failed ≠ 0 ∨ r.d.t2 ≤ (d.mark (r.d.countMark rr.rnd)).count then d
    else redNext (redFail d chase rid (rid % 16) 1) chase rid
  | none => d

/-! ### Losses (R344, R345) -/

/-- Cores are lost to some definitions: rounds whose result is not released and that have a chunk there fail; with PXREPL the chunks move to
ALT. -/
def redCoresLost (d : Dev) (on : Nat → Bool) (p : RedDef → Bool) : Dev :=
  let d := foldOver d.press.reds d fun r d =>
    if r.staged ∨ !p r.d then d
    else foldOver r.rounds d fun rr d =>
      let here := (upTo r.d.nchunk).any fun c => ((chunkEnt d r.chase rr.epoch r.d.rid c).map fun e => on e.at_).getD false
        || ((rr.chunk c).map fun x => on x.core).getD false
      if here && !rr.drain then redNext (redFail d r.chase r.d.rid rr.rnd 2) r.chase r.d.rid
      else
        -- deliveries pass to the press die of the mirror stack, which resends what is not acknowledged
        foldOver rr.chunks d fun ch d =>
          if !on ch.core then d
          else
            let core := 32 * pairOf (ch.core / 32) + ch.core % 32
            let d := d.modChunk r.chase r.d.rid rr.rnd ch.chunk fun x => { x with core := core }
            let mine (v : Delivery) : Bool := match v.kind with
              | .redResult a b n c _ => a == r.chase && b == r.d.rid && n == rr.rnd && c == ch.chunk
              | _ => false
            foldOver (d.tfp.dlv.filter mine) d fun v d => sendDelivery d (coreDie core) v.tag (v.pkts.map fun k => { k with rtry := true })
  let serves (rid chase : Nat) : Bool := ((d.red chase rid).map fun r => p r.d).getD true
  let move (chase : Nat) (f : Forme) : Forme :=
    if d.flag .fltComppol chase 29 then
      { f with chunks := mapIf (fun e => on e.core && serves e.rid chase && e.alt.isSome && e.alt != some e.core) (fun e => { e with onAlt := true }) f.chunks }
    else f
  { d with imp := { d.imp with comps := d.imp.comps.map fun e =>
      (e.1, { e.2 with curF := move e.1 e.2.curF, drnF := e.2.drnF.map (move e.1) }) } }

/-- A press die is lost (R344). -/
def redPressLost (d : Dev) (px : Nat) : Dev := redCoresLost d (fun c => c / 32 == px) fun _ => true

/-- A coordinator's port die is lost (R344): live rounds fail with COORD, or finish their deliveries without DMARK; the definition answers
REDFAIL until a commit redefines it. -/
def redCoordLost (d : Dev) (pt : Nat) : Dev :=
  foldOver d.press.reds d fun r d =>
    if r.staged ∨ coordDie r.d ≠ dPT pt then d
    else
      let d := d.modRed r.chase r.d.rid fun r => { r with dead := true }
      foldOver r.rounds d fun rr d => redFail d r.chase r.d.rid rr.rnd 6

/-- An epoch reached its drain bound (R61, R341): its rounds not yet released fail. -/
def redDrain (d : Dev) (chase epoch : Nat) : Dev :=
  foldOver d.press.reds d fun r d =>
    if r.staged ∨ r.chase ≠ chase then d
    else foldOver r.rounds d fun rr d =>
      if rr.epoch = epoch ∧ !rr.drain then redNext (redFail d chase r.d.rid rr.rnd 5) chase r.d.rid else d

/-- The IMP_RED_STAT word of a definition (R343). -/
def redStatWord (r : Red) : Nat :=
  let dr := r.rounds.find? fun x => x.drain
  let cf := ((r.round r.cur).map fun x => x.failed != 0).getD false
  r.cur <<< 60 + b2n (r.round ((r.cur + 1) % 16)).isSome <<< 59 + b2n dr.isSome <<< 58 + ((dr.map fun x => x.rnd).getD 0) <<< 54
    + b2n cf <<< 53 + r.lastst <<< 45 + r.lastrnd <<< 41 + r.failwhy <<< 37 + r.misses <<< 17

end Sys2Proof.Machine
end

