-- ==== Sys2Proof/Machine/Service.lean ====
section
/-! DEFINITION. Press services over pool memory: the accesses of a service job, and embedding tables: gathers, scatter-updates, update steps,
versions, shard loads (R347–R368). -/

namespace Sys2Proof.Machine
open Sys2Proof

/-! ### Accesses of a service job -/

def Dev.svc (d : Dev) (id : Nat) : Option Svc := d.press.svcs.find? fun s => s.id == id

def Dev.modSvc (d : Dev) (id : Nat) (f : Svc → Svc) : Dev :=
  { d with press := { d.press with svcs := mapIf (fun s => s.id == id) f d.press.svcs } }

def Dev.dropSvc (d : Dev) (id : Nat) : Dev :=
  { d with press := { d.press with svcs := d.press.svcs.filter fun s => s.id != id } }

/-- Enter a service job under a number of its own. -/
def newSvc (d : Dev) (s : Svc) : Dev × Nat :=
  let id := d.press.nextS
  ({ d with press := { d.press with nextS := id + 1, svcs := d.press.svcs ++ [{ s with id := id }] } }, id)

/-- The runs of a range that cross no 4 KiB boundary (R243). -/
def runs4k (pva len : Nat) : List (Nat × Nat) := if len = 0 then [] else
  (upTo ((pva + len - 1) / 4096 - pva / 4096 + 1)).map fun i =>
    let lo := max pva ((pva / 4096 + i) * 4096)
    (lo, min (pva + len) ((pva / 4096 + i + 1) * 4096) - lo)

/-- An item of a job ends otherwise than OK. -/
def svcBad (d : Dev) (sid item : Nat) (st : Status) : Dev :=
  d.modSvc sid fun s => { s with bad := tmod .ok s.bad item (graver · st) }

/-- Granules of a folio that a range touches. -/
def granulesOf (pva len : Nat) : List Nat := (upTo ((pva + len - 1) / 64 - pva / 64 + 1)).map (pva % folioB / 64 + ·)

/-- Issue an access of a job over any range, piece by piece; a piece that has no place ends at once (R230, R458). -/
def svcAccess (d : Dev) (sid item pva len : Nat) (op : PjOp) (data : List Byte := []) (poison : Bool := false) : Dev :=
  match d.svc sid with
  | none => d
  | some s =>
    let ps := runs4k pva len
    foldOver ((upTo ps.length).zip ps) d fun x d =>
      let (lo, n) := x.2
      match folioAt d s.chase s.epoch lo with
      | none => svcBad d sid item .targetLost
      | some f =>
        let key := keyOf d s.chase lo f
        if placeLost d f && !f.gcache then svcBad (d.count .cTgtlost s.die) sid item .targetLost
        else if (f.kind = 2 ∨ f.kind = 3 ∨ f.kind = 5) ∧ (d.pdk key).isNone then svcBad d sid item .sealed_
        else
          let d := openGrp d (.service sid (2 ^ 16 * item + x.1)) s.die s.chase s.epoch s.party lo n op ((data.drop (lo - pva)).take n) f key
            (if poison then granulesOf lo n else [])
          d.modSvc sid fun s => { s with left := s.left + 1 }

/-- The bytes a job has read for an item. -/
def Svc.bytes (s : Svc) (item : Nat) : List Byte := (s.got.filter fun e => e.1 / 2 ^ 16 == item).flatMap Prod.snd

/-- An access of a job has ended: its outcome is kept. Answers whether none is left. -/
def svcEnded (d : Dev) (sid key : Nat) (g : Grp) : Dev × Bool :=
  let d := d.dropGrp g.id
  match d.svc sid with
  | none => (d, false)
  | some _ =>
    let d := foldOver g.outs d fun o d => svcBad d sid (key / 2 ^ 16) o.2
    let d := d.modSvc sid fun s => { s with left := s.left - 1, got := if g.write then s.got else tput s.got key g.data }
    (d, ((d.svc sid).map fun s => s.left == 0).getD false)

/-- Choose one of a list by a hash; where there is one, there is no choice. -/
def pickBy (l : List Nat) (h : Nat) : Option Nat :=
  match l with
  | [] => none
  | [x] => some x
  | _ => l[h % l.length]?

/-- Does every byte of a range lie in folios that meet a test? -/
def rangeAll (d : Dev) (chase epoch pva len : Nat) (p : Folio → Bool) : Bool :=
  if len = 0 then true
  else (upTo ((pva + len - 1) / folioB - pva / folioB + 1)).all fun i =>
    ((folioAt d chase epoch ((pva / folioB + i) * folioB)).map p).getD false

/-- Private or coded folios of a party (R355, R377). -/
def ownOut (party : Nat) (f : Folio) : Bool := f.party == party && (f.rclass == 0 || f.rclass == 2)

def pad8n (n : Nat) : Nat := cdiv n 8 * 8

end Sys2Proof.Machine

/-! ### Embedding tables -/

namespace Sys2Proof

def EmbDef.rowBytes (q : EmbDef) (r : Machine.FmtRow) : Nat :=
  if r.layout = 2 then 4 + cdiv (q.dim * Machine.elemBits r.code) 8 else Machine.vecBytes r q.dim

/-- STRIDE of stored rows (R349). -/
def EmbDef.stride (q : EmbDef) (r : Machine.FmtRow) : Nat :=
  let b := q.rowBytes r
  if b ≤ 32 then 32 else if b ≤ 64 then 64 else if b ≤ 128 then 128 else cdiv b 256 * 256

end Sys2Proof

namespace Sys2Proof.Machine
open Sys2Proof

def sameEmb (chase table : Nat) (e : Emb) : Bool := e.chase == chase && e.d.table == table && !e.staged

def Dev.emb (d : Dev) (chase table : Nat) : Option Emb := d.press.embs.find? (sameEmb chase table)

def Dev.modEmb (d : Dev) (chase table : Nat) (f : Emb → Emb) : Dev :=
  { d with press := { d.press with embs := mapIf (sameEmb chase table) f d.press.embs } }

/-- PAD (R350). -/
abbrev padIx : Nat := 0xFFFFFFFF

/-- The shards of a table under an epoch, in row order (R351). -/
def shardsOf (d : Dev) (chase epoch table : Nat) : List ShardEnt :=
  match formeOf (d.comp chase) epoch with
  | some f => f.shards.filter fun e => e.table == table
  | none => []

/-- The shard that serves a row: the last whose FIRST is not above it. -/
def shardAt (l : List ShardEnt) (row : Nat) : ShardEnt := ((l.filter fun e => decide (e.first ≤ row)).getLast?).getD {}

/-- The values of a stored row, in units of 2^-149. -/
def rowVals (q : EmbDef) (r : FmtRow) (b : List Byte) : List Num :=
  if r.layout = 2 then
    (affineVals r.code q.dim (leNat (b.take 2)) (leNat ((b.drop 2).take 2)) (b.drop 4)).map fun v => match v with
      | .fin x => .fin (x / 2 ^ 149)
      | v => v
  else decodeVec r q.dim b

/-- Count a shard's work in its window (R367). -/
def shardWork (d : Dev) (chase table first : Nat) (f : ShardLoad → ShardLoad) : Dev :=
  d.modEmb chase table fun e => { e with load := tmod {} e.load first f }

/-- Distinct elements of a list, in order. -/
def distinct (l : List Nat) : List Nat := (l.mergeSort).foldl (fun a x => if a.head? == some x then a else x :: a) [] |>.reverse

/-- Indices of a request that name a row. -/
def realIx (ix : List Nat) : List Nat := ix.filter fun i => i != padIx

def countOf (l : List Nat) (x : Nat) : Nat := (l.filter (· == x)).length

/-- What a request's list of indices adds to the loads and the counters of its shards: occurrences, rows, hot splits (R358, R359, R367, R381). -/
def listWork (d : Dev) (q : EmbDef) (chase epoch : Nat) (ix : List Nat) (reads : Bool) : Dev :=
  let real := realIx ix
  let rows := distinct real
  let sh := shardsOf d chase epoch q.table
  foldOver rows d fun r d =>
    let e := shardAt sh r
    let n := countOf real r
    let hot := decide (q.hotthr < n)
    let die := coreDie e.core
    let d := if reads then d.count .cRowfetch die else d
    let d := if hot then d.count .cHotsplit die else d
    shardWork d chase q.table e.first fun l => { l with occ := l.occ + n, rd := l.rd + b2n reads, hot := l.hot + b2n hot }

/-- The cores at work for a request: its shard cores, and for a hot index NHOT cores of the core set (R359; equal load: the lowest numbers). -/
def listCores (d : Dev) (q : EmbDef) (chase epoch : Nat) (ix : List Nat) : List Nat :=
  let real := realIx ix
  let sh := shardsOf d chase epoch q.table
  let cs := (distinct real).map fun r => (shardAt sh r).core
  let hot := (distinct real).any fun r => decide (q.hotthr < countOf real r)
  let set := ((formeOf (d.comp chase) epoch).map fun f => f.cores).getD []
  distinct (cs ++ if hot then set.take q.nhot else [])

/-! ### Gathers (R353–R357) -/

/-- The lists of a gather. -/
structure GLists where
  ends : List Nat := []
  idx  : List Nat := []
  wts  : List Num := []

def gNbag (h : Nat) : Nat := bits h 63 32
def gPool (k : Pkt) : Nat := wbits k.w2 39 36
def gNidx (k : Pkt) : Nat := wbits k.w2 31 0

/-- Bytes of a gather's lists. -/
def gListLen (k : Pkt) (h : Nat) : Nat :=
  4 * gNbag h + 4 * gNidx k + (if gPool k = 3 then cdiv (gNidx k * elemBits (bits h 31 28)) 8 else 0)

/-- Is the gather header in order (R353, R354)? -/
def gHdrOk (k : Pkt) (h : Nat) : Bool :=
  let pool := gPool k
  bits h 71 64 == 0 && bits h 27 0 == 0 && (pool ≤ 3 || pool == 15)
    && (if pool = 0 ∨ pool = 15 then gNbag h == 0 else true)
    && (if pool = 3 then decide (bits h 31 28 ≤ 2) else bits h 31 28 == 0)
    && (pool != 15 || wbits k.w3 63 8 == 0)

def gRead (k : Pkt) (h : Nat) (b : List Byte) : GLists :=
  let w (o i : Nat) : Nat := leNat ((b.drop (o + 4 * i)).take 4)
  let nb := gNbag h
  let n := gNidx k
  { ends := (upTo nb).map (w 0), idx := (upTo n).map (w (4 * nb))
    wts := if gPool k = 3 then decodePlain (bits h 31 28) n (b.drop (4 * nb + 4 * n)) else [] }

/-- The lowest position that breaks R353 or R356: a bag end that decreases or a wrong last one, or an index out of range. -/
def gOffend (q : EmbDef) (k : Pkt) (g : GLists) : Option Nat :=
  let n := g.idx.length
  let bad := (upTo g.ends.length).find? fun b =>
    let e := (g.ends[b]?).getD 0
    decide (e < (if b = 0 then 0 else (g.ends[b - 1]?).getD 0)) || decide (n < e) || (b + 1 == g.ends.length && e != n)
  let bad := if bad.isNone ∧ g.ends.isEmpty ∧ gPool k ≠ 0 ∧ gPool k ≠ 15 ∧ n ≠ 0 then some 0 else bad
  let ix := (upTo n).find? fun i => let x := (g.idx[i]?).getD 0; x != padIx && decide (q.nrows ≤ x)
  match bad, ix with
  | some a, some b => some (min a b)
  | a, b => a.or b

/-- Size of one output vector, padded (R355). -/
def gVecB (d : Dev) (q : EmbDef) : Nat := pad8n (vecBytes (fmtRow d q.orow) q.dim)

def gVecs (k : Pkt) (h : Nat) : Nat := if gPool k = 15 then 0 else if gPool k = 0 then gNidx k else gNbag h

/-- The positions each output vector takes. -/
def gPositions (k : Pkt) (g : GLists) : List (List Nat) :=
  if gPool k = 0 then (upTo g.idx.length).map fun i => [i]
  else (upTo g.ends.length).map fun b =>
    let lo := if b = 0 then 0 else (g.ends[b - 1]?).getD 0
    (upTo ((g.ends[b]?).getD 0 - lo)).map (lo + ·)

/-- An output vector: its positions' rows summed exactly, rounded once (R354). `e0` numbers its first element. -/
def gVector (d : Dev) (q : EmbDef) (k : Pkt) (g : GLists) (vals : Nat → List Num) (ps : List Nat) (e0 : Nat) : List Byte × List Nat :=
  let r := fmtRow d q.orow
  let real := ps.filter fun p => (g.idx[p]?).getD padIx != padIx
  let zero : List Acc := List.replicate q.dim {}
  let accs := real.foldl (fun a p =>
    let vs := vals ((g.idx[p]?).getD 0)
    let vs := if gPool k = 3 then vs.map fun v => Num.mul ((g.wts[p]?).getD (.fin 0)) v else vs
    (a.zip vs).map fun x => if gPool k = 3 then x.1.add x.2 else accAdd true x.1 x.2) zero
  let key := (k.src % 2 ^ 16) * 2 ^ 16 + k.tag
  let (b, fl) := deliverVec r true (cntSat (addCnt 0 real.length)) key e0 accs (if gPool k = 2 then max 1 real.length else 1)
  (b ++ zeros (pad8n b.length - b.length), fl)

/-- Finish a gather: its answer, and its job goes. -/
def gatherEnd (d : Dev) (s : Svc) (st : Status) (rval : Nat) (data : List Byte := []) : Dev :=
  let d := (d.dropSvc s.id).count .cGathers (coreDie s.core)
  match s.req with
  | some id => answer d id st rval 0 0 0 data
  | none => d

/-- Cut the vectors of a RESP into packets of whole vectors (R355). -/
def gatherResp (d : Dev) (s : Svc) (st : Status) (rval vb : Nat) (vs : List (List Byte)) : Dev :=
  let per := 4096 / max vb 1
  match s.req.bind d.outst with
  | none => d.dropSvc s.id
  | some o =>
    if o.answered ∨ vs.isEmpty then gatherEnd d s st rval
    else
      let r := mkResp d o.die o.pkt st rval 0 0 0 o.cn false []
      let ks := asTrain ((runsOf per 0 vs.length).map fun u =>
        let b := ((vs.drop u.1).take u.2).flatten
        { r with data := b, len := b.length })
      let d := (d.dropSvc s.id).count .cGathers (coreDie s.core)
      let d := d.dropOutst o.id
      let d := if o.counted then uncountEpoch d o.die o.pkt.chase o.pkt.epoch else d
      sendResps d o.die ks

/-- The rows of a gather are in: the output is computed and returned, or written at OUTPVA (R354–R356). -/
def gatherRows (d : Dev) (s : Svc) (q : EmbDef) : Dev :=
  let k := s.k
  let h := leNat (s.stream.take 16)
  let g := gRead k h (s.stream.drop 16)
  let rr := fmtRow d q.rrow
  let badPos := (upTo g.idx.length).find? fun p =>
    match (g.idx[p]?).bind fun r => s.rows.idxOf? r with
    | some i => thas s.bad i
    | none => false
  let st := match badPos.bind fun p => (g.idx[p]?).bind fun r => s.rows.idxOf? r with
    | some i => tget .ok s.bad i
    | none => .ok
  let rv := (badPos.getD 0) * 2 ^ 16
  let out := wbits k.w3 63 8
  if gPool k = 15 then gatherEnd d s .ok 0
  else if out = 0 ∧ badPos.isSome then gatherEnd d s st rv
  else
    let table : Tbl (List Num) := ((upTo s.rows.length).zip s.rows).map fun x => (x.2, rowVals q rr (s.bytes x.1))
    let pos := gPositions k g
    let cut := ((upTo pos.length).zip pos).map fun x => gVector d q k g (fun r => tget [] table r) x.2 (x.1 * q.dim)
    let fl := cut.flatMap Prod.snd
    let rowsIn (ps : List Nat) : Nat := (distinct (realIx (ps.map fun p => (g.idx[p]?).getD padIx))).length
    let ops := sumNat (pos.map rowsIn) * q.dim * (if rr.layout = 2 then 2 else 1)
    let d := (countFlags d (coreDie s.core) fl).account (coreDie s.core) s.chase s.party 2 ops
    let vb := gVecB d q
    let af := orFlags fl
    let ok := if bit af 3 then Status.accSat else .ok
    if out = 0 then gatherResp d s ok af vb (cut.map Prod.fst)
    else
      let fails := pos.map fun ps => ps.any fun p => match (g.idx[p]?).bind fun r => s.rows.idxOf? r with
        | some i => thas s.bad i
        | none => false
      let d := d.modSvc s.id fun s => { s with stage := 2, bad := [], st := if badPos.isSome then st else ok, pos := rv, fl := af }
      let d := foldOver ((upTo cut.length).zip (cut.zip fails)) d fun x d =>
        svcAccess d s.id x.1 (out + x.1 * vb) vb .store x.2.1.1 x.2.2
      match d.svc s.id with
      | some s => if s.left = 0 then gatherEnd d s s.st (s.pos + s.fl) else d
      | none => d

/-- The lists of a gather are known: checked whole, then its distinct rows are read once (R356–R358). -/
def gatherLists (d : Dev) (s : Svc) (q : EmbDef) : Dev :=
  let k := s.k
  let h := leNat (s.stream.take 16)
  let g := gRead k h (s.stream.drop 16)
  match gOffend q k g with
  | some p => gatherEnd d s .unsupported (p * 2 ^ 16)
  | none =>
    let rows := distinct (realIx g.idx)
    let r := fmtRow d q.rrow
    let d := listWork d q s.chase s.epoch g.idx true
    let d := d.modSvc s.id fun x => { x with stage := 1, rows := rows, got := [], bad := [], cores := listCores d q s.chase s.epoch g.idx }
    let resident (pva : Nat) : Bool := ((folioAt d s.chase s.epoch pva).map fun f => f.kind == 1).getD false
    let d := foldOver ((upTo rows.length).zip rows) d fun x d =>
      let pva := s.base + x.2 * q.stride r
      if gPool k = 15 ∧ resident pva then d else svcAccess d s.id x.1 pva (q.rowBytes r) .load
    match d.svc s.id with
    | some s => if s.left = 0 then gatherRows d s q else d
    | none => d

/-! ### Versions (R366) -/

/-- The version check: the base of the version a request is admitted under, or MAPGONE. -/
def tverCheck (d : Dev) (id px : Nat) (e : Emb) (k : Pkt) (cont : Bool) : Ck Nat :=
  let v := wbits k.w2 47 44
  if v = e.cur then .ok e.curBase
  else if k.opc = opGATHER ∧ e.drnLive ∧ v = e.drn ∧ (!e.drnClosed ∨ cont) then .ok e.drnBase
  else .error (answer (d.count .cTverstrag px) id .mapGone e.cur)

/-- Checks of R352 and R366 that a whole request passes before it reaches a core; what they refuse is counted at its lead core's die. -/
def embChecks (d : Dev) (id : Nat) (e : Emb) (k : Pkt) (cont : Bool) : Ck Nat :=
  let lead := (pickBy (distinct ((shardsOf d k.chase k.epoch e.d.table).map fun s => s.core)) (Config.leadHash k.src k.tag)).getD 0
  let px := coreDie lead
  let gather := k.opc == opGATHER
  let mask := if gather then e.d.readmask else e.d.updmask
  let row := fmtRow d (if gather then e.d.orow else e.d.grow)
  if !bit mask k.party then .error (answer d id .denied)
  else if row.code ≠ wbits k.w2 43 40 then .error (answer (d.count .cFmtmism px) id .unsupported)
  else tverCheck d id px e k cont

/-- A whole gather at its lead core, or its shard cores (R353–R356). -/
def gatherTrain (d : Dev) (id die : Nat) (e : Emb) (base : Nat) (ks : List Pkt) : Dev :=
  match ks with
  | [] => d
  | k :: _ =>
    let q := e.d
    let stream := ks.flatMap fun k => k.data
    let h := leNat (stream.take 16)
    let lp := bits h 127 72
    let n := gListLen k h
    let vb := gVecB d q
    let nv := gVecs k h
    let out := wbits k.w3 63 8
    let sh := shardsOf d k.chase k.epoch q.table
    let core := (pickBy (distinct (sh.map fun e => e.core)) (Config.leadHash k.src k.tag)).getD 0
    if !gHdrOk k h ∨ stream.length < 16 ∨ (if lp = 0 then stream.length ≠ pad8n (16 + n) else stream.length ≠ 16 ∨ 1 < ks.length) then
      answer d id .unsupported
    else if out = 0 ∧ nv ≠ 0 ∧ (4096 < vb ∨ 64 * (4096 / vb) < nv) then answer d id .unsupported
    else if lp ≠ 0 ∧ !rangeAll d k.chase k.epoch lp n (fun f => f.party == k.party) then answer d id .denied
    else if out ≠ 0 ∧ !rangeAll d k.chase k.epoch out (nv * vb) (ownOut k.party) then answer d id .denied
    else if !coreServes d core [0x0010] then answer d id .targetLost
    else
      let s : Svc := { kind := .gather, chase := k.chase, epoch := k.epoch, party := k.party, req := some id, table := q.table, die := die, core := core
                       k := k, stream := stream, base := base, ver := wbits k.w2 47 44 }
      let (d, sid) := newSvc (d.modOutst id fun o => { o with home := .core core }) s
      if lp = 0 then (match d.svc sid with | some s => gatherLists d s q | none => d)
      else
        let d := svcAccess d sid 0 lp n .load
        match d.svc sid with
        | some s => if s.left = 0 then gatherEnd d s (tget .ok s.bad 0) 0 else d
        | none => d

/-! ### Scatter-updates (R360, R361) -/

def sVecB (d : Dev) (q : EmbDef) : Nat := pad8n (vecBytes (fmtRow d q.grow) q.dim)

/-- End a scatter-update's job with an answer. -/
def scatterEnd (d : Dev) (s : Svc) (st : Status) (rval : Nat := 0) : Dev :=
  let d := d.dropSvc s.id
  match s.req with
  | some id => answer d id st rval
  | none => d

/-- End an update step (R362, R364): UDONE advances, UMARK returns to 0. -/
def stepEnd (d : Dev) (e : Emb) (st : Status) : Dev :=
  let q := e.d
  let d := d.modEmb e.chase q.table fun x =>
    { x with ust := .idle, lastst := st.code, usteps := min (2 ^ 32 - 1) (x.usteps + 1), shards := [], sat := false }
  let d := markAdd d e.chase q.udone 1
  (markSignal d e.chase q.umark 0x03 0 0).1

/-- Optimiser passes of a table's step. -/
def stepJobs (d : Dev) (e : Emb) : List Svc := d.press.svcs.filter fun s => s.chase == e.chase && s.table == e.d.table && match s.kind with
  | .update _ => true
  | _ => false

/-- A failed step has come to its end (R364): UPDFAIL. -/
def stepFailEnd (d : Dev) (e : Emb) : Dev :=
  let d := d.notice 0x0606 (dPT (markDie e.d.umark)) (some e.chase) e.d.table e.failwhy 0
  stepEnd d e .redFail

/-- A step fails (R364): its buffers are discarded; it ends at once where UMARK has reached T1. -/
def stepFail (d : Dev) (chase table why : Nat) : Dev :=
  match d.emb chase table with
  | none => d
  | some e =>
    if e.ust = .idle ∨ e.ust = .failed then d
    else
      let d := { d with press := { d.press with svcs := d.press.svcs.filter fun s => !(stepJobs d e).contains s } }
      let die := ((e.shards.head?).map fun x => coreDie x.core).getD (dPX 0)
      let e' : Emb := { e with ust := .failed, failwhy := why, shards := [] }
      let d := (d.modEmb chase table fun _ => e').count .cUpdfails die
      if e.d.uexpect ≤ (d.mark e.d.umark).count then stepFailEnd d e' else d

/-- The first SCATTER_ADD after IDLE opens a step (R362). -/
def stepOpen (d : Dev) (chase epoch table : Nat) : Dev :=
  let sh := (shardsOf d chase epoch table).map fun x => ({ first := x.first, core := x.core } : UpdShard)
  d.modEmb chase table fun e =>
    if e.ust = .idle then { e with ust := .open_, shards := sh, ubase := e.curBase, lr := e.nlr, eps := e.neps, sat := false } else e

/-- Add a gradient into the entry of its row (R361). -/
def addGrad (prod : Bool) (row : Nat) (vs : List Num) (b : List UpdRow) : List UpdRow :=
  if b.any fun r => r.row == row then
    mapIf (fun r => r.row == row) (fun r => { r with accs := (r.accs.zip vs).map fun x => accAdd prod x.1 x.2, cnt := addCnt r.cnt 1 }) b
  else b ++ [{ row := row, accs := vs.map fun v => accAdd prod {} v, cnt := 1 }]

/-- Put a request's gradients into the shards of the open step; `none` where a shard would need more than UROWS entries (R364). -/
def addGrads (prod : Bool) (urows : Nat) (shards : List UpdShard) (gs : List (Nat × List Num)) : Option (List UpdShard) :=
  gs.foldl (fun acc g => acc.bind fun shards =>
    let i := (shards.filter fun x => decide (x.first ≤ g.1)).length - 1
    let out := shards.modify i fun x => { x with buf := addGrad prod g.1 g.2 x.buf }
    if ((out[i]?).map fun x => decide (x.buf.length ≤ urows)).getD true then some out else none) (some shards)

/-- The gradients of a scatter-update are in: added into the step they were admitted to, all of them (R361, R362, R364). -/
def scatterAdd (d : Dev) (s : Svc) (ix : List Nat) (grads : List Byte) : Dev :=
  match d.emb s.chase s.table with
  | none => scatterEnd d s .unsupported
  | some e =>
    let q := e.d
    if e.ust = .failed then scatterEnd d s .redFail
    else if e.ust ≠ .open_ ∨ e.usteps ≠ s.ver then scatterEnd d s .busy
    else
      let r := fmtRow d q.grow
      let vb := sVecB d q
      let gs := ((upTo ix.length).zip ix).filterMap fun x =>
        if x.2 = padIx then none else some (x.2, decodeVec r q.dim ((grads.drop (x.1 * vb)).take vb))
      let d := (listWork d q s.chase s.epoch ix false).account (coreDie s.core) s.chase s.party 2 (gs.length * q.dim)
      match addGrads r.product q.urows e.shards gs with
      | none => scatterEnd (stepFail d s.chase s.table 4) s .noFit
      | some sh => scatterEnd (d.modEmb s.chase s.table fun e => { e with shards := sh }) s .ok

/-- The index list of a scatter-update is known: checked whole; by reference, its gradients are read next. -/
def scatterLists (d : Dev) (s : Svc) (q : EmbDef) (inline : Bool) : Dev :=
  let k := s.k
  let n := wbits k.w2 31 0
  let h := leNat (s.stream.take 16)
  let ix := (upTo n).map fun i => leNat ((s.stream.drop (16 + 4 * i)).take 4)
  match (upTo n).find? fun i => let x := (ix[i]?).getD 0; x != padIx && decide (q.nrows ≤ x) with
  | some p => scatterEnd d s .unsupported (p * 2 ^ 16)
  | none =>
    let d := d.modSvc s.id fun x => { x with cores := listCores d q s.chase s.epoch ix }
    if inline then scatterAdd (stepOpen d s.chase s.epoch s.table) s ix (s.stream.drop (16 + 4 * n))
    else
      let d := d.modSvc s.id fun x => { x with stage := 1, got := [], bad := [] }
      let d := svcAccess d s.id 0 (bits h 63 8) (n * sVecB d q) .load
      match d.svc s.id with
      | some s =>
        if s.left ≠ 0 then d
        else if s.bad.isEmpty then scatterAdd d s ix (s.bytes 0)
        else scatterEnd (stepFail d s.chase s.table 3) s (tget .ok s.bad 0)
      | none => d

/-- A whole scatter-update at its core (R360–R362). -/
def scatterTrain (d : Dev) (id die : Nat) (e : Emb) (core : Nat) (ks : List Pkt) : Dev :=
  match ks with
  | [] => d
  | k :: _ =>
    let q := e.d
    let stream := ks.flatMap fun k => k.data
    let h := leNat (stream.take 16)
    let lp := bits h 127 72
    let gp := bits h 63 8
    let n := wbits k.w2 31 0
    let vb := sVecB d q
    if stream.length < 16 ∨ bits h 71 64 ≠ 0 ∨ bits h 7 0 ≠ 0 ∨ (lp = 0 ∧ gp ≠ 0) ∨ (lp ≠ 0 ∧ gp = 0)
        ∨ (if lp = 0 then stream.length ≠ pad8n (16 + n * (4 + vb)) else stream.length ≠ 16 ∨ 1 < ks.length) then answer d id .unsupported
    else if lp ≠ 0 ∧ !(rangeAll d k.chase k.epoch lp (4 * n) (fun f => f.party == k.party)
        && rangeAll d k.chase k.epoch gp (n * vb) (fun f => f.party == k.party)) then answer d id .denied
    else if e.ust = .closing then answer d id .busy
    else if e.ust = .failed then answer d id .redFail
    else
      let s : Svc := { kind := .scatter, chase := k.chase, epoch := k.epoch, party := k.party, req := some id, table := q.table, die := die, core := core
                       k := k, stream := stream, ver := e.usteps }
      let (d, sid) := newSvc d s
      if lp = 0 then (match d.svc sid with | some s => scatterLists d s q true | none => d)
      else
        let d := svcAccess (stepOpen d k.chase k.epoch q.table) sid 0 lp (4 * n) .load
        match d.svc sid with
        | some s => if s.left = 0 then scatterEnd (stepFail d s.chase s.table 3) s (tget .ok s.bad 0) else d
        | none => d

/-! ### The close of a step (R362, R363) -/

def toNum32 (c : Nat) : Num := decodeElem 0 c none

/-- Round a value (a ÷ dn) × 2^-k to FP32, nearest even. -/
def fp32Of (neg : Bool) (a dn : Nat) (k : Int) : Nat := (roundFp { m := 23, e := 8, bias := 127, top := 0x7F7FFFFF, inf := true } neg a dn k 0 0).1

/-- Integer square root by bits. -/
def isqrtGo : Nat → Nat → Nat → Nat
  | 0, _, r => r
  | n + 1, a, r => let t := r + 2 ^ n; isqrtGo n a (if t * t ≤ a then t else r)

def isqrt (a : Nat) : Nat := isqrtGo (Nat.log2 a / 2 + 1) a 0

/-- The FP32 square root of S × 2^-149, nearest even. -/
def sqrt32 (s : Nat) : Nat :=
  let n := s * 2 ^ 201
  let q := isqrt n
  fp32Of false (2 * q + b2n (decide (q * q ≠ n))) 1 176

/-- RWADAGRAD's s′ and r (R363). Where a value on the way is not finite, or a divisor is 0, the spec states no result: both are free (log 33). -/
def adagrad (free : Nat → Nat) (dim s lr eps : Nat) (gs : List Acc) : Nat × Nat :=
  match toNum32 s, toNum32 lr, toNum32 eps with
  | .fin sv, .fin lv, .fin ev =>
    if gs.any (fun g => g.cls != 0) ∨ sv < 0 then (free 0 % 2 ^ 32, free 1 % 2 ^ 32)
    else
      let sq := gs.foldl (fun a g => a + g.val.natAbs * g.val.natAbs) 0
      let s' := fp32Of false (sv.natAbs * 2 ^ 447 * dim + sq) dim 596
      match toNum32 s' with
      | .fin v =>
        match toNum32 (sqrt32 v.natAbs) with
        | .fin root =>
          let dn := root + ev
          if dn = 0 then (s', free 1 % 2 ^ 32) else (s', fp32Of (decide ((lv < 0) ≠ (dn < 0))) lv.natAbs dn.natAbs 0)
        | _ => (s', free 1 % 2 ^ 32)
      | _ => (s', free 1 % 2 ^ 32)
  | _, _, _ => (free 0 % 2 ^ 32, free 1 % 2 ^ 32)

/-- v − r × G, in units of 2^-447; an element of G with a CLASS keeps it (R363). -/
def lessProd (r : Num) (v : Num) (g : Acc) : Acc :=
  if g.cls ≠ 0 then { cls := g.cls }
  else match r with
    | .fin x => Acc.add { val := -(x * g.val) } v (2 ^ 298)
    | .nan => { cls := 3 }
    | .inf neg => if g.val = 0 then { cls := 3 } else Acc.add { cls := if neg == decide (g.val < 0) then 2 else 1 } v

/-- v + G, in units of 2^-447. -/
def plusGrad (v : Num) (g : Acc) : Acc :=
  if g.cls ≠ 0 then { cls := g.cls } else Acc.add { val := g.val * 2 ^ 149 } v (2 ^ 298)

/-- G in units of 2^-298. -/
def gradOf (prod : Bool) (a : Acc) : Acc := if prod then a else { a with val := a.val * 2 ^ 149 }

/-- A new row's bytes, STRIDE of them (R294, R349, R363). -/
def newRow (r : FmtRow) (free : Nat → Nat) (stride key e0 : Nat) (xs : List Acc) : List Byte × List Nat :=
  let pad (b : List Byte) : List Byte := b ++ zeros (stride - b.length)
  if r.layout = 2 then
    let (s, o, cs) := affineEnc r.code free xs 149
    (pad (leBytes 2 s ++ leBytes 2 o ++ packCodes (elemBits r.code) cs), [])
  else
    let (b, fl) := deliverVec r true false key e0 xs (2 ^ 149)
    (pad b, fl)

/-- A shard's pass is over: its buffer is clear, UMARK counts it. -/
def passEnd (d : Dev) (s : Svc) : Dev :=
  match d.emb s.chase s.table with
  | none => d.dropSvc s.id
  | some e => markAdd (d.dropSvc s.id) s.chase e.d.umark 1

/-- The old rows of a shard's buffer are in: each row not poisoned and not saturated is written (R363). -/
def passRows (d : Dev) (s : Svc) (i : Nat) : Dev :=
  match d.emb s.chase s.table with
  | none => d.dropSvc s.id
  | some e =>
    let q := e.d
    let r := fmtRow d q.rrow
    let prod := (fmtRow d q.grow).product
    let die := coreDie s.core
    let buf := ((e.shards[i]?).map fun x => x.buf).getD []
    let d := d.modSvc s.id fun s => { s with stage := 2, bad := [] }
    let d := foldOver ((upTo buf.length).zip buf) d fun x d =>
      let u := x.2
      if cntSat u.cnt then d.modEmb s.chase s.table fun e => { e with sat := true }
      else if thas s.bad (2 * x.1) || thas s.bad (2 * x.1 + 1) then
        (d.count .cUpdpois die).notice 0x0605 die (some s.chase) q.table u.row 0
      else
        let vs := rowVals q r (s.bytes (2 * x.1))
        let gs := u.accs.map (gradOf prod)
        let base := d.free
        let free (n : Nat) : Nat := Config.freeNat (base + n)
        let d := { d with free := d.free + q.dim + 3 }
        let (s', rr) := adagrad free q.dim (leNat (s.bytes (2 * x.1 + 1))) e.lr e.eps gs
        let xs := if q.opt = 0 then (vs.zip gs).map fun y => plusGrad y.1 y.2
                  else (vs.zip gs).map fun y => lessProd (toNum32 (if q.opt = 1 then e.lr else rr)) y.1 y.2
        let (b, fl) := newRow r (fun n => free (n + 2)) (q.stride r) ((q.table * 2 ^ 16 + e.usteps % 2 ^ 16)) (u.row * q.dim % 2 ^ 32) xs
        let d := (countFlags d die fl).account die s.chase s.party 2 (q.dim * (if q.opt = 2 then 2 else 1))
        let d := svcAccess (d.count .cUpdrows die) s.id (2 * x.1) (e.ubase + u.row * q.stride r) b.length .store b
        let d := shardWork d s.chase s.table (((e.shards[i]?).map fun x => x.first).getD 0) fun l => { l with upd := l.upd + 1 }
        if q.opt = 2 then svcAccess d s.id (2 * x.1 + 1) (q.stpva + 4 * u.row) 4 .store (leBytes 4 s') else d
    match d.svc s.id with
    | some s => if s.left = 0 then passEnd d s else d
    | none => d

/-- Start a shard's pass: read the old rows of its buffer (and s of RWADAGRAD). -/
def passStart (d : Dev) (e : Emb) (i : Nat) (sh : UpdShard) : Dev :=
  let q := e.d
  let r := fmtRow d q.rrow
  let c := d.comp e.chase
  let s : Svc := { kind := .update i, chase := e.chase, epoch := c.cur, party := 0, table := q.table, die := coreDie sh.core, core := sh.core
                   cores := [sh.core], stage := 1 }
  let (d, sid) := newSvc d s
  let d := foldOver ((upTo sh.buf.length).zip sh.buf) d fun x d =>
    let d := svcAccess d sid (2 * x.1) (e.ubase + x.2.row * q.stride r) (q.rowBytes r) .load
    if q.opt = 2 then svcAccess d sid (2 * x.1 + 1) (q.stpva + 4 * x.2.row) 4 .load else d
  match d.svc sid with
  | some s => if s.left = 0 then passRows d s i else d
  | none => d

/-- The count of a table's UMARK has moved (R362, R364). -/
def embCounted (d : Dev) (mark : Nat) : Dev :=
  match d.press.embs.find? fun e => !e.staged && e.d.home == 0 && e.d.umark == mark with
  | none => d
  | some e =>
    let n := (d.mark mark).count
    if n < e.d.uexpect then d
    else match e.ust with
      | .open_ =>
        let e' : Emb := { e with ust := .closing }
        let d := d.modEmb e.chase e.d.table fun _ => e'
        foldOver ((upTo e.shards.length).zip e.shards) d fun x d => passStart d e' x.1 x.2
      | .closing => if e.d.uexpect + e.shards.length ≤ n then stepEnd d e (if e.sat then .accSat else .ok) else d
      | .failed => stepFailEnd d e
      | .idle => d

/-- UTMO has run out (R364). -/
def stepTimeout (d : Dev) (chase table : Nat) : Dev :=
  match d.emb chase table with
  | none => d
  | some e => match e.ust with
    | .open_ =>
      let d := stepFail d chase table 1
      (match d.emb chase table with | some e => if e.ust = .failed then stepFailEnd d e else d | none => d)
    | .failed => stepFailEnd d e
    | _ => d

/-- A counting mark of a service has moved. -/
def serviceCounted (d : Dev) (mark : Nat) : Dev := embCounted (redCounted d mark) mark

/-- The version switch (R365): once no step is open, an accepted new version becomes current and the old one drains. -/
def versionSwitch (d : Dev) (chase table : Nat) : Dev :=
  match d.emb chase table with
  | none => d
  | some e => match e.newBase with
    | none => d
    | some b =>
      if e.ust ≠ .idle then d
      else
        let cfg := d.reg .impChaseCfg chase
        d.modEmb chase table fun e =>
          { e with cur := (e.cur + 1) % 16, curBase := b, newBase := none, drnLive := true, drn := e.cur, drnBase := e.curBase, drnClosed := false
                   drnBound := bits cfg 31 22, drnHold := bits cfg 21 12 }

/-- Gathers in flight under a table's draining version. -/
def drainGathers (d : Dev) (e : Emb) : List Svc := d.press.svcs.filter fun s =>
  s.kind == .gather && s.chase == e.chase && s.table == e.d.table && s.ver == e.drn && e.drnLive

/-- The draining version is closed, polled for release, or reaches its bound (R59, R61, R365, R366). -/
def versionClose (d : Dev) (chase table : Nat) : Dev := d.modEmb chase table fun e => if e.drnLive then { e with drnClosed := true } else e

def versionPoll (d : Dev) (chase table : Nat) : Dev :=
  match d.emb chase table with
  | some e => if e.drnLive ∧ e.drnClosed ∧ (drainGathers d e).isEmpty then d.modEmb chase table fun e => { e with drnLive := false, drnClosed := false } else d
  | none => d

/-- The end of a shard's load window (R367). -/
def shardWindow (d : Dev) (chase table : Nat) : Dev := d.modEmb chase table fun e => { e with latched := e.load, load := [] }

/-- The PX_SHARDLOAD word of a shard (R367). -/
def shardWord (l : ShardLoad) : Nat :=
  min (l.occ / 1000) (2 ^ 24 - 1) <<< 40 + min (l.rd / 1000) (2 ^ 24 - 1) <<< 16 + min l.hot 255 <<< 8 + min (l.upd / 1000) 255

/-- The IMP_EMB_STAT word of a table (R364). -/
def embStatWord (e : Emb) : Nat :=
  e.cur <<< 60 + b2n e.drnLive <<< 59 + e.drn <<< 55 + b2n e.drnClosed <<< 54 + e.ust.code <<< 52 + e.lastst <<< 44 + e.failwhy <<< 40 + e.usteps <<< 8

/-! ### The packets -/

/-- A GATHER or SCATTER_ADD at its ingress (R43, R352, R356, R361). -/
def embReqFx (x : Rx) (d : Dev) : Dev :=
  let table := wbits x.pkt.w2 63 48
  let cont := continues d x.pkt
  withEntry d x cont 2 table fun d => Ck.dev do
    let (d, id, k) ← ingress d x cont
    let die := portDie x.port
    if !isLocal d k then .ok (forwardReq d id k (some (x.port, x.vl)))
    else if d.imp.badEnt.contains (k.chase, 3, table) then .ok (answer d id .targetLost)
    else if 11 < wbits k.w2 43 40 ∨ wbits k.w2 35 32 ≠ 0 ∨ wbits k.w3 7 0 ≠ 0
        ∨ (k.opc = opSCATTER_ADD ∧ (wbits k.w2 39 36 ≠ 0 ∨ k.w3 ≠ 0)) then .ok (answer d id .unsupported)
    else match d.emb k.chase table with
      | none => .ok (answer d id .unsupported)
      | some e =>
        if e.d.home = 1 then .ok (forwardTo d id e.d.homesw k)
        else
          let base ← embChecks d id e k cont
          let (d, whole) ← trainStep d { x with pkt := k }
          match whole with
          | none => .ok d
          | some ks =>
            if k.opc = opGATHER then .ok (gatherTrain d id die e base ks)
            else
              let core := (pickBy (distinct ((shardsOf d k.chase k.epoch table).map fun e => e.core)) (Config.leadHash k.src k.tag)).getD 0
              if !coreServes d core [0x0011] then .ok (answer (stepFail d k.chase table 2) id .redFail)
              else
                let d ← filterCheck d id (.core core)
                .ok (scatterTrain d id die e core ks)

/-- A gather's or a step's job goes on once its accesses have ended. -/
def embNext (d : Dev) (s : Svc) : Dev :=
  match d.emb s.chase s.table with
  | none => scatterEnd d s .unsupported
  | some e => match s.kind with
    | .gather =>
      if s.stage = 0 then
        if s.bad.isEmpty then
          let s' : Svc := { s with stream := s.stream.take 16 ++ s.bytes 0 }
          gatherLists (d.modSvc s.id fun _ => s') s' e.d
        else gatherEnd d s (tget .ok s.bad 0) 0
      else if s.stage = 1 then gatherRows d s e.d
      else
        let w := match s.bad with
          | (_, st) :: _ => if s.st = .ok ∨ s.st = .accSat then st else s.st
          | [] => s.st
        gatherEnd d s w (s.pos + s.fl)
    | .scatter =>
      if !s.bad.isEmpty then scatterEnd (stepFail d s.chase s.table 3) s (((s.bad.head?).map Prod.snd).getD .targetLost)
      else if s.stage = 0 then
        let s' : Svc := { s with stream := s.stream.take 16 ++ s.bytes 0 }
        scatterLists (d.modSvc s.id fun _ => s') s' e.d false
      else
        let n := wbits s.k.w2 31 0
        scatterAdd d s ((upTo n).map fun i => leNat ((s.stream.drop (16 + 4 * i)).take 4)) (s.bytes 0)
    | .update i => if s.stage = 1 then passRows d s i else passEnd d s
    | .scan => d

/-- A press die is lost: steps with a shard core or hot core there fail (R364); gathers at work there end (R515, log 34). -/
def embCoresLost (d : Dev) (p : Nat → Bool) (updates gathers : Bool) : Dev :=
  let on (cs : List Nat) : Bool := cs.any p
  let d := foldOver d.press.embs d fun e d =>
    let hot := d.press.svcs.any fun s => s.kind == .scatter && s.chase == e.chase && s.table == e.d.table && on s.cores
    if updates && !e.staged && (on (e.shards.map fun x => x.core) || hot) then stepFail d e.chase e.d.table 2 else d
  foldOver (d.press.svcs.filter fun s => p s.core || on s.cores) d fun s d => match s.kind with
    | .gather => if gathers then gatherEnd d s .retry 0 else d
    | .scatter => if updates then scatterEnd d s .redFail else d
    | _ => d

def embPressLost (d : Dev) (px : Nat) : Dev := embCoresLost d (fun c => c / 32 == px) true true

/-- A port die is lost: steps it coordinates fail (R364). -/
def embCoordLost (d : Dev) (pt : Nat) : Dev :=
  foldOver d.press.embs d fun e d => if !e.staged ∧ e.d.home = 0 ∧ markDie e.d.umark = pt then stepFail d e.chase e.d.table 5 else d

end Sys2Proof.Machine
end

