-- ==== Sys2Proof/Machine/Mixture.lean ====
section
/-! DEFINITION. Mixture-of-experts dispatch and combine (R369–R376). -/

namespace Sys2Proof.Machine
open Sys2Proof

def sameMoe (chase moe : Nat) (m : Moe) : Bool := m.chase == chase && m.d.moe == moe && !m.staged

def Dev.moe (d : Dev) (chase moe : Nat) : Option Moe := d.press.moes.find? (sameMoe chase moe)

def Dev.modMoe (d : Dev) (chase moe : Nat) (f : Moe → Moe) : Dev :=
  { d with press := { d.press with moes := mapIf (sameMoe chase moe) f d.press.moes } }

def Dev.modReq (d : Dev) (chase moe id : Nat) (f : MoeReq → MoeReq) : Dev :=
  d.modMoe chase moe fun m => { m with reqs := mapIf (fun r => r.id == id) f m.reqs }

def MoeReq.modTok (r : MoeReq) (i : Nat) (f : Token → Token) : MoeReq := { r with toks := r.toks.modify i f }

def Token.modChoice (t : Token) (j : Nat) (f : Choice → Choice) : Token := { t with choices := t.choices.modify j f }

/-- The expert-map entry of an expert under an epoch (R370). -/
def expertEnt (d : Dev) (chase epoch moe x : Nat) : Option ExpertEnt :=
  (formeOf (d.comp chase) epoch).bind fun f => f.experts.find? fun e => e.moe == moe && e.expert == x

/-- Padded bytes of a token (R371). -/
def tokB (d : Dev) (q : MoeDef) : Nat := pad8n (vecBytes (fmtRow d q.trow) q.tokelem)

def slotOf (core slot : Nat) : Nat := core * 2 ^ 24 + slot

/-! ### Capacity (R372, overflow table) -/

def cntExp (m : Moe) (step x : Nat) : Nat := tget 0 m.counts (2 ^ 12 * step + x)

def isFull (m : Moe) (step x : Nat) : Bool := m.full.contains (step, x)

/-- Where a choice goes: the expert that admits it and whether that is its fallback, or none where it is dropped. `over_` says that its own
expert has turned it away (R373). An expert whose core is lost admits nothing (R376). -/
def admitChoice (d : Dev) (m : Moe) (epoch step x : Nat) (over_ : Bool) : Option (Nat × Bool) :=
  let ent (x : Nat) : Option ExpertEnt := (expertEnt d m.chase epoch m.d.moe x).filter fun e => coreServes d e.core [0x0019]
  match ent x with
  | none => none
  | some e =>
    let room (e : ExpertEnt) : Bool := !isFull m step e.expert && decide (cntExp m step e.expert < e.cap)
    if !over_ && room e then some (x, false)
    else match e.ovf with
      | 1 => if e.fbexp = 0xFFF then none else (ent e.fbexp).bind fun f => if room f then some (e.fbexp, true) else none
      | 2 => if !over_ && !isFull m step x && decide (cntExp m step x < 2 * e.cap) then some (x, false) else none
      | _ => none

/-! ### Deliveries to experts (R373) -/

/-- The record of a choice in a delivery. -/
def choiceRec (r : MoeReq) (i j : Nat) : List Byte :=
  match r.toks[i]? with
  | some t => leBytes 8 (slotOf r.core t.slot * 2 ^ 32 + j * 2 ^ 28) ++ t.data
  | none => []

/-- Send a batch as one DISPATCH delivery. -/
def sendBatch (d : Dev) (chase moe : Nat) (b : MoeBatch) : Dev :=
  match d.moe chase moe with
  | none => d
  | some m =>
    let d := d.modMoe chase moe fun m => { m with batches := m.batches.filter fun x => !(x.step == b.step && x.expert == b.expert && x.core == b.core) }
    let body := b.recs.flatMap fun x => ((m.reqs.find? fun r => r.id == x.1).map fun r => choiceRec r x.2.1 x.2.2).getD []
    match (b.recs.head?).bind fun x => m.reqs.find? fun r => r.id == x.1 with
    | none => d
    | some r =>
      match expertEnt d chase r.k.epoch moe b.expert with
      | none => d
      | some e =>
        let k : Pkt :=
          { opc := opDISPATCH, tc := r.k.tc, dlv := true, epoch := r.k.epoch, chase := chase, party := r.k.party, dst := e.eid
            w2 := BitVec.ofNat 64 (moe * 2 ^ 48 + (fmtRow d m.d.trow).code * 2 ^ 36 + b.recs.length)
            w3 := BitVec.ofNat 64 (b.step * 2 ^ 32 + b.expert * 2 ^ 16 + tokB d m.d) }
        startDelivery d (coreDie e.core) (.dispatch chase moe b.step b.expert) (cutTrain k body)

/-- Put an admitted choice into its expert core's batch; a batch of 64 packets' worth goes at once. -/
def batchChoice (d : Dev) (chase moe step x core : Nat) (rec_ : Nat × Nat × Nat) : Dev :=
  match d.moe chase moe with
  | none => d
  | some m =>
    let hit (b : MoeBatch) : Bool := b.step == step && b.expert == x && b.core == core
    let b := (m.batches.find? hit).getD { step := step, expert := x, core := core }
    let b := { b with recs := b.recs ++ [rec_] }
    let d := d.modMoe chase moe fun m => { m with batches := (m.batches.filter fun y => !hit y) ++ [b] }
    if 64 * 4096 < (b.recs.length + 1) * (8 + tokB d m.d) then sendBatch d chase moe b else d

/-! ### Completion (R375) -/

def Choice.open_ (c : Choice) : Bool := c.st == .waiting

def Token.complete (t : Token) : Bool := t.choices.all fun c => !c.open_

/-- A token's record in the COMBINE delivery, and its flags. -/
def combineRec (d : Dev) (q : MoeDef) (r : MoeReq) (i : Nat) (t : Token) : List Byte × List Nat :=
  let row := fmtRow d q.trow
  let used := (upTo t.choices.length).filter fun j => ((t.choices[j]?).map fun c => c.st == .used).getD false
  let base : List Acc := if t.accs.isEmpty then List.replicate q.tokelem {} else t.accs
  let g := t.gates
  let renorm := q.renorm == 1 && !used.isEmpty
  let xs : List Acc :=
    if !renorm then base
    else if g.cls ≠ 0 then base.map fun a => { a with cls := 3 }
    else if g.val = 0 then base.map fun _ => { cls := 3 }
    else base.map fun a =>
      let neg := decide (g.val < 0)
      { cls := if a.cls = 1 ∧ neg then 2 else if a.cls = 2 ∧ neg then 1 else a.cls, val := (if neg then -a.val else a.val) * 2 ^ 149 }
  let dn := if renorm ∧ g.cls = 0 ∧ g.val ≠ 0 then g.val.natAbs else 1
  let key := (q.moe * 2 ^ 16) ||| (r.step % 2 ^ 16)
  let (b, fl) := deliverVec row true (cntSat t.cnt) key (i * q.tokelem) xs dn
  let st := if used.length = t.choices.length then 0 else if used.isEmpty then 2 else 1
  let h := t.tokid * 2 ^ 32 + (used.foldl (fun a j => a + 2 ^ j) 0) * 2 ^ 16 + orFlags fl * 2 ^ 12 + st * 2 ^ 8
  (leBytes 8 h ++ b ++ zeros (pad8n b.length - b.length), fl)

/-- Every token of a DISPATCH is complete: one COMBINE delivery to its origin. -/
def tryCombine (d : Dev) (chase moe id : Nat) : Dev :=
  match (d.moe chase moe).bind fun m => (m.reqs.find? fun r => r.id == id).map fun r => (m, r) with
  | none => d
  | some (m, r) =>
    if r.sent ∨ !(r.toks.all Token.complete) then d
    else
      let cut := ((upTo r.toks.length).zip r.toks).map fun x => combineRec d m.d r x.1 x.2
      let d := countFlags d (coreDie r.core) (cut.flatMap Prod.snd)
      let k : Pkt :=
        { opc := opCOMBINE, tc := r.k.tc, dlv := true, epoch := r.k.epoch, chase := chase, party := r.k.party, dst := r.k.src
          w2 := BitVec.ofNat 64 (moe * 2 ^ 48 + wbits r.k.w2 47 40 * 2 ^ 40 + (fmtRow d m.d.trow).code * 2 ^ 36 + r.toks.length)
          w3 := BitVec.ofNat 64 (r.step * 2 ^ 32 + 0xFFFF * 2 ^ 16 + tokB d m.d) }
      let d := d.modReq chase moe id fun r => { r with sent := true }
      startDelivery d (coreDie r.core) (.combine chase moe r.step id) (cutTrain k (cut.flatMap Prod.fst))

/-- A draining step whose last token has combined is released (R372). -/
def releaseStep (d : Dev) (chase moe : Nat) : Dev :=
  d.modMoe chase moe fun m => match m.drain with
    | some s => if m.reqs.any fun r => r.step == s then m
                else { m with drain := none, counts := m.counts.filter fun e => e.1 / 2 ^ 12 != s, full := m.full.filter fun e => e.1 != s }
    | none => m

/-- A DISPATCH no longer counts under its epoch. -/
def uncountReq (d : Dev) (chase : Nat) (r : MoeReq) : Dev :=
  match r.cnt with
  | some die => uncountEpoch d die chase r.k.epoch
  | none => d

/-- The origin has answered a COMBINE delivery, or it was missed (R375): the slots are free. -/
def combineOutcome (d : Dev) (chase moe id : Nat) (missed : Bool) : Dev :=
  match (d.moe chase moe).bind fun m => m.reqs.find? fun r => r.id == id with
  | none => d
  | some r =>
    let d := if missed then d.count .cMoemiss (coreDie r.core) else d
    let d := uncountReq d chase r
    releaseStep (d.modMoe chase moe fun m => { m with reqs := m.reqs.filter fun x => x.id != id }) chase moe

/-- A choice ends without its output. -/
def endChoice (d : Dev) (chase moe id i j : Nat) (st : ChoiceSt) : Dev :=
  match (d.moe chase moe).bind fun m => m.reqs.find? fun r => r.id == id with
  | none => d
  | some r =>
    let open_ := (((r.toks[i]?).bind fun t => t.choices[j]?).map Choice.open_).getD false
    if !open_ then d
    else
      let d := d.count (if st = .dropped then .cMoedrop else .cMoeomit) (coreDie r.core)
      let d := d.modReq chase moe id fun r => r.modTok i fun t => t.modChoice j fun c => { c with st := st }
      tryCombine d chase moe id

/-- Admit a choice, or drop it (R372). -/
def placeChoice (d : Dev) (chase moe id i j : Nat) (over_ : Bool) : Dev :=
  match (d.moe chase moe).bind fun m => (m.reqs.find? fun r => r.id == id).map fun r => (m, r) with
  | none => d
  | some (m, r) =>
    match (r.toks[i]?).bind fun t => t.choices[j]? with
    | none => d
    | some c =>
      match (if over_ && c.fb then none else admitChoice d m r.k.epoch r.step c.expert over_) with
      | none => endChoice d chase moe id i j .dropped
      | some (x, fb) =>
        let d := d.modMoe chase moe fun m => { m with counts := tmod 0 m.counts (2 ^ 12 * r.step + x) (· + 1) }
        let d := d.modReq chase moe id fun r => r.modTok i fun t => t.modChoice j fun c => { c with at_ := x, fb := fb }
        batchChoice d chase moe r.step x r.core (id, i, j)

/-! ### Outcomes of deliveries (R373) -/

/-- The choices a delivery carried: (request, token, choice). -/
def deliveryChoices (d : Dev) (chase moe : Nat) (ks : List Pkt) : List (Nat × Nat × Nat) :=
  match (d.moe chase moe), ks.head? with
  | some m, some k =>
    let body := ks.flatMap fun k => k.data
    let z := 8 + wbits k.w3 15 0
    let step := wbits k.w3 63 32
    (upTo (wbits k.w2 31 0)).filterMap fun n =>
      let h := leNat ((body.drop (n * z)).take 8)
      let core := bits h 63 56
      let slot := bits h 55 32
      (m.reqs.find? fun r => r.core == core && r.step == step && r.toks.any fun t => t.slot == slot).bind fun r =>
        (r.toks.findIdx? fun t => t.slot == slot).map fun i => (r.id, i, bits h 31 28)
  | _, _ => []

/-- A DISPATCH delivery is answered or missed: BUSY marks the expert full and its choices overflow; a miss omits them. -/
def dispatchOutcome (d : Dev) (chase moe step x : Nat) (ks : List Pkt) (busy missed : Bool) : Dev :=
  let cs := deliveryChoices d chase moe ks
  if busy then
    let d := d.modMoe chase moe fun m => { m with full := if m.full.contains (step, x) then m.full else m.full ++ [(step, x)] }
    foldOver cs d fun c d => placeChoice d chase moe c.1 c.2.1 c.2.2 true
  else if missed then foldOver cs d fun c d => endChoice d chase moe c.1 c.2.1 c.2.2 .omitted
  else d

/-! ### DISPATCH (R371, R372) -/

/-- The tokens of a DISPATCH stream. -/
def readTokens (ntok topk tb : Nat) (s : List Byte) : List Token :=
  let z := 8 + 8 * topk + tb
  (upTo ntok).map fun n =>
    let b := s.drop (n * z)
    let cs := (upTo topk).map fun j =>
      let c := leNat ((b.drop (8 + 8 * j)).take 8)
      ({ expert := bits c 63 48, at_ := bits c 63 48, gate := bits c 31 0 } : Choice)
    { tokid := bits (leNat (b.take 8)) 63 32, data := (b.drop (8 + 8 * topk)).take tb, choices := cs }

/-- Reserved fields of the records are 0 (R11, R371). -/
def tokensClean (ntok topk tb : Nat) (s : List Byte) : Bool :=
  let z := 8 + 8 * topk + tb
  (upTo ntok).all fun n =>
    let b := s.drop (n * z)
    bits (leNat (b.take 8)) 31 0 == 0 && (upTo topk).all fun j => bits (leNat ((b.drop (8 + 8 * j)).take 8)) 47 32 == 0

/-- What a STEP is to a mixture: 0 current or next, 1 it advances the steps, 2 a straggler, 3 too many would be live. -/
def stepKind (m : Moe) (step : Nat) : Nat :=
  match m.cur with
  | none => 0
  | some c =>
    if step = c ∨ step = (c + 1) % 2 ^ 32 then 0
    else if step = (c + 2) % 2 ^ 32 then (if m.drain.isSome then 3 else 1)
    else 2

def advance (m : Moe) (step : Nat) : Moe :=
  match m.cur with
  | none => { m with cur := some step }
  | some c => if step = (c + 2) % 2 ^ 32 then { m with cur := some ((c + 1) % 2 ^ 32), drain := some c } else m

/-- Free combine slots of a dispatch core. -/
def freeSlots (m : Moe) (core : Nat) : Nat :=
  m.d.cmbslots - sumNat ((m.reqs.filter fun r => r.core == core).map fun r => r.toks.length)

/-- The lowest free slot numbers of a dispatch core. -/
def takeSlots (m : Moe) (core n : Nat) : List Nat :=
  let used := (m.reqs.filter fun r => r.core == core).flatMap fun r => r.toks.map fun t => t.slot
  ((upTo (used.length + n)).filter fun s => !used.contains s).take n

/-- A whole DISPATCH at its dispatch core. -/
def dispatchTrain (d : Dev) (id : Nat) (core : Nat) (ks : List Pkt) : Dev :=
  match ks with
  | [] => d
  | k :: _ =>
    let moe := wbits k.w2 63 48
    let topk := wbits k.w2 47 40
    let ntok := wbits k.w2 31 0
    let step := wbits k.w3 63 32
    let tb := wbits k.w3 15 0
    let s := ks.flatMap fun k => k.data
    match d.moe k.chase moe with
    | none => answer d id .unsupported
    | some m =>
      let q := m.d
      let toks := readTokens ntok topk tb s
      let names (t : Token) : List Nat := t.choices.map fun c => c.expert
      if topk = 0 ∨ q.topkmax < topk ∨ tb ≠ tokB d q ∨ s.length ≠ ntok * (8 + 8 * topk + tb) ∨ ntok = 0 ∨ !tokensClean ntok topk tb s
          ∨ toks.any (fun t => (names t).any (fun x => decide (q.experts.length ≤ x)) || (names t).eraseDups.length != topk)
          ∨ 64 * 4096 < ntok * (8 + tb) then answer d id .unsupported
      else match stepKind m step with
        | 2 => answer d id .overrun
        | 3 => answer d id .busy
        | _ =>
          if freeSlots m core < ntok then answer d id .busy
          else
            let toks := ((takeSlots m core ntok).zip toks).map fun x => { x.2 with slot := x.1 }
            let r : MoeReq :=
              { id := id, core := core, step := step, k := k, toks := toks
                cnt := ((d.outst id).filter fun o => o.counted).map fun o => o.die }
            let d := d.modOutst id fun o => { o with counted := false }
            let d := d.modMoe k.chase moe fun m => { advance m step with reqs := m.reqs ++ [r] }
            let d := releaseStep d k.chase moe
            let cs := (upTo ntok).flatMap fun i => (upTo topk).map fun j => (i, j)
            let d := foldOver cs d fun c d => placeChoice d k.chase moe id c.1 c.2 false
            let dropped := match (d.moe k.chase moe).bind fun m => m.reqs.find? fun r => r.id == id with
              | some r => sumNat (r.toks.map fun t => (t.choices.filter fun c => c.st == .dropped).length)
              | none => 0
            answer d id .ok (dropped * 2 ^ 16)

/-! ### COMBINE from an expert (R374) -/

/-- Add one output to its token; `false` where its choice is no longer awaited. -/
def addOutput (d : Dev) (chase : Nat) (m : Moe) (step core slot j : Nat) (body : List Byte) : Dev × Bool :=
  match m.reqs.find? fun r => r.core == core && r.step == step && r.toks.any fun t => t.slot == slot with
  | none => (d, false)
  | some r =>
    match r.toks.findIdx? fun t => t.slot == slot with
    | none => (d, false)
    | some i =>
      match (r.toks[i]?).bind fun t => (t.choices[j]?).map fun c => (t, c) with
      | none => (d, false)
      | some (t, c) =>
        if !c.open_ then (d, false)
        else
          let g := toNum32 c.gate
          let vs := decodeVec (fmtRow d m.d.trow) m.d.tokelem body
          let base : List Acc := if t.accs.isEmpty then List.replicate m.d.tokelem {} else t.accs
          let t' : Token := { t.modChoice j (fun c => { c with st := .used }) with
            accs := (base.zip vs).map fun x => x.1.add (Num.mul g x.2), cnt := addCnt t.cnt 1, gates := accAdd false t.gates g }
          let d := d.account (coreDie core) chase r.k.party 2 (vs.length + 1)
          (d.modReq chase m.d.moe r.id fun r => r.modTok i fun _ => t', true)

/-- A whole COMBINE train at its dispatch core. -/
def combineTrain (d : Dev) (id core : Nat) (ks : List Pkt) : Dev :=
  match ks with
  | [] => d
  | k :: _ =>
    let moe := wbits k.w2 63 48
    let n := wbits k.w2 31 0
    let step := wbits k.w3 63 32
    let tb := wbits k.w3 15 0
    let s := ks.flatMap fun k => k.data
    let recs := (upTo n).map fun i => let b := (s.drop (i * (8 + tb))).take (8 + tb); (leNat (b.take 8), b.drop 8)
    match d.moe k.chase moe with
    | none => answer d id .unsupported
    | some m =>
      if tb ≠ tokB d m.d ∨ s.length ≠ n * (8 + tb) ∨ n = 0 ∨ wbits k.w2 47 40 ≠ 0 ∨ m.d.experts.length ≤ wbits k.w3 31 16
          ∨ recs.any (fun r => bits r.1 63 56 != core || bits r.1 27 0 != 0) then answer d id .unsupported
      else
        let (d, late) := recs.foldl (fun a r =>
          match a.1.moe k.chase moe with
          | none => a
          | some m =>
            let (d, ok) := addOutput a.1 k.chase m step core (bits r.1 55 32) (bits r.1 31 28) r.2
            if ok then (d, a.2) else (d.count .cMoelate (coreDie core), a.2 + 1)) (d, 0)
        let d := if late = 0 then answer d id .ok else answer d id .late (late * 2 ^ 16)
        foldOver (((d.moe k.chase moe).map fun m => (m.reqs.filter fun r => r.core == core && r.step == step).map fun r => r.id).getD []) d
          fun r d => tryCombine d k.chase moe r

/-- Is a COMBINE the continuation of a DISPATCH admitted under its epoch (R58)? -/
def combines (d : Dev) (k : Pkt) : Bool :=
  ((d.moe k.chase (wbits k.w2 63 48)).map fun m => m.reqs.any fun r => r.step == wbits k.w3 63 32 && r.k.epoch == k.epoch).getD false

/-- A DISPATCH or COMBINE of an endpoint at its ingress (R371, R374). -/
def moeReqFx (x : Rx) (d : Dev) : Dev :=
  let moe := wbits x.pkt.w2 63 48
  let cont := continues d x.pkt || (x.pkt.opc == opCOMBINE && combines d x.pkt)
  withEntry d x cont 2 (2 ^ 16 + moe) fun d => Ck.dev do
    let (d, id, k) ← ingress d x cont
    if !isLocal d k then .ok (forwardReq d id k (some (x.port, x.vl)))
    else if d.imp.badEnt.contains (k.chase, 4, moe) then .ok (answer d id .targetLost)
    else if 11 < wbits k.w2 39 36 ∨ wbits k.w2 35 32 ≠ 0 ∨ (k.opc = opDISPATCH ∧ wbits k.w3 31 16 ≠ 0) then .ok (answer d id .unsupported)
    else match d.moe k.chase moe with
      | none => .ok (answer d id .unsupported)
      | some m =>
        if (fmtRow d m.d.trow).code ≠ wbits k.w2 39 36 then
          let core := (pickBy m.disp (Config.leadHash k.src k.tag)).getD 0
          .ok (answer (d.count .cFmtmism (coreDie core)) id .unsupported)
        else
          let (d, whole) ← trainStep d { x with pkt := k }
          match whole with
          | none => .ok d
          | some ks =>
            let core := if k.opc = opDISPATCH then (pickBy m.disp (Config.leadHash k.src k.tag)).getD 0
                        else bits (leNat ((ks.flatMap fun k => k.data).take 8)) 63 56
            if !m.disp.contains core then .ok (answer d id .unsupported)
            else if !coreServes d core [0x0018] then .ok (answer d id .targetLost)
            else
              let d ← filterCheck d id (.core core)
              .ok (if k.opc = opDISPATCH then dispatchTrain d id core ks else combineTrain d id core ks)

/-- A DISPATCH or COMBINE delivery on its way to an endpoint; one for this switch is a stray and is answered UNSUPPORTED (R142). -/
def moeDlvFx (x : Rx) (d : Dev) : Dev :=
  Ck.dev do
    let (d, id) ← takeDelivery d x
    match id with
    | none => .ok d
    | some id =>
      let (d, whole) ← trainStep d x
      .ok (if whole.isSome then answer d id .unsupported else d)

def moePktFx (x : Rx) (d : Dev) : Dev := if x.pkt.dlv then moeDlvFx x d else moeReqFx x d

/-! ### Timers and losses (R373, R374, R376) -/

/-- DBATCH after its first choice a batch is sent. -/
def batchTimer (d : Dev) (chase moe step x core : Nat) : Dev :=
  match (d.moe chase moe).bind fun m => m.batches.find? fun b => b.step == step && b.expert == x && b.core == core with
  | some b => sendBatch d chase moe b
  | none => d

/-- DLINE after the DISPATCH RESP: awaited choices are omitted, or sent once more to their fallback (DLPOL 1). -/
def combineDeadline (d : Dev) (chase moe id : Nat) : Dev :=
  match (d.moe chase moe).bind fun m => (m.reqs.find? fun r => r.id == id).map fun r => (m, r) with
  | none => d
  | some (m, r) =>
    let cs := (upTo r.toks.length).flatMap fun i =>
      (upTo (((r.toks[i]?).map fun t => t.choices.length).getD 0)).map fun j => (i, j)
    let d := d.modReq chase moe id fun r => { r with extra := true }
    foldOver cs d fun c d =>
      match ((r.toks[c.1]?).bind fun t => t.choices[c.2]?) with
      | some ch =>
        if !ch.open_ then d
        else
          let fb := ((m.d.experts[ch.expert]?).map fun e => e.fbexp).getD 0xFFF
          if m.d.dlpol = 1 ∧ !r.extra ∧ !ch.late ∧ !ch.fb ∧ fb ≠ 0xFFF then
            let d := d.modReq chase moe id fun r => r.modTok c.1 fun t => t.modChoice c.2 fun x => { x with at_ := fb, late := true }
            batchChoice d chase moe r.step fb r.core (id, c.1, c.2)
          else endChoice d chase moe id c.1 c.2 .omitted
      | none => d

/-- A press die is lost: its dispatch cores' slots go, with one MOELOST notice per mixture and core (R376). -/
def moeCoresLost (d : Dev) (on : Nat → Bool) : Dev :=
  foldOver d.press.moes d fun m d =>
    foldOver (m.disp.filter on) d fun c d =>
      let mine := m.reqs.filter fun r => r.core == c
      if m.staged then d
      else
        let d := d.notice 0x0607 (coreDie c) (some m.chase) m.d.moe c 0 ((mine.map fun r => r.step).eraseDups)
        let d := foldOver mine d fun r d => uncountReq d m.chase r
        let d := d.modMoe m.chase m.d.moe fun m =>
          { m with reqs := m.reqs.filter fun r => r.core != c, batches := m.batches.map fun b =>
              { b with recs := b.recs.filter fun x => !(mine.any fun r => r.id == x.1) } }
        releaseStep d m.chase m.d.moe

def moePressLost (d : Dev) (px : Nat) : Dev := moeCoresLost d fun c => c / 32 == px

end Sys2Proof.Machine
end

