-- ==== Sys2Proof/Machine/Scan.lean ====
section
/-! DEFINITION. Predicate scans (R377–R380). -/

namespace Sys2Proof.Machine
open Sys2Proof

/-! ### The predicate (R378) -/

/-- A predicate term. -/
structure Term where
  const : Nat := 0
  op    : Nat := 0
  ty    : Nat := 0
  word  : Nat := 0
  sub   : Nat := 0

def termOf (n : Nat) : Term := { const := bits n 127 64, op := bits n 63 56, ty := bits n 55 52, word := bits n 47 40, sub := bits n 39 36 }

/-- Does a term read a column? -/
def Term.column (t : Term) : Bool := decide (1 ≤ t.op ∧ t.op ≤ 8)

/-- Width of a column type. -/
def colBits (ty : Nat) : Nat := if ty ≤ 1 ∨ ty = 5 then 64 else if ty ≤ 4 then 32 else 16

/-- A term whose fields the spec allows (R378). -/
def termOk (recsz n : Nat) : Bool :=
  let t := termOf n
  let opOk := decide (1 ≤ t.op ∧ t.op ≤ 8) || decide (0x10 ≤ t.op ∧ t.op ≤ 0x13)
  opOk && decide (t.ty ≤ 7) && decide (t.word < recsz / 8) && decide (t.sub < 64 / colBits t.ty)
    && bits n 51 48 == 0 && bits n 35 0 == 0 && (!(t.op == 7 || t.op == 8) || colBits t.ty == 64)

/-- The stack depth after each term, or none where it would underflow or exceed 16 entries (R378). -/
def depthAfter : List Term → Nat → Option Nat
  | [], k => some k
  | t :: r, k =>
    if t.op = 0x10 ∨ t.op = 0x11 then (if k < 2 then none else depthAfter r (k - 1))
    else if t.op = 0x12 then (if k < 1 then none else depthAfter r k)
    else if 16 ≤ k then none else depthAfter r (k + 1)

/-- An IEEE 754 value as a sign and a magnitude key, or none for NaN: the keys order as the values do. -/
def ieeeKey (e m c : Nat) : Option Int :=
  let mag := c % 2 ^ (e + m)
  if (2 ^ e - 1) * 2 ^ m < mag then none else some (if bit c (e + m) then -(mag : Int) else mag)

/-- A column value as an ordered key; `none` is NaN. -/
def colKey (ty c : Nat) : Option Int :=
  if ty = 4 then ieeeKey 8 23 c
  else if ty = 5 then ieeeKey 11 52 c
  else if ty = 1 ∨ ty = 3 ∨ ty = 7 then some (toSigned (colBits ty) c)
  else some c

/-- The value a column term pushes. -/
def colTest (t : Term) (rec_ : List Byte) : Bool :=
  let w := colBits t.ty
  let c := (leNat ((rec_.drop (8 * t.word)).take 8) >>> (w * t.sub)) % 2 ^ w
  let k := t.const % 2 ^ w
  if t.op = 7 then c &&& k != 0
  else if t.op = 8 then c &&& k == k
  else match colKey t.ty c, colKey t.ty k with
    | some a, some b =>
      (match t.op with
       | 1 => decide (a = b) | 2 => decide (a ≠ b) | 3 => decide (a < b) | 4 => decide (a ≤ b) | 5 => decide (b < a) | _ => decide (b ≤ a))
    | _, _ => t.op == 2

/-- Run the predicate on a record (R378). -/
def predicate (rec_ : List Byte) : List Term → List Bool → Bool
  | [], s => s.headD false
  | t :: r, s =>
    if t.op = 0x10 then (match s with | a :: b :: u => predicate rec_ r ((a && b) :: u) | _ => false)
    else if t.op = 0x11 then (match s with | a :: b :: u => predicate rec_ r ((a || b) :: u) | _ => false)
    else if t.op = 0x12 then (match s with | a :: u => predicate rec_ r ((!a) :: u) | _ => false)
    else if t.op = 0x13 then predicate rec_ r (true :: s)
    else predicate rec_ r (colTest t rec_ :: s)

/-! ### A scan (R377, R379, R380) -/

/-- The operands of a scan: header and terms. -/
structure ScanOps where
  nrec  : Nat := 0
  recsz : Nat := 0
  inp   : Nat := 0
  out   : Nat := 0
  limit : Nat := 0
  idx   : Bool := false
  terms : List Nat := []

def scanOps (k : Pkt) : ScanOps :=
  let x := (k.ext.headD 0).toNat
  let h := leNat (k.data.take 16)
  { nrec := bits x 63 32, recsz := bits x 31 16, inp := wbits k.w2 63 8, out := wbits k.w3 63 8, limit := bits h 63 32, idx := bit h 23
    terms := (upTo (bits h 31 24)).map fun i => leNat ((k.data.drop (16 + 16 * i)).take 16) }

/-- The checks answered UNSUPPORTED (R377, R378). -/
def scanOk (k : Pkt) : Bool :=
  let s := scanOps k
  let h := leNat (k.data.take 16)
  let x := (k.ext.headD 0).toNat
  wbits k.w2 7 0 == 0 && wbits k.w3 7 0 == 0 && bits x 15 0 == 0 && bits h 127 64 == 0 && bits h 22 0 == 0
    && k.len == 16 + 16 * s.terms.length && !s.terms.isEmpty && s.nrec != 0 && s.recsz % 8 == 0 && decide (8 ≤ s.recsz ∧ s.recsz ≤ 512)
    && s.terms.all (termOk s.recsz) && depthAfter (s.terms.map termOf) 0 == some 1

/-- Bytes of an output entry, and of the output (R377). -/
def ScanOps.ent (s : ScanOps) : Nat := s.recsz + (if s.idx then 8 else 0)
def ScanOps.outLen (s : ScanOps) : Nat := 32 + (if s.limit = 0 then s.nrec else s.limit) * s.ent

/-- A record with the words a reader may not see set to zero (R379). -/
def maskRec (rvis : Nat) (b : List Byte) : List Byte :=
  (upTo b.length).map fun i => if bit rvis (i / 8) then (b[i]?).getD 0 else 0

/-- The mask entry of an owner and a reader (R379, R468). -/
def colmask (d : Dev) (chase owner reader : Nat) : Nat := d.reg .impColmask (4096 * chase + 64 * owner + reader)

/-- What a scan makes of one record: skipped with a status, denied, no match, or the bytes to write. -/
inductive RecOut where
  | skip (st : Status)
  | deny
  | no
  | hit (b : List Byte)

/-- One record (R379, R380). `bad` gives the outcome of the piece of input a byte lies in. -/
def scanRec (d : Dev) (s : Svc) (o : ScanOps) (inp : List Byte) (bad : Nat → Status) (i : Nat) : RecOut :=
  let pva := o.inp + i * o.recsz
  let own (a : Nat) : Option Nat := (folioAt d s.chase s.epoch a).map fun f => f.party
  let b := (inp.drop (i * o.recsz)).take o.recsz
  let worst := graver (bad pva) (bad (pva + o.recsz - 1))
  match own pva with
  | none => .skip .targetLost
  | some ow =>
    let m := colmask d s.chase ow s.party
    let sees := o.terms.all fun t => let t := termOf t; !t.column || bit (bits m 127 64) t.word
    if own (pva + o.recsz - 1) ≠ some ow ∨ !bit m 128 ∨ !sees then .deny
    else if worst ≠ .ok then .skip worst
    else if predicate b (o.terms.map termOf) [] then .hit (maskRec (bits m 63 0) b) else .no

/-- A scan's running result: matches, NSKIP, NDENY, records tested, the status of the lowest skipped record. -/
structure ScanRun where
  hits  : List (Nat × List Byte) := []
  nskip : Nat := 0
  ndeny : Nat := 0
  ntest : Nat := 0
  st    : Status := .ok

/-- Records in order until LIMIT matches are found (R380). -/
def scanRun (rec_ : Nat → RecOut) (limit : Nat) : List Nat → ScanRun → ScanRun
  | [], r => r
  | i :: t, r =>
    if limit ≠ 0 ∧ limit ≤ r.hits.length then r
    else scanRun rec_ limit t (match rec_ i with
      | .skip st => { r with nskip := r.nskip + 1, st := if r.nskip = 0 then st else r.st }
      | .deny => { r with ndeny := r.ndeny + 1 }
      | .no => { r with ntest := r.ntest + 1 }
      | .hit b => { r with ntest := r.ntest + 1, hits := r.hits ++ [(i, b)] })

/-- Bytes of a scan's input as read: one item per granule-sized part so that a failure spares its neighbours. -/
def scanRead (d : Dev) (sid : Nat) (o : ScanOps) : Dev :=
  let len := o.nrec * o.recsz
  let lo := o.inp / 64 * 64
  foldOver (upTo (cdiv (o.inp + len - lo) 64)) d fun i d =>
    let a := max o.inp (lo + 64 * i)
    let b := min (o.inp + len) (lo + 64 * i + 64)
    svcAccess d sid i a (b - a) .load

/-- The input is in: records are tested, matches written (R379, R380). -/
def scanRows (d : Dev) (s : Svc) : Dev :=
  let o := scanOps s.k
  let lo := o.inp / 64
  let n := cdiv (o.inp + o.nrec * o.recsz - lo * 64) 64
  let inp := (upTo n).flatMap fun i =>
    let a := max o.inp (64 * (lo + i))
    let b := min (o.inp + o.nrec * o.recsz) (64 * (lo + i) + 64)
    let x := s.bytes i
    if x.length = b - a then x else zeros (b - a)
  -- every granule a record touches counts, not only its first and last
  let bad (a : Nat) : Status := tget .ok s.bad (a / 64 - lo)
  let badRec (i : Nat) : Status :=
    let p := o.inp + i * o.recsz
    (upTo (cdiv (p % 64 + o.recsz) 64)).foldl (fun w j => graver w (bad (p + 64 * j - (if j = 0 then 0 else p % 64)))) .ok
  let r := scanRun (fun i => scanRec d s o inp (fun _ => badRec i) i) o.limit (upTo o.nrec) {}
  let die := coreDie s.core
  let d := ((d.countN .cScanrec die r.ntest).countN .cScandeny die r.ndeny).countN .cScanskip die r.nskip
  let hdr := leBytes 8 r.hits.length ++ leBytes 8 r.nskip ++ leBytes 8 r.ndeny ++ leBytes 8 (r.st.code * 2 ^ 56 + 1)
  let d := d.modSvc s.id fun s => { s with stage := 2, bad := [], hdr := hdr, st := r.st, pos := r.hits.length }
  foldOver ((upTo r.hits.length).zip r.hits) d fun x d =>
    let b := (if o.idx then leBytes 8 x.2.1 else []) ++ x.2.2
    svcAccess d s.id x.1 (o.out + 32 + x.1 * o.ent) o.ent .store b

/-- Every record write of a scan has ended: its header is written, with DONE set (R380). -/
def scanDone (d : Dev) (sid : Nat) : Dev :=
  match d.svc sid with
  | none => d
  | some s =>
    if s.kind ≠ .scan ∨ s.stage ≠ 2 ∨ s.left ≠ 0 then d
    else svcAccess (d.modSvc sid fun s => { s with stage := 3 }) sid 0 (scanOps s.k).out 32 .store s.hdr

/-- The header is written: the RESP, unless it was given early (R380). -/
def scanEnd (d : Dev) (s : Svc) : Dev :=
  let d := d.dropSvc s.id
  match s.req with
  | some id => answer d id s.st s.pos
  | none => d

def scanNext (d : Dev) (s : Svc) : Dev :=
  if s.stage = 1 then scanRows d s else if s.stage = 3 then scanEnd d s else d

/-- At admission + CTO − 100 µs a scan still running is answered OK with RVAL all ones and goes on (R380). -/
def scanEarly (d : Dev) (sid : Nat) : Dev :=
  match d.svc sid with
  | some s =>
    if s.kind ≠ .scan then d
    else
      let d := d.modSvc sid fun s => { s with req := none }
      (match s.req with | some id => answer d id .ok (2 ^ 48 - 1) | none => d)
  | none => d

/-- A SCAN at its ingress (R377). -/
def scanFx (x : Rx) (d : Dev) : Dev :=
  withEntry d x false 0 (wbits x.pkt.w2 63 8 / folioB) fun d => Ck.dev do
    let (d, id, k) ← ingress d x false
    if !isLocal d k then .ok (forwardReq d id k (some (x.port, x.vl)))
    else
      let o := scanOps k
      let f := (formeOf (d.comp k.chase) k.epoch).getD {}
      let records (pva : Nat) : Bool := ((folioAt d k.chase k.epoch pva).map fun f => f.use == 4).getD false
      let core := (pickBy f.cores (Config.leadHash k.src k.tag)).getD 0
      if !scanOk k then .ok (answer d id .unsupported)
      else if !rangeAll d k.chase k.epoch o.inp (o.nrec * o.recsz) (fun _ => true) ∨ !records o.inp
          ∨ !rangeAll d k.chase k.epoch o.inp (o.nrec * o.recsz) (fun f => f.use == 4) then .ok (answer d id .denied)
      else if !rangeAll d k.chase k.epoch o.out o.outLen (ownOut k.party) then .ok (answer d id .denied)
      else if !bit f.req.services 3 then .ok (answer d id .denied)
      else if f.cores.isEmpty ∨ !coreServes d core [0x0020] then .ok (answer d id .targetLost)
      else
        let d ← filterCheck d id (.core core)
        let s : Svc := { kind := .scan, chase := k.chase, epoch := k.epoch, party := k.party, req := some id, die := portDie x.port, core := core
                         cores := [core], k := k, stage := 1 }
        let (d, sid) := newSvc d s
        let d := scanRead d sid o
        .ok (match d.svc sid with | some s => if s.left = 0 then scanRows d s else d | none => d)

/-- A press service's accesses have ended: its job goes on. -/
def svcNext (d : Dev) (s : Svc) : Dev := match s.kind with
  | .scan => scanNext d s
  | _ => embNext d s

/-- A press die is lost: scans on its cores end (R515, log 34). -/
def scanCoresLost (d : Dev) (on : Nat → Bool) : Dev :=
  foldOver (d.press.svcs.filter fun s => s.kind == .scan && on s.core) d fun s d =>
    let d := d.dropSvc s.id
    match s.req with
    | some id => answer d id .retry
    | none => d

def scanPressLost (d : Dev) (px : Nat) : Dev := scanCoresLost d fun c => c / 32 == px

end Sys2Proof.Machine
end

