-- ==== Sys2Proof/Machine/Plates.lean ====
section
/-! DEFINITION. Stations firing in user plates (R382–R385, R392–R399), COMPRESS and EXPAND (R408–R412). The bytes that carry ranges, keys and
indices between stations are not laid out in the spec: a range token is an 8-byte PVA and a length, a key or index is 4 bytes (log 36). -/

namespace Sys2Proof.Machine
open Sys2Proof

/-! ### Instances -/

def Dev.inst (d : Dev) (core slot : Nat) : Option PInst := d.press.plates.insts.find? fun i => i.core == core && i.slot == slot

def Dev.modInst (d : Dev) (core slot : Nat) (f : PInst → PInst) : Dev :=
  { d with press := { d.press with plates := { d.press.plates with
      insts := mapIf (fun i => i.core == core && i.slot == slot) f d.press.plates.insts } } }

def instKey (core slot : Nat) : Nat := 8 * core + slot

def PInst.node (i : PInst) (n : Nat) : NodeSt := (i.nodes[n]?).getD {}
def PInst.setNode (i : PInst) (n : Nat) (f : NodeSt → NodeSt) : PInst := { i with nodes := i.nodes.modify n f }

/-- The queue at a port. -/
def inQueue (p : PImage) (n port : Nat) : Option Nat := p.queues.findIdx? fun q => q.cnode == n && q.cport == port
def outQueue (p : PImage) (n port : Nat) : Option Nat := p.queues.findIdx? fun q => q.pnode == n && q.pport == port

def PInst.head (i : PInst) (p : PImage) (n port : Nat) : Option Tok := (inQueue p n port).bind fun q => (i.queues[q]?).bind fun l => l.head?

def PInst.pop (i : PInst) (p : PImage) (n port : Nat) : PInst :=
  match inQueue p n port with
  | some q => { i with queues := i.queues.modify q fun l => l.drop 1 }
  | none => i

def PInst.push (i : PInst) (p : PImage) (n port : Nat) (ts : List Tok) : PInst :=
  match outQueue p n port with
  | some q => { i with queues := i.queues.modify q fun l => l ++ ts }
  | none => i

/-- Room of an output queue; what a node has out counts as taken. An output without a queue has room for anything. -/
def PInst.room (i : PInst) (p : PImage) (n port : Nat) : Nat :=
  match outQueue p n port with
  | some q => ((p.queues[q]?).map fun x => x.depth).getD 0 - ((i.queues[q]?).map fun l => l.length).getD 0
      - sumNat ((i.pieces.filter fun x => x.node == n && !x.write).map fun x => cdiv x.data.length 256)
  | none => 2 ^ 32

def Tok.bytes (t : Tok) : List Byte := match t.body with
  | .bytes b => b
  | _ => []

def numAcc : Num → Acc
  | .fin v => { val := v }
  | .inf neg => { cls := if neg then 2 else 1 }
  | .nan => { cls := 3 }

def accNum (a : Acc) : Num := if a.cls = 0 then .fin a.val else if a.cls = 3 then .nan else .inf (a.cls == 2)

/-- Cut a list into runs of n. -/
def chunked {α : Type} (n : Nat) (l : List α) : List (List α) := (upTo (cdiv l.length n)).map fun i => (l.drop (n * i)).take n

/-- Tokens of a run of 64 elements each (R383), numbered from `e`. -/
def tokens64 {α : Type} (t : Tok) (l : List α) (mk_ : List α → TokBody) : List Tok :=
  let cs := chunked 64 l
  ((upTo cs.length).zip cs).map fun x => { t with elem := (t.elem + 64 * x.1) % 2 ^ 32, last := t.last && x.1 + 1 == cs.length, body := mk_ x.2 }

/-- Byte tokens of 256 bytes each. -/
def tokens256 (t : Tok) (per : Nat) (b : List Byte) : List Tok :=
  let cs := chunked 256 b
  ((upTo cs.length).zip cs).map fun x => { t with elem := (t.elem + per * x.1) % 2 ^ 32, last := t.last && x.1 + 1 == cs.length, body := .bytes x.2 }

/-- The first nonzero STAT of an item is recorded (R398). -/
def PInst.noteStat (i : PInst) (item st : Nat) : PInst :=
  if st = 0 then i else { i with items := mapIf (fun x => x.item == item) (fun x => if x.stat = 0 then { x with stat := st } else x) i.items }

/-- Is anything of an item left in the instance? -/
def PInst.holds (i : PInst) (item : Nat) : Bool :=
  i.queues.any (fun l => l.any fun t => t.item == item) || i.pieces.any (fun x => x.item == item)
    || i.nodes.any fun n => (n.busy && n.item == item) || n.toks.any fun t => t.item == item

/-- Items that have left every queue and node have ended (R398, R400). An instance whose binding is gone leaves with its last item (R393). -/
def sweep (d : Dev) (core slot : Nat) : Dev :=
  match d.inst core slot with
  | none => d
  | some i =>
    let out := i.items.filter fun x => !i.holds x.item
    let die := coreDie core
    let bad := out.filter fun x => x.stat != 0
    let d := (d.countN .cPlitems die out.length).countN .cPlitemerr die bad.length
    let i' : PInst := { i with items := i.items.filter fun x => i.holds x.item, lastst := ((bad.getLast?).map fun x => x.stat).getD i.lastst }
    if i.drain ∧ i'.items.isEmpty then
      { d with press := { d.press with plates := { d.press.plates with insts := d.press.plates.insts.filter fun x => !(x.core == core && x.slot == slot) } } }
    else d.modInst core slot fun _ => i'

/-! ### Accesses (R382, R392) -/

/-- Issue a piece of a node: an access of the bound party over one 4 KiB block; one that may not go ends at once with its status. -/
def plateAccess (d : Dev) (i : PInst) (pc : PPiece) (pva len : Nat) (data : List Byte) (poison : Bool) : Dev :=
  let epoch := (d.comp i.chase).cur
  let stop (st : Status) : PPiece := { pc with done := true, st := st.code, data := zeros len }
  let put (d : Dev) (x : PPiece) : Dev := d.modInst i.core i.slot fun i => { i with pieces := i.pieces ++ [x], nextP := i.nextP + 1 }
  let die := coreDie i.core
  match folioAt d i.chase epoch pva with
  | none => put d (stop .denied)
  | some f =>
    let key := keyOf d i.chase pva f
    if !accessOk d f i.party pc.write then put d (stop .denied)
    else if placeLost d f && !f.gcache then put (d.count .cTgtlost die) (stop .targetLost)
    else if (f.kind = 2 ∨ f.kind = 3 ∨ f.kind = 5) ∧ (d.pdk key).isNone then put d (stop .sealed_)
    else
      let op : PjOp := if pc.write then .store else .load
      put (openGrp d (.plate (instKey i.core i.slot) pc.id pc.write) die i.chase epoch i.party pva len op data f key
        (if poison then granulesOf pva len else [])) { pc with data := zeros len }

/-! ### Stations without accesses (R382) -/

/-- The K of R306 for an item (R394). -/
def PInst.key (i : PInst) (item : Nat) : Nat :=
  i.ring.ring * 2 ^ 28 + (((i.items.find? fun x => x.item == item).map fun x => x.count).getD 0) % 2 ^ 28

/-- One firing of a station that only turns tokens into tokens: what it takes (ports), its new state, what it puts (port, tokens); none where
it cannot fire. Tokens with STAT pass unchanged (R398). -/
structure Fired where
  take : List Nat := []
  st   : NodeSt := {}
  out  : List (Nat × List Tok) := []
  ops  : Nat := 0                  -- element operations of the firing (R316)

def stParse (s : SParam) (n : NodeSt) (t : Tok) : Fired :=
  let ports := (s.fields.map fun f => f.2.2.1).eraseDups
  let body (o : Nat) : List Byte := (s.fields.filter fun f => f.2.2.1 == o).flatMap fun f =>
    let b := (t.bytes.drop f.1).take f.2.1
    if f.2.2.2 = 1 then b else leBytes f.2.1 (leNat b * f.2.2.2)
  { take := [0], st := n, out := ports.map fun o => (o, [{ t with last := true, body := .bytes (body o) }]) }

def stUnpack (d : Dev) (s : SParam) (n : NodeSt) (t : Tok) : Fired :=
  let r := fmtRow d s.row
  let b := t.bytes
  let cnt := if r.layout = 1 then b.length / recordSize r.code * 32 else 8 * (if r.layout = 2 then b.length - 4 else b.length) / max 1 (elemBits r.code)
  let vs := if r.layout = 2 then
      (affineVals r.code cnt (leNat (b.take 2)) (leNat ((b.drop 2).take 2)) (b.drop 4)).map fun v => match v with
        | .fin x => .fin (x / 2 ^ 149)
        | v => v
    else decodeVec r cnt b
  { take := [0], st := n, out := [(0, tokens64 t (vs.map numAcc) .vals)] }

def stScale (d : Dev) (s : SParam) (n : NodeSt) (t : Tok) (u : Option Tok) : Option Fired :=
  let a := match t.body with
    | .vals v => v.map accNum
    | _ => []
  let b : Option (List Num) :=
    if s.bsrc = 0 then u.map fun x => match x.body with
      | .vals v => v.map accNum
      | .bytes y => decodeVec (fmtRow d s.row1) a.length y
      | _ => []
    else if s.bsrc = 1 then some (a.map fun _ => toNum32 s.const)
    else if s.bsrc = 2 then some a
    else some (a.map fun _ => .fin (2 ^ 149))
  b.map fun b =>
    let p := (a.zip b).map fun x => match Num.mul x.1 x.2 with
      | .fin v => ({ val := v * t.mult } : Acc)
      | v => numAcc v
    { take := if s.bsrc = 0 then [0, 1] else [0], st := n, out := [(0, [{ t with body := .prods p }])] }

/-- Add a token's elements into a group: element e goes to accumulator e mod NACC. -/
def laccAdd (s : SParam) (n : NodeSt) (t : Tok) : NodeSt :=
  let base : List Acc := if n.accs.isEmpty then List.replicate s.nacc {} else n.accs
  let add (v : List Num) (scale : Int) : List Acc :=
    ((upTo v.length).zip v).foldl (fun a x => a.modify ((t.elem + x.1) % s.nacc) fun y => y.add x.2 scale) base
  match t.body with
  | .vals v => { n with accs := add (v.map accNum) (if s.prod then t.mult * 2 ^ 149 else t.mult), cnt := addCnt n.cnt t.mult }
  | .prods v => { n with accs := add (v.map accNum) 1, cnt := addCnt n.cnt t.mult }
  | _ => { n with accs := base }

/-- Carry forms of IN1 (R312). -/
def laccCarry (s : SParam) (n : NodeSt) (t : Tok) : NodeSt :=
  let h := leNat (t.bytes.take 8)
  let base : List Acc := if n.accs.isEmpty then List.replicate s.nacc {} else n.accs
  match readForms s.prod (bits h 55 42) (t.bytes.drop 8) with
  | some (l, _) =>
    { n with accs := ((upTo l.length).zip l).foldl (fun a x => a.modify ((t.elem + x.1) % s.nacc) fun y => y.combine x.2) base
             cnt := addCnt n.cnt (bits h 40 0) }
  | none => { n with fail := Status.codeFault.code }

def stLacc (s : SParam) (n : NodeSt) (t : Tok) (u : Option Tok) : Fired :=
  let (n, t, take) := match u with
    | some c => (if c.stat = 0 then laccCarry s n c else { n with fail := if n.fail = 0 then c.stat else n.fail }, c, [1])
    | none => (if t.stat = 0 then laccAdd s n t else { n with fail := if n.fail = 0 then t.stat else n.fail }, t, [0])
  let n := { n with busy := true, item := t.item }
  let ops := match t.body, u with
    | .vals v, none => v.length
    | .prods v, none => v.length
    | _, some c => bits (leNat (c.bytes.take 8)) 55 42
    | _, _ => 0
  let flush := if s.flush = 0 then t.last else u.isSome
  if !flush then { take := take, st := n, ops := ops }
  else
    let out := if n.fail ≠ 0 then [{ t with elem := 0, mult := 1, last := true, stat := n.fail, body := .bytes [] }]
               else tokens64 { t with elem := 0, mult := 1, last := true, stat := 0 } n.accs (.accs s.prod (cntSat n.cnt))
    { take := take, st := { n with busy := false, accs := [], cnt := 0, fail := 0 }, out := [(0, out)], ops := ops }

def stRound (d : Dev) (i : PInst) (s : SParam) (n : NodeSt) (t : Tok) : Fired :=
  let r := fmtRow d s.row
  let b := match t.body with
    | .accs prod sat v =>
      if r.layout = 2 then
        let v := if prod then v else v.map fun a => { a with val := a.val * 2 ^ 149 }
        let (sc, o, cs) := affineEnc r.code (fun k => Config.freeNat (d.free + k)) v
        leBytes 2 sc ++ leBytes 2 o ++ packCodes (elemBits r.code) cs
      else (deliverVec r prod sat (i.key t.item) t.elem v).1
    | _ => t.bytes
  { take := [0], st := n, out := [(0, [{ t with body := .bytes b }])] }

def stPack (s : SParam) (n : NodeSt) (t : Tok) : Fired :=
  let b := match t.body with
    | .accs prod _ v => if s.pfmt = 15 then leBytes 8 (v.length * 2 ^ 42 + b2n prod * 2 ^ 41) ++ v.flatMap (carryForm prod) else []
    | _ => t.bytes
  { take := [0], st := n, out := [(0, [{ t with body := .bytes b }])] }

def stCmp (s : SParam) (n : NodeSt) (t : Tok) : Fired :=
  { take := [0], st := n, out := [(0, [{ t with body := .bools [predicate t.bytes (s.terms.map termOf) []] }])] }

def stSelect (n : NodeSt) (t u : Tok) : Fired :=
  let keep := match u.body with
    | .bools (b :: _) => b
    | _ => false
  { take := [0, 1], st := n, out := if keep then [(0, [t])] else [] }

def stTopk (s : SParam) (n : NodeSt) (t : Tok) : Fired :=
  match t.body with
  | .accs prod sat v =>
    let xs := ((upTo v.length).map (t.elem + ·)).zip v
    let sel := topK s.k xs
    let rest := xs.map fun x => if sel.any fun y => y.1 == x.1 then ({} : Acc) else x.2
    { take := [0], st := n, out := [(0, [{ t with body := .accs prod sat (sel.map Prod.snd) }]), (1, [{ t with body := .accs prod sat rest }])] }
  | _ => { take := [0], st := n, out := [(0, [t]), (1, [t])] }

/-- The weighted highest-hash rule (R53). -/
def highest (key : Nat) (ws : List Nat) : Nat :=
  ((upTo ws.length).foldl (fun (b : Nat × Nat) i => let v := Config.placeHash key 0 i * (ws[i]?).getD 0; if b.2 < v then (i, v) else b) (0, 0)).1

def keysOf (b : List Byte) : List Nat := (upTo (b.length / 4)).map fun i => leNat ((b.drop (4 * i)).take 4)

def stCoalesce (n : NodeSt) (t : Tok) : Fired :=
  let ts := n.toks ++ [t]
  if !t.last then { take := [0], st := { n with toks := ts } }
  else
    let ks := ts.flatMap fun x => keysOf x.bytes
    let ds := distinct ks
    let o0 := ((upTo ds.length).zip ds).map fun x =>
      { t with elem := x.1, mult := countOf ks x.2, last := x.1 + 1 == ds.length, body := TokBody.bytes (leBytes 4 x.2) }
    { take := [0], st := { n with toks := [] }
      out := [(0, o0), (1, tokens256 { t with elem := 0, mult := 1 } 64 (ks.flatMap fun k => leBytes 4 ((ds.idxOf? k).getD 0)))] }

def stMerge (n : NodeSt) (heads : List (Nat × Tok)) : Fired :=
  let ix (t : Tok) : Nat := leNat (t.bytes.take 4)
  let lo := heads.foldl (fun m x => min m (ix x.2)) (2 ^ 32)
  let hit := heads.filter fun x => ix x.2 == lo
  { take := hit.map Prod.fst, st := n, out := match hit.head? with | some x => [(0, [x.2])] | none => [] }

def stCount (s : SParam) (n : NodeSt) (t : Tok) : Fired :=
  let k := leNat (t.bytes.take 4) % max 1 s.nkey
  let c := tget 0 n.counts k
  if c < (s.limits[k]?).getD 0 then { take := [0], st := { n with counts := tput n.counts k (c + 1) }, out := [(0, [t])] }
  else { take := [0], st := n, out := [(1, [t])] }

def stRoute (p : PImage) (s : SParam) (nd : Nat) (n : NodeSt) (t : Tok) : Fired :=
  let ports := (upTo 4).filter fun o => (outQueue p nd o).isSome
  if s.steer then { take := [0], st := n, out := match ports[leNat (t.bytes.take 4) % max 1 ports.length]? with | some o => [(o, [t])] | none => [] }
  else { take := [0], st := n, out := ports.map fun o => (o, [t]) }

/-- Fire a station that turns tokens into tokens. -/
def fireTokens (d : Dev) (i : PInst) (p : PImage) (nd : Nat) : Option Fired :=
  let ty := p.ty nd
  let s := p.par nd
  let n := i.node nd
  let t0 := i.head p nd 0
  let t1 := i.head p nd 1
  let pass (t : Tok) : Fired := { take := [0], st := n, out := ((upTo 4).filter fun o => (outQueue p nd o).isSome).map fun o => (o, [t]) }
  let plain (f : Tok → Fired) : Option Fired := t0.map fun t => if t.stat ≠ 0 then pass t else f t
  if ty = 7 then (match t0, t1 with | some t, _ => some (stLacc s n t none) | none, some c => some (stLacc s n c (some c)) | _, _ => none)
  else if ty = 3 then plain (stParse s n)
  else if ty = 4 then plain (stUnpack d s n)
  else if ty = 6 then t0.bind fun t => if t.stat ≠ 0 then some (pass t) else stScale d s n t t1
  else if ty = 8 then plain (stRound d i s n)
  else if ty = 9 then plain (stPack s n)
  else if ty = 0x0A then plain (stCmp s n)
  else if ty = 0x0B then (match t0, t1 with | some t, some u => some (if t.stat ≠ 0 then { pass t with take := [0, 1] } else stSelect n t u) | _, _ => none)
  else if ty = 0x0C then plain (stTopk s n)
  else if ty = 0x0D then plain fun t => { take := [0], st := n, out := [(0, [{ t with body := .bytes (leBytes 4 (highest (leNat t.bytes) s.weights)) }])] }
  else if ty = 0x0E then plain (stCoalesce n)
  else if ty = 0x0F then
    let ports := (upTo 4).filter fun k => (inQueue p nd k).isSome
    let hs := ports.filterMap fun k => (i.head p nd k).map fun t => (k, t)
    if hs.length = ports.length ∧ !hs.isEmpty then some (stMerge n hs) else none
  else if ty = 0x10 then plain (stCount s n)
  else if ty = 0x13 then plain (stRoute p s nd n)
  else if ty = 0x18 then plain fun t => { take := [0], st := { n with toks := n.toks ++ [t] } }
  else none

/-- Apply a firing where every output has room for what it makes (R383). -/
def applyFired (d : Dev) (core slot : Nat) (i : PInst) (p : PImage) (nd : Nat) (f : Fired) : Dev :=
  if !(f.out.all fun o => decide (o.2.length ≤ i.room p nd o.1)) then d
  else
    let i := f.take.foldl (fun i k => (match i.head p nd k with | some t => i.noteStat t.item t.stat | none => i).pop p nd k) i
    let i := f.out.foldl (fun i o => i.push p nd o.1 o.2) (i.setNode nd fun _ => f.st)
    let i := f.out.foldl (fun i o => o.2.foldl (fun i t => i.noteStat t.item t.stat) i) i
    let d := if f.ops = 0 then d else d.account (coreDie core) i.chase i.party 2 f.ops
    sweep ({ d with free := d.free + 1 }.modInst core slot fun _ => i) core slot

/-! ### Stations with accesses -/

/-- Pieces of a node that are out. -/
def PInst.out (i : PInst) (nd : Nat) : List PPiece := i.pieces.filter fun x => x.node == nd

/-- SEQ: take a descriptor of the ring (R382, R393). -/
def fireSeq (d : Dev) (i : PInst) (p : PImage) (nd : Nat) : Dev :=
  let s := p.par nd
  if i.drain ∨ i.fault ∨ !(i.out nd).isEmpty ∨ i.room p nd 0 = 0 ∨ 4096 ≤ i.items.length ∨ (s.serial ∧ !i.items.isEmpty) then d
  else
    let (d, st, grant) := markSignal d i.chase i.ring.mark 0x04 1 0
    if st ≠ .ok ∨ !grant then d
    else
      let r := i.ring
      let item := r.count % 2 ^ 16
      let pc : PPiece := { id := i.nextP, node := nd, item := item, last := true }
      let i' : PInst := { i with ring := { r with next := (r.next + 1) % r.ents, count := r.count + 1 }, items := i.items ++ [{ item := item, count := r.count }] }
      plateAccess (d.modInst i.core i.slot fun _ => i') i' pc (r.pva + r.next * s.dsize) s.dsize [] false

/-- FETCH: take a range, or issue the next piece of the one under way (R382, R243). -/
def fireFetch (d : Dev) (i : PInst) (p : PImage) (nd : Nat) : Dev :=
  let s := p.par nd
  let n := i.node nd
  if n.busy then
    let lo := n.pva + n.pos
    let len := min (n.len - n.pos) (4096 - lo % 4096)
    if s.outmax ≤ (i.out nd).length ∨ i.room p nd 0 < cdiv len 256 then d
    else
      let last := decide (n.pos + len = n.len)
      let i' := { i.setNode nd (fun n => { n with pos := n.pos + len, busy := !last }) with nextP := i.nextP }
      let pc : PPiece := { id := i.nextP, node := nd, item := n.item, elem := n.pos, last := last }
      plateAccess (d.modInst i.core i.slot fun _ => i') i' pc lo len [] false
  else match i.head p nd 0 with
    | none => d
    | some t =>
      if t.stat ≠ 0 then (if i.room p nd 0 = 0 then d else sweep (d.modInst i.core i.slot fun _ => (i.pop p nd 0).push p nd 0 [t]) i.core i.slot)
      else
        let len := leNat (t.bytes.drop 8)
        let i' := (i.pop p nd 0).setNode nd fun n => { n with busy := decide (0 < len), item := t.item, pva := leNat (t.bytes.take 8), len := len, pos := 0 }
        sweep (d.modInst i.core i.slot fun _ => i') i.core i.slot

/-- STORE: take a range, then its data; each block of data is written as a piece (R382, R214, R398). -/
def fireStore (d : Dev) (i : PInst) (p : PImage) (nd : Nat) : Dev :=
  let s := p.par nd
  let n := i.node nd
  if !n.busy then
    match i.head p nd 0 with
    | none => d
    | some t =>
      let i' := (i.pop p nd 0).setNode nd fun n =>
        { n with busy := true, item := t.item, pva := leNat (t.bytes.take 8), len := leNat (t.bytes.drop 8), pos := 0, buf := [], fail := t.stat, phase := 0 }
      d.modInst i.core i.slot fun _ => i'
  else match i.head p nd 1 with
    | none => d
    | some t =>
      if s.outmax ≤ (i.out nd).length ∨ n.phase = 1 then d
      else
        let fail := if n.fail = 0 then t.stat else n.fail
        let buf := n.buf ++ (if t.stat = 0 then t.bytes else [])
        let lo := n.pva + n.pos
        let len := min (n.len - n.pos) (4096 - lo % 4096)
        let i := i.noteStat t.item t.stat
        if !t.last ∧ buf.length < len then d.modInst i.core i.slot fun _ => (i.pop p nd 1).setNode nd fun n => { n with buf := buf, fail := fail }
        else
          let whole := t.last
          let i' := (i.pop p nd 1).setNode nd fun n =>
            { n with buf := buf.drop len, pos := n.pos + len, fail := fail, phase := if whole then 1 else 0 }
          let d := d.modInst i.core i.slot fun _ => i'
          let runs := if whole then runs4k lo (n.len - n.pos) else [(lo, len)]
          foldOver ((upTo runs.length).zip runs) d fun x d =>
            match d.inst i.core i.slot with
            | some i =>
              let (a, z) := x.2
              let b := (buf.drop (a - lo)).take z
              plateAccess d i { id := i.nextP, node := nd, item := n.item, write := true } a z (b ++ zeros (z - b.length)) (fail != 0)
            | none => d

/-- MARK: one operation per token (R382, R392, R398). -/
def fireMark (d : Dev) (i : PInst) (p : PImage) (nd : Nat) : Dev :=
  let s := p.par nd
  match i.head p nd 0 with
  | none => d
  | some t =>
    let idx := match s.mark with
      | some m => some m
      | none => (i.head p nd 1).map fun u => leNat u.bytes
    match idx with
    | none => d
    | some m =>
      if i.room p nd 0 = 0 then d
      else
        let ok := allocated d i.chase m
        let i' := (i.pop p nd 0)
        let i' := if s.mark.isNone then i'.pop p nd 1 else i'
        let i' := (i'.noteStat t.item t.stat).noteStat t.item (if ok then 0 else Status.denied.code)
        let i' := if (outQueue p nd 0).isSome then i'.push p nd 0 [t] else i'
        let d := d.modInst i.core i.slot fun _ => i'
        let d := if ok ∧ !i.mute then (markSignal d i.chase m s.mop s.arg0 0).1 else d
        sweep d i.core i.slot

/-! ### COMPRESS and EXPAND (R408–R412) -/

def compressCmd (t : Tok) : Nat × Nat × Nat × Bool :=
  let w0 := leNat (t.bytes.take 8)
  let w1 := leNat ((t.bytes.drop 8).take 8)
  (bits w0 55 0, bits w1 31 0, bits w1 38 32, bits w0 63 56 == 0 && bits w1 63 39 == 0)

/-- End a COMPRESS or EXPAND item with a status. -/
def sheetEnd (d : Dev) (i : PInst) (p : PImage) (nd item st : Nat) (out : List Tok) : Dev :=
  let i' := ((i.setNode nd fun _ => {}).noteStat item st).push p nd 0 out
  sweep (d.modInst i.core i.slot fun _ => i') i.core i.slot

def fireCompress (d : Dev) (i : PInst) (p : PImage) (nd : Nat) : Dev :=
  let s := p.par nd
  let n := i.node nd
  match i.head p nd 0 with
  | none => d
  | some t =>
    if n.phase ≠ 0 ∨ i.room p nd 0 = 0 then d
    else
      let fail := if n.fail = 0 then t.stat else n.fail
      let toks := n.toks ++ [t]
      let i := (i.pop p nd 0).setNode nd fun n => { n with busy := true, item := t.item, toks := toks, fail := fail }
      if !t.last then d.modInst i.core i.slot fun _ => i
      else
        let cmd := (toks.head?).getD {}
        let (base, sid, nblk, clean) := compressCmd cmd
        let data := (toks.drop 1).flatMap Tok.bytes
        let stop (st : Nat) : Dev := sheetEnd d i p nd t.item st [{ item := t.item, last := true, stat := st, body := .bytes [] }]
        if fail ≠ 0 then stop fail
        else if !clean ∨ base % 4096 ≠ 0 ∨ nblk = 0 ∨ s.maxblk < nblk ∨ data.length ≠ 4096 * nblk ∨ cmd.bytes.length ≠ 16 ∨ (s.mode = 0 ∧ 4 < s.fmt) then
          stop Status.unsupported.code
        else
          let (bl, hdr) := compressSheet s.mode s.fmt sid nblk data
          let die := coreDie i.core
          let d := (d.countN .cCmpinb die data.length).countN .cCmpzero die (bl.filter fun x => x.1 == 0).length
          let d := d.countN .cCmpraw die (bl.filter fun x => x.1 == 2).length
          let bytes := sumNat (bl.map fun x => x.2.length) + 704
          let i' := i.setNode nd fun n => { n with toks := [], buf := hdr, pva := base, len := bytes, phase := 1 }
          let d := d.modInst i.core i.slot fun _ => i'
          let d := foldOver ((upTo nblk).zip bl) d fun x d =>
            if x.2.1 = 0 then d
            else match d.inst i.core i.slot with
              | some i =>
                let b := x.2.2 ++ zeros ((64 - x.2.2.length % 64) % 64)
                plateAccess (d.countN .cCmpoutb die b.length) i { id := i.nextP, node := nd, item := t.item, what := 1 + x.1, write := true }
                  (base + 4096 * (x.1 + 1)) b.length b false
              | none => d
          match d.inst i.core i.slot with
          | some i =>
            if (i.out nd).isEmpty then
              plateAccess ((d.countN .cCmpoutb die 704).modInst i.core i.slot fun i => i.setNode nd fun n => { n with phase := 2 })
                (i.setNode nd fun n => { n with phase := 2 }) { id := i.nextP, node := nd, item := t.item, what := 100, write := true } base 704 hdr false
            else d
          | none => d

/-- The writes of a sheet: blocks, then the header, then the completion token (R409). -/
def compressNext (d : Dev) (i : PInst) (p : PImage) (nd : Nat) : Dev :=
  let n := i.node nd
  let out := i.out nd
  if !(out.all fun x => x.done) then d
  else
    let fail := ((out.find? fun x => x.st != 0).map fun x => x.st).getD 0
    let clear (i : PInst) : PInst := { i with pieces := i.pieces.filter fun x => x.node != nd }
    let die := coreDie i.core
    let item := n.item
    if fail ≠ 0 then sheetEnd d (clear i) p nd item fail [{ item := item, last := true, stat := fail }]
    else if n.phase = 1 then
      let i := clear (i.setNode nd fun n => { n with phase := 2 })
      plateAccess ((d.modInst i.core i.slot fun _ => i).countN .cCmpoutb die 704) i { id := i.nextP, node := nd, item := item, what := 100, write := true }
        n.pva 704 n.buf false
    else sheetEnd (d.count .cCmpsheet die) (clear i) p nd item 0 [{ item := item, last := true, body := .bytes (leBytes 8 n.len) }]

def expandCmd (t : Tok) : Nat × Nat × Nat × Bool :=
  let w0 := leNat (t.bytes.take 8)
  let w1 := leNat ((t.bytes.drop 8).take 8)
  (bits w0 55 0, bits w1 5 0, bits w1 14 8, bits w0 63 56 == 0 && bits w1 63 15 == 0 && bits w1 7 6 == 0)

/-- Emit one block of an EXPAND: 16 tokens; the last block ends the item. `step`: the check that failed, for CODEFAULT (R411). -/
def emitBlock (d : Dev) (i : PInst) (p : PImage) (nd blk : Nat) (data : List Byte) (st step : Nat) : Dev :=
  let n := i.node nd
  let die := coreDie i.core
  let h := readHdr n.buf
  let per := match h with
    | some x => if x.mode = 1 then 256 else 2048 / (expFmt x.fmt).2.2
    | none => 256
  let d := d.count .cExpblk die
  let d := if st = Status.codeFault.code then (d.count .cCodeflt die).notice 0x060A die (some i.chase) i.core n.pva (blk * 256 + step)
           else if st = Status.poisoned.code then d.count .cExppois die else d
  let fin := decide (blk + 1 = n.phase + n.len)
  let ts := tokens256 { item := n.item, elem := blk * 16 * per, stat := st, last := fin } per data
  let i := (i.push p nd 0 ts).noteStat n.item st
  let i := i.setNode nd fun n => if fin then {} else { n with pos := n.pos + 1 }
  sweep (d.modInst i.core i.slot fun _ => i) i.core i.slot

/-- EXPAND: take a command and read the header; then one block per firing (R410–R412). `phase` is FIRST, `len` COUNT, `pos` the blocks done. -/
def fireExpand (d : Dev) (i : PInst) (p : PImage) (nd : Nat) : Dev :=
  let n := i.node nd
  if !n.busy then
    match i.head p nd 0 with
    | none => d
    | some t =>
      if i.room p nd 0 = 0 then d
      else
        let (base, first, count, clean) := expandCmd t
        if t.stat ≠ 0 then sheetEnd d (i.pop p nd 0) p nd t.item t.stat [t]
        else if !clean ∨ count = 0 ∨ 64 < count then sheetEnd d (i.pop p nd 0) p nd t.item Status.unsupported.code []
        else
          let i := (i.pop p nd 0).setNode nd fun _ => { busy := true, item := t.item, pva := base, len := count, phase := first }
          plateAccess (d.modInst i.core i.slot fun _ => i) i { id := i.nextP, node := nd, item := t.item, what := 100 } base 704 [] false
  else if !(i.out nd).isEmpty ∨ n.buf.isEmpty ∨ i.room p nd 0 < 16 then d
  else
    let blk := n.phase + n.pos
    if n.fail ≠ 0 then emitBlock d i p nd blk (zeros 4096) n.fail 1
    else match readHdr n.buf with
      | none => emitBlock d i p nd blk (zeros 4096) Status.codeFault.code 1
      | some h =>
        let e := (h.ents[blk]?).getD 0
        if (entTag e = 1 ∧ !tableOk h) ∨ !entOk e ∨ entTag e = 0 then
          match expandBlock h [] blk [] with
          | .ok b => emitBlock d i p nd blk b 0 0
          | .error s => emitBlock d i p nd blk (zeros 4096) Status.codeFault.code s
        else
          plateAccess d i { id := i.nextP, node := nd, item := n.item, what := 1 + blk } (n.pva + 4096 * (blk + 1)) (cdiv (entClen e) 64 * 64) [] false

/-- A block of zeros. -/
def zeroBlock : List Byte := zeros 4096

/-- The header of a sheet has been read: a run past its end ends UNSUPPORTED (R412). -/
def expandHeader (d : Dev) (i : PInst) (p : PImage) (nd : Nat) (x : PPiece) : Dev :=
  let n := i.node nd
  let past := match readHdr x.data with
    | some h => decide (h.nblk < n.phase + n.len)
    | none => false
  if x.st == 0 && past then sheetEnd d i p nd n.item Status.unsupported.code []
  else d.modInst i.core i.slot fun _ => i.setNode nd fun n => { n with buf := x.data, fail := x.st }

/-- A stored block has been read: its bytes, or zeros with CODEFAULT (R411, R412). -/
def expandStored (d : Dev) (i : PInst) (p : PImage) (nd blk : Nat) (x : PPiece) : Dev :=
  if x.st ≠ 0 then emitBlock d i p nd blk zeroBlock x.st 0
  else match readHdr (i.node nd).buf with
    | none => d
    | some h => match expandBlock h (canon h.lens) blk x.data with
      | .ok b => emitBlock d i p nd blk b 0 0
      | .error s => emitBlock d i p nd blk zeroBlock Status.codeFault.code s

/-- A read of an EXPAND has ended: its header, or the stored bytes of a block (R411, R412). -/
def expandNext (d : Dev) (i : PInst) (p : PImage) (nd : Nat) : Dev :=
  match (i.out nd).head? with
  | none => d
  | some x =>
    let i' := { i with pieces := i.pieces.filter fun x => x.node != nd }
    if !x.done then d
    else if x.what = 100 then expandHeader d i' p nd x
    else expandStored d i' p nd (x.what - 1) x

/-! ### Commands -/

/-- A station of an instance fires if it can (R383). -/
def stationFire (d : Dev) (core slot nd : Nat) : Dev :=
  match d.inst core slot with
  | none => d
  | some i =>
    if i.fault then d
    else match d.image i.chase i.plate with
      | none => d
      | some p =>
        match p.ty nd with
        | 0x02 => fireSeq d i p nd
        | 0x11 => fireFetch d i p nd
        | 0x12 => fireStore d i p nd
        | 0x15 => fireCompress d i p nd
        | 0x16 => fireExpand d i p nd
        | 0x17 => fireMark d i p nd
        | _ => (match fireTokens d i p nd with | some f => applyFired d core slot i p nd f | none => d)

/-- Emit, in range order, the data of the pieces of a FETCH or SEQ that have ended (R382, R398). -/
def emitDone (p : PImage) (nd : Nat) : Nat → PInst → PInst
  | 0, i => i
  | k + 1, i =>
    match (i.out nd).head? with
    | some x =>
      if !x.done then i
      else
        let data := if x.st = 0 then x.data else x.data.map fun _ => 0
        let ts := tokens256 { item := x.item, elem := x.elem, last := x.last, stat := x.st } 256 data
        let i := { i with pieces := i.pieces.filter fun y => y.id != x.id }
        emitDone p nd k ((i.push p nd 0 ts).noteStat x.item x.st)
    | none => i

/-- A STORE whose data is all written emits its completion token (R382, R214). -/
def storeNext (d : Dev) (i : PInst) (p : PImage) (nd : Nat) : Dev :=
  let n := i.node nd
  let out := i.out nd
  if n.phase ≠ 1 ∨ !(out.all fun x => x.done) then d
  else
    let st := if n.fail ≠ 0 then n.fail else ((out.find? fun x => x.st != 0).map fun x => x.st).getD 0
    let i := { i with pieces := i.pieces.filter fun x => x.node != nd }
    let i := ((i.setNode nd fun _ => {}).push p nd 0 [{ item := n.item, last := true, stat := st, body := .bytes [] }]).noteStat n.item st
    sweep (d.modInst i.core i.slot fun _ => i) i.core i.slot

/-- A node goes on after a piece of it has ended. -/
def pieceNext (d : Dev) (core slot nd : Nat) : Dev :=
  match d.inst core slot with
  | none => d
  | some i => match d.image i.chase i.plate with
    | none => d
    | some p => match p.ty nd with
      | 0x12 => storeNext d i p nd
      | 0x15 => compressNext d i p nd
      | 0x16 => expandNext d i p nd
      | _ => sweep (d.modInst core slot (emitDone p nd 64)) core slot

/-- A piece of an instance has ended (R382): its outcome, then its node. A piece refused before it went has ended too. -/
def platePiece (d : Dev) (core slot : Nat) : Dev :=
  let mine (e : PEv) : Option (Grp × Nat) := match e with
    | PEv.ended g => (d.grp g).bind fun x => match x.cont with
      | Cont.plate k pc _ => if k = instKey core slot then some (x, pc) else none
      | _ => none
    | _ => none
  match d.pool.ev.findSome? mine with
  | some (g, pc) =>
    let d := { d with pool := { d.pool with ev := dropFirst (fun e => e == PEv.ended g.id) d.pool.ev } }.dropGrp g.id
    let st := (g.outs.foldl (fun a o => graver a o.2) Status.ok).code
    let d := d.modInst core slot fun i => { i with pieces := mapIf (fun x => x.id == pc) (fun x => { x with done := true, st := st, data := if x.write then x.data else g.data }) i.pieces }
    (match (d.inst core slot).bind fun i => i.pieces.find? fun x => x.id == pc with
     | some x => pieceNext d core slot x.node
     | none => d)
  | none => match (d.inst core slot).bind fun i => i.pieces.find? fun x => x.done with
    | some x => pieceNext d core slot x.node
    | none => d

/-- A DEADLINE timer expires before its item ends: a timeout token (R382). -/
def deadlineExpiry (d : Dev) (core slot nd item : Nat) : Dev :=
  match d.inst core slot with
  | none => d
  | some i => match d.image i.chase i.plate with
    | none => d
    | some p =>
      match (i.node nd).toks.find? fun t => t.item == item with
      | none => d
      | some t =>
        if i.fault ∨ p.ty nd ≠ 0x18 ∨ i.room p nd 0 = 0 then d
        else
          let i := i.setNode nd fun n => { n with toks := n.toks.filter fun x => x.item != item }
          let i := (i.push p nd 0 [{ t with last := true, stat := Status.timeout.code }]).noteStat item Status.timeout.code
          sweep (d.modInst core slot fun _ => i) core slot

/-- What a standard instance's fault ends on its core, as the loss of the press die would (R399, R515): rounds, gathers, steps, mixtures,
scans; a mover's ring takes no further descriptor and its job ends; the pushes of the chase placed there end with LAYERFAIL. -/
def stdLost (d : Dev) (core chase plate : Nat) : Dev :=
  let on (c : Nat) : Bool := c == core
  match plate with
  | 0x0001 | 0x0002 | 0x0003 | 0x0004 => redCoresLost d on fun q => redPlate q == plate
  | 0x0010 => embCoresLost d on false true
  | 0x0011 => embCoresLost d on true false
  | 0x0018 => moeCoresLost d on
  | 0x0020 => scanCoresLost d on
  | 0x0028 =>
    let r' (r : Ring) : Ring := { r with job := false, taking := false, pieces := [], ending := false }
    { d with pool := { d.pool with rings := mapIf (fun r => r.chase == chase && r.core == core) r' d.pool.rings } }
  | _ => d

/-- An instance goes into FAULT (R399). -/
def instFault (d : Dev) (core slot : Nat) : Dev :=
  let die := coreDie core
  match d.inst core slot with
  | some i =>
    if i.fault then d
    else
      let d := (d.count .cPlfault die).notice 0x0609 die (some i.chase) core i.plate 0
      d.modInst core slot fun i =>
        { i with fault := true, mute := true, items := [], pieces := [], queues := i.queues.map fun _ => [], nodes := i.nodes.map fun _ => {} }
  | none =>
    match d.press.plates.std.find? fun s => s.core == core && s.slot == slot && !s.fault with
    | none => d
    | some s =>
      let d := (d.count .cPlfault die).notice 0x0609 die (some s.chase) core s.plate 0
      let d := { d with press := { d.press with plates := { d.press.plates with
          std := mapIf (fun x => x.core == core && x.slot == slot) (fun x => { x with fault := true }) d.press.plates.std } } }
      stdLost d core s.chase s.plate

/-- The PX_PLATE_STAT word of a slot (R399). -/
def plateWord (d : Dev) (core slot : Nat) : Nat :=
  match d.inst core slot with
  | some i =>
    let st := if i.fault then 3 else if i.drain then 2 else if i.items.isEmpty then 0 else 1
    1 <<< 63 + st <<< 61 + i.plate <<< 45 + i.chase <<< 33 + i.lastst <<< 25 + min 4096 i.items.length
  | none =>
    match d.press.plates.std.find? fun s => s.core == core && s.slot == slot with
    | some s => 1 <<< 63 + (if s.fault then 3 else 0) <<< 61 + s.plate <<< 45 + s.chase <<< 33
    | none => 0

end Sys2Proof.Machine
end

