-- ==== Sys2Proof/Machine/Movers.lean ====
section
/-! DEFINITION. Data movers (R241–R246) and layer pushes into the window (R247, R261–R266). -/

namespace Sys2Proof.Machine
open Sys2Proof

/-- The first ended group whose owner meets a test, taken out of the events and out of the groups. -/
def takeEnded (d : Dev) (p : Cont → Bool) : Option (Grp × Dev) :=
  let mine (e : PEv) : Option Grp := match e with
    | PEv.ended g => (d.grp g).filter fun x => p x.cont
    | _ => none
  (d.pool.ev.findSome? mine).map fun g =>
    (g, { d with pool := { d.pool with ev := dropFirst (fun e => e == PEv.ended g.id) d.pool.ev } }.dropGrp g.id)

/-- Does an access belong to a piece of a ring, to the status write of a ring, to a piece of a layer? -/
def Cont.ofPiece (chase ring : Nat) : Cont → Bool
  | .moverRead c r _ | .moverWrite c r _ => c == chase && r == ring
  | _ => false
def Cont.ofStatus (chase ring : Nat) : Cont → Bool
  | .moverStat c r => c == chase && r == ring
  | _ => false
def Cont.ofLayer (chase n : Nat) : Cont → Bool
  | .layer c l _ => c == chase && l == n
  | _ => false

/-- The gravest outcome of a group (R224). -/
def Grp.worst (g : Grp) : Status := g.outs.foldl (fun a o => graver a o.2) .ok

/-! ### Rings and jobs -/

def Dev.ring (d : Dev) (chase ring : Nat) : Option Ring := d.pool.rings.find? fun r => r.chase == chase && r.ring == ring

def Dev.modRing (d : Dev) (chase ring : Nat) (f : Ring → Ring) : Dev :=
  { d with pool := { d.pool with rings := mapIf (fun r => r.chase == chase && r.ring == ring) f d.pool.rings } }

/-- Fields of a mover descriptor. -/
structure MoverDesc where
  mop    : Nat := 0
  tc     : Nat := 0
  cmen   : Bool := false
  cmark  : Nat := 0
  src    : Nat := 0
  fillb  : Nat := 0
  dst    : Nat := 0
  len    : Nat := 0
  rsv    : Nat := 0
  deriving DecidableEq, Repr

def readMoverDesc (b : List Byte) : MoverDesc :=
  let n := leNat b
  { mop := bits n 63 56, tc := bits n 55 53, cmen := bit n 52, cmark := bits n 51 34, src := bits n 127 72, fillb := bits n 71 64
    dst := bits n 191 136, len := bits n 227 192
    rsv := bits n 33 0 + bits n 135 128 + bits n 255 228 + bits n 310 296 + bits n 383 352 + bits n 511 384 }

/-- Is a mark one the chase holds (R55)? -/
def markOfChase (d : Dev) (chase i : Nat) : Bool := (d.comp chase).bound && (d.comp chase).curF.marks.contains i

/-- May the ring's party reach every byte of a range (R209)? -/
def rangeAccess (d : Dev) (chase party pva len : Nat) (write : Bool) : Bool :=
  rangeAll d chase (d.comp chase).cur pva len fun f => accessOk d f party write

/-- The checks of R243 before any byte moves. -/
def moverCheck (d : Dev) (r : Ring) (m : MoverDesc) : Option Status :=
  let copy := m.mop == 1
  if (m.mop ≠ 1 ∧ m.mop ≠ 2) ∨ m.rsv ≠ 0 ∨ m.len = 0 ∨ (copy ∧ m.src < m.dst + m.len ∧ m.dst < m.src + m.len) then some .unsupported
  else if (copy ∧ !rangeAccess d r.chase r.party m.src m.len false) ∨ !rangeAccess d r.chase r.party m.dst m.len true
      ∨ (m.cmen ∧ !markOfChase d r.chase m.cmark) then some .denied
  else none

/-- The piece at an offset: the largest run that crosses no 4 KiB boundary of source or destination (R243). -/
def moverPiece (m : MoverDesc) (off : Nat) : Nat :=
  let toEnd (a : Nat) : Nat := 4096 - (a + off) % 4096
  min (m.len - off) (min (toEnd m.dst) (if m.mop = 1 then toEnd m.src else 4096))

/-- Open an access of a mover or layer for its ring's party under an epoch; the status it is refused with otherwise (R206 to R229, R458). -/
def ownAccess (d : Dev) (cont : Cont) (die chase epoch party pva len : Nat) (op : PjOp) (data : List Byte) (forced : List Nat) :
    Except Status Dev :=
  match folioAt d chase epoch pva with
  | none => .error .denied
  | some f =>
    let key := keyOf d chase pva f
    if !accessOk d f party op.writes then .error .denied
    else if placeLost d f && !f.gcache then .error .targetLost
    else if (f.kind = 2 ∨ f.kind = 3 ∨ f.kind = 5) ∧ (d.pdk key).isNone then .error .sealed_
    else
      -- a layer the write reaches stops being held in the window (R266)
      let px := dPX ((d.stackServer f.cstack).getD f.cstack) - 16
      let d := if op.writes then windowInv d chase pva px else d
      .ok (openGrp d cont die chase epoch party pva len op data f key forced)

/-- The status write of a job (R245): FAILOFF, DONE, DSTATUS and FAILBLK, bits [351:256] of its descriptor. -/
def moverStatus (d : Dev) (r : Ring) : Dev :=
  let at_ := r.pva + 64 * (r.next % r.ents) + 32
  let v := r.failOff + 2 ^ 55 + r.dstat.code * 2 ^ 56 + r.failN * 2 ^ 64
  let die := coreDie r.core
  let d := d.modRing r.chase r.ring fun r => { r with ending := true }
  let d := d.count .cMovjob die
  let d := if r.dstat = .ok then d else d.count .cMovfail die
  match ownAccess d (.moverStat r.chase r.ring) die r.chase (d.comp r.chase).cur r.party at_ 12 .store (leBytes 12 v) [] with
  | .ok d => d
  | .error _ =>
    -- the write found no place: it has failed, and its end is what the ring waits for
    let g : Grp := { id := d.pool.nextG, cont := .moverStat r.chase r.ring, pva := at_, len := 12, write := true }
    { d with pool := { d.pool with nextG := d.pool.nextG + 1, grps := d.pool.grps ++ [g], ev := d.pool.ev ++ [PEv.ended g.id] } }

/-- A piece of a job has failed (R244). -/
def pieceFails (r : Ring) (off : Nat) (st : Status) : Ring :=
  if r.failN = 0 then { r with failN := 1, dstat := st, failOff := off } else { r with failN := r.failN + 1 }

/-- Write a piece to its destination: its bytes, or poison where its source failed (R244). -/
def pieceWrite (d : Dev) (r : Ring) (p : MPiece) (b : List Byte) : Dev :=
  let m := readMoverDesc r.desc
  let dst := m.dst + p.off
  let poison := p.bad.isSome
  let remote := ((folioAt d r.chase p.epoch dst).map fun f => f.kind == 3 || f.kind == 4).getD false
  -- a poisoned piece takes whole granules with it; a STORE to another device names its own bytes only
  let lo := if poison ∧ !remote then dst / 64 * 64 else dst
  let hi := if poison ∧ !remote then cdiv (dst + p.len) 64 * 64 else dst + p.len
  let data := if poison then zeros (hi - lo) else b
  match ownAccess d (.moverWrite r.chase r.ring p.off) (coreDie r.core) r.chase p.epoch r.party lo (hi - lo) .store data
      (if poison then granulesOf lo (hi - lo) else []) with
  | .ok d => d
  | .error st => d.modRing r.chase r.ring fun r => pieceFails { r with pieces := r.pieces.filter fun q => q.off != p.off } p.off st

/-- Issue one piece under the current epoch (R246). -/
def pieceIssue (d : Dev) (r : Ring) (off : Nat) : Dev :=
  let m := readMoverDesc r.desc
  let epoch := (d.comp r.chase).cur
  let n := moverPiece m off
  let p : MPiece := { off := off, len := n, epoch := epoch }
  let d := d.modRing r.chase r.ring fun r => { r with pieces := r.pieces ++ [p] }
  if m.mop = 2 then pieceWrite d r p (List.replicate n (BitVec.ofNat 8 m.fillb))
  else match ownAccess d (.moverRead r.chase r.ring off) (coreDie r.core) r.chase epoch r.party (m.src + off) n .load [] [] with
    | .ok d => d
    | .error st =>
      let d := d.modRing r.chase r.ring fun r => { r with pieces := mapIf (fun q => q.off == off) (fun q => { q with bad := some st }) r.pieces }
      pieceWrite d r { p with bad := some st } []

/-- Issue what the ring may have out; the job ends once every piece has ended (R243, R245, R246). -/
def moverIssue (chase ring : Nat) : Nat → Dev → Dev
  | 0, d => d
  | n + 1, d => match d.ring chase ring with
    | none => d
    | some r =>
      let m := readMoverDesc r.desc
      let cur := (d.comp chase).cur
      if !r.job ∨ r.ending then d
      else if m.len ≤ r.pos then (if r.pieces.isEmpty then moverStatus d r else d)
      else if r.movout ≤ r.pieces.length ∨ r.pieces.any (fun p => p.epoch != cur) then d
      else
        let d := d.modRing chase ring fun r => { r with pos := r.pos + moverPiece m r.pos }
        moverIssue chase ring n (pieceIssue d r r.pos)

/-- More than the pieces a job may have out. -/
abbrev issueFuel : Nat := 128

/-- A mover takes the next descriptor (R242): the doorbell's count goes down by one and the descriptor is read. -/
def moverTake (d : Dev) (chase ring : Nat) : Dev :=
  match d.ring chase ring with
  | none => d
  | some r =>
    if r.job ∨ r.taking ∨ r.staged ∨ r.gone ∨ !coreServes d r.core [0x0028] then d
    else
      let (d, st, took) := markSignal d chase r.mark 0x04 1 0
      if st ≠ .ok ∨ !took then d
      else
        let d := d.modRing chase ring fun r =>
          { r with taking := true, desc := [], movout := d.fld .impPoolCfg 0 19 12, pos := 0, pieces := [], failN := 0, dstat := .ok
                   failOff := 0, ending := false }
        match ownAccess d (.moverDesc chase ring) (coreDie r.core) chase (d.comp chase).cur r.party (r.pva + 64 * (r.next % r.ents)) 64
            .load [] [] with
        | .ok d => d
        | .error st =>
          let d := d.modRing chase ring fun r => { r with taking := false, job := true, dstat := st, desc := zeros 64 }
          match d.ring chase ring with
          | some r => moverStatus d r
          | none => d

/-- The descriptor has been read: the job is checked and begins, or ends at once (R243). A descriptor that could not be read ends its job
with that status. -/
def moverDescRead (d : Dev) (chase ring : Nat) (g : Grp) : Dev :=
  let st := g.worst
  let d := d.modRing chase ring fun r => { r with taking := false, job := true, desc := if st = .ok then g.data else zeros 64 }
  match d.ring chase ring with
  | none => d
  | some r =>
    let bad := if st ≠ .ok then some st else moverCheck d r (readMoverDesc r.desc)
    match bad with
    | some st => moverStatus d { r with dstat := st }
    | none => moverIssue chase ring issueFuel d

/-- A read or write of a piece has ended (R243, R244, R246). -/
def moverPieceEnded (d : Dev) (r : Ring) (g : Grp) (off : Nat) (write : Bool) : Dev :=
  match r.pieces.find? fun p => p.off == off with
  | none => d
  | some p =>
    let st := g.worst
    let drop (d : Dev) (f : Ring → Ring) : Dev :=
      d.modRing r.chase r.ring fun r => f { r with pieces := r.pieces.filter fun q => q.off != off }
    if st = .mapGone then pieceIssue (drop d id) r off
    else if !write then
      let p := if st = .ok then p else { p with bad := some st }
      pieceWrite (d.modRing r.chase r.ring fun r => { r with pieces := mapIf (fun q => q.off == off) (fun _ => p) r.pieces }) r p g.data
    else if st ≠ .ok then drop d fun r => pieceFails r off st
    else match p.bad with
      | some st => drop d fun r => pieceFails r off st
      | none => drop d id

/-- The next access of a ring that has ended, one piece at a time. -/
def moverPieceDone (d : Dev) (chase ring : Nat) : Dev :=
  match takeEnded d (Cont.ofPiece chase ring) with
  | none => moverIssue chase ring issueFuel d
  | some (g, d) =>
    match d.ring chase ring, g.cont with
    | some r, .moverRead _ _ off => moverIssue chase ring issueFuel (moverPieceEnded d r g off false)
    | some r, .moverWrite _ _ off => moverIssue chase ring issueFuel (moverPieceEnded d r g off true)
    | _, _ => d

/-- The RESP of the status write has come: CMARK is raised, and the ring goes on to its next entry (R242, R245). -/
def moverStatusDone (d : Dev) (chase ring : Nat) : Dev :=
  match takeEnded d (Cont.ofStatus chase ring), d.ring chase ring with
  | some (_, d), some r =>
    let m := readMoverDesc r.desc
    let d := d.modRing chase ring fun r => { r with job := false, ending := false, next := (r.next + 1) % r.ents }
    let d := { d with pool := { d.pool with rings := d.pool.rings.filter fun r => !(r.chase == chase && r.ring == ring && r.gone) } }
    if m.cmen ∧ markOfChase d chase m.cmark then markAdd d chase m.cmark 1 else d
  | some (_, d), none => d
  | none, _ => d

/-! ### Layers -/

def Dev.layer (d : Dev) (chase n : Nat) : Option Layer := d.pool.layers.find? fun l => l.chase == chase && l.layer == n && !l.staged

def Dev.modLayer (d : Dev) (chase n : Nat) (f : Layer → Layer) : Dev :=
  { d with pool := { d.pool with layers := mapIf (fun l => l.chase == chase && l.layer == n && !l.staged) f d.pool.layers } }

/-- The IMP_LAYER word of a layer. -/
def Layer.word (l : Layer) : Nat :=
  l.need * 2 ^ 256 + l.st.code * 2 ^ 253 + l.arm * 2 ^ 251 + b2n l.shres * 2 ^ 250 + l.lstat * 2 ^ 242 + l.lmark * 2 ^ 224
    + l.pva * 2 ^ 168 + l.shpva * 2 ^ 112 + l.lpages * 2 ^ 80 + l.shpages * 2 ^ 48

def Layer.held (l : Layer) : Bool := match l.st with
  | .pushing | .ready | .missed => true
  | _ => false

/-- Layers of a chase held in the window, one of them apart. -/
def layersHeld (d : Dev) (chase but : Nat) : List Layer :=
  d.pool.layers.filter fun l => l.chase == chase && !l.staged && l.held && l.layer != but

/-- The READY layer that was pushed earliest. -/
def earliestReady (ls : List Layer) : Option Layer :=
  (ls.filter fun l => l.st == .ready).foldl (fun b l => match b with
    | none => some l
    | some x => if l.order < x.order then some l else some x) none

/-- The layers that must be retired to make room (R262); none if room cannot be made. -/
def retireList (depth window size : Nat) : Nat → List Layer → Option (List Layer)
  | 0, _ => none
  | n + 1, ls =>
    let bytes := sumNat (ls.map fun l => 4096 * l.lpages)
    if ls.length + 1 ≤ depth ∧ bytes + size ≤ window then some []
    else match earliestReady ls with
      | none => none
      | some x => (retireList depth window size n (ls.filter fun l => l.layer != x.layer)).map (x :: ·)

/-- The push of a layer ends otherwise than OK (R247, R265): FAILED; the PUSH still unanswered takes the status, otherwise LAYERFAIL. -/
def layerFail (d : Dev) (l : Layer) (st : Status) : Dev :=
  let px := (d.stackServer l.stack).getD l.stack
  let mine (x : CLine) : Bool := x.window && x.st == .s && x.chase == l.chase && decide (l.pva ≤ x.pva ∧ x.pva < l.pva + 4096 * l.lpages)
  let d := { d with pool := { d.pool with lines := d.pool.lines.filter fun x => !mine x } }
  let d := d.modLayer l.chase l.layer fun l => { l with st := .failed, lstat := st.code, req := none, copied := [], grps := [] }
  match l.req with
  | some id => answer d id st
  | none => d.notice 0x0501 (dPX px) (some l.chase) l.layer st.code 0

/-- Issue the pieces a push may have out, in ascending order (R247). -/
def layerIssue (chase n : Nat) : Nat → Dev → Dev
  | 0, d => d
  | k + 1, d => match d.layer chase n with
    | none => d
    | some l =>
      if (l.st ≠ .pushing ∧ l.st ≠ .missed) ∨ l.lpages ≤ l.pos ∨ l.movout ≤ l.grps.length then d
      else
        let pva := l.pva + 4096 * l.pos
        let party := ((folioAt d chase (d.comp chase).cur pva).map fun f => f.party).getD 0
        match ownAccess d (.layer chase n l.pos) l.die chase (d.comp chase).cur party pva 4096 .load [] [] with
        | .error st => layerFail d l st
        | .ok d => layerIssue chase n k (d.modLayer chase n fun l => { l with pos := l.pos + 1, grps := l.grps ++ [l.pos] })

/-- Has fabric time reached NEED (R264)? -/
def needReached (d : Dev) (l : Layer) : Bool := decide (l.need ≤ d.now)

/-- A PUSH whose layer is known (R262): refused, or the window makes room and the layer is read. -/
def pushLayer (d : Dev) (id die : Nat) (k : Pkt) : Dev :=
  let n := wbits k.w2 63 48
  if wbits k.w2 47 0 ≠ 0 then answer d id .unsupported
  else match d.layer k.chase n with
    | none => answer d id .unsupported
    | some l =>
      let f := (d.comp k.chase).curF
      if !bit f.req.services 5 then answer d id .denied
      else if l.st = .pushing ∨ l.st = .missed then answer d id .busy
      else
        let others := layersHeld d k.chase n
        match retireList f.depth f.windowB (4096 * l.lpages) (others.length + 1) others with
        | none => answer d id .busy
        | some out =>
          let d := foldOver (l :: out) d fun x d => retireLayer d x
          let order := d.pool.nextUse
          let d := { d with pool := { d.pool with nextUse := order + 1 } }
          let d := d.modLayer k.chase n fun l =>
            { l with st := .pushing, need := k.w3.toNat, die := die, req := some id, pos := 0, grps := [], copied := [], order := order
                     movout := d.fld .impPoolCfg 0 19 12 }
          let d := d.modLayer k.chase n fun l => if needReached d l then { l with st := .missed } else l
          layerIssue k.chase n issueFuel d

/-- A PUSH at its ingress. -/
def pushFx (x : Rx) (d : Dev) : Dev :=
  Ck.dev do
    let (d, id, k) ← ingress d x false
    if !isLocal d k then .ok (forwardReq d id k (some (x.port, x.vl))) else .ok (pushLayer d id (portDie x.port) k)

/-- The last piece has been copied: READY, LMARK raised by one, the PUSH answered OK if it still waits (R264, R265). -/
def layerReady (d : Dev) (l : Layer) : Dev :=
  let d := d.modLayer l.chase l.layer fun l => { l with st := .ready, lstat := 0, req := none }
  let d := match l.req with
    | some id => answer d id .ok
    | none => d
  markAdd d l.chase l.lmark 1

/-- A piece of a push has ended (R247): its lines are the window's, or the push fails. -/
def layerPieceDone (d : Dev) (chase n : Nat) : Dev :=
  match takeEnded d (Cont.ofLayer chase n) with
  | none => layerIssue chase n issueFuel d
  | some (g, d) =>
    match d.layer chase n with
    | none => d
    | some l =>
      let pc := (g.pva - l.pva) / 4096
      if (l.st ≠ .pushing ∧ l.st ≠ .missed) ∨ !l.grps.contains pc then d
      else if g.worst ≠ .ok then layerFail d l g.worst
      else
        let here (x : CLine) : Bool := x.chase == chase && x.pva / 4096 == g.pva / 4096 && x.st == .s
        let d := { d with pool := { d.pool with lines := mapIf here (fun x => { x with window := true }) d.pool.lines } }
        let d := d.modLayer chase n fun l =>
          { l with grps := l.grps.filter (· != pc), copied := l.copied ++ (upTo 16).map (g.pva + 256 * ·) }
        match d.layer chase n with
        | some l => if l.lpages ≤ l.pos ∧ l.grps.isEmpty then layerReady d l else layerIssue chase n issueFuel d
        | none => d

/-- Fabric time reaches NEED while the layer is PUSHING (R264). -/
def layerNeed (d : Dev) (chase n : Nat) : Dev :=
  d.modLayer chase n fun l => if l.st = .pushing ∧ needReached d l then { l with st := .missed } else l

/-- A PUSH still running near its CTO is answered OK with RVAL 1 (R265). -/
def pushEarly (d : Dev) (chase n : Nat) : Dev :=
  match d.layer chase n with
  | none => d
  | some l => match l.req with
    | some id => answer (d.modLayer chase n fun l => { l with req := none }) id .ok 1
    | none => d

end Sys2Proof.Machine
end

