-- ==== Sys2Proof/Machine/Settle.lean ====
section
/-! DEFINITION. What one step sets going inside the device, services included, and the copy of a migrating folio (R71, R72). -/

namespace Sys2Proof.Machine
open Sys2Proof

/-! ### The copy of a folio (R71, R72) -/

/-- Is a folio a frozen one whose copy is made while its forme is staged (R71)? -/
def stageMoves (d : Dev) (chase folio : Nat) : Bool := (((d.comp chase).staged).map fun g => g.moving.contains folio).getD false

/-- The entry of a folio being copied, as one in dual-write, with the key of its keying party: from the current forme, or for a frozen folio
with the place the staged forme gives it (R71, R72). -/
def migEntry (d : Dev) (chase folio : Nat) : Option (Folio × Nat) :=
  let cur := folioAt d chase (d.comp chase).cur (folio * folioB)
  let new := ((d.comp chase).staged).bind fun g => tfind g.forme.folios folio
  let e : Option Folio := match cur with
    | none => none
    | some f =>
      if f.mig then some f
      else if !stageMoves d chase folio then none
      else new.map fun n => { f with mig := true, mkind := n.kind, mtarget := n.target, mframe := n.frame }
  e.map fun f => (f, keyOf d chase (folio * folioB) f)

/-- Status, detail and payload with which a stage is answered (R45, R46, R551). -/
def stageReply (d : Dev) (chase : Nat) : Status × Nat × Nat × List Nat :=
  match (d.comp chase).staged with
  | none => (.ok, 0, 0, [])
  | some g =>
    if g.adm = .tight then
      let f := g.forme
      (.tight, 0x05, predSlow f.req.layers f.depth, [g.shortN, f.req.shadow * folioB - f.shadowB, f.depth])
    else if g.adm = .noFit then (.noFit, 0x01, g.short, [g.shortN])
    else (.ok, 0, 0, [])

/-- The copies of a stage are complete: the staging command still running in the chase's domain is answered. `aux` 1 marks it; a stage
of the Imposer's own has opcode 0 and no reply. -/
def finishStage (d : Dev) (chase : Nat) : Dev :=
  match d.mgmt.running.find? fun r => r.dom == .chase chase && r.aux == 1 with
  | none => d
  | some r =>
    let (st, dc, dv, data) := stageReply d chase
    if r.opc = 0 then { d with mgmt := { d.mgmt with running := d.mgmt.running.filter (· != r) } } else d.finish r.opc r.key st dc dv data

/-- A line of a folio has been copied; with the last line of a frozen folio the folio leaves the list of its stage. -/
def lineCopied (d : Dev) (chase folio line : Nat) : Dev :=
  let d := d.modComp chase fun c => { c with migs := mapIf (fun m => m.1 == folio) (fun m => (m.1, line + 1)) c.migs }
  if line + 1 < 8192 ∨ !stageMoves d chase folio then d
  else
    let d := d.modComp chase fun c =>
      { c with migs := c.migs.filter (fun m => m.1 != folio)
               staged := c.staged.map fun g => { g with moving := g.moving.filter (· != folio) } }
    if (((d.comp chase).staged).map fun g => g.moving.isEmpty).getD false then finishStage d chase else d

/-- Read one line of a migrating folio at its old place. -/
def copyRead (d : Dev) (chase folio line : Nat) : Dev :=
  match migEntry d chase folio with
  | none => d
  | some (f, key) =>
    openGrp d (.copy chase folio line) d.kpDie chase (d.comp chase).cur f.party (folio * folioB + 256 * line) 256 .load []
      { f with mig := false } key

/-- Is a write of a line on its way to the new place? -/
def dualWriting (d : Dev) (f : Folio) (line : Nat) : Bool :=
  let new : Loc := { kind := f.mkind, target := f.mtarget, frame := f.mframe }
  d.pool.jobs.any fun j => j.op.writes && (j.loc == new || j.dual == some new) && j.off / 256 == line

/-- A line has been read, or written at its new place. A read that a dual write overtook is repeated; a line that could not be read good is
copied poisoned. -/
def copyNext (d : Dev) (g : Grp) (chase folio line : Nat) : Dev :=
  let d := d.dropGrp g.id
  match migEntry d chase folio with
  | none => d
  | some (f, key) =>
    if g.write then
      let d := lineCopied d chase folio line
      if line + 1 < 8192 then copyRead d chase folio (line + 1) else d
    else if dualWriting d f line then copyRead d chase folio line
    else
      let to_ : Folio := { f with kind := f.mkind, target := f.mtarget, frame := f.mframe, mig := false, gcache := false }
      let gran (i : Nat) : Bool := g.outs.any (fun o => o.2 != .poisoned) || g.pois.contains i
      let forced := ((upTo 4).filter gran).map (4 * line + ·)
      openGrp d (.copy chase folio line) d.kpDie chase (d.comp chase).cur f.party (folio * folioB + 256 * line) 256 .store g.data to_ key forced

/-! ### Settling -/

/-- Does an event wait for a command of its own: an access of a mover piece, a status write, a layer piece, a plate piece? -/
def forRow (d : Dev) (e : PEv) : Bool := match e with
  | .ended g => match (d.grp g).map fun x => x.cont with
    | some (Cont.moverRead ..) | some (Cont.moverWrite ..) | some (Cont.moverStat ..) | some (Cont.layer ..) | some (Cont.plate ..) => true
    | _ => false
  | _ => false

/-- Deal with an event of a service, a counting mark, a mover's descriptor or a copy. -/
def svcEvent (d : Dev) (e : PEv) : Dev := match e with
  | .counted m => serviceCounted d m
  | .ended gid => match d.grp gid with
    | none => d
    | some g => match g.cont with
      | .service sid key =>
        let (d, done) := svcEnded d sid key g
        (match (if done then d.svc sid else none) with
         | some s => svcNext d s
         | none => d)
      | .moverDesc c r => moverDescRead (d.dropGrp g.id) c r g
      | .copy c f l => copyNext d g c f l
      | _ => d
  | _ => oneEvent d e

/-- Run the pool and the services until nothing more can happen within the step. -/
def settleAll : Nat → Dev → Dev
  | 0, d => d
  | n + 1, d =>
    let d := settlePool settleFuel d
    match d.pool.ev.find? fun e => !forRow d e with
    | some e => settleAll n (svcEvent { d with pool := { d.pool with ev := dropFirst (· == e) d.pool.ev } } e)
    | none => d

/-- Everything that follows from a command within its step. -/
def settle (d : Dev) : Dev := settleAll settleFuel d

/-- The meaning of a command whose effect on the device sets accesses or services going. -/
def onPool (f : Dev → Dev) (s : State) : Out := onDev (fun d => settle (f d)) s

end Sys2Proof.Machine
end

