-- ==== Sys2Proof/Machine/Stage.lean ====
section
/-! DEFINITION. Staging a forme: folio placement, what definitions occupy, chunks, shards and experts on cores, the stage itself
(R45–R56, R65, R71, R72, R254, R321, R322, R351, R370, R391, R457). -/

namespace Sys2Proof.Machine
open Sys2Proof

/-! ### Folio placement (R54, R71, R72) -/

/-- May a region be galley-resident: STATE folios of a private or shared region (R54, R208). -/
def regionResident (r : Region) : Bool := r.use == 1 && (r.cls == 0 || r.cls == 1)

/-- Where placement stands: the device with its free frames, the forme, STATE folios placed, frames used, folios that found no room. -/
structure Place where
  dev    : Dev
  forme  : Forme
  state  : Nat := 0
  used   : List (Nat × Nat × Nat) := []
  miss   : Nat := 0
  n      : Nat := 0       -- folios placed: spreads CSTACK
  moving : List Nat := [] -- frozen folios that move (R71)

/-- The stack a STATE folio goes to: the stacks of the core set in turn, the first with a free frame (R254). -/
def pickStack (d : Dev) (stks : List Nat) (n : Nat) : Option Nat :=
  ((upTo stks.length).map fun i => (stks[(n + i) % stks.length]?).getD 0).find? fun s => (takeFrame d 1 s).isSome

/-- A free frame for a folio of a region: a slot of a stripe set, a galley frame under the STATE allowance, or a tray frame. -/
def findPlace (stks : List Nat) (stateF : Nat) (r : Region) (sealed_ : Bool) (p : Place) : Option ((Nat × Nat × Nat) × Dev) :=
  let at_ (k t : Nat) : Option ((Nat × Nat × Nat) × Dev) := (takeFrame p.dev k t).map fun x => ((k, t, x.1), x.2)
  if r.cls = 2 then (pickSet p.dev).bind fun s => at_ 5 s
  else
    let g := if regionResident r && decide (p.state < stateF) then (pickStack p.dev stks p.n).bind fun s => at_ 1 s else none
    match g with
    | some q => some q
    | none => (pickTray p.dev p.used sealed_).bind fun t => at_ t.1 t.2

/-- Enter a folio. -/
def Place.add (p : Place) (no : Nat) (f : Folio) : Place :=
  { p with forme := { p.forme with folios := tput p.forme.folios no f }, n := p.n + 1
           used := p.used ++ f.locs, state := p.state + b2n (f.kind == 1 && f.use == 1) }

/-- Give a mapped folio another place: a frozen one moves in one commit, any other in two (R71, R72). -/
def Place.moveTo (p : Place) (no : Nat) (f : Folio) (x : (Nat × Nat × Nat) × Dev) : Place :=
  let p := { p with dev := x.2 }
  if f.rclass = 1 ∧ f.frozen then
    { p.add no { f with kind := x.1.1, target := x.1.2.1, frame := x.1.2.2 } with moving := p.moving ++ [no] }
  else p.add no { f with mig := true, mkind := x.1.1, mtarget := x.1.2.1, mframe := x.1.2.2 }

/-- Place one folio of a region. One that is mapped keeps its place unless the place is lost or no longer fits its use; under `hold` always. -/
def placeFolio (hold : Bool) (chase : Nat) (stks : List Nat) (keep : Option Forme) (stateF : Nat) (r : Region) (no : Nat)
    (p : Place) : Place :=
  let gc := r.cls != 2 && ((r.cls == 1 && r.frozen) || r.cache)
  let cst := if stks.isEmpty then 0 else (stks[p.n % stks.length]?).getD 0
  let base : Folio := { rclass := r.cls, party := r.party, gcache := gc, cstack := cst, use := r.use, frozen := r.frozen }
  let sealed_ := (p.dev.pdk (keyOf p.dev chase (no * folioB) base)).isSome
  let old := (keep.bind fun f => tfind f.folios no).filter fun f => f.rclass == r.cls && f.kind != 0
  match old with
  | some f =>
    let f' : Folio := { f with party := r.party, gcache := gc, use := r.use, frozen := r.frozen
                               cstack := if f.gcache && stks.contains f.cstack then f.cstack else cst }
    let stays := f.use == r.use && !placeLost p.dev f && (f.kind != 1 || f.use != 1 || decide (p.state < stateF))
    if stays || f.mig || hold then p.add no f'
    else match findPlace stks stateF r sealed_ p with
      | some x => p.moveTo no f' x
      | none => if f.use == r.use then p.add no f' else { p with miss := p.miss + 1 }
  | none => match findPlace stks stateF r sealed_ p with
    | some x => { p with dev := x.2 }.add no { base with kind := x.1.1, target := x.1.2.1, frame := x.1.2.2 }
    | none => { p with miss := p.miss + 1 }

/-- Place every folio of every region. -/
def placeAll (d : Dev) (hold : Bool) (chase : Nat) (f : Forme) (keep : Option Forme) (q : CompReq) (stateF : Nat) : Place :=
  let stks := stacksOf d f.cores
  let p : Place := { dev := d, forme := f, used := framesUsed (liveFormes d) }
  foldOver q.regions p fun r p =>
    foldOver (upTo r.size) p fun i p => placeFolio hold chase stks keep stateF r (r.base / folioB + i) p

/-- Move the folios the Imposer names (R56). -/
def moveFolios (ms : List (Nat × Nat × Nat)) (p : Place) : Place :=
  foldOver ms p fun m p => match (tfind p.forme.folios m.1).filter fun f => !f.mig with
    | none => p
    | some f => match takeFrame p.dev m.2.1 m.2.2 with
      | some x => p.moveTo m.1 f ((m.2.1, m.2.2, x.1), x.2)
      | none => p

/-- Folio entries in which two formes differ. -/
def folioChanges (f g : Forme) : Nat :=
  (((f.folios ++ g.folios).map Prod.fst).eraseDups.filter fun n => tfind f.folios n != tfind g.folios n).length

/-! ### Forme-store pages (R49) -/

/-- Pages of 256 folio entries a forme needs that another does not share (R49). -/
def pagesBeyond (f : Forme) (g : Option Forme) : Nat :=
  let pages := (f.folios.map fun e => e.1 / 256).eraseDups
  let page (h : Forme) (n : Nat) : Tbl Folio := h.folios.filter fun e => e.1 / 256 == n
  (pages.filter fun n => match g with | some h => page h n != page f n | none => true).length

/-- Folio entries the forme store has in use (R49). -/
def storeUsed (d : Dev) : Nat :=
  sumNat (d.imp.comps.map fun e =>
    if e.2.bound then
      256 * (pagesBeyond e.2.curF none + ((e.2.drnF.map fun f => pagesBeyond f (some e.2.curF)).getD 0)
        + ((e.2.staged.map fun g => pagesBeyond g.forme (some e.2.curF)).getD 0))
    else 0)

abbrev storeEntries : Nat := 201326592

/-! ### Definitions of a chase as the staged forme sees them: in effect and not leaving, or staged -/

def nextReds (d : Dev) (chase : Nat) : List Red := d.press.reds.filter fun r => r.chase == chase && !r.leaving
def nextEmbs (d : Dev) (chase : Nat) : List Emb := d.press.embs.filter fun e => e.chase == chase && !e.leaving
def nextMoes (d : Dev) (chase : Nat) : List Moe := d.press.moes.filter fun m => m.chase == chase && !m.leaving
def nextRings (d : Dev) (chase : Nat) : List Ring := d.pool.rings.filter fun r => r.chase == chase && !r.leaving && !r.gone
def nextBinds (d : Dev) (chase : Nat) : List PBind := d.press.plates.binds.filter fun b => b.chase == chase && !b.leaving
def nextLayers (d : Dev) (chase : Nat) : List Layer :=
  d.pool.layers.filter fun l => l.chase == chase &&
    (l.staged || !(d.pool.layers.any fun x => x.chase == chase && x.layer == l.layer && x.staged))

/-- Marks that a definition, binding or layer of the chase names, in effect or staged (R55, R427). -/
def boundMarks (d : Dev) (chase : Nat) : List Nat :=
  ((d.press.reds.filter fun r => r.chase == chase).flatMap fun r => [r.d.dmark] ++ (upTo 4).map (r.d.cmark + ·))
    ++ ((d.press.embs.filter fun e => e.chase == chase && e.d.home == 0).flatMap fun e => [e.d.umark, e.d.udone])
    ++ ((d.pool.rings.filter fun r => r.chase == chase && !r.gone).map fun r => r.mark)
    ++ ((d.press.plates.binds.filter fun b => b.chase == chase).flatMap fun b => b.rings.map fun r => r.mark)
    ++ ((d.pool.layers.filter fun l => l.chase == chase).map fun l => l.lmark)

/-! ### What definitions occupy (R321, R361, R369, R390) -/

/-- Accumulator slots of one chunk. A COPY round reserves bitmaps only (R390). -/
def chunkSlots (d : Dev) (q : RedDef) : Nat := if q.op = 1 then 0 else q.bufs * q.chunkelem / (if redProd d q then 1 else 2)

/-- Contribution bitmaps of one chunk, in bytes of core SRAM. -/
def chunkSram (q : RedDef) : Nat := q.bufs * cdiv (q.lranks.length + q.children.length) 8

def accBytes (prod : Bool) : Nat := if prod then 80 else 40

/-- Bytes with their 8-byte packet headers, in whole lines. -/
def trainLines (n : Nat) : Nat := cdiv (n + 8 * cdiv n 4088) 256 * 256

/-- The release buffer of a chunk: the larger of its carry forms and its result, pairs where TOPK or SPARSE delivers them (R321). -/
def releaseBytes (d : Dev) (q : RedDef) (c : Nat) : Nat :=
  let n := q.stop c - q.first c
  let out := fmtRow d q.ofmt
  let res := if q.topk ≠ 0 ∨ q.op = 2 then n * (4 + cdiv (elemBits out.code) 8) else vecBytes out n
  let up := if q.role = 1 then (if q.op = 1 then vecBytes (fmtRow d q.ifmt) n else n * accBytes (redProd d q)) else 0
  trainLines (max res up)

def redBytes (d : Dev) (q : RedDef) : Nat :=
  sumNat ((upTo q.nchunk).map (releaseBytes d q))
    + (if q.topk ≠ 0 ∧ q.role = 0 then 2 * q.nelem * accBytes (redProd d q) else 0)

def embBytes (d : Dev) (q : EmbDef) : Nat := if q.home = 1 then 0 else q.nshard * q.urows * q.dim * accBytes (fmtRow d q.grow).product

def moeBytes (q : MoeDef) : Nat := q.ndisp * q.cmbslots * q.tokelem * 80

/-- Bytes of the STATE allowance that the definitions of a chase take. -/
def defBytes (d : Dev) (chase : Nat) : Nat :=
  sumNat ((nextReds d chase).map fun r => redBytes d r.d) + sumNat ((nextEmbs d chase).map fun e => embBytes d e.d)
    + sumNat ((nextMoes d chase).map fun m => moeBytes m.d)

/-- Bytes of a forme's STATE allowance neither folios nor definitions take; the shortfall when they take more. -/
def stateRoom (d : Dev) (chase : Nat) (f : Forme) : Except Nat Nat :=
  let used := defBytes d chase + folioB * (f.folios.filter fun e => e.2.kind == 1 && e.2.use == 1).length
  let have_ := f.req.stateF * folioB
  if used ≤ have_ then .ok (have_ - used) else .error (used - have_)

/-! ### Cores (R52, R53, R387, R391) -/

/-- The definition of a chunk entry, as the staged forme sees it. -/
def nextRed (d : Dev) (chase rid : Nat) : Option Red := (nextReds d chase).find? fun r => r.d.rid / 16 == rid / 16

/-- The standard plates a forme needs on a core. -/
def plateOn (d : Dev) (chase : Nat) (f : Forme) (core : Nat) : List Nat :=
  let reds := (f.chunks.filter fun e => e.core == core || (e.onAlt && e.alt == some core)).filterMap fun e =>
    (nextRed d chase e.rid).map fun r => redPlate r.d
  (reds ++ (if f.shards.any fun e => e.core == core then [0x10, 0x11] else [])
    ++ (if f.experts.any fun e => e.core == core then [0x19] else [])
    ++ (if (nextMoes d chase).any fun m => m.disp.contains core then [0x18] else [])
    ++ (if (nextRings d chase).any fun r => r.core == core then [0x28] else [])).eraseDups

/-- What is resident on a core under a forme, reservations included (R387, R390). User instances that still drain count. -/
def coreLoad (d : Dev) (chase : Nat) (f : Forme) (core : Nat) : CoreUse :=
  let u := (plateOn d chase f core).foldl (fun a p => a.add (stdUse p)) ({} : CoreUse)
  let img (c p : Nat) : CoreUse := ((d.image c p).map imageUse).getD {}
  let u := (nextBinds d chase).foldl (fun a b => (b.rings.filter fun r => r.core == core).foldl (fun a _ => a.add (img chase b.plate)) a) u
  let u := (d.press.plates.insts.filter fun i => i.core == core && i.drain).foldl (fun a i => a.add (img i.chase i.plate)) u
  let u := (f.chunks.filter fun e => e.core == core).foldl (fun a e => match nextRed d chase e.rid with
    | some r => a.add { slots := chunkSlots d r.d, sram := chunkSram r.d }
    | none => a) u
  u.add { sram := 8 * (f.experts.filter fun e => e.core == core).length
                  + 1024 * ((nextRings d chase).filter fun r => r.core == core).length }

/-- Can a core take these standard plates, if it lacks them, and this reservation besides? -/
def coreTakes (d : Dev) (chase : Nat) (f : Forme) (core : Nat) (ps : List Nat) (extra : CoreUse) : Bool :=
  let have_ := plateOn d chase f core
  ((ps.filter fun p => !have_.contains p).foldl (fun a p => a.add (stdUse p)) ((coreLoad d chase f core).add extra)).fits

/-- Work placed on a core by a forme: the load the Imposer compares, equal loads going to the lowest core. -/
def coreWork (d : Dev) (chase : Nat) (f : Forme) (core : Nat) : Nat :=
  (f.chunks.filter fun e => e.core == core).length + (f.shards.filter fun e => e.core == core).length
    + (f.experts.filter fun e => e.core == core).length + ((nextRings d chase).filter fun r => r.core == core).length
    + ((nextMoes d chase).filter fun m => m.disp.contains core).length
    + sumNat ((nextBinds d chase).map fun b => (b.rings.filter fun r => r.core == core).length)

/-- The element of a list with the least measure, the first among equals. -/
def leastBy (m : Nat → Nat) (l : List Nat) : Option Nat :=
  l.foldl (fun b x => match b with | none => some x | some y => if m x < m y then some x else some y) none

/-- The least loaded core of the set that takes the work (R54). -/
def leastCore (d : Dev) (chase : Nat) (f : Forme) (ps : List Nat) (extra : CoreUse) (ok : Nat → Bool) : Option Nat :=
  leastBy (coreWork d chase f) (f.cores.filter fun c => ok c && coreTakes d chase f c ps extra)

/-- HASH weighted by the free accumulator slots of a core that has the room of R53; `none` where it has not. -/
def chunkWeight (d : Dev) (chase : Nat) (f : Forme) (q : RedDef) (c core : Nat) : Option Nat :=
  if coreTakes d chase f core [redPlate q] { slots := chunkSlots d q, sram := chunkSram q } then
    some (Config.placeHash q.rid c core * (2048 - (coreLoad d chase f core).slots))
  else none

/-- The core of highest weight among some (R53, R322). -/
def heaviest (d : Dev) (chase : Nat) (f : Forme) (q : RedDef) (c : Nat) (cores : List Nat) : Option Nat :=
  ((cores.filterMap fun k => (chunkWeight d chase f q c k).map fun w => (k, w)).foldl (fun (b : Option (Nat × Nat)) x => match b with
    | none => some x
    | some y => if y.2 < x.2 then some x else some y) none).map Prod.fst

/-- ALT of a chunk on a core: the heaviest on another press die, else the core itself (R322). -/
def altCore (d : Dev) (chase : Nat) (f : Forme) (q : RedDef) (c core : Nat) : Nat :=
  (heaviest d chase f q c (f.cores.filter fun k => k / 32 != core / 32)).getD core

/-- Place one chunk of a definition (R53). -/
def placeChunk (d : Dev) (chase : Nat) (q : RedDef) (c : Nat) (f : Forme) : Option Forme :=
  (heaviest d chase f q c f.cores).map fun core =>
    let f1 := { f with chunks := f.chunks ++ [{ rid := q.rid, chunk := c, core := core, alt := some core }] }
    { f with chunks := f.chunks ++ [{ rid := q.rid, chunk := c, core := core, alt := some (altCore d chase f1 q c core) }] }

/-- Place chunks one after the other; the number that found no core. -/
def placeChunks (d : Dev) (chase : Nat) (cs : List (RedDef × Nat)) (f : Forme) : Forme × Nat :=
  foldOver cs (f, 0) fun x a => match placeChunk d chase x.1 x.2 a.1 with
    | some f => (f, a.2)
    | none => (a.1, a.2 + 1)

/-! ### Placement of the services of a changed core set (R52, R53, R391) -/

/-- The chunks of a chase under a new core set: those whose core left are placed again, those a joining core outweighs move to it; every ALT
outside the set is chosen again. The second component counts the slots that found no core. -/
def rechunk (d : Dev) (chase : Nat) (old : Forme) (f : Forme) : Forme × Nat :=
  let home (e : ChunkEnt) : Bool := f.cores.contains e.core
  let joined := f.cores.filter fun c => !old.cores.contains c
  let stay := (old.chunks.filter fun e => home e && (nextRed d chase e.rid).isSome).map fun e => { e with onAlt := false }
  let gone := (old.chunks.filter fun e => !home e).filterMap fun e => (nextRed d chase e.rid).map fun r => (r.d, e.chunk)
  let f := { f with chunks := stay }
  let move (e : ChunkEnt) (f : Forme) : Forme := match nextRed d chase e.rid with
    | none => f
    | some r =>
      let f0 := { f with chunks := f.chunks.filter fun x => x != e }
      let core := (heaviest d chase f0 r.d e.chunk (e.core :: joined)).getD e.core
      let alt := (e.alt.filter fun a => f.cores.contains a && a / 32 != core / 32).getD (altCore d chase f0 r.d e.chunk core)
      { f with chunks := f.chunks.map fun x => if x == e then { e with core := core, alt := some alt } else x }
  let f := foldOver stay f move
  let r := placeChunks d chase gone f
  (r.1, if r.2 = 0 then 0 else sumNat (gone.map fun x => chunkSlots d x.1))

/-- Shards and experts whose core left the set go to the least loaded core; the number that found none. -/
def reshard (d : Dev) (chase : Nat) (old : Forme) (f : Forme) : Forme × Nat :=
  let sh := foldOver old.shards (f, 0) fun e (a : Forme × Nat) =>
    if f.cores.contains e.core then ({ a.1 with shards := a.1.shards ++ [e] }, a.2)
    else match leastCore d chase a.1 [0x10, 0x11] {} fun _ => true with
      | some c => ({ a.1 with shards := a.1.shards ++ [{ e with core := c }] }, a.2)
      | none => (a.1, a.2 + 1)
  foldOver old.experts sh fun e (a : Forme × Nat) =>
    if f.cores.contains e.core then ({ a.1 with experts := a.1.experts ++ [e] }, a.2)
    else match leastCore d chase a.1 [0x19] { sram := 8 } fun _ => true with
      | some c => ({ a.1 with experts := a.1.experts ++ [{ e with core := c }] }, a.2)
      | none => (a.1, a.2 + 1)

/-- Rings, dispatch cores and user instances on cores that left: (old core, new core) for each such core, and how many found none. -/
def recores (d : Dev) (chase : Nat) (f : Forme) : List (Nat × Nat) × Nat :=
  let used := ((nextRings d chase).map fun r => r.core) ++ ((nextMoes d chase).flatMap fun m => m.disp)
    ++ ((nextBinds d chase).flatMap fun b => b.rings.map fun r => r.core)
  let gone := (used.filter fun c => !f.cores.contains c).eraseDups
  let img (p : Nat) : CoreUse := ((d.image chase p).map imageUse).getD {}
  foldOver gone ([], 0) fun c (a : List (Nat × Nat) × Nat) =>
    let ps := (if (nextRings d chase).any fun r => r.core == c then [0x28] else [])
      ++ (if (nextMoes d chase).any fun m => m.disp.contains c then [0x18] else [])
    let users := (nextBinds d chase).foldl (fun u b => (b.rings.filter fun r => r.core == c).foldl (fun u _ => u.add (img b.plate)) u) ({} : CoreUse)
    match leastCore d chase f ps users fun k => !(a.1.any fun x => x.2 == k) with
    | some k => (a.1 ++ [(c, k)], a.2)
    | none => (a.1, a.2 + 1)

/-! ### Cached folios (R254, R261, R351) -/

/-- The stack of a layer: the stacks of the core set in turn (R254). -/
def layerStack (d : Dev) (f : Forme) (n : Nat) : Nat :=
  let stks := stacksOf d f.cores
  if stks.isEmpty then 0 else (stks[n % stks.length]?).getD 0

/-- Folios that a byte range touches. -/
def foliosIn (pva len : Nat) : List Nat := if len = 0 then [] else (upTo ((pva + len - 1) / folioB - pva / folioB + 1)).map (pva / folioB + ·)

/-- Make folios cacheable on one stack. -/
def Forme.cacheOn (f : Forme) (nos : List Nat) (stack : Nat) : Forme :=
  { f with folios := f.folios.map fun e =>
      if nos.contains e.1 && e.2.rclass != 2 then (e.1, { e.2 with gcache := true, cstack := stack }) else e }

/-- GCACHE and CSTACK of the folios of layers and of shards. -/
def cacheFolios (d : Dev) (chase : Nat) (f : Forme) : Forme :=
  let f := foldOver (nextLayers d chase) f fun l f => f.cacheOn (foliosIn l.pva (4096 * l.lpages)) (layerStack d f l.layer)
  foldOver (nextEmbs d chase) f fun e f =>
    if e.d.home = 1 then f
    else
      let stride := e.d.stride (fmtRow d e.d.rrow)
      let sh := f.shards.filter fun s => s.table == e.d.table
      let stop (i : Nat) : Nat := ((sh[i + 1]?).map fun s => s.first).getD e.d.nrows
      foldOver (upTo sh.length) f fun i f => match sh[i]? with
        | none => f
        | some s => foldOver ([e.curBase] ++ e.newBase.toList ++ (if e.drnLive then [e.drnBase] else [])) f fun b f =>
            f.cacheOn (foliosIn (b + s.first * stride) ((stop i - s.first) * stride)) (s.core / 32)

/-! ### Admission (R44–R55) -/

/-- What admission answers. -/
structure Admission where
  st     : Status := .ok
  res    : Nat := 0          -- resource code (R551) under NOFIT
  short  : Nat := 0
  forme  : Forme := {}
  ents   : List MemberEnt := []
  moving : List Nat := []
  short0 : Nat := 0          -- galley shortfall of a TIGHT admission

/-- Admit a request and place it (R44 to R55): the resources in the order of R45, the galley first only when it fails on its own. The
device answered has the frames taken; under NOFIT it is the one given. The GS0 and GS4 forme stores must be powered (R570). -/
def admitReq (d : Dev) (chase : Nat) (q : CompReq) (cur : Option Forme) (tightmax : Nat) (hold : Bool)
    (ms : List (Nat × Nat × Nat)) : Admission × Dev :=
  let free := freeGalley d
  let (gst, fit) := galleyFit q tightmax free
  let no (r n : Nat) : Admission × Dev := ({ st := .noFit, res := r, short := n }, d)
  if gst = .noFit then no 1 (needBytes q - free)
  else
    let cores := coreSet d q.cores ((cur.map fun f => f.cores).getD [])
    let cs := match cores with | .ok l => l | .error _ => []
    let f : Forme :=
      { cores := cs, req := q, allow := fit.need, windowB := fit.window, depth := fit.depth, shadowB := fit.shadow, dropped := fit.dropped }
    let resv := defBytes d chase
    let p := moveFolios ms (placeAll d hold chase f cur q (q.stateF - cdiv resv folioB))
    let es := memberEnts d chase q
    if p.miss ≠ 0 then no 2 (p.miss * folioB)
    else match cores with
      | .error n => no 3 n
      | .ok _ => match markSet d q.marks ((cur.map fun f => f.marks).getD []) es with
        | .error n => no 4 n
        | .ok ms =>
          let short := memberShort d chase es
          let newPages := 256 * pagesBeyond p.forme cur
          if short ≠ 0 then no 5 short
          else if storeEntries < storeUsed d + newPages then no 6 (storeUsed d + newPages - storeEntries)
          else if !(d.domOn 53 && d.domOn 57) then no 6 newPages
          else if q.stateF * folioB < resv then no 10 (resv - q.stateF * folioB)
          else ({ st := gst, forme := { p.forme with marks := ms }, ents := es, moving := p.moving, short0 := needBytes q - free }, p.dev)

/-! ### The stage (R55, R65) -/

/-- Drop the definitions a discarded stage brought, and keep what it would have removed. -/
def unstageDefs (d : Dev) (chase : Nat) : Dev :=
  let pr := d.press
  let reds := (pr.reds.filter fun r => !(r.chase == chase && r.staged)).map fun r => if r.chase = chase then { r with leaving := false } else r
  let embs := (pr.embs.filter fun r => !(r.chase == chase && r.staged)).map fun r => if r.chase = chase then { r with leaving := false } else r
  let moes := (pr.moes.filter fun r => !(r.chase == chase && r.staged)).map fun r => if r.chase = chase then { r with leaving := false } else r
  let binds := (pr.plates.binds.filter fun r => !(r.chase == chase && r.staged)).map fun r =>
    if r.chase = chase then { r with leaving := false } else r
  let rings := (d.pool.rings.filter fun r => !(r.chase == chase && r.staged)).map fun r => if r.chase = chase then { r with leaving := false } else r
  let layers := d.pool.layers.filter fun l => !(l.chase == chase && l.staged)
  { d with press := { pr with reds := reds, embs := embs, moes := moes, plates := { pr.plates with binds := binds } }
           pool := { d.pool with rings := rings, layers := layers } }

/-- Keying places stay recorded for the folios some live forme of the chase maps (R459). -/
def sweepFold (d : Dev) (chase : Nat) : Dev :=
  let c := d.comp chase
  let fs := [c.curF] ++ c.drnF.toList ++ (c.staged.map fun g => g.forme).toList
  let mine (k : Nat) : Bool := k / 2 ^ 36 == chase + 1
  { d with pool := { d.pool with fold := d.pool.fold.filter fun e => !mine e.1 || fs.any fun f => thas f.folios (e.1 % 2 ^ 36) } }

/-- Discard the staged forme of a chase (R65): its reservation is free again; a frame its copies may still write waits for its fence. -/
def discardStage (d : Dev) (chase : Nat) : Dev :=
  match (d.comp chase).staged with
  | none => d
  | some g =>
    let d := d.modComp chase fun c => { c with staged := none, migs := c.migs.filter fun m => !g.moving.contains m.1 }
    let used := framesUsed (liveFormes d)
    let mine := ((framesUsed [g.forme]).eraseDups).filter fun x => !used.contains x && !d.imp.vacated.contains x
    let copied := g.moving.flatMap fun n => ((tfind g.forme.folios n).map fun f => f.locs).getD []
    let d := foldOver mine d fun x d =>
      if copied.contains x then { d with imp := { d.imp with vacated := d.imp.vacated ++ [x] } } else giveFrame d x
    sweepFold (unstageDefs d chase) chase

/-- The party keys that the TFP trays of a forme need and do not hold yet are delivered (R457). -/
def deliverKeys (d : Dev) (chase : Nat) (f : Forme) : Dev :=
  let keys := (f.folios.flatMap fun e => (e.2.locs.filter fun x => x.1 == 3).map fun x => (x.2.1, keyOf d chase (e.1 * folioB) e.2)).eraseDups
  foldOver keys d fun x d =>
    if d.imp.trayKeys.contains x ∨ (d.pdk x.2).isNone then d
    else { d with imp := { d.imp with trayKeys := d.imp.trayKeys ++ [x] } }.emit (.trayKey x.1 x.2 true)

/-- A request as its sender gives it: it freezes no region (R210). -/
def asAsked (q : CompReq) : CompReq := { q with regions := q.regions.map fun r => { r with frozen := false } }

/-- Regions keep their frozen mark through a stage (R210). -/
def keepFrozen (cur : CompReq) (q : CompReq) : CompReq :=
  { q with regions := q.regions.map fun r =>
      { r with frozen := r.cls == 1 && (r.frozen || cur.regions.any fun o => o.base == r.base && o.cls == 1 && o.frozen) } }

/-- Marks a request with fewer MARKS gives up: the highest-numbered (R55). -/
def givenUp (f : Forme) (q : CompReq) : List Nat := f.marks.mergeSort.drop q.marks

/-- The moves of a REBAL stage applied to chunks, shard boundaries and experts (R56). -/
def rebalance (d : Dev) (chase : Nat) (m : StageReq) (f : Forme) : Forme :=
  let f := foldOver m.chunks f fun x f => match nextRed d chase x.1 with
    | none => f
    | some r =>
      if !f.cores.contains x.2.2 ∨ (chunkWeight d chase f r.d x.2.1 x.2.2).isNone then f
      else { f with chunks := mapIf (fun e => e.rid / 16 == x.1 / 16 && e.chunk == x.2.1)
                      (fun e => { e with core := x.2.2, alt := some (altCore d chase f r.d e.chunk x.2.2), onAlt := false }) f.chunks }
  let f := foldOver m.experts f fun x f =>
    if f.cores.contains x.2.2 then
      { f with experts := mapIf (fun e => e.moe == x.1 && e.expert == x.2.1) (fun e => { e with core := x.2.2 }) f.experts }
    else f
  foldOver m.shards f fun x f =>
    let mine := f.shards.filter fun s => s.table == x.1
    if mine.length ≠ x.2.length then f
    else { f with shards := (f.shards.filter fun s => s.table != x.1) ++ (mine.zip x.2).map fun p => { p.1 with first := p.2 } }

/-- Stage a request for a running composition (R55, R65): BUSY where a mark it gives up is in use; otherwise the stage before it is discarded
and the new one admitted, its services placed, and the copies of the frozen folios it moves begin (R71). Under `hold` no mapped folio moves. The
answer is status, resource code and shortfall. -/
def stageComp (d : Dev) (chase : Nat) (q : CompReq) (byImp hold : Bool) (m : StageReq) : (Status × Nat × Nat) × Dev :=
  let c := d.comp chase
  let bound := boundMarks d chase
  if (givenUp c.curF q).any fun i => (d.mark i).type != 0 || bound.contains i then ((.busy, 0, 0), d)
  else
    let d := discardStage d chase
    let q := keepFrozen c.curF.req q
    let (a, d1) := admitReq d chase q (some c.curF) (d.fld .impChaseCfg chase 11 5) hold m.moves
    let (f1, lack) := rechunk d1 chase c.curF a.forme
    let (f2, lack2) := reshard d1 chase c.curF f1
    let f2 := rebalance d1 chase m f2
    let (rc, lack3) := recores d1 chase f2
    let fail (r n : Nat) : (Status × Nat × Nat) × Dev :=
      ((.noFit, r, n), d.modComp chase fun c => { c with staged := some { adm := .noFit, short := r, shortN := n, byImposer := byImp } })
    if a.st = .noFit then fail a.res a.short
    else if lack ≠ 0 then fail 9 lack
    else if lack2 + lack3 ≠ 0 then fail 3 (lack2 + lack3)
    else
      let f := cacheFolios d1 chase f2
      let g : Staged :=
        { forme := f, adm := a.st, shortN := a.short0, epochs := if f.folios.any fun e => e.2.mig then 2 else 1, byImposer := byImp
          changed := folioChanges c.curF f, ents := a.ents, moving := a.moving, recore := rc }
      let d := d1.modComp chase fun c => { c with staged := some g, migs := c.migs ++ a.moving.map fun n => (n, 0) }
      let d := deliverKeys d chase f
      ((a.st, 0, 0), foldOver a.moving d fun n d => copyRead d chase n 0)

/-- A forme that definitions can join: the one staged by command and ready, else a stage of the current request that moves nothing (R319). -/
def ensureStage (d : Dev) (chase : Nat) : (Status × Nat × Nat) × Dev :=
  let c := d.comp chase
  let ready := (c.staged.map fun g => g.adm != .noFit && !g.byImposer).getD false
  if ready then ((.ok, 0, 0), d) else stageComp d chase c.curF.req false true {}

/-- Answer a staging command, or leave it running while folios are still copied (R71). -/
def answerStage (d : Dev) (b : Bas) (chase opc : Nat) : Dev :=
  if (((d.comp chase).staged).map fun g => g.moving.isEmpty).getD true then
    let (st, dc, dv, data) := stageReply d chase
    d.reply b opc st dc dv data
  else d.defer b (.chase chase) opc chase 1

/-- The answer to a stage that did not come about. -/
def refuseStage (d : Dev) (b : Bas) (opc : Nat) (r : Status × Nat × Nat) : Dev :=
  if r.1 = .noFit then d.reply b opc .noFit 0x01 r.2.1 [r.2.2] else d.reply b opc r.1

/-- Change the staged forme of a chase. -/
def Dev.modStaged (d : Dev) (chase : Nat) (f : Forme → Forme) : Dev :=
  d.modComp chase fun c => { c with staged := c.staged.map fun g => { g with forme := f g.forme } }

/-- The staged forme of a chase. -/
def Dev.stagedF (d : Dev) (chase : Nat) : Forme := (((d.comp chase).staged).map fun g => g.forme).getD {}

/-- A definition joins the staged forme: `place` puts it into the device and its entries into the forme, or names the resource it lacks.
`busy` is the check the rule makes after the resources. Under a refusal nothing is staged. -/
def joinStage (d : Dev) (b : Bas) (chase opc : Nat) (busy : Bool) (place : Dev → Except (Nat × Nat) Dev) : Dev :=
  match ensureStage d chase with
  | ((.noFit, r, n), _) => refuseStage d b opc (.noFit, r, n)
  | ((.busy, _, _), _) => d.reply b opc .busy
  | (_, d1) => match place d1 with
    | .error (r, n) => refuseStage d b opc (.noFit, r, n)
    | .ok d2 =>
      match stateRoom d2 chase (d2.stagedF chase) with
      | .error n => refuseStage d b opc (.noFit, 10, n)
      | .ok _ => if busy then d.reply b opc .busy else answerStage (d2.modStaged chase (cacheFolios d2 chase)) b chase opc

end Sys2Proof.Machine
end

