-- ==== Sys2Proof/Machine/PoolCmds.lean ====
section
/-! DEFINITION. Commands of the pool, the galley and the coherence domain: pool requests, tray links and their answers, stripes and rebuild,
movers, layer pushes, coherence messages, notices (R83–R86, R206–R287). -/

namespace Sys2Proof.Machine
open Sys2Proof

/-! ### Pool requests -/

def execLoad (x : Rx) (s : State) : Out := onPool (poolFx (asOp opLOAD x)) s
def execStore (x : Rx) (s : State) : Out := onPool (storeFx (asOp opSTORE x)) s
def execAtomic (x : Rx) (s : State) : Out := onPool (poolFx (asOp opATOMIC x)) s
def execPush (x : Rx) (s : State) : Out := onPool (pushFx (asOp opPUSH x)) s

/-! ### Galley accesses (R251, R255, R257) -/

/-- A galley read returns: granules of its line found correctable (`ce`) and uncorrectable (`ue`). -/
def galleyReadFx (job : Nat) (ce ue : List Nat) (d : Dev) : Dev :=
  match d.job job with
  | none => d
  | some j =>
    if j.st ≠ .galley then d
    else match j.cached with
      | some s => match d.stackServer s, d.line (locLine j.loc j.off) with
        | none, _ => jobEnd d j .targetLost
        | some _, some l => cachedServe d j l ce ue
        | some _, none => startCached d j s
      | none => match d.stackServer j.loc.target with
        | none => jobEnd d j .targetLost
        | some s => galleyReturn d j s ce ue

def execGalleyReadReturn (job : Nat) (ce ue : List Nat) (s : State) : Out := onPool (galleyReadFx job ce ue) s

/-- The mirror copy has entered the pair's write queue: the part completes (R255). -/
def mirrorDoneFx (job : Nat) (d : Dev) : Dev :=
  match d.job job with
  | some j => if j.st = .mirror then jobEnd d j .ok else d
  | none => d

def execMirrorWriteDone (job : Nat) (s : State) : Out := onPool (mirrorDoneFx job) s

/-- Lines of a stack (R249). -/
abbrev stackLines : Nat := 268435456

/-- The patrol scrub reads the next line of a stack (R257): its correctable granules are counted, its uncorrectable ones recorded. A corrected
granule carries no state here, so rewriting it under SCRUBFIX changes nothing else. -/
def scrubFx (stack : Nat) (ce ue : List Nat) (d : Dev) : Dev :=
  if 8 ≤ stack ∨ !d.stackUp stack then d
  else
    let line := tget 0 d.pool.scrub stack
    let d := { d with pool := { d.pool with scrub := tput d.pool.scrub stack ((line + 1) % stackLines) } }
    let d := (d.countN .cScrubce (dPX stack) ce.length).corrected (dGS stack) 1 ce.length
    foldOver ue d fun g d => newBad d stack (stack % 4 * 2 ^ 36 + 256 * line + 64 * (g % 4))

def execPatrolScrub (stack : Nat) (ce ue : List Nat) (s : State) : Out := onDev (scrubFx stack ce ue) s

/-! ### Tray links (R83, R86, R214, R230, R232) -/

/-- The width a tray link is configured for, in lanes (R81). -/
def trayWidth (d : Dev) (link : Nat) : Nat := if bit (octCfg d (trayOct link)) 30 then 16 else 8

/-- A tray link has trained to `rate` GT/s over `width` lanes (R83). -/
def trayTrainedFx (link rate width : Nat) (d : Dev) : Dev :=
  let t := d.tray link
  if !isTray d link ∨ t.perst ∨ !d.enabled (8 * trayOct link) ∨ !d.dieUp (dPT (trayDie link)) then d
  else
    let full := rate == 64 && width == trayWidth d link
    let d := d.modTray link fun t => { t with trained := true, fullRate := full, rateGot := rate, widthGot := width }
    if full then d else d.notice 0x020A (dPT (trayDie link)) none link rate width

def execTrayLinkTrained (link rate width : Nat) (s : State) : Out := onDev (trayTrainedFx link rate width) s

/-- A tray link leaves link-up (R230). -/
def trayDownFx (link : Nat) (d : Dev) : Dev :=
  if !(d.tray link).trained then d
  else holdLost (d.modTray link fun t => { t with trained := false, fullRate := false }) 2 link

def execTrayLinkDown (link : Nat) (s : State) : Out := onPool (trayDownFx link) s

/-- Capacity a tray offers is reported; the Imposer may use it once it is accepted (R86). -/
def trayAddFx (link capacity : Nat) (d : Dev) : Dev :=
  if !(d.tray link).trained then d
  else (d.modTray link fun t => { t with offered := t.offered + capacity }).notice 0x020B (dPT (trayDie link)) none link capacity 0

def execTrayDcAdd (link capacity : Nat) (s : State) : Out := onDev (trayAddFx link capacity) s

/-- Capacity removed by force: its frames are gone, the folios on them are lost (R86, R230, R233). -/
def trayRemoveFx (link first frames : Nat) (d : Dev) : Dev :=
  if !(d.tray link).trained ∨ frames = 0 then d
  else
    let gone (f : Nat) : Bool := decide (first ≤ f) && decide (f < first + frames)
    let d := { d with flt := { d.flt with lostFr := d.flt.lostFr ++ [(link, first, frames)] } }
    let d := { d with imp := { d.imp with freeFr := d.imp.freeFr.filter fun x => !(x.1 == 2 && x.2.1 == link && gone x.2.2) } }
    let onIt (f : Forme) : Nat := (f.folios.filter fun e => e.2.locs.any fun l => l.1 == 2 && l.2.1 == link && gone l.2.2).length
    let d := d.notice 0x0401 (dPT (trayDie link)) none link 2 0 ((liveFormes d).map onIt)
    let js := d.pool.jobs.filter fun j => j.cached.isNone && j.loc.kind == 2 && j.loc.target == link && gone j.loc.frame && j.st == .tray
    foldOver js d fun j d => foldOver j.reqs d fun r d => match d.job j.id with
      | some j => cxlEnd d j r (.error .targetLost)
      | none => d

def execTrayDcForcedRemoval (link first frames : Nat) (s : State) : Out := onPool (trayRemoveFx link first frames) s

/-- The access a request on a tray link belongs to. -/
def jobOfReq (d : Dev) (cid : Nat) : Option (PJob × TrayReq) :=
  d.pool.jobs.findSome? fun j => (j.reqs.find? fun r => r.cid == cid).map fun r => (j, r)

/-- The member and the address at it of a request of a stripe engine. -/
def stripeReqAt (d : Dev) (j : PJob) (r : TrayReq) : Nat × Nat :=
  match memberAt (d.stripe j.loc.target) r.member j.loc.frame with
  | some m => (m.target, memberAddr m j.loc.frame (j.off / 2048) + 64 * (r.gran % 4))
  | none => (0, 0)

/-- The link a request went out on. -/
def reqLink (d : Dev) (j : PJob) (r : TrayReq) : Nat := if j.loc.kind = 5 then (stripeReqAt d j r).1 else j.loc.target

/-- A CXL.mem completion (R214): 64 bytes and the poison indication for a read. -/
def cxlDoneFx (link cid : Nat) (data : List Byte) (poison : Bool) (d : Dev) : Dev :=
  match jobOfReq d cid with
  | none => d
  | some (j, r) =>
    if reqLink d j r ≠ link then d
    else if j.loc.kind = 5 then
      let (tray, dpa) := stripeReqAt d j r
      let d := if poison ∧ !r.write then trayPoison d link dpa else d
      memberEnd d j r tray dpa (.ok (data.take 64 ++ zeros (64 - data.length), if poison then [0] else []))
    else cxlEnd d j r (.ok (data.take 64 ++ zeros (64 - data.length), poison))

def execCxlCompletion (link cid : Nat) (data : List Byte) (poison : Bool) (s : State) : Out := onPool (cxlDoneFx link cid data poison) s

/-- A CXL.mem request is unanswered at its timeout (R232). -/
def cxlTimeoutFx (link cid : Nat) (d : Dev) : Dev :=
  match jobOfReq d cid with
  | none => d
  | some (j, r) =>
    if reqLink d j r ≠ link then d
    else
      let d := d.count .cTraytmo (dPT (trayDie link))
      if j.loc.kind = 5 then memberEnd d j r 0 0 (.error .timeout) else cxlEnd d j r (.error .timeout)

def execTrayReqTimeout (link cid : Nat) (s : State) : Out := onPool (cxlTimeoutFx link cid) s

/-! ### Stripes and rebuild (R235–R238) -/

def stripeAnswerFx (job member : Nat) (d : Dev) : Dev := match d.job job with
  | some j => takeAnswer d j member
  | none => d

def execStripeMemberAnswer (job member : Nat) (s : State) : Out := onPool (stripeAnswerFx job member) s

/-- A tray as the number it is known by: (kind, target) of a member or spare. -/
def Spare.tray (s : Spare) : Nat × Nat := (s.kind, s.target)
def StripeMem.tray (m : StripeMem) : Nat × Nat := (m.mkind, m.target)

/-- Spares a set may rebuild onto, the least occupied first chosen (R238). -/
def pickSpare (d : Dev) (s : Stripe) (m : Nat) : Option Spare :=
  let others := ((upTo s.mem.length).filter fun i => i != m).filterMap fun i => (s.mem[i]?).map StripeMem.tray
  let busy (x : Spare) : Bool := d.pool.stripes.any fun e => match e.2.rb with
    | some (_, y) => y.mkind == x.kind && y.target == x.target && y.base == x.base
    | none => false
  let can := d.pool.spares.filter fun x => decide (s.extent ≤ x.extent) && !others.contains x.tray && !d.heldLost x.kind x.target && !busy x
  let used := framesUsed (liveFormes d)
  can.foldl (fun b x => match b with
    | none => some x
    | some y => if occupancy d used x.kind x.target < occupancy d used y.kind y.target then some x else some y) none

/-- A rebuild begins where REBUILD is armed, a keeper is active and a member is held lost (R238, R496). With no spare SPAREWAIT is sent, once
until one is added. -/
def rebuildStart (d : Dev) (set : Nat) : Dev :=
  let s := d.stripe set
  if !thas d.pool.stripes set ∨ !d.flag .fltFabpol 0 27 ∨ d.mgmt.active.isNone ∨ 3 ≤ s.lost.length then d
  else match s.rb, s.lost with
    | some _, _ => if s.stopped then d.modStripe set fun s => { s with stopped := false } else d
    | none, [] => d
    | none, m :: _ => match pickSpare d s m with
      | some x =>
        let d' := d.modStripe set fun s =>
          { s with rb := some (m, { mkind := x.kind, sparein := true, target := x.target, base := x.base }), prog := 0, waited := false
                   stopped := false }
        stripeNote d d' set
      | none =>
        if s.waited then d
        else (d.modStripe set fun s => { s with waited := true }).notice 0x0403 d.kpDie none set m 0

def execRebuildStart (set : Nat) (s : State) : Out := onDev (fun d => rebuildStart d set) s

/-- Slots of a set (R234). -/
def Stripe.slots (s : Stripe) : Nat := 4096 * s.extent

/-- The spare has become the member (R238). -/
def rebuildEnd (d : Dev) (set m : Nat) (x : StripeMem) : Dev :=
  let d' := d.modStripe set fun s =>
    { s with mem := s.mem.modify m fun _ => { x with sparein := true }, lost := s.lost.filter (· != m), rb := none, prog := 0 }
  let gone (p : Spare) : Bool := p.kind == x.mkind && p.target == x.target && p.base == x.base
  let d' := { d' with pool := { d'.pool with spares := d'.pool.spares.filter fun p => !gone p } }
  let d' := (stripeNote d d' set).notice 0x0404 (dPX (set % 8)) none set m 0
  if (d'.stripe set).lost.isEmpty then d' else rebuildStart d' set

/-- One slot has been rebuilt, unless an access to its stripes is under way or the rebuild was stopped (R238, R495). -/
def rebuildSlot (d : Dev) (set : Nat) : Dev :=
  let s := d.stripe set
  match s.rb with
  | none => d
  | some (m, x) =>
    let busy := d.pool.jobs.any fun j => j.cached.isNone && j.loc.kind == 5 && j.loc.target == set && j.loc.frame == s.prog && j.st == .tray
    if !d.flag .fltFabpol 0 27 then d.modStripe set fun s => { s with stopped := true }
    else if s.stopped ∨ busy ∨ (stripeDie d set).isNone then d
    else
      let d := (d.modStripe set fun s => { s with prog := s.prog + 1 }).count .cRbslot (dPX ((stripeDie d set).getD 0))
      if s.prog + 1 < s.slots then d else rebuildEnd d set m x

def execRebuildSlot (set : Nat) (s : State) : Out := onPool (fun d => rebuildSlot d set) s

/-! ### Movers and layers -/

def execMoverDescriptorTake (chase ring : Nat) (s : State) : Out := onPool (fun d => moverTake d chase ring) s
def execMoverPieceDone (chase ring : Nat) (s : State) : Out := onPool (fun d => moverPieceDone d chase ring) s
def execMoverStatusWritten (chase ring : Nat) (s : State) : Out := onPool (fun d => moverStatusDone d chase ring) s
def execLayerPieceDone (chase layer : Nat) (s : State) : Out := onPool (fun d => layerPieceDone d chase layer) s
def execLayerNeedReached (chase layer : Nat) (s : State) : Out := onDev (fun d => layerNeed d chase layer) s
def execPushEarlyAnswer (chase layer : Nat) (s : State) : Out := onDev (fun d => pushEarly d chase layer) s

/-! ### Coherence messages (R270–R283) -/

/-- A coherence message about the line of a chase at an address reaches this switch (R276–R279). Its sender is a member of the domain, or this
switch's own cache or home. -/
def cohMsgFx (c : CMsg) (chase party pva : Nat) (m : CohMsg) (d : Dev) : Dev :=
  match folioAt d chase (d.comp chase).cur pva with
  | none => d
  | some f =>
    let px := (d.stackServer f.cstack).getD f.cstack
    let l : Loc := { kind := f.kind, target := f.target, frame := f.frame }
    let m := { m with msg := c, dest := selfM d, line := locLine l (pva % folioB) }
    if m.srcm ≠ selfM d ∧ !memberValid d m.srcm then cohErr d px m else cohRx d px f.cstack chase party (pva / 256 * 256) l m

def execGets (chase party pva : Nat) (m : CohMsg) (s : State) : Out := onPool (cohMsgFx .gets chase party pva m) s
def execGetm (chase party pva : Nat) (m : CohMsg) (s : State) : Out := onPool (cohMsgFx .getm chase party pva m) s
def execUpgr (chase party pva : Nat) (m : CohMsg) (s : State) : Out := onPool (cohMsgFx .upgr chase party pva m) s
def execPuts (chase party pva : Nat) (m : CohMsg) (s : State) : Out := onPool (cohMsgFx .puts chase party pva m) s
def execPute (chase party pva : Nat) (m : CohMsg) (s : State) : Out := onPool (cohMsgFx .pute chase party pva m) s
def execPutm (chase party pva : Nat) (m : CohMsg) (s : State) : Out := onPool (cohMsgFx .putm chase party pva m) s
def execPuto (chase party pva : Nat) (m : CohMsg) (s : State) : Out := onPool (cohMsgFx .puto chase party pva m) s
def execFwds (chase party pva : Nat) (m : CohMsg) (s : State) : Out := onPool (cohMsgFx .fwds chase party pva m) s
def execFwdm (chase party pva : Nat) (m : CohMsg) (s : State) : Out := onPool (cohMsgFx .fwdm chase party pva m) s
def execInv (chase party pva : Nat) (m : CohMsg) (s : State) : Out := onPool (cohMsgFx .inv chase party pva m) s
def execSrcs (chase party pva : Nat) (m : CohMsg) (s : State) : Out := onPool (cohMsgFx .srcs chase party pva m) s
def execData (chase party pva : Nat) (m : CohMsg) (s : State) : Out := onPool (cohMsgFx .data chase party pva m) s
def execGrant (chase party pva : Nat) (m : CohMsg) (s : State) : Out := onPool (cohMsgFx .grant chase party pva m) s
def execIack (chase party pva : Nat) (m : CohMsg) (s : State) : Out := onPool (cohMsgFx .iack chase party pva m) s
def execPack (chase party pva : Nat) (m : CohMsg) (s : State) : Out := onPool (cohMsgFx .pack chase party pva m) s
def execDone (chase party pva : Nat) (m : CohMsg) (s : State) : Out := onPool (cohMsgFx .done chase party pva m) s
def execSnak (chase party pva : Nat) (m : CohMsg) (s : State) : Out := onPool (cohMsgFx .snak chase party pva m) s

/-- A directory entry is found bad (R274). -/
def directoryErrorFx (line : Nat) (d : Dev) : Dev := match d.dirEnt line with
  | some e => dirError d e
  | none => d

def execDirectoryError (line : Nat) (s : State) : Out := onPool (directoryErrorFx line) s

/-- An invalidation notice that holds lines is sent (R285). -/
def noticeFlushFx (chase base : Nat) (d : Dev) : Dev :=
  match d.pool.notices.find? fun b => b.chase == chase && b.base == base with
  | some b => flushNotice d b
  | none => d

def execInvalNoticeFlush (chase base : Nat) (s : State) : Out := onPool (noticeFlushFx chase base) s

end Sys2Proof.Machine
end

