-- ==== Sys2Proof/Machine/PressCmds.lean ====
section
/-! DEFINITION. Commands of the press: reductions, embeddings, mixtures, scans and plates (R318–R400). -/

namespace Sys2Proof.Machine
open Sys2Proof

/-! ### Reductions -/

def execReduceContrib (x : Rx) (s : State) : Out := onPool (contribFx (asOp opREDUCE_CONTRIB x)) s
def execReduceResult (x : Rx) (s : State) : Out := onPool (resultFx (asOp opREDUCE_RESULT x)) s
def execCarry (x : Rx) (s : State) : Out := onPool (contribFx (asOp opCARRY x)) s
def execRoundTimeout (chase rid : Nat) (s : State) : Out := onPool (fun d => roundTimeout d chase rid) s

/-! ### Embeddings -/

def execGather (x : Rx) (s : State) : Out := onPool (embReqFx (asOp opGATHER x)) s
def execScatterAdd (x : Rx) (s : State) : Out := onPool (embReqFx (asOp opSCATTER_ADD x)) s
def execUpdateStepTimeout (chase table : Nat) (s : State) : Out := onPool (fun d => stepTimeout d chase table) s
def execVersionSwitch (chase table : Nat) (s : State) : Out := onPool (fun d => versionSwitch d chase table) s
def execShardLoadWindow (chase table : Nat) (s : State) : Out := onDev (fun d => shardWindow d chase table) s

/-! ### Mixtures -/

def execDispatch (x : Rx) (s : State) : Out := onPool (moePktFx (asOp opDISPATCH x)) s
def execCombine (x : Rx) (s : State) : Out := onPool (moePktFx (asOp opCOMBINE x)) s
def execMoeBatchTimer (chase moe step expert core : Nat) (s : State) : Out := onPool (fun d => batchTimer d chase moe step expert core) s
def execCombineDeadline (chase moe req : Nat) (s : State) : Out := onPool (fun d => combineDeadline d chase moe req) s

/-! ### Scans -/

def execScan (x : Rx) (s : State) : Out := onPool (scanFx (asOp opSCAN x)) s
def execScanEarlyAnswer (svc : Nat) (s : State) : Out := onPool (fun d => scanEarly d svc) s
def execScanDone (svc : Nat) (s : State) : Out := onPool (fun d => scanDone d svc) s

/-! ### Plates -/

def execStationFire (core slot node : Nat) (s : State) : Out := onPool (fun d => stationFire d core slot node) s
def execPlatePieceDone (core slot : Nat) (s : State) : Out := onPool (fun d => platePiece d core slot) s
def execDeadlineExpiry (core slot node item : Nat) (s : State) : Out := onPool (fun d => deadlineExpiry d core slot node item) s

/-- A push that a faulted LAYERPUSH instance was reading ends as for the loss of its press die: ABSENT, with LAYERFAIL (R399, R515). -/
def layersLost (d : Dev) (p : Layer → Bool) : Dev :=
  foldOver (d.pool.layers.filter fun l => !l.staged && l.st != .absent && p l) d fun l d =>
    let d := retireLayer d l
    match l.req with
    | some id => answer (d.modLayer l.chase l.layer fun l => { l with req := none, lstat := Status.targetLost.code }) id .targetLost
    | none => (d.modLayer l.chase l.layer fun l => { l with lstat := Status.targetLost.code }).notice 0x0501
        (dPX ((d.stackServer l.stack).getD l.stack)) (some l.chase) l.layer Status.targetLost.code 0

def plateFaultFx (core slot : Nat) (d : Dev) : Dev :=
  let push := d.press.plates.std.find? fun s => s.core == core && s.slot == slot && !s.fault && s.plate == 0x0029
  let d := instFault d core slot
  match push with
  | some s => layersLost d fun l => l.chase == s.chase && l.stack == core / 32 && (l.st == .pushing || l.st == .missed)
  | none => d

def execPlateInstanceFault (core slot : Nat) (s : State) : Out := onPool (plateFaultFx core slot) s

/-- Give up a train at its core: what is held of it goes, and what still comes of it (R396). -/
def killTrain (d : Dev) (x : Rx) : Dev :=
  let d := dropTrain d x.pkt
  if x.pkt.last then d
  else { d with tfp := { d.tfp with trains := d.tfp.trains ++ [{ die := portDie x.port, port := x.port, first := x.pkt, dead := true }] } }

/-- A packet has waited 2 µs for room at the INGEST of press die `px` (R396): a request or delivery is answered RETRY and the rest of its train is
discarded, any other packet is discarded. -/
def ingestWaitFx (px : Nat) (x : Rx) (d : Dev) : Dev :=
  let full (d : Dev) : Dev := d.count .cPlatefull (dPX px)
  if isRequest x.pkt then Ck.dev do
    let (d, id, k) ← ingress d x (continues d x.pkt)
    if !isLocal d k then .ok (forwardReq d id k (some (x.port, x.vl)))
    else .ok (answer (full (killTrain d x)) id .retry)
  else if x.pkt.dlv ∨ x.pkt.opc = opREDUCE_RESULT then Ck.dev do
    let (d, id) ← takeDelivery d x
    match id with
    | none => .ok d
    | some id => .ok (answer (full (killTrain d x)) id .retry)
  else Ck.dev do
    let d ← hdrCheck d x
    .ok (full (discard d x))

def execIngestWaitTimeout (px : Nat) (x : Rx) (s : State) : Out := onPool (ingestWaitFx px x) s

end Sys2Proof.Machine
end

