-- ==== Sys2Proof/Machine/MarkCmds.lean ====
section
/-! DEFINITION. Commands of marks (R417–R441). -/

namespace Sys2Proof.Machine
open Sys2Proof

/-- A MARK_OP packet with the row's own MOP, W2[45:40] (R418). -/
def asMop (mop : Nat) (x : Rx) : Rx :=
  { x with pkt := { x.pkt with opc := opMARK_OP, w2 := BitVec.ofNat 64 (setBits x.pkt.w2.toNat 45 40 mop) } }

/-- Mark operations with a row of their own besides READ. -/
def mopRows : List Nat := [0x01, 0x02, 0x03, 0x04, 0x05, 0x10, 0x11, 0x12, 0x20, 0x21, 0x22, 0x23, 0x30, 0x31, 0x32]

/-- READ, and the arm a MARK_OP with a reserved MOP reaches, which R418 refuses. -/
def asRead (x : Rx) : Rx :=
  if mopRows.contains (wbits x.pkt.w2 45 40) then asMop 0 x else { x with pkt := { x.pkt with opc := opMARK_OP } }

def execRead (x : Rx) (s : State) : Out := onPool (markOpFx (asRead x)) s
def execAdd (x : Rx) (s : State) : Out := onPool (markOpFx (asMop 0x01 x)) s
def execSub (x : Rx) (s : State) : Out := onPool (markOpFx (asMop 0x02 x)) s
def execSet (x : Rx) (s : State) : Out := onPool (markOpFx (asMop 0x03 x)) s
def execTake (x : Rx) (s : State) : Out := onPool (markOpFx (asMop 0x04 x)) s
def execWaitge (x : Rx) (s : State) : Out := onPool (markOpFx (asMop 0x05 x)) s
def execArrive (x : Rx) (s : State) : Out := onPool (markOpFx (asMop 0x10 x)) s
def execArrivewait (x : Rx) (s : State) : Out := onPool (markOpFx (asMop 0x11 x)) s
def execWaitrnd (x : Rx) (s : State) : Out := onPool (markOpFx (asMop 0x12 x)) s
def execAcquire (x : Rx) (s : State) : Out := onPool (markOpFx (asMop 0x20 x)) s
def execTryacq (x : Rx) (s : State) : Out := onPool (markOpFx (asMop 0x21 x)) s
def execRelease (x : Rx) (s : State) : Out := onPool (markOpFx (asMop 0x22 x)) s
def execRenew (x : Rx) (s : State) : Out := onPool (markOpFx (asMop 0x23 x)) s
def execTicket (x : Rx) (s : State) : Out := onPool (markOpFx (asMop 0x30 x)) s
def execServe (x : Rx) (s : State) : Out := onPool (markOpFx (asMop 0x31 x)) s
def execWaitturn (x : Rx) (s : State) : Out := onPool (markOpFx (asMop 0x32 x)) s

def execHeldOpTimeout (req : Nat) (s : State) : Out := onPool (fun d => heldTimeout d req) s
def execQuoinLeaseExpiry (mark : Nat) (s : State) : Out := onPool (fun d => leaseExpiry d mark) s
def execBarrierParentAnswer (mark : Nat) (st : Status) (s : State) : Out := onPool (fun d => parentAnswer d mark st) s
def execBarrierUpResend (mark : Nat) (s : State) : Out := onPool (fun d => upResend d mark) s
def execMarkRecordError (mark : Nat) (s : State) : Out := onPool (fun d => markError d mark) s

end Sys2Proof.Machine
end

