-- ==== Sys2Proof/Machine/Wire.lean ====
section
/-! DEFINITION. FENCE, RESP, timeouts of trains, completions, filters and deliveries, reserved opcodes (R126–R142, R335, R507). -/

namespace Sys2Proof.Machine
open Sys2Proof

/-! ### FENCE (R132) -/

/-- Requests a FENCE covers: same SRC and CHASE, a TC of its mask, admitted earlier and not completed. -/
def fenceWaits (d : Dev) (id : Nat) (k : Pkt) : List Nat :=
  (d.tfp.outst.filter fun o => o.id != id && o.pkt.src == k.src && o.pkt.chase == k.chase && bit (wbits k.w2 7 0) o.pkt.tc && !o.answered).map
    fun o => o.id

def fenceFx (x : Rx) (d : Dev) : Dev :=
  Ck.dev do
    let (d, id, k) ← ingress d x false
    if !isLocal d k then .ok (forwardReq d id k (some (x.port, x.vl)))
    else if wbits k.w2 63 8 ≠ 0 ∨ wbits k.w2 7 0 = 0 ∨ k.w3 ≠ 0 then .ok (answer d id .unsupported)
    else .ok { d with tfp := { d.tfp with fences := d.tfp.fences ++ [{ id := id, waits := fenceWaits d id k }] } }

def execFence (x : Rx) (s : State) : Out := onPool (fenceFx (asOp opFENCE x)) s

/-- Has every request a FENCE covers completed? -/
def fenceDone (d : Dev) (f : FenceWait) : Bool := f.waits.all fun i => !d.tfp.outst.any fun o => o.id == i && !o.answered

def fenceAnswerFx (req : Nat) (d : Dev) : Dev :=
  match d.tfp.fences.find? fun f => f.id == req with
  | some f =>
    if fenceDone d f then answer { d with tfp := { d.tfp with fences := d.tfp.fences.filter fun f => f.id != req } } req .ok else d
  | none => d

def execFenceAnswer (req : Nat) (s : State) : Out := onPool (fenceAnswerFx req) s

/-! ### The device's own requests and deliveries (R133, R142, R335) -/

def dropDelivery (d : Dev) (tag : Nat) : Dev := { d with tfp := { d.tfp with dlv := d.tfp.dlv.filter fun v => v.tag != tag } }

/-- An access of a stripe engine, a dual write or a cached fill at a TFP tray or remote switch has its answer (R212, R235). -/
def trayPartEnd (d : Dev) (job cid : Nat) (res : Except Status (List Byte × Bool)) : Dev :=
  match d.job job with
  | none => d
  | some j => match j.reqs.find? fun r => r.cid == cid with
    | none => d
    | some r =>
      if j.loc.kind = 5 then memberEnd d j r 0 0 (match res with
        | .ok (b, p) => .ok (b, if p then [0, 1, 2, 3] else [])
        | .error st => .error st)
      else
        let j := { j with reqs := j.reqs.filter fun q => q.cid != cid }
        let d := d.modJob j.id fun _ => j
        match res with
        | .error st => jobEnd d j st
        | .ok (b, p) => match j.op with
          | .store => jobEnd d j .ok
          | .load =>
            if p then loadEnd d j fun _ => none
            else jobEnd (grpData d j.grp j.pva (b.take j.len ++ zeros (j.len - b.length))) j .ok
          | .atomic aop =>
            let old := b.take j.len ++ zeros (j.len - b.length)
            let j := { j with data := leBytes j.len (atomicNew aop j.len (leNat old) j.data), op := .store }
            jobEnd (grpData (d.modJob j.id fun _ => j) j.grp j.pva old) j .ok

/-- What a delivery that has used up its reissues, or had no RESP in its time, comes to: its receiver is missed (R335, R375), its access ends
TIMEOUT, or TARGETLOST where its target has no usable next hop (R230), a barrier level hears a RETRY (R432). -/
def deliveryMissed (d : Dev) (v : Delivery) : Dev :=
  let d := dropDelivery d v.tag
  match v.kind with
  | .redResult c rid n ch i => redOutcome d c rid n ch i true
  | .dispatch c m st x => dispatchOutcome d c m st x v.pkts false true
  | .combine c m _ id => combineOutcome d c m id true
  | .barrierUp i => parentAnswer d i .retry
  | .trayPart job cid => match v.pkts with
    | k :: _ =>
      let l := ((d.job job).map fun j => j.loc).getD {}
      let d := if k.opc = opLOAD ∨ l.kind = 5 ∨ (l.kind ≠ 3 ∧ l.kind ≠ 4) then d else d
      let tgt := if l.kind = 4 then l.target else k.dst
      (match routeEid d v.die tgt k with
       | .port _ => trayPartEnd d job cid (.error .timeout)
       | _ =>
         let d := holdLost d (if l.kind = 4 then 4 else 3) tgt
         trayPartEnd d job cid (.error .targetLost))
    | [] => trayPartEnd d job cid (.error .timeout)
  | .carryUp .. | .coh | .notice .. => d

def deliveryTimeoutFx (tag : Nat) (d : Dev) : Dev :=
  match d.tfp.dlv.find? fun v => v.tag == tag with
  | some v => deliveryMissed d v
  | none => d

def execDeliveryTimeout (tag : Nat) (s : State) : Out := onPool (deliveryTimeoutFx tag) s

/-- A RESP to a delivery or request of the switch itself. -/
def ownResp (d : Dev) (v : Delivery) (k : Pkt) (st : Status) : Dev :=
  if st = .retry then reissue d v
  else
    let d := dropDelivery d v.tag
    match v.kind with
    | .redResult c rid n ch i => redOutcome d c rid n ch i false
    | .carryUp c rid n ch => carryAnswered d c rid n ch st v.pkts
    | .dispatch c m s x => dispatchOutcome d c m s x v.pkts (st == .busy) false
    | .combine c m _ id => combineOutcome d c m id false
    | .barrierUp i => parentAnswer d i st
    | .coh =>
      if st = .mapGone then startDelivery d v.die .coh (v.pkts.map fun p => { p with epoch := (d.comp p.chase).cur, rtry := false }) else d
    | .notice .. => d
    | .trayPart job cid =>
      if st = .ok then trayPartEnd d job cid (.ok (k.data, false))
      else if st = .poisoned ∧ ((d.job job).map fun j => j.op == .load || j.loc.kind == 5).getD false then trayPartEnd d job cid (.ok (k.data, true))
      else trayPartEnd d job cid (.error st)

/-! ### RESP (R128, R129, R138, R507) -/

/-- The tracked request a RESP answers: by source, CHASE and TAG; a copy marked DUP answers a reissue. -/
def respMatch (d : Dev) (k : Pkt) : Option Outst :=
  let same (o : Outst) : Bool := o.pkt.src == k.dst && o.pkt.chase == k.chase && o.pkt.tag == k.tag && (match o.home with | .remote _ => true | _ => false)
  match d.tfp.outst.find? fun o => same o && o.pkt.rtry == k.dup with
  | some o => some o
  | none => d.tfp.outst.find? same

/-- A write part of a bound region that completed at a tray: its RESP waits until the notice is admitted (R285). -/
def respHold (d : Dev) (o : Outst) (k : Pkt) : Option Dev :=
  let w := o.pkt
  if (w.opc ≠ opSTORE ∧ w.opc ≠ opATOMIC) ∨ !isLocal d w then none
  else
    let pva := wbits w.w2 63 8
    let len := if w.opc = opATOMIC then atomSize w else w.len
    let fail := wbits k.w3 15 0
    let all := k.status != 0 && k.status != Status.partial_.code
    let ls := (linesIn pva len).filter fun l => !all && !bit fail (l / 256 - pva / 256)
    if ls.isEmpty then none
    else (noticeOf d w.chase pva).map fun b =>
      let d := d.modOutst o.id fun o => { o with answered := false }
      collect (modNotice d b fun b => { b with holdR := b.holdR ++ [(o.id, k)] }) b ls

/-- Follow the packets of a response train (R117): none where the train arrives incomplete. -/
def respStep (d : Dev) (x : Rx) : Option Dev :=
  let k := x.pkt
  let lost (d : Dev) : Option Dev := none
  match openTrain d k with
  | none =>
    if k.pidx ≠ 0 then lost d
    else if k.last then some d
    else some { d with tfp := { d.tfp with trains := d.tfp.trains ++ [{ die := portDie x.port, port := x.port, resp := true, first := k, next := 1 }] } }
  | some t =>
    if k.pidx ≠ t.next ∨ !sameTrain t.first k then lost d
    else if k.last then some (dropTrain d k)
    else some { d with tfp := { d.tfp with trains := mapFirst (fun u => u == t) (fun t => { t with next := t.next + 1 }) d.tfp.trains } }

/-- A RESP at its arrival (R43 steps 1 and 2, R128): consumed by the switch whose EID it names, otherwise forwarded by its DST once it matches a
request the device tracks. -/
def respFx (x : Rx) (d : Dev) : Dev :=
  Ck.dev do
    let d ← hdrCheck d x
    let d ← memberCheck d x
    let d := admittedPkt d x
    let die := portDie x.port
    match respStep d x with
    | none => .error (discard ((dropTrain d x.pkt).count .cTrainerr die) x)
    | some d =>
      let bad := (Status.ofCode x.pkt.status).isNone
      let d := if bad then d.count .cBadstat die else d
      let k := if bad then { x.pkt with status := Status.timeout.code } else x.pkt
      let st := (Status.ofCode k.status).getD .timeout
      if k.dst = d.tfp.eid then
        match d.tfp.dlv.find? fun v => v.tag == k.tag && ((v.pkts.head?).map fun p => p.chase == k.chase).getD false with
        | none => .ok (discard (d.count .cLateresp die) x)
        | some v => .ok (ownResp (discard d x) v k st)
      else match respMatch d k with
        | none => .ok (discard (d.count .cLateresp die) x)
        | some o =>
          if o.answered then
            let d := if k.last then d.dropOutst o.id else d
            .ok (discard (d.count .cLateresp die) x)
          else match (if k.last then respHold d o k else none) with
            | some d => .ok (discard d x)
            | none =>
              let d := if !k.last then d
                else
                  let d := d.dropOutst o.id
                  if o.counted then uncountEpoch d o.die o.pkt.chase o.pkt.epoch else d
              .ok (sendResp d die k (some (x.port, x.vl)))

def execResp (x : Rx) (s : State) : Out := onPool (respFx (asOp opRESP x)) s

/-! ### Timeouts -/

/-- A train is incomplete TRAINTMO after its last packet (R117). -/
def trainTimeoutFx (src chase tag : Nat) (resp : Bool) (d : Dev) : Dev :=
  match d.tfp.trains.find? fun t => t.resp == resp && t.first.src == src && t.first.chase == chase && t.first.tag == tag with
  | none => d
  | some t =>
    let d := dropTrain d t.first
    if t.dead then d
    else
      let d := d.count .cTrainerr t.die
      if t.resp then d
      else match outstOf d t.first with
        | some o => answer d o.id .retry
        | none => d

def execTrainTimeout (src chase tag : Nat) (resp : Bool) (s : State) : Out := onPool (trainTimeoutFx src chase tag resp) s

/-- The ingress answers a request itself (R138, R61): a RESP of one status for every part; what comes of it later is discarded. -/
def answerEarly (d : Dev) (o : Outst) (st : Status) : Dev :=
  let k := o.pkt
  let pva := wbits k.w2 63 8
  let len := if k.opc = opLOAD then wbits k.w3 12 0 else k.len
  let all := if (k.opc = opLOAD ∨ k.opc = opSTORE) ∧ st ≠ .mapGone ∧ 0 < len then 2 ^ (min 16 (partsOf pva len)) - 1 else 0
  let r := mkResp d o.die k st 0 0 all (if k.opc = opLOAD then all else 0) o.cn false []
  let d := if o.counted then uncountEpoch d o.die k.chase k.epoch else d
  let keep := match o.home with | .ingress _ => false | _ => true
  let d := if keep then d.modOutst o.id fun o => { o with answered := true } else d.dropOutst o.id
  let d := { d with tfp := { d.tfp with fences := d.tfp.fences.filter fun f => f.id != o.id } }
  sendResp d o.die r

/-- Is the target of a pool request held lost (R231)? -/
def targetGone (d : Dev) (k : Pkt) : Bool :=
  (k.opc == opLOAD || k.opc == opSTORE || k.opc == opATOMIC) &&
    ((folioAt d k.chase k.epoch (wbits k.w2 63 8)).map fun f => placeLost d f).getD false

def completionFx (req : Nat) (d : Dev) : Dev :=
  match d.outst req with
  | none => d
  | some o =>
    if o.answered then d
    else answerEarly (d.count .cCtoexp o.die) o (if targetGone d o.pkt then .targetLost else .timeout)

def execCompletionTimeout (req : Nat) (s : State) : Out := onPool (completionFx req) s

/-- DUPWIN after its RESP was sent, a filter entry is freed (R135). -/
def filterExpiryFx (home : Home) (src chase tag : Nat) (d : Dev) : Dev :=
  { d with tfp := { d.tfp with filters := d.tfp.filters.filter fun e =>
      !(e.home == home && e.src == src && e.chase == chase && e.tag == tag && e.done) } }

def execFilterEntryExpiry (home : Home) (src chase tag : Nat) (s : State) : Out := onDev (filterExpiryFx home src chase tag) s

/-! ### Reserved opcodes (R126) -/

/-- Opcodes of the opcode table (R120). -/
def opcodes : List Nat :=
  [0x01, 0x02, 0x03, 0x04, 0x05, 0x10, 0x11, 0x12, 0x20, 0x21, 0x22, 0x23, 0x24, 0x25, 0x30, 0x31, 0x38, 0x39, 0x3A]

/-- A packet with a reserved OPC: answered UNSUPPORTED on a request lane, otherwise discarded; both count in HDRERR. A packet whose OPC is
assigned is no such packet. -/
def reservedOpFx (x : Rx) (d : Dev) : Dev :=
  if opcodes.contains x.pkt.opc then d
  else
    let d := hdrErr d x.port
    if x.vl < 16 ∧ x.vl % 2 = 0 then refuse d x .unsupported else discard d x

def execReservedOpcodePacket (x : Rx) (s : State) : Out := onPool (reservedOpFx x) s

end Sys2Proof.Machine
end

