-- ==== Sys2Proof/Machine/Compose.lean ====
section
/-! DEFINITION. Creating and ending compositions, committing formes, draining and releasing epochs, moving folios
(R41, R56–R73, R210, R260, R282, R319, R393, R427, R434, R452, R546). -/

namespace Sys2Proof.Machine
open Sys2Proof

/-- The meaning of a Basod command: the keeper takes it under R547 to R551. -/
def onCmd (self : Instr) (b : Bas) (i : CmdInfo) (body : Dev → Dev) (s : State) : Out := onPool (fun d => d.command self b i body) s

/-- A command of a chase's owner in the chase's domain (groups 0x03 to 0x07). -/
def chaseCmd (opc chase : Nat) (at_ : Nat := 0) : CmdInfo :=
  { opc := opc, who := .c chase, dom := some (.chase chase), chase := some chase, chaseAt := at_ }

/-- Port and press dies that take part. -/
def upDies (d : Dev) : List Nat := (upTo 24).filter d.dieUp

/-! ### Lines that stop being cacheable (R260, R282) -/

def Folio.loc (f : Folio) : Loc := { kind := f.kind, target := f.target, frame := f.frame }

/-- Does some current forme still cache a place on this switch? -/
def stillCached (d : Dev) (l : Loc) (stack : Nat) : Bool :=
  d.imp.comps.any fun e => e.2.bound && !e.2.curDead && e.2.curF.folios.any fun x => x.2.gcache && x.2.loc == l && x.2.cstack == stack

/-- Evict the lines of places no longer cached: those in a stable state now, the others when they reach one. -/
def dropStale (d : Dev) (ls : List Loc) : Dev :=
  let hit := d.pool.lines.filter fun l => ls.contains l.loc && !stillCached d l.loc l.stack
  foldOver hit d fun l d =>
    let l := { l with drop := true }
    if l.st.stable then evict (d.setLine l) l else d.setLine l

/-- The home recalls a line that has a directory entry (R282): it asks itself for M, and drops the line once it has it. -/
def recallLine (d : Dev) (e : DirEnt) : Dev :=
  let px := (d.stackServer e.px).getD e.px
  let m : CohMsg := { msg := .getm, srcm := selfM d, reqm := selfM d, dest := selfM d, line := e.key }
  let send (d : Dev) (m : CohMsg) : Dev := cohSend d e.chase e.party e.pva px m
  let l : CLine := (d.line e.key).getD { key := e.key, stack := e.px, chase := e.chase, pva := e.pva, party := e.party, loc := e.loc }
  let l := { l with drop := true, acks := 0, need := none }
  match l.st with
  | .i => send (d.setLine { l with st := .imAD }) m
  | .s => send (d.setLine { l with st := .smAD, window := false }) { m with msg := .upgr }
  | .o => send (d.setLine { l with st := .omAD }) { m with msg := .upgr }
  | .m | .e => evict (d.setLine l) l
  | _ => d.setLine { l with acks := ((d.line e.key).map fun x => x.acks).getD 0, need := (d.line e.key).bind fun x => x.need }

/-- Recall every line of places whose home stops caching them. -/
def recallLines (d : Dev) (ls : List Loc) : Dev :=
  let gone (l : Loc) : Bool := ls.contains l && l.kind != 4 && (upTo 8).all fun s => !stillCached d l s
  foldOver (d.pool.dir.filter fun e => gone e.loc) d fun e d => recallLine d e

/-- Places a forme caches. -/
def cachedLocs (f : Forme) : List Loc := (f.folios.filter fun e => e.2.gcache).map fun e => e.2.loc

/-! ### Standard instances (R391) -/

/-- The standard instances of a chase follow its formes: those its current and draining forme need, a faulted one kept as it is. -/
def syncStd (d : Dev) (chase : Nat) : Dev :=
  let c := d.comp chase
  let fs := (if c.bound then [c.curF] else []) ++ c.drnF.toList
  let want := ((upTo 256).flatMap fun core => (fs.flatMap fun f => plateOn d chase f core).eraseDups.map fun p => (core, p))
  let keep := d.press.plates.std.filter fun s => s.chase != chase || want.contains (s.core, s.plate)
  let d := { d with press := { d.press with plates := { d.press.plates with std := keep } } }
  let new := want.filter fun w => !keep.any fun s => s.chase == chase && s.core == w.1 && s.plate == w.2
  foldOver new d fun w d => match freeSlot d w.1 with
    | none => d
    | some slot => { d with press := { d.press with plates := { d.press.plates with
        std := d.press.plates.std ++ [{ core := w.1, slot := slot, chase := chase, plate := w.2 }] } } }

/-! ### Definitions at a commit (R319, R347, R369, R393, R427) -/

/-- The marks of a reduction definition are set up as counters and bound (R319). -/
def bindRedMarks (d : Dev) (q : RedDef) : Dev :=
  let fresh (wkind : Nat) (m : Mark) : Mark := { m with type := 1, plock := false, flags := 0, word := 0, link := 0, wkind := wkind, bitmap := none, saved := none }
  let d := foldOver (upTo 4) d fun i d => d.modMark (q.cmark + i) (fresh 2)
  d.modMark q.dmark (fresh 0)

/-- They return to TYPE 0 when the definition goes; what is held on them ends. -/
def freeRedMarks (d : Dev) (q : RedDef) : Dev :=
  foldOver ([q.dmark] ++ (upTo 4).map (q.cmark + ·)) d fun i d => (endWaits d i .denied).modMark i fun m => { chase := m.chase }

def bindMark (d : Dev) (i wkind wtgt : Nat) : Dev := d.modMark i fun m => { m with wkind := wkind, wtgt := wtgt }

/-- Definitions that leave with this commit: their live rounds and steps end, their marks are unbound. -/
def defsLeave (d : Dev) (chase : Nat) : Dev :=
  let d := foldOver (d.press.reds.filter fun r => r.chase == chase && r.leaving) d fun r d =>
    freeRedMarks (foldOver r.rounds d fun rr d => redFail d chase r.d.rid rr.rnd 5) r.d
  let d := foldOver (d.press.embs.filter fun e => e.chase == chase && e.leaving) d fun e d =>
    if e.d.home = 1 then d else bindMark (stepFail d chase e.d.table 1) e.d.umark 0 0
  let d := foldOver (d.pool.rings.filter fun r => r.chase == chase && r.leaving) d fun r d => bindMark d r.mark 0 0
  let d := foldOver (d.press.plates.binds.filter fun b => b.chase == chase && b.leaving) d fun b d =>
    foldOver b.rings d fun r d => bindMark d r.mark 0 0
  let left (b : List PBind) (i : PInst) : Bool := b.any fun x =>
    x.chase == chase && x.leaving && i.chase == chase && i.plate == x.plate && x.rings.any fun r => r.ring == i.ring.ring
  let bs := d.press.plates.binds
  let insts := (mapIf (left bs) (fun i => { i with drain := true }) d.press.plates.insts).filter fun i => !(left bs i && i.items.isEmpty)
  let rings := (d.pool.rings.filter fun r => !(r.chase == chase && r.leaving && !r.job && !r.taking)).map fun r =>
    if r.chase = chase ∧ r.leaving then { r with leaving := false, gone := true } else r
  { d with
    press := { d.press with
      reds := d.press.reds.filter fun r => !(r.chase == chase && r.leaving)
      embs := d.press.embs.filter fun e => !(e.chase == chase && e.leaving)
      moes := d.press.moes.filter fun m => !(m.chase == chase && m.leaving)
      plates := { d.press.plates with binds := bs.filter (fun b => !(b.chase == chase && b.leaving)), insts := insts } }
    pool := { d.pool with rings := rings } }

/-- A new instance of a user plate on the core of a ring. -/
def addInst (d : Dev) (b : PBind) (r : PRing) : Dev := match freeSlot d r.core, d.image b.chase b.plate with
  | some slot, some p =>
    let i : PInst :=
      { core := r.core, slot := slot, chase := b.chase, party := b.party, plate := b.plate, ring := r
        queues := p.queues.map (fun _ => []), nodes := p.nodes.map (fun _ => {}) }
    { d with press := { d.press with plates := { d.press.plates with insts := d.press.plates.insts ++ [i] } } }
  | _, _ => d

/-- Work on a core that left the set goes to the core the stage chose for it. -/
def moveCores (d : Dev) (chase : Nat) (rc : List (Nat × Nat)) : Dev :=
  let to_ (c : Nat) : Nat := ((rc.find? fun x => x.1 == c).map Prod.snd).getD c
  let moved (c : Nat) : Bool := rc.any fun x => x.1 == c
  let d := { d with
    pool := { d.pool with rings := mapIf (fun r => r.chase == chase && !r.gone) (fun r => { r with core := to_ r.core }) d.pool.rings }
    press := { d.press with moes := mapIf (fun m => m.chase == chase) (fun m => { m with disp := m.disp.map to_ }) d.press.moes } }
  let d := foldOver (nextRings d chase) d fun r d => if r.staged then d else bindMark d r.mark 1 r.core
  let old := d.press.plates.insts.filter fun i => i.chase == chase && !i.drain && moved i.core
  let d := foldOver old d fun i d =>
    let insts := (mapIf (fun x => x == i) (fun x => { x with drain := true }) d.press.plates.insts).filter fun x => !(x.drain && x.items.isEmpty)
    let to2 (b : PBind) : PBind := { b with rings := mapIf (fun r => r.ring == i.ring.ring) (fun r => { r with core := to_ r.core }) b.rings }
    let binds := mapIf (fun b => b.chase == chase && b.plate == i.plate && b.party == i.party) to2 d.press.plates.binds
    let d := { d with press := { d.press with plates := { d.press.plates with insts := insts, binds := binds } } }
    let b : PBind := { chase := chase, party := i.party, plate := i.plate }
    bindMark (addInst d b { i.ring with core := to_ i.ring.core }) i.ring.mark 1 (to_ i.ring.core)
  d

/-- Definitions that take effect with this commit. -/
def defsEnter (d : Dev) (chase : Nat) : Dev :=
  let d := foldOver (d.press.reds.filter fun r => r.chase == chase && r.staged) d fun r d => bindRedMarks d r.d
  let d := foldOver (d.press.embs.filter fun e => e.chase == chase && e.staged && e.d.home == 0) d fun e d => bindMark d e.d.umark 2 0
  let d := foldOver (d.pool.rings.filter fun r => r.chase == chase && r.staged) d fun r d => bindMark d r.mark 1 r.core
  let d := foldOver (d.press.plates.binds.filter fun b => b.chase == chase && b.staged) d fun b d =>
    foldOver b.rings d fun r d => bindMark (addInst d b r) r.mark 1 r.core
  let new := d.pool.layers.filter fun l => l.chase == chase && l.staged
  let d := foldOver (d.pool.layers.filter fun l => l.chase == chase && !l.staged && new.any fun x => x.layer == l.layer) d fun l d => retireLayer d l
  { d with
    press := { d.press with
      reds := mapIf (fun r => r.chase == chase) (fun r => { r with staged := false }) d.press.reds
      embs := mapIf (fun r => r.chase == chase) (fun r => { r with staged := false }) d.press.embs
      moes := mapIf (fun r => r.chase == chase) (fun r => { r with staged := false }) d.press.moes
      plates := { d.press.plates with binds := mapIf (fun r => r.chase == chase) (fun r => { r with staged := false }) d.press.plates.binds } }
    pool := { d.pool with
      rings := mapIf (fun r => r.chase == chase) (fun r => { r with staged := false }) d.pool.rings
      layers := (d.pool.layers.filter fun l => !(l.chase == chase && !l.staged && new.any fun x => x.layer == l.layer)).map fun l =>
        if l.chase = chase then { l with staged := false } else l } }

/-- Layers under a new forme: their stack in turn, the shadow resident unless R46 dropped it; one whose stack changes is retired, one beyond
the declared layers goes. -/
def layersFit (d : Dev) (chase : Nat) (f : Forme) : Dev :=
  let mine := d.pool.layers.filter fun l => l.chase == chase && !l.staged
  let d := foldOver mine d fun l d =>
    let s := layerStack d f l.layer
    let d := if s = l.stack ∧ l.layer < f.req.layers.length then d else retireLayer d l
    let mine (x : Layer) : Bool := x.chase == chase && x.layer == l.layer && !x.staged
    let fit (x : Layer) : Layer := { x with stack := s, shres := x.arm == 1 && !f.dropped.contains x.layer }
    { d with pool := { d.pool with layers := mapIf mine fit d.pool.layers } }
  { d with pool := { d.pool with layers := d.pool.layers.filter fun l =>
      !(l.chase == chase && !l.staged && decide (f.req.layers.length ≤ l.layer)) } }

/-! ### Release of an epoch (R59, R63) -/

/-- Frames of a released forme that no live forme uses wait for their fence (R63). -/
def vacate (d : Dev) (f : Forme) : Dev :=
  let used := framesUsed (liveFormes d)
  let gone := ((framesUsed [f]).eraseDups).filter fun x => !used.contains x && !d.imp.vacated.contains x
  { d with imp := { d.imp with vacated := d.imp.vacated ++ gone } }

/-- Marks a released forme held and the current one does not are free again (R55). -/
def dropMarks (d : Dev) (ms : List Nat) : Dev :=
  foldOver ms d fun i d =>
    let d := endWaits d i .denied
    { d with marks := { d.marks with tbl := tdel d.marks.tbl i }, flt := { d.flt with badMarks := d.flt.badMarks.filter (· != i) } }

/-- PDKs of chases no longer bound that key no folio another chase maps are zeroised, and revoked at the trays that hold them (R452, R457). -/
def sweepKeys (d : Dev) : Dev :=
  let needed (k : Nat) : Bool := (d.comp (k / 64)).bound || d.pool.fold.any fun e => e.2 == k
  let gone := (d.pool.keys.filter fun e => !needed e.1).map Prod.fst
  let d := { d with pool := { d.pool with keys := d.pool.keys.filter fun e => needed e.1 } }
  let at_ := d.imp.trayKeys.filter fun x => gone.contains x.2
  let d := { d with imp := { d.imp with trayKeys := d.imp.trayKeys.filter fun x => !gone.contains x.2 } }
  foldOver at_ d fun x d => d.emit (.trayKey x.1 x.2 false)

/-- Operations still counted under an epoch become stragglers (R61): answered MAPGONE, their rounds failed, nothing counted any more. -/
def straggleAll (d : Dev) (chase epoch : Nat) : Dev :=
  let hit := d.tfp.outst.filter fun o => o.pkt.chase == chase && o.pkt.epoch == epoch && o.counted && !o.answered
  let open_ := (d.comp chase).count.any fun e => e.1 % 16 == epoch && e.2 != 0
  let d := foldOver hit d fun o d => answerEarly d o .mapGone
  let d := redDrain d chase epoch
  let free (m : Moe) : Moe := { m with reqs := mapIf (fun r => r.k.epoch == epoch) (fun r => { r with cnt := none }) m.reqs }
  let d := { d with press := { d.press with moes := mapIf (fun m => m.chase == chase) free d.press.moes } }
  d.modComp chase fun c => { c with strag := c.strag || open_ || !hit.isEmpty, count := c.count.filter fun e => e.1 % 16 != epoch }

/-- Fast-path entries of an epoch leave a die's cache (R51). -/
def dropFast (d : Dev) (chase epoch : Nat) (dies : List Nat) : Dev :=
  { d with imp := { d.imp with fast := d.imp.fast.filter fun e => !(e.chase == chase && e.epoch == epoch && dies.contains e.die) } }

/-- The draining epoch is released (R59). -/
def releaseEpoch (d : Dev) (chase : Nat) : Dev :=
  let c := d.comp chase
  match c.drnF with
  | none => d
  | some f =>
    let d := d.modComp chase fun c =>
      { c with drnLive := false, drnClosed := false, drnF := none, inflight := 0, lateClose := [], lateRel := upDies d
               count := c.count.filter fun e => e.1 % 16 != c.drn }
    let d := vacate d f
    let d := dropMarks d (f.marks.filter fun m => !c.curF.marks.contains m)
    let d := sweepKeys (sweepFold d chase)
    let d := syncStd d chase
    let ls := cachedLocs f
    let d := recallLines (dropStale d ls) ls
    d.finish 0x0402 chase .ok

/-! ### The commit (R66, R67) -/

/-- Membership entries of a running commit are applied on some port dies. -/
def putMembers (d : Dev) (chase : Nat) (dies : List Nat) : Dev :=
  let new := (d.comp chase).pendEnts.filter fun m => dies.contains m.die
  let others := d.imp.members.filter fun m => !(m.chase == chase && !m.trunk && dies.contains m.die)
  { d with imp := { d.imp with members := others ++ new } }

/-- An endpoint no port die binds in the chase any more loses its quoins (R434). -/
def breakGone (d : Dev) (chase : Nat) : Dev :=
  let bound := (d.imp.members.filter fun m => m.chase == chase && !m.trunk).map fun m => m.eid
  let owners := ((d.marks.tbl.filter fun e => e.2.type == 3 && e.2.chase == chase && e.2.qState == 1).map fun e => e.2.owner).eraseDups
  foldOver (owners.filter fun o => !bound.contains o) d fun o d => eidLost d o 4 (some chase)

/-- The switch is complete (R67): the reply, and the drain begins to count. -/
def switchDone (d : Dev) (chase : Nat) : Dev :=
  let c := d.comp chase
  let d := putMembers d chase (upTo 16)
  let d := d.modComp chase fun c => { c with phase := .idle, late := [], selfRun := false }
  let d := breakGone d chase
  if c.selfRun then
    let d := { d with mgmt := { d.mgmt with running := d.mgmt.running.filter fun r => !(r.opc == 0 && r.key == chase) } }
    d.notice 0x0301 d.kpDie (some chase) c.cur c.changed 0
  else d.finish 0x0304 chase .ok

/-- The commit goes on to its next phase once no die is late (R67). -/
def commitOn (d : Dev) (chase : Nat) : Dev :=
  let c := d.comp chase
  let lateNow (p : Nat → Bool) : Bool := c.late.any p
  if c.phase = .press ∧ !lateNow (fun x => decide (16 ≤ x)) then d.modComp chase fun c => { c with phase := .ports } else d

/-- The census of a forme (R478): its folios by party and by target. -/
def censusOf (f : Forme) : Census :=
  let ps := (f.folios.map fun e => e.2.party).eraseDups
  let ts := (f.folios.map fun e => (e.2.kind, e.2.target)).eraseDups
  { parties := ps.map fun p => (p, (f.folios.filter fun e => e.2.party == p).length)
    targets := ts.map fun t => (t, (f.folios.filter fun e => e.2.kind == t.1 && e.2.target == t.2).length) }

/-- A commit writes the census of the new current forme to every port die (R478). -/
def writeCensus (d : Dev) (chase : Nat) : Dev :=
  { d with imp := { d.imp with census := tput d.imp.census chase (censusOf (d.comp chase).curF) } }

/-- The keeper sends the meter an open or a close notice (R472). -/
def meterNote (d : Dev) (open_ : Bool) (chase : Nat) : Dev :=
  { d with meter := { d.meter with notes := d.meter.notes ++ [(open_, chase)] } }

/-- The commit point (R67): the staged forme becomes current, the current one drains, and the update goes to the press dies. -/
def commitForme (d : Dev) (chase : Nat) (self : Bool) : Dev :=
  let c := d.comp chase
  match c.staged with
  | none => d
  | some g =>
    let cfg := d.reg .impChaseCfg chase
    let old := c.curF
    let d := d.modComp chase fun c =>
      { c with cur := (c.cur + 1) % 16, drn := c.cur, drnLive := true, drnClosed := false, drnF := some old, curF := g.forme, staged := none
               phase := .press, late := upDies d, lateClose := [], lateRel := [], inflight := 0
               drnBound := bits cfg 31 22, drnHold := bits cfg 21 12, pendEnts := g.ents, selfRun := self, changed := g.changed
               migs := c.migs.filter fun m => ((tfind g.forme.folios m.1).map fun f => f.mig).getD false }
    let d := defsLeave d chase
    let d := allocMarks d chase (g.forme.marks.filter fun m => !old.marks.contains m)
    let d := defsEnter (moveCores d chase g.recore) chase
    let d := layersFit d chase g.forme
    let d := syncStd d chase
    let d := { d with imp := { d.imp with badEnt := d.imp.badEnt.filter fun e => e.1 != chase } }
    writeCensus (dropStale d (cachedLocs old)) chase

/-- The Imposer's own commit: it holds the chase's domain until its switch is complete (R547). -/
def selfCommit (d : Dev) (chase : Nat) : Dev :=
  let r : Running := { dom := .chase chase, sess := none, cseq := 0, opc := 0, key := chase, aux := 2 }
  commitForme { d with mgmt := { d.mgmt with running := d.mgmt.running ++ [r] } } chase true

/-! ### COMP_CREATE, COMP_DESTROY, FORME_STAGE, FORME_COMMIT, COMP_OWNER -/

def setAttested (d : Dev) (trays : List Nat) : Dev := { d with imp := { d.imp with attested := trays } }

/-- An admitted request is bound: the forme at epoch 0, its registers, members, census, account, marks and keys (R57, R472, R478). -/
def compBind (d : Dev) (chase cowner : Nat) (q : CompReq) (a : Admission) : Dev :=
  let d := d.modComp chase fun _ => { bound := true, cowner := cowner, curF := a.forme }
  let d := d.setReg .impChaseCfg chase (q.drainbound <<< 22 + q.drainhold <<< 12 + q.tightmax <<< 5)
  let d := d.setReg .fltComppol chase (regReset .fltComppol chase)
  let d := { d with imp := { d.imp with members := d.imp.members ++ a.ents } }
  deliverKeys (allocMarks (meterNote (writeCensus d chase) true chase) chase a.forme.marks) chase a.forme

/-- What a TIGHT admission lacks and predicts (R46). -/
def tightData (q : CompReq) (a : Admission) : List Nat := [a.short0, q.shadow * folioB - a.forme.shadowB, a.forme.depth]

def compCreateFx (b : Bas) (chase cowner : Nat) (q : CompReq) (trays : List Nat) (d : Dev) : Dev :=
  if 4096 ≤ chase ∨ !reqOk (asAsked q) then d.reply b 0x0301 .unsupported
  else if (d.comp chase).bound then d.reply b 0x0301 .busy
  else
    let r := admitReq (setAttested d trays) chase (asAsked q) none (asAsked q).tightmax false []
    if r.1.st = .noFit then d.reply b 0x0301 .noFit 0x01 r.1.res [r.1.short]
    else if r.1.st = .tight then
      (compBind r.2 chase cowner (asAsked q) r.1).reply b 0x0301 .tight 0x05 (predSlow q.layers r.1.forme.depth) (tightData (asAsked q) r.1)
    else (compBind r.2 chase cowner (asAsked q) r.1).reply b 0x0301 .ok

/-- COMP_CREATE (R40 to R46, R57, R546): the admitted forme is current at epoch 0. -/
def execCompCreate (b : Bas) (chase cowner : Nat) (q : CompReq) (trays : List Nat) (s : State) : Out :=
  onCmd (.compCreate b chase cowner q trays) b { opc := 0x0301, who := .f, dom := some (.chase chase) } (compCreateFx b chase cowner q trays) s

def compDestroyFx (b : Bas) (chase : Nat) (d : Dev) : Dev :=
  let bound := d.fld .impChaseCfg chase 31 22
  (d.modComp chase fun c => { c with destroying := true, dstBound := bound }).defer b (.chase chase) 0x0302 chase

/-- COMP_DESTROY (R73): admission stops at once; the reply comes when the chase is free. -/
def execCompDestroy (b : Bas) (chase : Nat) (s : State) : Out := onCmd (.compDestroy b chase) b (chaseCmd 0x0302 chase) (compDestroyFx b chase) s

def formeStageFx (b : Bas) (chase : Nat) (q : CompReq) (trays : List Nat) (d : Dev) : Dev :=
  let q := asAsked q
  if !reqOk q then d.reply b 0x0303 .unsupported
  else match stageComp (setAttested d trays) chase q false false {} with
    | ((.busy, _, _), _) => d.reply b 0x0303 .busy
    | ((.noFit, r, n), d) => d.reply b 0x0303 .noFit 0x01 r [n]
    | (_, d) => answerStage d b chase 0x0303

/-- FORME_STAGE (R55, R65). A stage that does not fit is recorded as not ready. -/
def execFormeStage (b : Bas) (chase : Nat) (q : CompReq) (trays : List Nat) (s : State) : Out :=
  onCmd (.formeStage b chase q trays) b (chaseCmd 0x0303 chase) (formeStageFx b chase q trays) s

def formeCommitFx (b : Bas) (chase : Nat) (force : Bool) (d : Dev) : Dev :=
  let c := d.comp chase
  match c.staged with
  | none => d.reply b 0x0304 .unsupported
  | some g =>
    if g.adm = .noFit then d.reply b 0x0304 .noFit 0x01 g.short [g.shortN]
    else if (c.drnLive ∧ !force) ∨ !g.moving.isEmpty then d.reply b 0x0304 .busy
    else
      let d := if c.drnLive then dropFast (releaseEpoch (straggleAll d chase c.drn) chase) chase c.drn (upTo 16) else d
      commitForme (d.defer b (.chase chase) 0x0304 chase) chase false

/-- FORME_COMMIT (R66, R67): the reply comes when the switch is complete. -/
def execFormeCommit (b : Bas) (chase : Nat) (force : Bool) (s : State) : Out :=
  onCmd (.formeCommit b chase force) b (chaseCmd 0x0304 chase) (formeCommitFx b chase force) s

/-- COMP_OWNER (R546). -/
def execCompOwner (b : Bas) (chase digest : Nat) (s : State) : Out :=
  onCmd (.compOwner b chase digest) b { chaseCmd 0x0307 chase with who := .f }
    (fun d => (d.modComp chase fun c => { c with cowner := digest }).reply b 0x0307 .ok) s

/-! ### The course of a commit (R67) -/

def pressAcksFx (chase : Nat) (d : Dev) : Dev := commitOn d chase

/-- No press die is late: the update goes to the port dies. -/
def execCommitPressAcks (chase : Nat) (s : State) : Out := onDev (pressAcksFx chase) s

def updateApplyFx (chase die : Nat) (d : Dev) : Dev :=
  let c := d.comp chase
  let due := c.late.contains die && ((c.phase == .press && decide (16 ≤ die)) || (c.phase == .ports && decide (die < 16)))
  if !due then d
  else
    let d := d.modComp chase fun c => { c with late := c.late.filter (· != die) }
    if die < 16 then putMembers d chase [die] else d

/-- A die applies the chase update: from then on it takes the new epoch and, a port die, the new membership entries (R42, R67). -/
def execChaseUpdateApply (chase die : Nat) (s : State) : Out := onDev (updateApplyFx chase die) s

def switchCompleteFx (chase : Nat) (d : Dev) : Dev :=
  let c := d.comp chase
  if c.phase = .ports ∧ c.late.isEmpty then switchDone d chase else d

/-- Every die has acknowledged the update. -/
def execCommitSwitchComplete (chase : Nat) (s : State) : Out := onPool (switchCompleteFx chase) s

/-! ### The drain (R58, R59, R61, R365, R366) -/

def drainholdFx (chase : Nat) (what : Drain) (d : Dev) : Dev :=
  match what with
  | .epoch e =>
    let c := d.comp chase
    if c.drnLive ∧ c.drn = e ∧ c.phase = .idle ∧ !c.drnClosed then
      d.modComp chase fun c => { c with drnClosed := true, lateClose := upDies d }
    else d
  | .table t => versionClose d chase t

/-- DRAINHOLD has elapsed: the close goes to every die. -/
def execDrainholdExpiry (chase : Nat) (what : Drain) (s : State) : Out := onDev (drainholdFx chase what) s

/-- A die applies the close. -/
def execDrainCloseApply (chase die : Nat) (s : State) : Out :=
  onDev (fun d => d.modComp chase fun c => { c with lateClose := c.lateClose.filter (· != die) }) s

/-- Operations counted under an epoch, over all dies. -/
def countOf_ (c : Comp) (e : Nat) : Nat := sumNat ((c.count.filter fun x => x.1 % 16 == e).map Prod.snd)

def drainPollFx (chase : Nat) (what : Drain) (d : Dev) : Dev :=
  match what with
  | .epoch e =>
    let c := d.comp chase
    let n := countOf_ c e
    if c.drnLive ∧ c.drn = e then
      let d := d.modComp chase fun c => { c with inflight := min n 524287 }
      if c.drnClosed ∧ c.lateClose.isEmpty ∧ n = 0 then releaseEpoch d chase else d
    else if c.destroying ∧ c.cur = e ∧ n = 0 then d.modComp chase fun c => { c with curDead := true }
    else d
  | .table t => versionPoll d chase t

/-- A poll of the draining counts. -/
def execDrainPoll (chase : Nat) (what : Drain) (s : State) : Out := onPool (drainPollFx chase what) s

/-- The drain bound of a table's version expires: its gathers end MAPGONE and it is released (R366). -/
def versionBound (d : Dev) (chase table : Nat) : Dev :=
  match d.emb chase table with
  | none => d
  | some e =>
    if !e.drnLive then d
    else
      let d := foldOver (drainGathers d e) d fun s d =>
        let d := match s.req.bind d.outst with
          | some o => if o.answered then d else answerEarly d o .mapGone
          | none => d
        d.dropSvc s.id
      d.modEmb chase table fun e => { e with drnLive := false, drnClosed := false }

def drainboundFx (chase : Nat) (what : Drain) (d : Dev) : Dev :=
  match what with
  | .epoch e =>
    let c := d.comp chase
    if c.drnLive ∧ c.drn = e ∧ c.phase = .idle then releaseEpoch (straggleAll d chase e) chase
    else if c.destroying ∧ c.cur = e ∧ !c.curDead then (straggleAll d chase e).modComp chase fun c => { c with curDead := true }
    else d
  | .table t => versionBound d chase t

/-- The drain bound expires. -/
def execDrainboundExpiry (chase : Nat) (what : Drain) (s : State) : Out := onPool (drainboundFx chase what) s

def releaseApplyFx (chase die : Nat) (d : Dev) : Dev :=
  let c := d.comp chase
  if !c.lateRel.contains die then d
  else dropFast (d.modComp chase fun c => { c with lateRel := c.lateRel.filter (· != die) }) chase c.drn [die]

/-- A die applies the release: its fast-path entries of the epoch go. -/
def execEpochReleaseApply (chase die : Nat) (s : State) : Out := onDev (releaseApplyFx chase die) s

def fencedFx (kind target frame : Nat) (d : Dev) : Dev :=
  let x := (kind, target, frame)
  let l : Loc := { kind := kind, target := target, frame := frame }
  let held := d.pool.lines.any (fun c => c.loc == l) || d.pool.dir.any fun e => e.loc == l
  if !d.imp.vacated.contains x ∨ held then d
  else giveFrame { d with imp := { d.imp with vacated := d.imp.vacated.filter (· != x) } } x

/-- The target of a vacated frame has answered: the frame is free, once no cached line of it is left (R63, R260). -/
def execVacatedFrameFenced (kind target frame : Nat) (s : State) : Out := onDev (fencedFx kind target frame) s

def fillDoneFx (die chase epoch kind key : Nat) (d : Dev) : Dev :=
  let e : FastEnt := { die := die, chase := chase, epoch := epoch, kind := kind, key := key }
  let (mine, rest) := d.imp.waitFill.partition fun w => w.2 == e
  if mine.isEmpty then d
  else
    let d := fastPut d e
    { d with imp := { d.imp with waitFill := rest }, arrived := mine.map Prod.fst ++ d.arrived }

/-- The forme-store read of a fast-path miss returns: the requests that waited for it go on with the entry (R51). -/
def execFastpathFillDone (die chase epoch kind key : Nat) (s : State) : Out := onDev (fillDoneFx die chase epoch kind key) s

/-! ### Moving folios (R56, R71, R72) -/

def rebalFx (chase : Nat) (r : StageReq) (d : Dev) : Dev :=
  let c := d.comp chase
  let mine := (c.staged.map fun g => g.byImposer && g.moving.isEmpty && g.adm != .noFit).getD false
  if !c.bound ∨ c.destroying ∨ c.suspended ∨ c.drnLive ∨ !d.flag .fltComppol chase 31 ∨ d.domBusy (.chase chase) then d
  else if mine then selfCommit d chase
  else if c.staged.isSome then d
  else match stageComp d chase c.curF.req true false r with
    | ((.ok, _, _), d') | ((.tight, _, _), d') =>
      if (((d'.comp chase).staged).map fun g => g.moving.isEmpty).getD true then selfCommit d' chase
      else
        let w : Running := { dom := .chase chase, sess := none, cseq := 0, opc := 0, key := chase, aux := 1 }
        { d' with mgmt := { d'.mgmt with running := d'.mgmt.running ++ [w] } }
    | _ => d

/-- With REBAL armed the Imposer stages and commits a forme of its own; one that copies frozen folios commits when it acts again. -/
def execRebalStage (chase : Nat) (r : StageReq) (s : State) : Out := onPool (rebalFx chase r) s

def migStartFx (chase folio : Nat) (d : Dev) : Dev :=
  let c := d.comp chase
  let mig := ((tfind c.curF.folios folio).map fun f => f.mig).getD false
  if mig ∧ !c.drnLive ∧ c.phase = .idle ∧ !(c.migs.any fun m => m.1 == folio) then
    copyRead (d.modComp chase fun c => { c with migs := c.migs ++ [(folio, 0)] }) chase folio 0
  else d

/-- Epoch N is released: the copy of a dual-written folio starts with its first line. -/
def execMigCopyStart (chase folio : Nat) (s : State) : Out := onPool (migStartFx chase folio) s

/-- The second commit of a move (R72): every copied folio at its new place. -/
def migForme (f : Forme) : Forme :=
  { f with folios := f.folios.map fun e =>
      if e.2.mig then (e.1, { e.2 with kind := e.2.mkind, target := e.2.mtarget, frame := e.2.mframe, mig := false, mkind := 0, mtarget := 0, mframe := 0 })
      else e }

def migCompleteFx (chase folio : Nat) (d : Dev) : Dev :=
  let c := d.comp chase
  let moving := (c.curF.folios.filter fun e => e.2.mig).map Prod.fst
  let done (n : Nat) : Bool := c.migs.any fun m => m.1 == n && m.2 == 8192
  if !moving.contains folio ∨ !moving.all done ∨ c.drnLive ∨ c.phase ≠ .idle ∨ c.staged.isSome ∨ c.destroying ∨ d.domBusy (.chase chase) then d
  else
    let f := migForme c.curF
    let g : Staged := { forme := f, changed := moving.length, ents := d.imp.members.filter fun m => m.chase == chase && !m.trunk, byImposer := true }
    selfCommit (d.modComp chase fun c => { c with staged := some g, migs := [] }) chase

/-- The copies of a move are complete: the Imposer stages and commits the next epoch. -/
def execMigCopyComplete (chase folio : Nat) (s : State) : Out := onPool (migCompleteFx chase folio) s

/-! ### The end of a composition (R73, R393, R425, R452) -/

/-- Everything of a chase but its frames goes: rings, layers, plates, definitions, jobs, marks, keys, tables. -/
def purgeChase (d : Dev) (chase : Nat) : Dev :=
  let c := d.comp chase
  let d := foldOver (d.pool.layers.filter fun l => l.chase == chase && !l.staged) d fun l d => retireLayer d l
  let d := freeMarks d chase (d.marks.tbl.filter (fun e => e.2.chase == chase) |>.map Prod.fst)
  let p := d.press
  let d := { d with
    press := { p with
      reds := p.reds.filter (fun r => r.chase != chase), embs := p.embs.filter (fun r => r.chase != chase)
      moes := p.moes.filter (fun r => r.chase != chase), svcs := p.svcs.filter (fun r => r.chase != chase)
      plates := { images := p.plates.images.filter (fun r => r.chase != chase), loads := p.plates.loads.filter (fun r => r.chase != chase)
                  binds := p.plates.binds.filter (fun r => r.chase != chase), insts := p.plates.insts.filter (fun r => r.chase != chase)
                  std := p.plates.std.filter (fun r => r.chase != chase) } }
    pool := { d.pool with
      rings := d.pool.rings.filter (fun r => r.chase != chase), layers := d.pool.layers.filter (fun r => r.chase != chase)
      notices := d.pool.notices.filter fun r => r.chase != chase
      keys := d.pool.keys.map fun (e : Nat × PartyKeys) => if e.1 / 64 = chase then (e.1, { pdk := e.2.pdk }) else e }
    imp := { d.imp with
      members := d.imp.members.filter (fun m => m.chase != chase), fast := d.imp.fast.filter (fun e => e.chase != chase)
      badEnt := d.imp.badEnt.filter fun e => e.1 != chase }
    cfg := d.cfg.filter fun e => !(e.1 / 2 ^ 64 == RegName.impColmask.ctorIdx && e.1 % 2 ^ 64 / 4096 == chase)
      && e.1 != regKey .fltComppol chase && e.1 != regKey .impChaseCfg chase }
  let fs := [c.curF] ++ c.drnF.toList ++ (c.staged.map fun g => g.forme).toList
  let d := { d with imp := { d.imp with comps := tdel d.imp.comps chase } }
  let d := foldOver fs d fun f d => let ls := cachedLocs f; recallLines (dropStale (vacate d f) ls) ls
  sweepKeys (sweepFold d chase)

def chaseFreeFx (chase : Nat) (d : Dev) : Dev :=
  let c := d.comp chase
  if c.destroying ∧ c.curDead ∧ !c.drnLive then (meterNote (purgeChase d chase) false chase).finish 0x0302 chase .ok else d

/-- Both epochs of a destroyed composition are released: the chase is free. -/
def execChaseFree (chase : Nat) (s : State) : Out := onPool (chaseFreeFx chase) s

/-! ### REGION_FREEZE and REGION_SHARE (R210) -/

def regionFreezeFx (b : Bas) (chase base : Nat) (trays : List Nat) (d : Dev) : Dev :=
  let c := d.comp chase
  match c.curF.req.regions.find? fun r => r.base == base with
  | none => d.reply b 0x0402 .unsupported 0x02 2
  | some r =>
    if r.cls ≠ 1 then d.reply b 0x0402 .unsupported
    else if r.frozen then d.reply b 0x0402 .ok
    else if c.drnLive then d.reply b 0x0402 .busy
    else
      let q := { c.curF.req with regions := mapIf (fun x => x.base == base) (fun x => { x with frozen := true }) c.curF.req.regions }
      match stageComp (setAttested d trays) chase q false true {} with
      | ((.noFit, r, n), _) => d.reply b 0x0402 .noFit 0x01 r [n]
      | ((.busy, _, _), _) => d.reply b 0x0402 .busy
      | (_, d) => commitForme (d.defer b (.chase chase) 0x0402 chase) chase false

/-- REGION_FREEZE: a stage and its commit; the reply comes once the epoch before is released. -/
def execRegionFreeze (b : Bas) (chase base : Nat) (trays : List Nat) (s : State) : Out :=
  onCmd (.regionFreeze b chase base trays) b (chaseCmd 0x0402 chase) (regionFreezeFx b chase base trays) s

def regionShareFx (b : Bas) (chase base into : Nat) (trays : List Nat) (d : Dev) : Dev :=
  match (d.comp chase).curF.req.regions.find? fun r => r.base == base with
  | none => d.reply b 0x0403 .unsupported 0x02 2
  | some r =>
    let t := d.comp into
    if !t.bound ∨ t.destroying ∨ into = chase then d.reply b 0x0403 .unsupported 0x02 10
    else if t.suspended then d.reply b 0x0403 .busy
    else if r.cls ≠ 1 ∨ !r.frozen then d.reply b 0x0403 .denied
    else match ensureStage (setAttested d trays) into with
      | ((.noFit, x, n), _) => d.reply b 0x0403 .noFit 0x01 x [n]
      | ((.busy, _, _), _) => d.reply b 0x0403 .busy
      | (_, d1) =>
        let f := d1.stagedF into
        if f.req.parties ≤ r.party ∨ f.req.regions.any (regionMeets r) ∨ 4096 ≤ f.req.regions.length then d.reply b 0x0403 .unsupported
        else
          let src := (d.comp chase).curF
          let nos := (upTo r.size).map (r.base / folioB + ·)
          let ents := nos.filterMap fun n => (tfind src.folios n).map fun e => (n, { e with gcache := true })
          let f' := { f with folios := ents.foldl (fun t e => tput t e.1 e.2) f.folios, req := { f.req with regions := f.req.regions ++ [r] } }
          let need := 256 * (pagesBeyond f' (some t.curF) - pagesBeyond f (some t.curF))
          if storeEntries < storeUsed d1 + need then d.reply b 0x0403 .noFit 0x01 6 [storeUsed d1 + need - storeEntries]
          else
            let fold := ents.foldl (fun t e => tput t (2 ^ 36 * (into + 1) + e.1) (keyOf d chase (e.1 * folioB) e.2)) d1.pool.fold
            let d1 := { d1 with pool := { d1.pool with fold := fold } }
            answerStage (d1.modStaged into fun _ => f') b into 0x0403

/-- REGION_SHARE: a frozen region is staged into the receiving chase under the same addresses. It belongs to the domain of that chase. -/
def execRegionShare (b : Bas) (chase base into : Nat) (trays : List Nat) (s : State) : Out :=
  onCmd (.regionShare b chase base into trays) b { chaseCmd 0x0403 chase with dom := some (.chase into) } (regionShareFx b chase base into trays) s

end Sys2Proof.Machine
end

