-- ==== Sys2Proof/Machine/DefinePool.lean ====
section
/-! DEFINITION. The commands of groups 0x03 to 0x05 beside those of compositions: agents, trunks, capacity, trays, spares, stripe sets, mover
rings, layers, the directory, notice regions (R86, R121, R207, R230, R233, R238, R239, R241, R261, R273, R284, R450). -/

namespace Sys2Proof.Machine
open Sys2Proof

/-! ### What a command of a chase may name -/

/-- The staged forme that definitions join, if one is ready. -/
def readyF (d : Dev) (chase : Nat) : Option Forme :=
  (((d.comp chase).staged).filter fun g => g.adm != .noFit && !g.byImposer).map fun g => g.forme

/-- The request the next commit brings: the staged one, else the current one. -/
def nextReq (d : Dev) (chase : Nat) : CompReq := ((readyF d chase).getD (d.comp chase).curF).req

/-- The marks the next commit leaves allocated. -/
def nextMarks (d : Dev) (chase : Nat) : List Nat := ((readyF d chase).getD (d.comp chase).curF).marks

/-- Bytes of [pva, pva + len) in the regions that meet a test. -/
def coveredBytes (q : CompReq) (ok : Region → Bool) (pva len : Nat) : Nat :=
  sumNat ((q.regions.filter ok).map fun r => min (pva + len) (r.base + r.size * folioB) - max pva r.base)

/-- Does a range lie in regions that meet a test? Regions do not overlap (R40). -/
def covered (q : CompReq) (ok : Region → Bool) (pva len : Nat) : Bool := coveredBytes q ok pva len == len

/-- A command of the device's domain, for the fabric owner. -/
def devCmd (opc : Nat) : CmdInfo := { opc := opc, who := .f, dom := some .device }

/-- A command of the power group, which I3C carries too (R552, R593). -/
def pwrCmd (opc : Nat) : CmdInfo := { devCmd opc with i3c := true }

/-! ### Agents and trunks (R121, R450) -/

def Dev.partyKeys (d : Dev) (chase party : Nat) : PartyKeys := tget {} d.pool.keys (64 * chase + party)

def PartyKeys.holds (k : PartyKeys) : Bool := k.pdk.isSome || k.psk0.isSome || k.psk1.isSome

def partyBindFx (b : Bas) (chase party digest : Nat) (d : Dev) : Dev :=
  if (d.comp chase).curF.req.parties ≤ party then d.reply b 0x0305 .unsupported 0x02 2
  else if (d.partyKeys chase party).holds then d.reply b 0x0305 .busy
  else
    let k := { d.partyKeys chase party with agent := some digest }
    { d with pool := { d.pool with keys := tput d.pool.keys (64 * chase + party) k } }.reply b 0x0305 .ok

/-- PARTY_BIND (R450). -/
def execPartyBind (b : Bas) (chase party digest : Nat) (s : State) : Out :=
  onCmd (.partyBind b chase party digest) b (chaseCmd 0x0305 chase) (partyBindFx b chase party digest) s

def trunkBindFx (b : Bas) (port chase : Nat) (bind : Bool) (d : Dev) : Dev :=
  let mine (m : MemberEnt) : Bool := m.trunk && m.port == port && m.chase == chase
  let have_ := d.imp.members.any mine
  if 1024 ≤ port then d.reply b 0x0306 .unsupported
  else if !bind then
    if !have_ then d.reply b 0x0306 .unsupported
    else { d with imp := { d.imp with members := d.imp.members.filter fun m => !mine m } }.reply b 0x0306 .ok
  else if have_ then d.reply b 0x0306 .ok
  else if 16384 ≤ (d.imp.members.filter fun m => m.die == portDie port).length then d.reply b 0x0306 .noFit 0x01 5 [1]
  else
    let m : MemberEnt := { die := portDie port, port := port, chase := chase, trunk := true }
    { d with imp := { d.imp with members := d.imp.members ++ [m] } }.reply b 0x0306 .ok

/-- TRUNK_BIND (R121). -/
def execTrunkBind (b : Bas) (port chase : Nat) (bind : Bool) (s : State) : Out :=
  onCmd (.trunkBind b port chase bind) b { chaseCmd 0x0306 chase 2 with who := .f } (trunkBindFx b port chase bind) s

/-! ### Capacity and trays (R86, R207, R230, R233) -/

abbrev maxCapacity : Nat := 281474976710656      -- 256 TiB

def capAcceptFx (b : Bas) (kind target capacity : Nat) (d : Dev) : Dev :=
  let others := sumNat ((d.imp.cap.filter fun e => e.1 != trayKey kind target).map Prod.snd)
  if !(kind == 2 && decide (target < 32)) && !(kind == 3 && decide (target < 0xFFFF0)) then d.reply b 0x0401 .unsupported
  else if maxCapacity < others + capacity then d.reply b 0x0401 .noFit 0x01 2 [others + capacity - maxCapacity]
  else { d with imp := { d.imp with cap := tput d.imp.cap (trayKey kind target) capacity } }.reply b 0x0401 .ok

/-- CAP_ACCEPT (R86, R207): the capacity of a tray the Imposer may use, from now on. -/
def execCapAccept (b : Bas) (kind target capacity : Nat) (s : State) : Out :=
  onCmd (.capAccept b kind target capacity) b (devCmd 0x0401) (capAcceptFx b kind target capacity) s

/-- A tray link, TFP tray or remote switch. -/
def trayNamed (kind target : Nat) : Bool :=
  (kind == 2 && decide (target < 32)) || ((kind == 3 || kind == 4) && decide (target < 0xFFFF0))

def trayOfflineFx (b : Bas) (kind target : Nat) (d : Dev) : Dev :=
  if !trayNamed kind target then d.reply b 0x0404 .unsupported else (holdLost d kind target).reply b 0x0404 .ok

/-- TRAY_OFFLINE (R230). -/
def execTrayOffline (b : Bas) (kind target : Nat) (s : State) : Out :=
  onCmd (.trayOffline b kind target) b (devCmd 0x0404) (trayOfflineFx b kind target) s

/-- Some port serves an EID: a member of its next-hop set, or of its alternate under NHFAIL, is UP (R511). -/
def reachable (d : Dev) (eid : Nat) : Bool := match (routeSet d 31 eid).map fun s => (tget {} d.core.nhs s : NhSet) with
  | none => false
  | some nh =>
    if d.flag .fltFabpol 0 31 then
      nh.members.any d.portUp || ((nh.alt.bind (tfind d.core.nhs)).map fun a => a.members.any d.portUp).getD false
    else nh.slots.all fun s => (s.map d.portUp).getD false

def trayOnlineFx (b : Bas) (kind target : Nat) (d : Dev) : Dev :=
  let stands := if kind = 2 then !(d.tray target).trained else !reachable d target
  if !trayNamed kind target then d.reply b 0x0405 .unsupported
  else if d.heldLost kind target && stands then d.reply b 0x0405 .busy
  else { d with flt := { d.flt with lostTgt := d.flt.lostTgt.filter (· != (kind, target)) } }.reply b 0x0405 .ok

/-- TRAY_ONLINE (R233). -/
def execTrayOnline (b : Bas) (kind target : Nat) (s : State) : Out :=
  onCmd (.trayOnline b kind target) b (devCmd 0x0405) (trayOnlineFx b kind target) s

/-! ### Extents, spares, stripe sets (R234, R238, R239) -/

/-- Frames of an extent of `n` GiB that are not free accepted capacity. -/
def extentLack (d : Dev) (kind target base n : Nat) : Nat :=
  let stop := base + 512 * n
  let beyond := stop - max base (framesOf d kind target)
  let mine (x : Nat × Nat × Nat) : Bool := x.1 == kind && x.2.1 == target && decide (base ≤ x.2.2) && decide (x.2.2 < stop)
  let used := ((framesUsed (liveFormes d) ++ d.imp.vacated).filter mine).eraseDups.length
  let held := sumNat ((extentsOn d kind target).map fun e => min stop (e.1 + e.2) - max base e.1)
  beyond + used + held

/-- An extent is taken: the free frames in it are no longer handed out. -/
def takeExtent (d : Dev) (kind target base n : Nat) : Dev :=
  let mine (x : Nat × Nat × Nat) : Bool := x.1 == kind && x.2.1 == target && decide (base ≤ x.2.2) && decide (x.2.2 < base + 512 * n)
  { d with imp := { d.imp with freeFr := d.imp.freeFr.filter fun x => !mine x } }

/-- An extent is returned: frames below the next never-used one are free again. -/
def giveExtent (d : Dev) (kind target base n : Nat) : Dev :=
  let next := tget 0 d.imp.nextFr (frameKey kind target)
  let back := ((upTo (512 * n)).map (base + ·)).filter fun f => decide (f < next)
  { d with imp := { d.imp with freeFr := d.imp.freeFr ++ back.map fun f => (kind, target, f) } }

def expander (kind target : Nat) : Bool := (kind == 2 && decide (target < 32)) || (kind == 3 && decide (target < 0xFFFF0))

def spareAddFx (b : Bas) (kind target base extent : Nat) (d : Dev) : Dev :=
  let lack := extentLack d kind target base extent
  if !expander kind target ∨ extent = 0 ∨ 65535 < extent then d.reply b 0x0406 .unsupported
  else if lack ≠ 0 then d.reply b 0x0406 .noFit 0x01 2 [lack * folioB]
  else
    let d := takeExtent d kind target base extent
    let d := { d with pool := { d.pool with spares := d.pool.spares ++ [{ kind := kind, target := target, base := base, extent := extent }] } }
    let d := foldOver (d.pool.stripes.map Prod.fst) d fun s d => if (d.stripe s).rb.isNone then rebuildStart d s else d
    d.reply b 0x0406 .ok

/-- SPARE_ADD (R238): a set that waits for a spare chooses again. -/
def execSpareAdd (b : Bas) (kind target base extent : Nat) (s : State) : Out :=
  onCmd (.spareAdd b kind target base extent) b (devCmd 0x0406) (spareAddFx b kind target base extent) s

def spareRemoveFx (b : Bas) (kind target base : Nat) (d : Dev) : Dev :=
  let mine (x : Spare) : Bool := x.kind == kind && x.target == target && x.base == base
  let writes := d.pool.stripes.any fun e => match e.2.rb with
    | some (_, y) => y.mkind == kind && y.target == target && y.base == base
    | none => false
  match d.pool.spares.find? mine with
  | none => d.reply b 0x0407 .unsupported 0x02 0
  | some x =>
    if writes then d.reply b 0x0407 .busy
    else (giveExtent { d with pool := { d.pool with spares := d.pool.spares.filter fun y => !mine y } } kind target base x.extent).reply b 0x0407 .ok

/-- SPARE_REMOVE: BUSY while a rebuild writes to it. -/
def execSpareRemove (b : Bas) (kind target base : Nat) (s : State) : Out :=
  onCmd (.spareRemove b kind target base) b (devCmd 0x0407) (spareRemoveFx b kind target base) s

/-- A tray link that trained below its full rate and width (R83). -/
def degraded (d : Dev) (kind target : Nat) : Bool := kind == 2 && (d.tray target).trained && !(d.tray target).fullRate

/-- UNSUPPORTED under R239: the set's number, the extent, ten members on ten trays, none on a degraded link. -/
def stripeUnsupported (d : Dev) (set extent : Nat) (mem : List (Nat × Nat × Nat)) : Bool :=
  decide (1024 ≤ set) || extent == 0 || decide (65535 < extent) || mem.length != 10 || mem.any (fun m => !expander m.1 m.2.1)
    || (mem.map fun m => (m.1, m.2.1)).eraseDups.length != 10 || mem.any fun m => degraded d m.1 m.2.1

/-- Frames of the members' extents that are not free accepted capacity. -/
def stripeLack (d : Dev) (extent : Nat) (mem : List (Nat × Nat × Nat)) : Nat :=
  sumNat (mem.map fun m => extentLack d m.1 m.2.1 m.2.2 extent)

/-- The set as defined: a member whose tray is held lost is lost from the start. -/
def newStripe (d : Dev) (extent : Nat) (mem : List (Nat × Nat × Nat)) : Stripe :=
  { extent := extent, mem := mem.map fun m => { mkind := m.1, target := m.2.1, base := m.2.2 }
    lost := (upTo 10).filter fun i => ((mem[i]?).map fun m => d.heldLost m.1 m.2.1).getD false }

def stripeDefineFx (b : Bas) (set extent : Nat) (mem : List (Nat × Nat × Nat)) (d : Dev) : Dev :=
  if stripeUnsupported d set extent mem then d.reply b 0x0408 .unsupported
  else if stripeLack d extent mem ≠ 0 then d.reply b 0x0408 .noFit 0x01 2 [stripeLack d extent mem * folioB]
  else if thas d.pool.stripes set then d.reply b 0x0408 .busy
  else
    let d := foldOver mem d fun m d => takeExtent d m.1 m.2.1 m.2.2 extent
    let d' := { d with pool := { d.pool with stripes := tput d.pool.stripes set (newStripe d extent mem) } }
    (stripeNote d d' set).reply b 0x0408 .ok

/-- STRIPE_DEFINE (R239). -/
def execStripeDefine (b : Bas) (set extent : Nat) (mem : List (Nat × Nat × Nat)) (s : State) : Out :=
  onCmd (.stripeDefine b set extent mem) b (devCmd 0x0408) (stripeDefineFx b set extent mem) s

def stripeDeleteFx (b : Bas) (set : Nat) (d : Dev) : Dev :=
  let mine (x : Nat × Nat × Nat) : Bool := x.1 == 5 && x.2.1 == set
  match tfind d.pool.stripes set with
  | none => d.reply b 0x0409 .unsupported 0x02 0
  | some s =>
    if (framesUsed (liveFormes d)).any mine then d.reply b 0x0409 .busy
    else
      let d := { d with
        pool := { d.pool with stripes := tdel d.pool.stripes set }
        imp := { d.imp with freeFr := d.imp.freeFr.filter (fun x => !mine x), vacated := d.imp.vacated.filter (fun x => !mine x)
                            nextFr := tdel d.imp.nextFr (frameKey 5 set) } }
      (foldOver s.mem d fun m d => giveExtent d m.mkind m.target m.base s.extent).reply b 0x0409 .ok

/-- STRIPE_DELETE (R239): BUSY while a live forme maps a folio of the set. -/
def execStripeDelete (b : Bas) (set : Nat) (s : State) : Out := onCmd (.stripeDelete b set) b (devCmd 0x0409) (stripeDeleteFx b set) s

/-! ### Mover rings (R241, R393) -/

/-- The fields of a ring within their ranges. -/
def ringOk (r : RingDef) : Bool :=
  decide (r.ring < 16) && r.pva % 4096 == 0 && (upTo 9).any fun k => r.ents == 2 ^ (k + 4)

/-- Bytes of a ring of descriptors of `size` bytes. -/
def ringBytes (r : RingDef) (size : Nat) : Nat := r.ents * size

/-- DENIED under R241: SERVICES without data movers, a ring outside private or coded folios of its party, a mark that is not the chase's. -/
def ringDenied (d : Dev) (chase party size : Nat) (r : RingDef) : Bool :=
  let q := nextReq d chase
  !bit q.services 6 || !(nextMarks d chase).contains r.mark
    || !covered q (fun x => (x.cls == 0 || x.cls == 2) && x.party == party) r.pva (ringBytes r size)

/-- Ring numbers in use, of movers and of user plates alike (R392). -/
def ringTaken (d : Dev) (chase ring : Nat) : Bool :=
  d.pool.rings.any (fun r => r.chase == chase && r.ring == ring)
    || d.press.plates.binds.any fun x => x.chase == chase && x.rings.any fun r => r.ring == ring

def moverBindFx (b : Bas) (chase party : Nat) (r : RingDef) (d : Dev) : Dev :=
  if !ringOk r ∨ (nextReq d chase).parties ≤ party then d.reply b 0x040A .unsupported
  else if ringDenied d chase party 64 r then d.reply b 0x040A .denied
  else joinStage d b chase 0x040A (ringTaken d chase r.ring) fun d =>
    match leastCore d chase (d.stagedF chase) [0x28] { sram := 1024 } fun _ => true with
    | none => .error (3, 1)
    | some c =>
      let x : Ring := { chase := chase, party := party, ring := r.ring, pva := r.pva, ents := r.ents, mark := r.mark, core := c, staged := true }
      .ok { d with pool := { d.pool with rings := d.pool.rings ++ [x] } }

/-- MOVER_BIND (R241): staged, bound at the next commit. -/
def execMoverBind (b : Bas) (chase party : Nat) (r : RingDef) (s : State) : Out :=
  onCmd (.moverBind b chase party r) b (chaseCmd 0x040A chase) (moverBindFx b chase party r) s

def moverUnbindFx (b : Bas) (chase ring : Nat) (d : Dev) : Dev :=
  let mine (r : Ring) : Bool := r.chase == chase && r.ring == ring && !r.leaving && !r.gone
  match d.pool.rings.find? mine with
  | none => d.reply b 0x040B .unsupported 0x02 2
  | some _ => joinStage d b chase 0x040B false fun d =>
    let rings := (d.pool.rings.filter fun r => !(mine r && r.staged)).map fun r => if mine r then { r with leaving := true } else r
    .ok { d with pool := { d.pool with rings := rings } }

/-- MOVER_UNBIND: the ring goes at the next commit, as R393 decides for bindings. -/
def execMoverUnbind (b : Bas) (chase ring : Nat) (s : State) : Out :=
  onCmd (.moverUnbind b chase ring) b (chaseCmd 0x040B chase) (moverUnbindFx b chase ring) s

/-! ### Layers (R261) -/

/-- Do two layers share a byte? -/
def layerMeets (a b : Layer) : Bool :=
  decide (a.pva < b.pva + 4096 * b.lpages) && decide (b.pva < a.pva + 4096 * a.lpages)

/-- The layer a definition makes. -/
def newLayer (chase : Nat) (l : LayerDef) : Layer :=
  { chase := chase, layer := l.layer, arm := l.arm, lmark := l.lmark, pva := l.pva, lpages := l.lpages
    shpva := if l.arm = 1 then l.shpva else 0, shpages := if l.arm = 1 then l.shpages else 0, staged := true }

/-- The other layers of the chase. -/
def layersBeside (d : Dev) (chase layer : Nat) : List Layer := (nextLayers d chase).filter fun y => y.layer != layer

/-- UNSUPPORTED under R261. -/
def layerUnsupported (d : Dev) (chase : Nat) (l : LayerDef) : Bool :=
  decide ((nextReq d chase).layers.length ≤ l.layer) || l.pva % folioB != 0 || l.lpages == 0 || decide (2 ^ 32 ≤ l.lpages) || decide (2 < l.arm)
    || decide (2 ^ 18 ≤ l.lmark) || (l.arm == 1 && (l.shpva % 4096 != 0 || l.shpages == 0 || decide (2 ^ 32 ≤ l.shpages)))
    || (layersBeside d chase l.layer).any (layerMeets (newLayer chase l))

/-- DENIED under R261. -/
def layerDenied (d : Dev) (chase : Nat) (l : LayerDef) : Bool :=
  let q := nextReq d chase
  let weight (r : Region) : Bool := r.use == 0
  !bit q.services 5 || !covered q weight l.pva (4096 * l.lpages) || (l.arm == 1 && !covered q weight l.shpva (4096 * l.shpages))
    || !(nextMarks d chase).contains l.lmark

/-- Bytes of shadow the other layers take. -/
def shadowTaken (others : List Layer) : Nat := sumNat ((others.filter fun y => y.arm == 1).map fun y => 4096 * y.shpages)

/-- The layer joins the staged forme, or lacks window or shadow SRAM; a layer whose shadow the Imposer dropped asks for none. -/
def layerPlace (chase : Nat) (l : LayerDef) (others : List Layer) (d : Dev) : Except (Nat × Nat) Dev :=
  let f := d.stagedF chase
  let x := newLayer chase l
  if f.windowB < 4096 * l.lpages then .error (1, 4096 * l.lpages - f.windowB)
  else if f.shadowB < shadowTaken others + 4096 * x.shpages ∧ l.arm = 1 ∧ !f.dropped.contains l.layer then
    .error (1, shadowTaken others + 4096 * x.shpages - f.shadowB)
  else
    let x := { x with stack := layerStack d f l.layer, shres := l.arm == 1 && !f.dropped.contains l.layer }
    let old := d.pool.layers.filter fun y => !(y.chase == chase && y.layer == l.layer && y.staged)
    .ok { d with pool := { d.pool with layers := old ++ [x] } }

def layerDefFx (b : Bas) (chase : Nat) (l : LayerDef) (d : Dev) : Dev :=
  if layerUnsupported d chase l then d.reply b 0x0501 .unsupported
  else if layerDenied d chase l then d.reply b 0x0501 .denied
  else joinStage d b chase 0x0501 false (layerPlace chase l (layersBeside d chase l.layer))

/-- LAYER_DEF (R261): staged, in effect at the next commit. -/
def execLayerDef (b : Bas) (chase : Nat) (l : LayerDef) (s : State) : Out :=
  onCmd (.layerDef b chase l) b (chaseCmd 0x0501 chase) (layerDefFx b chase l) s

/-! ### The directory (R273) -/

/-- DSTATE of an entry, or of the state it takes at DONE. -/
def dstateCode : Option DState → Nat
  | none => 0 | some .s => 1 | some .x => 2 | some .o => 3

/-- The directory entry word (R273). -/
def DirEnt.word (e : DirEnt) : Nat :=
  let p (i : Nat) : Option Nat := (e.ptrs[i]?).join
  let st := if e.busy.isSome then 4 else dstateCode e.st
  st <<< 61 + b2n e.ovf <<< 60 + e.owner <<< 55 + b2n (p 0).isSome <<< 54 + (p 0).getD 0 <<< 49 + b2n (p 1).isSome <<< 48
    + (p 1).getD 0 <<< 43 + b2n (p 2).isSome <<< 42 + (p 2).getD 0 <<< 37
    + (match e.busy with | some (r, n) => r <<< 32 + dstateCode (some n) <<< 29 | none => 0)

def dirReadFx (b : Bas) (chase block line : Nat) (d : Dev) : Dev :=
  let pva := block + 256 * line
  if block % 4096 ≠ 0 ∨ 16 ≤ line then d.reply b 0x0502 .unsupported
  else
    let w := match folioAt d chase (d.comp chase).cur pva with
      | none => 0
      | some f => ((d.dirEnt (locLine f.loc (pva % folioB))).map DirEnt.word).getD 0
    d.reply b 0x0502 .ok 0 0 [w]

/-- DIR_READ (R273): the entry of a line; a line in I has none and reads 0. -/
def execDirRead (b : Bas) (chase block line : Nat) (s : State) : Out :=
  onCmd (.dirRead b chase block line) b { opc := 0x0502, who := .a, chase := some chase, chaseAt := 9 } (dirReadFx b chase block line) s

/-! ### Notice regions (R284, R285) -/

def noticeBindFx (b : Bas) (chase base group tc : Nat) (d : Dev) : Dev :=
  let regions := (d.comp chase).curF.req.regions ++ (nextReq d chase).regions
  let w := d.reg .ptMcgrp group
  if 8 ≤ tc ∨ 65536 ≤ group then d.reply b 0x0503 .unsupported
  else if !(regions.any fun r => r.base == base) then d.reply b 0x0503 .unsupported 0x02 0
  else match (d.comp chase).curF.req.regions.find? fun r => r.base == base && r.cls == 3 with
    | none => d.reply b 0x0503 .denied
    | some r =>
      if !bit w 63 ∨ bits w 62 51 ≠ chase then d.reply b 0x0503 .denied
      else if d.pool.notices.any fun x => x.chase == chase && x.base == base then d.reply b 0x0503 .busy
      else
        let x : NoticeBind := { chase := chase, base := base, size := r.size, group := group, tc := tc }
        { d with pool := { d.pool with notices := d.pool.notices ++ [x] } }.reply b 0x0503 .ok

/-- NOTICE_BIND (R284). -/
def execNoticeBind (b : Bas) (chase base group tc : Nat) (s : State) : Out :=
  onCmd (.noticeBind b chase base group tc) b (chaseCmd 0x0503 chase 8) (noticeBindFx b chase base group tc) s

def noticeUnbindFx (b : Bas) (chase base : Nat) (d : Dev) : Dev :=
  match d.pool.notices.find? fun x => x.chase == chase && x.base == base with
  | none => d.reply b 0x0504 .unsupported 0x02 0
  | some x =>
    let d := flushNotice d x
    { d with pool := { d.pool with notices := d.pool.notices.filter fun x => !(x.chase == chase && x.base == base) } }.reply b 0x0504 .ok

/-- NOTICE_UNBIND: lines collected so far still go out; notices stop once the reply is sent. -/
def execNoticeUnbind (b : Bas) (chase base : Nat) (s : State) : Out :=
  onCmd (.noticeUnbind b chase base) b (chaseCmd 0x0504 chase 8) (noticeUnbindFx b chase base) s

end Sys2Proof.Machine
end

