-- ==== Sys2Proof/Machine/DefinePress.lean ====
section
/-! DEFINITION. The commands of groups 0x06 and 0x07: format rows, reductions, embedding tables, mixtures, plates, marks
(R297, R319–R321, R347, R348, R363, R365, R368–R370, R386–R393, R434, R439, R460). -/

namespace Sys2Proof.Machine
open Sys2Proof

/-- A format row as a definition of the chase may use it (R295, R391). -/
def rowUsable (d : Dev) (chase row : Nat) : Bool := fmtUsable (fmtRow d row) chase

def isMember (d : Dev) (chase eid : Nat) : Bool := (nextReq d chase).members.any fun m => m.1 == eid

/-! ### Format rows (R297) -/

/-- The value conditions of R297. -/
def fmtValueOk (v : Nat) : Bool :=
  let code := bits v 30 27
  let layout := bits v 26 25
  let blockable := (3 ≤ code && code ≤ 7) || code == 0xA || code == 0xB
  decide (code ≤ 0xB) && layout != 3 && bits v 24 23 != 3 && (layout != 1 || blockable) && (layout != 2 || code == 0xA || code == 0xB)
    && (layout == 0 || bit v 21) && !(bit v 22 && decide (code ≤ 7))

/-- A loaded plate names the row. -/
def rowLoaded (d : Dev) (row : Nat) : Bool :=
  d.press.plates.images.any fun p => p.nodes.any fun n => let s := p.param n; s.row == row || s.row1 == row

/-- The composition owners who may write a row: of the CHASE written, and of the one a valid row holds. -/
def fmtWriters (d : Dev) (row v : Nat) : List Nat :=
  let old := d.reg .pxFmtdesc row
  [bits v 11 0] ++ (if bit old 31 then [bits old 11 0] else [])

/-- What a write to a row ends with (R297), for a writer who is the fabric owner or owns some chases. -/
def fmtVerdict (d : Dev) (row v : Nat) (r : Roles) : Status :=
  if row < 16 ∨ 1024 ≤ row ∨ v &&& regRsv .pxFmtdesc ≠ 0 ∨ 2 ^ 128 ≤ v ∨ !fmtValueOk v then .unsupported
  else if !r.owner && !(fmtWriters d row v).all r.chases.contains then .denied
  else if rowLoaded d row then .busy
  else .ok

/-- The roles of the session a command came in. -/
def Dev.rolesOf (d : Dev) (b : Bas) : Roles := match b.sess.bind d.session with
  | some se => d.roles se.digest
  | none => {}

def fmtdescWriteFx (b : Bas) (row value : Nat) (d : Dev) : Dev :=
  let st := fmtVerdict d row value (d.rolesOf b)
  let d := if st = .ok then d.setReg .pxFmtdesc row value else d
  d.reply b 0x0601 st

/-- FMTDESC_WRITE (R295 to R297): it belongs to the domain of the chase its value names. -/
def execFmtdescWrite (b : Bas) (row value : Nat) (s : State) : Out :=
  onCmd (.fmtdescWrite b row value) b { opc := 0x0601, who := .c (bits value 11 0), dom := some (.chase (bits value 11 0)) }
    (fmtdescWriteFx b row value) s

/-! ### Reductions (R319–R322, R460) -/

/-- Two inclusive ranges share a number; an empty one shares nothing. -/
def rangesMeet (alo ahi blo bhi : Nat) : Bool := decide (alo ≤ ahi) && decide (blo ≤ bhi) && decide (alo ≤ bhi) && decide (blo ≤ ahi)

/-- No two children of a list overlap. -/
def childrenApart : List RedChild → Bool
  | [] => true
  | c :: r => r.all (fun x => !rangesMeet c.rlo c.rhi x.rlo x.rhi && !rangesMeet c.dlo c.dhi x.dlo x.dhi) && childrenApart r

/-- Every field within the reduction definition table. -/
def redFieldsOk (q : RedDef) : Bool :=
  decide (q.rid < 2 ^ 32) && q.rid % 16 == 0 && decide (q.op ≤ 2 ∧ q.mode ≤ 1 ∧ q.ifmt < 1024 ∧ q.ofmt < 1024)
    && decide (1 ≤ q.nelem ∧ q.nelem ≤ 2 ^ 27) && decide (32 ≤ q.chunkelem ∧ q.chunkelem ≤ 2048) && q.chunkelem % 32 == 0
    && decide (q.nchunk ≤ 65536) && decide (1 ≤ q.bufs ∧ q.bufs ≤ 2) && decide (q.topk ≤ q.chunkelem) && decide (q.tc < 8 ∧ q.role ≤ 1)
    && decide (q.parent < 2 ^ 20) && (q.role == 1 || q.parent == 0) && decide (1 ≤ q.nrankg ∧ q.nrankg ≤ 524288)
    && decide (1 ≤ q.ndestg ∧ q.ndestg ≤ 524288) && decide (q.dsel ≤ 1)
    && decide (q.lranks.length ≤ 4096 ∧ q.ldests.length ≤ 4096 ∧ q.children.length ≤ 64)
    && decide (q.cmark + 3 < 262144 ∧ q.dmark < 262144) && decide (1 ≤ q.rtmo ∧ q.rtmo ≤ 10000000) && decide (q.sealv ≤ 1)

/-- UNSUPPORTED under R320 and R460. -/
def redUnsupported (d : Dev) (chase : Nat) (q : RedDef) : Bool :=
  let i := fmtRow d q.ifmt
  let o := fmtRow d q.ofmt
  !redFieldsOk q || (q.op == 1 && (q.ifmt != q.ofmt || q.topk != 0)) || (q.op == 2 && i.layout != 0)
    || (q.mode == 1 && o.product && !i.product)
    || q.lranks.any (fun r => q.children.any fun c => decide (c.rlo ≤ r.1) && decide (r.1 ≤ c.rhi))
    || q.ldests.any (fun r => q.children.any fun c => decide (c.dlo ≤ r.1) && decide (r.1 ≤ c.dhi))
    || !childrenApart q.children || i.layout == 2 || o.layout == 2
    || (q.sealv == 1 && (q.op == 1 || q.kmin == 0 || decide ((nextReq d chase).parties < q.kmin)))

/-- Every member port of the next-hop set toward an EID holds a trunk entry for the chase (R320, R121). -/
def trunked (d : Dev) (chase eid : Nat) : Bool := match (routeSet d 31 eid).bind (tfind d.core.nhs) with
  | none => true
  | some nh => nh.members.all fun p => d.imp.members.any fun m => m.trunk && m.port == p && m.chase == chase

/-- The five marks of a definition (R319). -/
def RedDef.marks (q : RedDef) : List Nat := [q.dmark] ++ (upTo 4).map (q.cmark + ·)

/-- DENIED under R320 and R460. -/
def redDenied (d : Dev) (chase : Nat) (q : RedDef) : Bool :=
  let sv := (nextReq d chase).services
  !bit sv 0 || (q.sealv == 1 && !bit sv 4) || !(RedDef.marks q).all (nextMarks d chase).contains
    || !rowUsable d chase q.ifmt || !rowUsable d chase q.ofmt
    || !(q.lranks ++ q.ldests).all (fun m => isMember d chase m.2)
    || !(q.children.map fun c => c.eid).all (trunked d chase) || (q.role == 1 && !trunked d chase q.parent)

/-- BUSY under R320. -/
def redBusy (d : Dev) (chase : Nat) (q : RedDef) : Bool :=
  d.press.reds.any (fun r => r.chase == chase && r.d.rid == q.rid)
    || (RedDef.marks q).any fun m => (d.mark m).type != 0 || (boundMarks d chase).contains m

/-- The resource a definition's chunks lack: accumulator slots where no core has them free, else room on the cores. -/
def chunkLack (d : Dev) (chase : Nat) (f : Forme) (q : RedDef) (n : Nat) : Nat × Nat :=
  let need := chunkSlots d q
  if need ≠ 0 && f.cores.all fun c => decide (2048 < (coreLoad d chase f c).slots + need) then (9, n * need) else (3, n)

def redPlace (chase : Nat) (q : RedDef) (d : Dev) : Except (Nat × Nat) Dev :=
  let d := { d with press := { d.press with reds := d.press.reds ++ [{ chase := chase, d := q, staged := true }] } }
  let (f, lack) := placeChunks d chase ((upTo q.nchunk).map fun c => (q, c)) (d.stagedF chase)
  if lack ≠ 0 then .error (chunkLack d chase f q lack) else .ok (d.modStaged chase fun _ => f)

def redDefineFx (b : Bas) (chase : Nat) (q : RedDef) (d : Dev) : Dev :=
  if redUnsupported d chase q then d.reply b 0x0602 .unsupported
  else if redDenied d chase q then d.reply b 0x0602 .denied
  else joinStage d b chase 0x0602 (redBusy d chase q) (redPlace chase q)

/-- RED_DEFINE (R319 to R321): staged, in effect at the next commit. -/
def execRedDefine (b : Bas) (chase : Nat) (q : RedDef) (s : State) : Out :=
  onCmd (.redDefine b chase q) b (chaseCmd 0x0602 chase) (redDefineFx b chase q) s

def redDeleteFx (b : Bas) (chase rid : Nat) (d : Dev) : Dev :=
  let mine (r : Red) : Bool := r.chase == chase && r.d.rid / 16 == rid / 16 && !r.leaving
  match d.press.reds.find? mine with
  | none => d.reply b 0x0603 .unsupported 0x02 2
  | some r =>
    if !r.rounds.isEmpty then d.reply b 0x0603 .busy
    else joinStage d b chase 0x0603 false fun d =>
      let reds := (d.press.reds.filter fun r => !(mine r && r.staged)).map fun r => if mine r then { r with leaving := true } else r
      .ok (({ d with press := { d.press with reds := reds } }).modStaged chase fun f =>
        { f with chunks := f.chunks.filter fun e => e.rid / 16 != rid / 16 })

/-- RED_DELETE (R319): the definition goes at the next commit. -/
def execRedDelete (b : Bas) (chase rid : Nat) (s : State) : Out :=
  onCmd (.redDelete b chase rid) b (chaseCmd 0x0603 chase) (redDeleteFx b chase rid) s

/-! ### Embedding tables (R347, R348, R351, R363, R365, R368) -/

def isTable (r : Region) : Bool := r.use == 3

/-- Every field within the embedding definition table. -/
def embFieldsOk (q : EmbDef) : Bool :=
  decide (q.table < 65536 ∧ q.home ≤ 1 ∧ q.homesw < 2 ^ 20) &&
    (q.home == 1 || (q.base % 4096 == 0 && decide (1 ≤ q.nrows ∧ q.nrows ≤ 2 ^ 32 - 2) && decide (1 ≤ q.dim ∧ q.dim ≤ 4096)
      && [q.rrow, q.orow, q.grow].all (fun r => decide (16 ≤ r ∧ r < 1024)) && decide (q.readmask < 2 ^ 64 ∧ q.updmask < 2 ^ 64)
      && decide (1 ≤ q.nshard ∧ q.nshard ≤ 256) && decide (1024 ≤ q.hotthr ∧ q.hotthr < 2 ^ 32) && decide (1 ≤ q.nhot ∧ q.nhot ≤ 32)
      && decide (q.opt ≤ 2 ∧ q.lr < 2 ^ 32 ∧ q.eps < 2 ^ 32 ∧ q.stpva < 2 ^ 56) && decide (1 ≤ q.urows ∧ q.urows ≤ 2 ^ 20)
      && decide (1 ≤ q.uexpect ∧ q.uexpect ≤ 2 ^ 20) && decide (q.umark < 262144 ∧ q.udone < 262144)
      && decide (1 ≤ q.utmo ∧ q.utmo ≤ 10000000)))

/-- UNSUPPORTED under R348. -/
def embUnsupported (d : Dev) (chase : Nat) (q : EmbDef) : Bool :=
  let r := fmtRow d q.rrow
  let o := fmtRow d q.orow
  let g := fmtRow d q.grow
  !embFieldsOk q || (q.home == 0 && (2 ≤ o.layout || 2 ≤ g.layout
    || ((r.layout == 1 || o.layout == 1 || g.layout == 1) && q.dim % 32 != 0)
    || !covered (nextReq d chase) isTable q.base (q.nrows * q.stride r)))

/-- DENIED under R348. -/
def embDenied (d : Dev) (chase : Nat) (q : EmbDef) : Bool :=
  !bit (nextReq d chase).services 1 || (q.home == 0 && (!([q.rrow, q.orow, q.grow].all (rowUsable d chase))
    || !([q.umark, q.udone].all (nextMarks d chase).contains)))

/-- Shards at equal ranges on the least loaded cores (R351); the number that found none. -/
def placeShards (d : Dev) (chase : Nat) (q : EmbDef) (f : Forme) : Forme × Nat :=
  foldOver (upTo q.nshard) (f, 0) fun i a => match leastCore d chase a.1 [0x10, 0x11] {} fun _ => true with
    | some c => ({ a.1 with shards := a.1.shards ++ [{ table := q.table, first := i * q.nrows / q.nshard, core := c }] }, a.2)
    | none => (a.1, a.2 + 1)

def embPlace (chase : Nat) (q : EmbDef) (d : Dev) : Except (Nat × Nat) Dev :=
  let e : Emb := { chase := chase, d := q, staged := true, curBase := q.base, lr := q.lr, eps := q.eps, nlr := q.lr, neps := q.eps }
  let d := { d with press := { d.press with embs := d.press.embs ++ [e] } }
  if q.home = 1 then .ok d
  else
    let (f, lack) := placeShards d chase q (d.stagedF chase)
    if lack ≠ 0 then .error (3, lack) else .ok (d.modStaged chase fun _ => f)

def embDefineFx (b : Bas) (chase : Nat) (q : EmbDef) (d : Dev) : Dev :=
  if embUnsupported d chase q then d.reply b 0x0604 .unsupported
  else if embDenied d chase q then d.reply b 0x0604 .denied
  else joinStage d b chase 0x0604 (d.press.embs.any fun e => e.chase == chase && e.d.table == q.table) (embPlace chase q)

/-- EMB_DEFINE (R347, R348). -/
def execEmbDefine (b : Bas) (chase : Nat) (q : EmbDef) (s : State) : Out :=
  onCmd (.embDefine b chase q) b (chaseCmd 0x0604 chase) (embDefineFx b chase q) s

def embDeleteFx (b : Bas) (chase table : Nat) (d : Dev) : Dev :=
  let mine (e : Emb) : Bool := e.chase == chase && e.d.table == table && !e.leaving
  match d.press.embs.find? mine with
  | none => d.reply b 0x0605 .unsupported 0x02 2
  | some e =>
    if e.ust ≠ .idle ∨ e.drnLive then d.reply b 0x0605 .busy
    else joinStage d b chase 0x0605 false fun d =>
      let embs := (d.press.embs.filter fun e => !(mine e && e.staged)).map fun e => if mine e then { e with leaving := true } else e
      .ok (({ d with press := { d.press with embs := embs } }).modStaged chase fun f =>
        { f with shards := f.shards.filter fun s => s.table != table })

/-- EMB_DELETE (R347): the table goes at the next commit. -/
def execEmbDelete (b : Bas) (chase table : Nat) (s : State) : Out :=
  onCmd (.embDelete b chase table) b (chaseCmd 0x0605 chase) (embDeleteFx b chase table) s

def embVersionFx (b : Bas) (chase table newbase : Nat) (d : Dev) : Dev := match d.emb chase table with
  | none => d.reply b 0x0606 .unsupported 0x02 2
  | some e =>
    let size := e.d.nrows * e.d.stride (fmtRow d e.d.rrow)
    if e.d.home = 1 ∨ newbase % 4096 ≠ 0 ∨ !covered (d.comp chase).curF.req isTable newbase size then d.reply b 0x0606 .unsupported
    else if e.drnLive then d.reply b 0x0606 .busy
    else (d.modEmb chase table fun e => { e with newBase := some newbase }).reply b 0x0606 .ok

/-- EMB_VERSION (R365): the new version is accepted; VERSION_SWITCH makes it current. -/
def execEmbVersion (b : Bas) (chase table newbase : Nat) (s : State) : Out :=
  onCmd (.embVersion b chase table newbase) b (chaseCmd 0x0606 chase) (embVersionFx b chase table newbase) s

def embSetoptFx (b : Bas) (chase table lr eps : Nat) (d : Dev) : Dev := match d.emb chase table with
  | none => d.reply b 0x0607 .unsupported 0x02 2
  | some e =>
    if e.d.home = 1 ∨ 2 ^ 32 ≤ lr ∨ 2 ^ 32 ≤ eps then d.reply b 0x0607 .unsupported
    else (d.modEmb chase table fun e => { e with nlr := lr, neps := eps }).reply b 0x0607 .ok

/-- EMB_SETOPT (R363): it takes effect when the next step opens. -/
def execEmbSetopt (b : Bas) (chase table lr eps : Nat) (s : State) : Out :=
  onCmd (.embSetopt b chase table lr eps) b (chaseCmd 0x0607 chase) (embSetoptFx b chase table lr eps) s

def embReshardFx (b : Bas) (chase table : Nat) (firsts : List Nat) (d : Dev) : Dev :=
  match d.press.embs.find? fun e => e.chase == chase && e.d.table == table && !e.leaving with
  | none => d.reply b 0x0608 .unsupported 0x02 2
  | some e =>
    if e.d.home = 1 ∨ firsts.length ≠ e.d.nshard ∨ firsts.head? ≠ some 0 ∨ !rising firsts ∨ firsts.any (fun x => decide (e.d.nrows ≤ x)) then
      d.reply b 0x0608 .unsupported
    else joinStage d b chase 0x0608 false fun d => .ok (d.modStaged chase fun f =>
      let mine := f.shards.filter fun s => s.table == table
      { f with shards := (f.shards.filter fun s => s.table != table) ++ (mine.zip firsts).map fun p => { p.1 with first := p.2 } })

/-- EMB_RESHARD (R368): new shard boundaries, in effect at the next commit. -/
def execEmbReshard (b : Bas) (chase table : Nat) (firsts : List Nat) (s : State) : Out :=
  onCmd (.embReshard b chase table firsts) b (chaseCmd 0x0608 chase) (embReshardFx b chase table firsts) s

/-! ### Mixtures (R369, R370) -/

def expertOk (n : Nat) (e : MoeExpert) : Bool :=
  decide (e.eid < 2 ^ 20 ∧ e.cap < 2 ^ 20 ∧ e.ovf < 3) && (e.fbexp == 0xFFF || decide (e.fbexp < n))

/-- UNSUPPORTED under R369. -/
def moeUnsupported (d : Dev) (q : MoeDef) : Bool :=
  let t := fmtRow d q.trow
  !(decide (q.moe < 65536) && decide (1 ≤ q.experts.length ∧ q.experts.length ≤ 4095) && decide (1 ≤ q.topkmax ∧ q.topkmax ≤ 16)
    && decide (16 ≤ q.trow ∧ q.trow < 1024) && decide (t.layout ≤ 1) && decide (1 ≤ q.tokelem ∧ q.tokelem ≤ 8192)
    && (t.layout != 1 || q.tokelem % 32 == 0) && decide (1 ≤ q.ndisp ∧ q.ndisp ≤ 32) && decide (1 ≤ q.cmbslots ∧ q.cmbslots ≤ 65536)
    && decide (1 ≤ q.dline ∧ q.dline ≤ 65535) && decide (q.dlpol ≤ 1 ∧ q.renorm ≤ 1) && decide (1 ≤ q.dbatch ∧ q.dbatch ≤ 255)
    && q.experts.all (expertOk q.experts.length))

/-- DENIED under R369 and R391. -/
def moeDenied (d : Dev) (chase : Nat) (q : MoeDef) : Bool :=
  !bit (nextReq d chase).services 2 || !q.experts.all (fun e => isMember d chase e.eid) || !rowUsable d chase q.trow

/-- Dispatch cores: the least loaded, each core once, the second on another press die than the first (R370). -/
def pickDisp (d : Dev) (chase : Nat) (f : Forme) : Nat → List Nat → List Nat
  | 0, got => got
  | n + 1, got =>
    let ok (c : Nat) : Bool := !got.contains c && (got.length != 1 || got.all fun g => g / 32 != c / 32)
    match leastCore d chase f [0x18] {} ok with
    | some c => pickDisp d chase f n (got ++ [c])
    | none => got

/-- An expert map entry for each expert, its counter on the least loaded core (R370). -/
def placeExperts (d : Dev) (chase : Nat) (q : MoeDef) (f : Forme) : Forme × Nat :=
  foldOver ((upTo q.experts.length).zip q.experts) (f, 0) fun x a => match leastCore d chase a.1 [0x19] { sram := 8 } fun _ => true with
    | some c =>
      let e : ExpertEnt := { moe := q.moe, expert := x.1, ovf := x.2.ovf, eid := x.2.eid, core := c, fbexp := x.2.fbexp, cap := x.2.cap }
      ({ a.1 with experts := a.1.experts ++ [e] }, a.2)
    | none => (a.1, a.2 + 1)

def moePlace (chase : Nat) (q : MoeDef) (d : Dev) : Except (Nat × Nat) Dev :=
  let disp := pickDisp d chase (d.stagedF chase) q.ndisp []
  if disp.length < q.ndisp then .error (3, q.ndisp - disp.length)
  else
    let d := { d with press := { d.press with moes := d.press.moes ++ [{ chase := chase, d := q, staged := true, disp := disp }] } }
    let (f, lack) := placeExperts d chase q (d.stagedF chase)
    if lack ≠ 0 then .error (3, lack) else .ok (d.modStaged chase fun _ => f)

def moeDefineFx (b : Bas) (chase : Nat) (q : MoeDef) (d : Dev) : Dev :=
  if moeUnsupported d q then d.reply b 0x0609 .unsupported
  else if moeDenied d chase q then d.reply b 0x0609 .denied
  else joinStage d b chase 0x0609 (d.press.moes.any fun m => m.chase == chase && m.d.moe == q.moe) (moePlace chase q)

/-- MOE_DEFINE (R369). -/
def execMoeDefine (b : Bas) (chase : Nat) (q : MoeDef) (s : State) : Out :=
  onCmd (.moeDefine b chase q) b (chaseCmd 0x0609 chase) (moeDefineFx b chase q) s

def moeDeleteFx (b : Bas) (chase moe : Nat) (d : Dev) : Dev :=
  let mine (m : Moe) : Bool := m.chase == chase && m.d.moe == moe && !m.leaving
  match d.press.moes.find? mine with
  | none => d.reply b 0x060A .unsupported 0x02 2
  | some m =>
    if !m.reqs.isEmpty then d.reply b 0x060A .busy
    else joinStage d b chase 0x060A false fun d =>
      let moes := (d.press.moes.filter fun m => !(mine m && m.staged)).map fun m => if mine m then { m with leaving := true } else m
      .ok (({ d with press := { d.press with moes := moes } }).modStaged chase fun f =>
        { f with experts := f.experts.filter fun e => e.moe != moe })

/-- MOE_DELETE: BUSY while a step is live. -/
def execMoeDelete (b : Bas) (chase moe : Nat) (s : State) : Out :=
  onCmd (.moeDelete b chase moe) b (chaseCmd 0x060A chase) (moeDeleteFx b chase moe) s

/-! ### Plates (R388, R389, R391–R393) -/

abbrev otherPartsB : Nat := 1073741824

/-- The last piece of an image has come (R388, R389). -/
def plateArrived (d : Dev) (b : Bas) (chase : Nat) (img : List Byte) : Dev :=
  let p := readImage chase img
  let held := sumNat (d.press.plates.images.map fun i => i.bytes.length)
  match loadCheck d false chase img with
  | some (r, i) => d.reply b 0x060B .badPlate 0x04 (r * 256 + i)
  | none =>
    if (d.image chase p.id).isSome then d.reply b 0x060B .busy
    else if otherPartsB < held + img.length then d.reply b 0x060B .noFit 0x01 6 [held + img.length - otherPartsB]
    else { d with press := { d.press with plates := { d.press.plates with images := d.press.plates.images ++ [p] } } }.reply b 0x060B .ok

def plateLoadFx (b : Bas) (chase offset : Nat) (data : List Byte) (d : Dev) : Dev :=
  let off := bits offset 30 0
  let have_ := ((d.press.plates.loads.find? fun l => l.chase == chase).map fun l => l.data).getD []
  let others := d.press.plates.loads.filter fun l => l.chase != chase
  let img := if off = 0 then data else have_ ++ data
  let put (ls : List PLoad) : Dev := { d with press := { d.press with plates := { d.press.plates with loads := ls } } }
  if off ≠ 0 ∧ off ≠ have_.length then d.reply b 0x060B .unsupported
  else if bit offset 31 then plateArrived (put others) b chase img
  else (put (others ++ [{ chase := chase, data := img }])).reply b 0x060B .ok

/-- PLATE_LOAD (R388, R389): pieces in ascending order, checked whole with the last one. -/
def execPlateLoad (b : Bas) (chase offset : Nat) (data : List Byte) (s : State) : Out :=
  onCmd (.plateLoad b chase offset data) b (chaseCmd 0x060B chase) (plateLoadFx b chase offset data) s

def plateUnloadFx (b : Bas) (chase plate : Nat) (d : Dev) : Dev :=
  let pl := d.press.plates
  if (d.image chase plate).isNone then d.reply b 0x060C .unsupported 0x02 2
  else if pl.binds.any (fun x => x.chase == chase && x.plate == plate) || pl.insts.any (fun i => i.chase == chase && i.plate == plate) then
    d.reply b 0x060C .busy
  else
    let keep := pl.images.filter fun p => !(p.chase == chase && p.id == plate)
    { d with press := { d.press with plates := { pl with images := keep } } }.reply b 0x060C .ok

/-- PLATE_UNLOAD (R389). -/
def execPlateUnload (b : Bas) (chase plate : Nat) (s : State) : Out :=
  onCmd (.plateUnload b chase plate) b (chaseCmd 0x060C chase) (plateUnloadFx b chase plate) s

/-- The descriptor size of a plate's entry node, which is a SEQ (R392). -/
def PImage.seqSize (p : PImage) : Option Nat := (p.nodes.find? fun n => n.type == 2).map fun n => (p.param n).dsize

/-- Every format row an image names is usable by its chase (R391). -/
def imageRowsOk (d : Dev) (p : PImage) : Bool :=
  p.nodes.all fun n => let s := p.param n; rowUsable d p.chase s.row && rowUsable d p.chase s.row1

/-- An instance on the least loaded core that holds none of this plate, for each ring (R391, R392). -/
def platePlace (chase party plate : Nat) (p : PImage) (rings : List RingDef) (d : Dev) : Except (Nat × Nat) Dev :=
  let put (r : RingDef) (a : Dev × Nat) : Dev × Nat :=
    let taken (c : Nat) : Bool := (nextBinds a.1 chase).any fun x => x.plate == plate && x.rings.any fun y => y.core == c
    match leastCore a.1 chase (a.1.stagedF chase) [] (imageUse p) fun c => !taken c with
    | none => (a.1, a.2 + 1)
    | some c =>
      let x : PBind := { chase := chase, party := party, plate := plate, staged := true
                         rings := [{ ring := r.ring, pva := r.pva, ents := r.ents, mark := r.mark, core := c }] }
      ({ a.1 with press := { a.1.press with plates := { a.1.press.plates with binds := a.1.press.plates.binds ++ [x] } } }, a.2)
  let (d, lack) := foldOver rings (d, 0) put
  if lack ≠ 0 then .error (3, lack) else .ok d

def plateBindFx (b : Bas) (chase party plate : Nat) (rings : List RingDef) (d : Dev) : Dev := match d.image chase plate with
  | none => d.reply b 0x060D .unsupported 0x02 3
  | some p => match p.seqSize with
    | none => d.reply b 0x060D .unsupported
    | some size =>
      if rings.isEmpty ∨ 16 < rings.length ∨ !rings.all ringOk ∨ (rings.map fun r => r.ring).eraseDups.length ≠ rings.length
          ∨ (nextReq d chase).parties ≤ party then d.reply b 0x060D .unsupported
      else if rings.any (ringDenied d chase party size) ∨ !imageRowsOk d p then d.reply b 0x060D .denied
      else joinStage d b chase 0x060D (rings.any fun r => ringTaken d chase r.ring) (platePlace chase party plate p rings)

/-- PLATE_BIND (R392): staged, bound at the next commit. -/
def execPlateBind (b : Bas) (chase party plate : Nat) (rings : List RingDef) (s : State) : Out :=
  onCmd (.plateBind b chase party plate rings) b (chaseCmd 0x060D chase) (plateBindFx b chase party plate rings) s

def plateUnbindFx (b : Bas) (chase plate ring : Nat) (d : Dev) : Dev :=
  let mine (x : PBind) : Bool := x.chase == chase && x.plate == plate && !x.leaving && x.rings.any fun r => r.ring == ring
  if !d.press.plates.binds.any mine then d.reply b 0x060E .unsupported 0x02 (if (d.image chase plate).isNone then 2 else 4)
  else joinStage d b chase 0x060E false fun d =>
    let binds := (d.press.plates.binds.filter fun x => !(mine x && x.staged)).map fun x => if mine x then { x with leaving := true } else x
    .ok { d with press := { d.press with plates := { d.press.plates with binds := binds } } }

/-- PLATE_UNBIND (R393): the binding of a ring goes at the next commit. -/
def execPlateUnbind (b : Bas) (chase plate ring : Nat) (s : State) : Out :=
  onCmd (.plateUnbind b chase plate ring) b (chaseCmd 0x060E chase) (plateUnbindFx b chase plate ring) s

/-! ### Marks (R434, R439) -/

def markSetFx (b : Bas) (chase mark type : Nat) (plock : Bool) (party word link : Nat) (d : Dev) : Dev :=
  match setMark d chase mark type plock party word link with
  | .ok d => d.reply b 0x0701 .ok
  | .error (.noFit, r) => d.reply b 0x0701 .noFit 0x01 r [1]
  | .error (st, _) => d.reply b 0x0701 st

/-- MARK_SET (R439). -/
def execMarkSet (b : Bas) (chase mark type : Nat) (plock : Bool) (party word link : Nat) (s : State) : Out :=
  onCmd (.markSet b chase mark type plock party word link) b (chaseCmd 0x0701 chase 4) (markSetFx b chase mark type plock party word link) s

def markClearFx (b : Bas) (mark : Nat) (d : Dev) : Dev :=
  if !allocated d (d.mark mark).chase mark then d.reply b 0x0702 .denied else (clearMark d mark).reply b 0x0702 .ok

/-- MARK_CLEAR (R439): its chase is the one the mark is allocated to. -/
def execMarkClear (b : Bas) (mark : Nat) (s : State) : Out :=
  onCmd (.markClear b mark) b { chaseCmd 0x0702 (s.dev.mark mark).chase with chase := none } (markClearFx b mark) s

/-- MARK_EPLOST (R434, R439): every quoin the EID holds breaks, across every chase. -/
def execMarkEplost (b : Bas) (eid : Nat) (s : State) : Out :=
  onCmd (.markEplost b eid) b (devCmd 0x0703) (fun d => (eidLost d eid 1 none).reply b 0x0703 .ok) s

end Sys2Proof.Machine
end

