-- ==== Sys2Proof/Machine/Faults.lean ====
section
/-! DEFINITION. Losing a die, a stack or the package; keeper takeover; errors of tables, marks and the forme store
(Faults, Errors and Armed Responses). -/

namespace Sys2Proof.Machine
open Sys2Proof

/-! ### A stack that cannot be reached (R514) -/

/-- A push in progress on a stack ends with LSTAT TARGETLOST and LAYERFAIL; every layer and shadow there is gone. -/
def layersGone (d : Dev) (s : Nat) : Dev :=
  foldOver (d.pool.layers.filter fun l => !l.staged && l.stack == s) d fun l d =>
    let busy := l.st == .pushing || l.st == .missed
    let d := (retireLayer d l).modLayer l.chase l.layer fun l => { l with shres := false }
    if !busy then d
    else
      let d := (d.modLayer l.chase l.layer fun l => { l with lstat := Status.targetLost.code, req := none }).notice 0x0501
        (dPX ((d.stackServer s).getD s)) (some l.chase) l.layer Status.targetLost.code 0
      match l.req with
      | some id => answer d id .targetLost
      | none => d

/-- Multicasts that hold a retry slot on a stack end at once, every member not delivered missing (R514). -/
def slotsGone (d : Dev) (s : Nat) : Dev :=
  foldOver (d.core.mc.filter fun r => r.slot == some s) d fun r d =>
    let out (o : McOut) : McOut := match o with | .waiting => .missing | .missed => .missing | o => o
    mcEnd d { r with outs := r.outs.map out }

/-- Does an address of galley memory lie on a stack pair? -/
def onPair (s : Nat) (c : Host.Cell) : Bool := c.1 / 2 ^ 36 == s % 4

/-- What follows when a stack has become unreachable: `px` when its press die is lost too (R514, R515). Clean cached lines go, by PUTS or
PUTE where only the stack is lost; with the pair gone as well nothing of either stack remains. -/
def stackGone (d : Dev) (s : Nat) (px : Bool) : Dev :=
  let d := slotsGone (layersGone d s) s
  let clean := d.pool.lines.filter fun l => l.stack == s && (l.st == .s || l.st == .e)
  let d := foldOver clean d fun l d => if px then d.dropLine l.key else evict d l
  if (d.stackServer s).isSome then
    { d with flt := { d.flt with singleCopy := if d.flt.singleCopy.contains s then d.flt.singleCopy else d.flt.singleCopy ++ [s] } }.notice
      0x0505 (dPX ((d.stackServer s).getD s)) none s 0 0
  else
    foldOver [s, pairOf s] d fun t d =>
      let pool := { d.pool with mem := d.pool.mem.filter fun c => !onPair t c, lines := d.pool.lines.filter fun l => l.stack != t }
      ({ d with pool := pool }.record 2 (dGS t) 1 none t).notice 0x0505 (dGS t) none t 0 0

/-! ### Package shutdown (R520, R576) -/

/-- Everything under way in the data plane stops with its dies. -/
def dataPlaneOff (d : Dev) : Dev :=
  let tfp := { d.tfp with outst := [], filters := [], trains := [], fences := [], dlv := [] }
  let core := { d.core with voq := [], egq := [], xRun := [], owed := [], flights := [], egCred := [], xCred := [], gated := [], gateSeen := [], qcharge := [], mc := [] }
  { d with arrived := [], tfp := tfp, core := core, imp := { d.imp with waitFill := [], fast := [] }
           pool := { d.pool with grps := [], jobs := [], ev := [] }, marks := { d.marks with waits := [] }
           press := { d.press with svcs := [] } }

/-- Shut the package down: every port DOWN with ENABLE clear, every domain off but PWD61 to PWD63, the fault output asserted, MODE
SHUTDOWN. Every cause but the command makes a record of class 4 with its LOC. It happens once; only a cold reset ends it. -/
def shutDown (d : Dev) (cause loc : Nat) : Dev :=
  if d.flt.fatal then d
  else
    let d := { d with flt := { d.flt with fatal := true } }
    let d := if loc = 0 then d else d.record 4 dPackage 20 none loc
    let d := foldOver ((upTo 1024).filter fun p => d.enabled p) d fun p d => d.setReg .ptPortCfg p (setBits (d.reg .ptPortCfg p) 31 31 0)
    let d := foldOver ((d.links.filter fun e => e.2.st != .down).map Prod.fst) d fun p d => linkDisable d p
    let d := dataPlaneOff d
    let pwr := { d.pwr with on := bits d.pwr.on 63 61 * 2 ^ 61, mode := .shutdown, faultN := true, toSeq := [], waitPg := [], stest := [], firstWin := [] }
    let d := { d with pwr := pwr }
    (d.notice 0x0A08 d.kpDie none 3 d.pwr.level 0).notice 0x0A0A d.kpDie none cause 0 0

/-- A fatal-package condition of R520. -/
def fatalPackage (d : Dev) (loc : Nat) : Dev := shutDown d 3 loc

/-- FATAL_PACKAGE: two planes lost, reference lost at every port die, both forme-store copies unreachable (LOC 3 to 5). -/
def execFatalPackage (cause : Nat) (s : State) : Out := onPool (fun d => fatalPackage d cause) s

/-! ### Losing a press die (R515) -/

/-- Does an access execute at a press die? -/
def jobAt (d : Dev) (px : Nat) (j : PJob) : Bool :=
  match j.cached with
  | some s => d.stackServer s == some px
  | none => (j.loc.kind == 1 && d.stackServer j.loc.target == some px) || (j.loc.kind == 5 && stripeDie d j.loc.target == some px)

/-- Accesses lost with their press die: a request is answered RETRY as a whole, the device's own accesses start again where they are
served next (R134, R515). -/
def jobsGone (d : Dev) (js : List PJob) : Dev :=
  foldOver js d fun j d =>
    match d.job j.id, d.grp j.grp with
    | some _, some g => match g.cont with
      | .request id =>
        let d := { d with pool := { d.pool with jobs := d.pool.jobs.filter fun x => x.grp != j.grp } }
        answer (d.dropGrp j.grp) id .retry
      | _ => d.modJob j.id fun j => { j with st := .wait, reqs := [], got := [], pois := [], failed := [], mem := [] }
    | _, _ => d

/-- What a press die takes with it besides its stack: rounds, steps, gathers, mixtures and scans on its cores, plate instances, mover jobs,
with coherence on its directory and its lines of remote homes (R399, R515). `js`: the accesses that executed there. -/
def pressGone (d : Dev) (px : Nat) (js : List PJob) : Dev :=
  let d := jobsGone d js
  let d := scanPressLost (moePressLost (embPressLost (redPressLost d px) px) px) px
  let r' (r : Ring) : Ring := { r with job := false, taking := false, pieces := [], ending := false }
  let plates := { d.press.plates with
    std := d.press.plates.std.filter fun s => s.core / 32 != px
    insts := d.press.plates.insts.filter fun i => i.core / 32 != px }
  let pool := { d.pool with rings := mapIf (fun r => r.core / 32 == px) r' d.pool.rings }
  let d := { d with press := { d.press with plates := plates }, pool := pool }
  let d := if cohEn d then
      let d := foldOver (d.pool.dir.filter fun e => e.px == px) d fun e d => dirError d e
      let remote (l : CLine) : Bool := l.stack == px && (match homeM d l.loc with | some m => m != selfM d | none => false)
      { d with pool := { d.pool with lines := d.pool.lines.filter fun l => !remote l } }
    else d
  { d with core := { d.core with voq := d.core.voq.filter fun e => e.1 / 32768 != dPX px, qcharge := d.core.qcharge.filter fun e => e.1 / 32768 != dPX px }
           tfp := { d.tfp with filters := d.tfp.filters.filter fun f => homeDie f.home != dPX px, dlv := d.tfp.dlv.filter fun v => v.die != dPX px } }

/-! ### Losing a port die (R513) -/

/-- What the crossbar held for a die: sorts toward it are voided and their requests answered RETRY, what it sent is gone, and the counts
between it and the other dies start again (R163, R512). -/
def crossGone (d : Dev) (die : Nat) : Dev :=
  let toIt := (d.core.flights.filter fun f => f.dst == die && f.src != die && f.idx + 1 == f.q.pkt.sorts && !f.out).map fun f => f.q
  let runTo := (d.core.xRun.filter fun e => e.1 % 24 == die && e.1 / 24 != die).map Prod.snd
  let half (q : QPkt) : Bool := q.die == die && decide (q.got < q.pkt.sorts) && q.mc.isNone
  let pair (k : Nat) : Bool := k / 24 == die || k % 24 == die
  let other (k : Nat) : Bool := k / 1024 != die && portDie (k % 1024) != die
  let core := { d.core with
    flights := d.core.flights.filter fun f => f.src != die && f.dst != die
    xRun := d.core.xRun.filter fun e => !pair e.1
    egq := (d.core.egq.map fun e => (e.1, e.2.filter fun q => !half q)).filter fun e => !e.2.isEmpty && portDie (e.1 / 8) != die
    pseqTx := d.core.pseqTx.filter fun e => !pair e.1
    pseqRx := d.core.pseqRx.filter fun e => !pair e.1
    xCred := d.core.xCred.filter fun e => !pair e.1
    egCred := d.core.egCred.filter fun e => other e.1
    owed := d.core.owed.filter fun e => other e.1
    gated := d.core.gated.filter fun p => portDie p != die
    gateSeen := d.core.gateSeen.filter fun g => g.1 != die && portDie g.2 != die }
  let d := { d with core := core }
  let d := foldOver toIt d fun q d => loseQ d q 0
  foldOver runTo d fun r d => loseQ d r.1 (r.1.pkt.sorts - r.2)

/-- The requests a port die admitted: it never answers them, its counts of them are gone, and no FENCE waits for them (R513). One whose
home is a press core, a stack, a mark or a tray of this switch is still carried through there. -/
def requestsGone (d : Dev) (die : Nat) : Dev :=
  let kept (o : Outst) : Bool := match o.home with | .remote _ => false | .ingress _ => false | h => homeDie h != die
  let outst := (d.tfp.outst.filter fun o => o.die != die || kept o).map fun o => if o.die = die then { o with answered := true, counted := false } else o
  let red (r : Red) : Red := { r with rounds := mapIf (fun x => x.cnt == some die) (fun x => { x with cnt := none }) r.rounds }
  let moe (m : Moe) : Moe := { m with reqs := mapIf (fun x => x.cnt == some die) (fun x => { x with cnt := none }) m.reqs }
  let comp (c : Comp) : Comp :=
    { c with count := c.count.filter fun e => e.1 / 16 != die, late := c.late.filter (· != die), lateClose := c.lateClose.filter (· != die)
             lateRel := c.lateRel.filter (· != die) }
  { d with
    tfp := { d.tfp with
      outst := outst, trains := d.tfp.trains.filter fun t => t.die != die
      fences := d.tfp.fences.filter fun f => outst.any fun o => o.id == f.id
      filters := d.tfp.filters.filter fun f => homeDie f.home != die || (match f.home with | .remote _ => true | _ => false)
      dlv := d.tfp.dlv.filter fun v => v.die != die }
    press := { d.press with reds := d.press.reds.map red, moes := d.press.moes.map moe }
    imp := { d.imp with comps := d.imp.comps.map fun e => (e.1, comp e.2), fast := d.imp.fast.filter fun e => e.die != die
                        waitFill := d.imp.waitFill.filter fun w => portDie w.1.port != die }
    arrived := d.arrived.filter fun x => portDie x.port != die }

/-- Multicasts: those whose replication point the die held go; members on its ports count as missed (R173, R513). -/
def mcastGone (d : Dev) (die : Nat) : Dev :=
  let d := { d with core := { d.core with mc := d.core.mc.filter fun r => r.die != die } }
  foldOver d.core.mc d fun r d =>
    let on (i : Nat) : Bool := portDie ((r.members[i]?).getD (0, 0)).1 == die
    let out (i : Nat) : McOut := match (r.outs[i]?).getD .idle with
      | .waiting => if on i then .missing else .waiting
      | .missed => if on i then .missing else .missed
      | .delivered => if on i then .gotIt else .delivered
      | o => o
    roundEnd (modRun d r.id fun r => { r with outs := (upTo r.outs.length).map out }) r.id

/-- What a port die that stops drops: its queues, the packets on their way to it, its requests, its replication points, its ports. -/
def portDieEmpty (d : Dev) (n : Nat) : Dev :=
  let vq (k : Nat) : Bool := k / 32768 == n
  let d := { d with core := { d.core with voq := d.core.voq.filter fun e => !vq e.1, qcharge := d.core.qcharge.filter fun e => !vq e.1 } }
  let d := mcastGone (crossGone (requestsGone d n) n) n
  let ports := (d.links.filter fun e => portDie e.1 == n && e.2.st != .down).map Prod.fst
  let d := foldOver ports d fun p d => linkDisable d p
  { d with exp := d.exp.filter fun e => e.1 / 2 ^ 20 != n, expPort := d.expPort.filter fun e => portDie e.1 != n }

/-- Everything a port die takes with it (R513). -/
def portDieGone (d : Dev) (n : Nat) : Dev :=
  let named := d.snap.st == .cut && d.marks.tbl.any fun e => markDie e.1 == n && d.snap.chases.contains e.2.chase
  let d := if named then snapIncomplete d else d
  let d := embCoordLost (redCoordLost (loseMarks (portDieEmpty d n) n) n) n
  foldOver ((upTo 32).filter fun l => trayDie l == n && isTray d l) d fun l d =>
    holdLost (d.modTray l fun t => { t with trained := false, fullRate := false }) 2 l

/-! ### A die held lost (R512) -/

/-- A die becomes held lost, with the consequences of R513 to R517 for its kind; a second plane lost is fatal-package (R520). -/
def holdDieLost (d : Dev) (die : Nat) : Dev :=
  if d.lost die then d
  else
    let js := if 16 ≤ die ∧ die < 24 then d.pool.jobs.filter fun j => j.st != .wait && jobAt d (die - 16) j else []
    let reach := d.stackThere (die % 8)
    let d := { d with flt := { d.flt with lostDies := d.flt.lostDies ++ [die] }, pwr := { d.pwr with stest := d.pwr.stest.filter (· != die) } }
    let d := d.notice 0x0904 die none die 0 0
    let d := foldOver (d.mgmt.running.filter fun r => r.opc == 0x0E12 && r.key == die) d fun _ d => d.finish 0x0E12 die .ok
    if die < 16 then portDieGone d die
    else if die < 24 then
      let d := pressGone d (die - 16) js
      let d := crossGone { d with exp := d.exp.filter fun e => e.1 / 2 ^ 20 != die && e.1 / 2 ^ 20 != die + 16 } die
      if reach then
        let d := stackGone d (die - 16) true
        if die % 4 = 0 ∧ (d.stackServer (die - 16)).isNone then fatalPackage d 5 else d
      else d
    else if die < 29 then
      if 2 ≤ (d.flt.lostDies.filter fun x => decide (24 ≤ x ∧ x < 29)).length then fatalPackage d 3 else d
    else if 32 ≤ die ∧ die < 40 then
      if reach then
        let d := stackGone d (die - 32) false
        if die % 4 = 0 ∧ (d.stackServer (die - 32)).isNone then fatalPackage d 5 else d
      else d
    else d

/-- Is a die one of those that send liveness slices, with its domains on (R512)? -/
def sendsLiveness (d : Dev) (die : Nat) : Bool := decide (die < 24) && (dieDomains die).all (fun p => d.domOn p) && !d.lost die

/-- LIVENESS_SEND: every 0.5 µs a slice on every plane (R512). -/
def livenessFx (die : Nat) (d : Dev) : Dev :=
  if sendsLiveness d die then { d with flt := { d.flt with heard := tput d.flt.heard die d.clk } }.emit (.liveness die) else d

def execLivenessSend (die : Nat) (s : State) : Out := onDev (livenessFx die) s

/-- A die silent for 2 µs (LOC 0), or one whose fatal slice was received (LOC 1), is held lost; the record is made unless the die recorded
its own fatal error first (R512). -/
def deadDie (loc : Nat) (die : Nat) (d : Dev) : Dev :=
  if !sendsLiveness d die then d
  else
    let d := if d.flt.selfFatal.contains die then d else d.record 3 die 16 none loc
    holdDieLost d die

def execDieSilence (die : Nat) (s : State) : Out := onPool (deadDie 0 die) s
def execFatalSliceRx (die : Nat) (s : State) : Out := onPool (deadDie 1 die) s

/-- GALLEY_STACK_LOSS: GSs is lost (R514). -/
def stackLossFx (stack : Nat) (d : Dev) : Dev := if stack < 8 then holdDieLost d (dGS stack) else d

def execGalleyStackLoss (stack : Nat) (s : State) : Out := onPool (stackLossFx stack) s

/-! ### Next-hop failover (R509, R510) -/

/-- Give the slots of a member out of UP to the UP members in turn, from the lowest slot. -/
def giveSlots (port : Nat) (ups : List Nat) : List (Option Nat) → Nat → List (Option Nat)
  | [], _ => []
  | s :: r, k => if s = some port then (ups[k % ups.length]?) :: giveSlots port ups r (k + 1) else s :: giveSlots port ups r k

def failoverFx (set port : Nat) (d : Dev) : Dev :=
  match tfind d.core.nhs set with
  | none => d
  | some h =>
    let ups := h.members.filter d.portUp
    if d.flag .fltFabpol 0 31 ∧ h.members.contains port ∧ !d.portUp port ∧ !ups.isEmpty then
      { d with core := { d.core with nhs := tput d.core.nhs set { h with slots := giveSlots port ups h.slots 0 } } }
    else d

def execNexthopFailover (set port : Nat) (s : State) : Out := onDev (failoverFx set port) s

/-! ### Corrected errors, tables, the forme store (R499, R501, R502) -/

/-- The end of a 1 s window of a unit: at 2^CETHR corrected errors one record of class 0 and CESTORM (R499). -/
def ceWindowFx (die unit : Nat) (d : Dev) : Dev :=
  let n := tget 0 d.flt.ceCount (32 * die + unit)
  let d := { d with flt := { d.flt with ceCount := tdel d.flt.ceCount (32 * die + unit) } }
  if n < 2 ^ d.fld .fltThr 0 15 8 then d
  else (d.record 0 die unit none 0).notice 0x0902 die none (die <<< 8 + unit) n 0

def execCeWindowEnd (die unit : Nat) (s : State) : Out := onDev (ceWindowFx die unit) s

/-- Change the membership entries of a die at a position of its table. -/
def badMember (d : Dev) (die index : Nat) : Dev :=
  match ((upTo d.imp.members.length).zip d.imp.members |>.filter fun m => m.2.die == die)[index]? with
  | some m => { d with imp := { d.imp with members := d.imp.members.modify m.1 fun m => { m with bad := true } } }
  | none => d

/-- An uncorrectable entry of a port-die table: 0 membership, 1 block route, 2 exact route, 3 next-hop (16 × set + slot), 4 group, 5 member
store, 6 class. It acts as absent until it is rewritten, at once from the keeper's copy while TBLFIX is armed (R501). A class entry keeps
its ports at their last decision. -/
def tableErrorFx (die table index : Nat) (d : Dev) : Dev :=
  let d := d.record 2 die 9 none (Config.tableLoc table index)
  if d.flag .fltFabpol 0 24 ∧ d.mgmt.active.isSome then d
  else if table = 0 then badMember d die index
  else if table = 1 then { d with core := { d.core with badB := d.core.badB ++ [65536 * die + index] } }
  else if table = 2 then { d with core := { d.core with badX := d.core.badX ++ [65536 * die + index] } }
  else if table = 3 then
    match (tfind d.core.nhs (index / 16)).bind fun h => (h.slots[index % 16]?).join.map fun p => (h, p) with
    | some (h, p) => { d with core := { d.core with nhs := tput d.core.nhs (index / 16) { h with bad := h.bad ++ [1024 * die + p] } } }
    | none => d
  else if table = 4 then { d with core := { d.core with badGroups := d.core.badGroups ++ [65536 * die + index] } }
  else d

def execPortTableError (die table index : Nat) (s : State) : Out := onDev (tableErrorFx die table index) s

/-- A forme-store entry bad in both copies: requests that need it are answered TARGETLOST until a commit writes it (R502). -/
def formeErrorFx (chase part key : Nat) (d : Dev) : Dev :=
  let d := { d with imp := { d.imp with badEnt := d.imp.badEnt ++ [(chase, part, key)] } }
  (d.record 2 (dGS 0) 6 (some chase) key).notice 0x0903 (dGS 0) (some chase) part key 0

def execFormeStoreError (chase part key : Nat) (s : State) : Out := onDev (formeErrorFx chase part key) s

/-! ### Keepers (R37, R449, R516, R517, R550) -/

/-- Every session ends, with its reply cache; queued commands are discarded; a command that had started gets no reply (R449, R550). -/
def sessionsEnd (d : Dev) : Dev :=
  let lost (r : Running) : Bool := r.sess.isSome
  { d with mgmt := { d.mgmt with sessions := [], conns := [], held := [], starting := none, running := d.mgmt.running.filter fun r => !lost r, cfgAfter := [] } }

def Mgmt.keeper (m : Mgmt) (n : Nat) : Keeper := if n = 0 then m.kp0 else m.kp1

def Dev.modKeeper (d : Dev) (n : Nat) (f : Keeper → Keeper) : Dev :=
  { d with mgmt := if n = 0 then { d.mgmt with kp0 := f d.mgmt.kp0 } else { d.mgmt with kp1 := f d.mgmt.kp1 } }

/-- Can a keeper take over: in service, running, not held lost? -/
def keeperReady (d : Dev) (n : Nat) : Bool :=
  let k := d.mgmt.keeper n
  k.inService && k.booted && !k.restarting && !d.lost (dKP n)

/-- Renewing the lease (R516). -/
def leaseRenewFx (d : Dev) : Dev := if d.mgmt.active.isSome then { d with mgmt := { d.mgmt with leaseAge := 0 } } else d

def execKeeperLeaseRenew (s : State) : Out := onDev leaseRenewFx s

/-- A keeper goes out of service, held lost until a die reset; it asserts KPn_FAULT_N (R516, R599). -/
def keeperOut (d : Dev) (n : Nat) : Dev :=
  let d := d.modKeeper n fun k => { k with inService := false }
  { holdDieLost d (dKP n) with pwr := { (holdDieLost d (dKP n)).pwr with kpFault := if d.pwr.kpFault.contains n then d.pwr.kpFault else d.pwr.kpFault ++ [n] } }

/-- The active keeper stops acting: it writes nothing further, every session ends, and a takeover of a cause begins where the standby
keeper can take it (R516). -/
def giveUp (d : Dev) (cause : Nat) : Dev :=
  match d.mgmt.active with
  | none => d
  | some n =>
    let d := sessionsEnd d
    { d with mgmt := { d.mgmt with active := none, leaseAge := 0, takeover := if keeperReady d (1 - n) then some cause else none, handover := false, activating := false } }

/-- The active keeper fails: by its lease (cause 1) or its fatal report (cause 2). -/
def keeperFails (cause : Nat) (d : Dev) : Dev :=
  match d.mgmt.active with
  | none => d
  | some n => giveUp (keeperOut d n) cause

def execKeeperLeaseLapse (s : State) : Out := onDev (keeperFails 1) s
def execKeeperFatalReport (s : State) : Out := onDev (keeperFails 2) s

/-- An active keeper starts the corrections it runs whose cause still holds: rebuilds, a step of fabric time (R496). -/
def resumeFixes (d : Dev) : Dev :=
  let d := foldOver (d.pool.stripes.map Prod.fst) d fun s d => rebuildStart d s
  if d.flag .fltFabpol 0 28 ∧ d.time.stepReq then
    let d := stepTime d (-d.time.offset)
    { d with time := { d.time with stepReq := false, offset := 0 } }
  else d

/-- The standby completes its takeover: it is active, the dies' records are collected, KEEPER is sent, and a neighbour advertisement for
the device's address (R37, R504, R516, R541). A commit past its
commit point goes on, its reply lost (R68, R550). -/
def takeoverDone (d : Dev) : Dev :=
  match d.mgmt.takeover with
  | none => d
  | some cause =>
    let n := if keeperReady d 1 ∧ (!keeperReady d 0 ∨ d.mgmt.lastActive = 0) then 1 else 0
    if !keeperReady d n then { d with mgmt := { d.mgmt with takeover := none } }
    else
      let d := { d with mgmt := { d.mgmt with active := some n, takeover := none, lastActive := n } }
      let d := d.collectLogs.notice 0x0905 (dKP n) none n cause 0
      resumeFixes (d.emitIf (d.reg .kpMgmtAddr 0 != 0) (.netAnswer 2 [n, d.reg .kpMgmtAddr 0]))

def execKeeperTakeover (s : State) : Out := onDev takeoverDone s

/-- The standby keeper suffers a fatal error and goes out of service (R516). -/
def standbyLossFx (d : Dev) : Dev :=
  match d.mgmt.active with
  | none => match d.mgmt.takeover with
    | some _ => { keeperOut d (1 - d.mgmt.lastActive) with mgmt := { (keeperOut d (1 - d.mgmt.lastActive)).mgmt with takeover := none } }
    | none => d
  | some n => (keeperOut d (1 - n)).record 3 (dKP (1 - n)) 10 none 0

def execStandbyKeeperLoss (s : State) : Out := onDev standbyLossFx s

end Sys2Proof.Machine
end

