-- ==== Sys2Proof/Machine/Domains.lean ====
section
/-! DEFINITION. Pace, supply and heat of the domains; switching domains off and on; self-tests (R29–R32, R567–R576, R590–R592, R605–R608). -/

namespace Sys2Proof.Machine
open Sys2Proof

/-! ### Pace, supply, heat (R29–R32, R574, R605) -/

def Dev.pace (d : Dev) (p : Nat) : Pace := tget {} d.pwr.pace p
def Dev.modPace (d : Dev) (p : Nat) (f : Pace → Pace) : Dev := { d with pwr := { d.pwr with pace := tmod {} d.pwr.pace p f } }

/-- The KP_PACE_STAT word of a domain; zero while it is off (R29). -/
def paceStat (d : Dev) (p : Nat) : Nat :=
  let x := d.pace p
  if domainReports p ∧ d.domOn p ∧ x.valid then
    1 <<< 31 + b2n x.step <<< 30 + b2n x.below <<< 29 + x.pace % 4096 <<< 16 + x.vcode <<< 8 + x.tj % 256
  else 0

/-- Heat at the end of a window: THERMWARN once until TJ is 5 °C below TWARN; at TCRIT with CRITVMIN the supply is held at VMIN, with
THERMCRIT, until TJ is 5 °C below TCRIT (R574). -/
def heatCheck (d : Dev) (p tj : Nat) : Dev :=
  let twarn := d.fld .kpThermCfg 0 31 24
  let tcrit := d.fld .kpThermCfg 0 23 16
  let x := d.pace p
  let warn := decide (twarn ≤ tj) && !x.warned
  let crit := decide (tcrit ≤ tj) && d.flag .kpThermCfg 0 15 && !x.crit
  let d := if warn then d.notice 0x0A02 (domainDie p) none p tj 0 else d
  let d := if crit then d.notice 0x0A03 (domainDie p) none p tj 0 else d
  d.modPace p fun x => { x with
    warned := (x.warned || warn) && !decide (tj + 5 ≤ twarn)
    crit := (x.crit || crit) && !decide (tj + 5 ≤ tcrit) }

/-- The supply the keeper sets next, at most one 2 mV step away: toward VMIN while held there or with HOLD clear, else toward TARGET
within the limits (R30, R32, R574). -/
def nextSupply (x : Pace) (tgt : Nat) : Nat :=
  let vmax := bits tgt 15 8
  let vmin := bits tgt 7 0
  let v := x.supply
  if x.crit ∨ !bit tgt 31 then (if vmin < v then v - 1 else if v < vmin then v + 1 else v)
  else if vmax < v then v - 1
  else if v < vmin then v + 1
  else if x.pace < bits tgt 27 16 ∧ v < vmax then v + 1
  else if bits tgt 27 16 < x.pace ∧ vmin < v then v - 1
  else v

/-- One regulation step after a window that was no STEP window. A write that is not acknowledged is repeated in the next window; after a
second one the rail keeps its last acknowledged value, with a record of class 0 (R605). -/
def regulate (d : Dev) (p : Nat) (ack : Bool) : Dev :=
  let x := d.pace p
  let v := nextSupply x (d.reg .kpPaceTgt p)
  if x.step ∨ 2 ≤ x.unacked ∨ v = x.supply then d
  else
    let d := d.emit (.avs p v)
    if ack then d.modPace p fun x => { x with supply := v, acked := v, unacked := 0, stepped := true }
    else
      let d := d.modPace p fun x => { x with unacked := x.unacked + 1 }
      if x.unacked = 0 then d else d.record 0 (domainDie p) 17 none p

/-- The end of a window of a reporting domain (R29): the report, then, at the active keeper, heat, PACEBELOW and regulation. `tj` is
TJ − 40 °C; `ack`: the regulator acknowledges a write of this window. -/
def paceWindowFx (p pace tj : Nat) (ack : Bool) (d : Dev) : Dev :=
  if !domainReports p ∨ !d.domOn p then d
  else
    let tgt := d.reg .kpPaceTgt p
    let d := d.modPace p fun x => { x with
      valid := true, step := x.stepped, stepped := false, pace := pace, vcode := x.supply, tj := tj
      below := decide (100 * pace < 97 * bits tgt 27 16) }
    let d := { d with pwr := { d.pwr with firstWin := d.pwr.firstWin.filter (· != p) } }
    let d := match (d.pace p).tgtPend with
      | some v => (d.modPace p fun x => { x with tgtPend := none }).setReg .kpPaceTgt p v
      | none => d
    if d.mgmt.active.isNone then d
    else
      let d := heatCheck d p tj
      let x := d.pace p
      let note := x.below && decide (bits tgt 15 8 ≤ x.vcode) && !x.noted
      let d := if note then d.notice 0x0A01 (domainDie p) none p pace (bits tgt 27 16) else d
      regulate (d.modPace p fun x => { x with noted := (x.noted || note) && x.below }) p ack

def execPaceWindowEnd (pwd pace tj : Nat) (ack : Bool) (s : State) : Out := onDev (paceWindowFx pwd pace tj ack) s

/-! ### Modes (R592) -/

/-- MODECHG at each change of MODE or LEVEL. -/
def modeChg (d : Dev) : Dev := d.notice 0x0A08 d.kpDie none d.pwr.mode.code d.pwr.level 0

def setMode (d : Dev) (m : Mode) : Dev := if d.pwr.mode = m then d else modeChg { d with pwr := { d.pwr with mode := m } }

/-- KP_PWR_STAT (R571, R575). -/
def pwrStat (d : Dev) : Nat := d.pwr.trip % 2 ^ 64 <<< 64 + d.pwr.on % 2 ^ 64

/-- Is a self-test running: one of a die, or the start-up's (R592)? -/
def stest (d : Dev) : Bool := !d.pwr.stest.isEmpty || !d.pwr.joining.isEmpty || d.pwr.seqRun

/-- KP_DEV_STAT (R592). -/
def devStat (d : Dev) : Nat :=
  d.pwr.mode.code <<< 30 + d.pwr.level <<< 28 + b2n (stest d) <<< 27 + b2n ((d.mgmt.active.map fun n => (d.mgmt.keeper n).slotB).getD false) <<< 26
    + b2n (d.mgmt.kp0.altBoot || d.mgmt.kp1.altBoot) <<< 25
    + d.pwr.lastRst <<< 16 + min 65535 d.pwr.warmCnt

/-! ### What a die forgets (R571, R584) -/

/-- The registers a port die keeps for itself, its octets and its ports, with how many elements of each (R554). -/
def dieRegs : List (RegName × Nat) :=
  [(.ptOctetCfg, 8), (.ptPortCfg, 64), (.ptHellStat, 1), (.schShaper, 512), (.schPortCfg, 64), (.schPolicer, 512), (.schGateCtl, 64),
    (.schGateStart, 64), (.schGateEnt, 4096), (.fltPortpol, 64)]

/-- Is a register word kept by port die n? The tray timeouts of the tray dies count too. -/
def dieCfg (n key : Nat) : Bool :=
  dieRegs.any (fun r => decide (regKey r.1 (r.2 * n) ≤ key) && decide (key < regKey r.1 (r.2 * (n + 1))))
    || (decide (12 ≤ n) && decide (regKey .ptTrayTmo (8 * (n - 12)) ≤ key) && decide (key < regKey .ptTrayTmo (8 * (n - 11))))

/-- Every field of a die's blocks takes its reset value, counters included; tables are written again from the keeper's copies (R571, R584). -/
def clearDie (d : Dev) (die : Nat) : Dev :=
  let flt := { d.flt with ceCount := d.flt.ceCount.filter fun e => e.1 / 32 != die, dieLog := tdel d.flt.dieLog die
                          lostVals := tdel d.flt.lostVals die, selfFatal := d.flt.selfFatal.filter (· != die)
                          heard := tdel d.flt.heard die, refLost := d.flt.refLost.filter (· != die) }
  let d := { d with cnt := d.cnt.filter (fun e => cntDie e.1 != die), flt := flt, exp := d.exp.filter fun e => e.1 / 2 ^ 20 != die }
  if die < 16 then
    let p8 (k : Nat) : Bool := portDie (k / 8) == die
    let nh (h : NhSet) : NhSet := { h with bad := h.bad.filter fun b => b / 1024 != die }
    let sched := { d.sched with
      vlu := d.sched.vlu.filter fun e => portDie e.1 != die, vlm := d.sched.vlm.filter fun e => portDie e.1 != die
      vluFl := d.sched.vluFl.filter fun e => portDie e.1 != die, vlmFl := d.sched.vlmFl.filter fun e => portDie e.1 != die
      deficit := d.sched.deficit.filter fun e => !p8 e.1, visit := d.sched.visit.filter fun e => portDie e.1 != die
      shaper := d.sched.shaper.filter fun e => !p8 e.1, policer := d.sched.policer.filter fun e => !p8 e.1
      refint := d.sched.refint.filter fun e => portDie e.1 != die, oper := d.sched.oper.filter fun e => portDie e.1 != die
      pend := d.sched.pend.filter fun e => portDie e.1 != die, entry := d.sched.entry.filter fun e => portDie e.1 != die
      stuck := d.sched.stuck.filter fun e => portDie e.1 != die, held := d.sched.held.filter fun e => portDie e.1 != die }
    let core := { d.core with
      badB := d.core.badB.filter fun b => b / 65536 != die, badX := d.core.badX.filter fun b => b / 65536 != die
      badGroups := d.core.badGroups.filter fun b => b / 65536 != die, nhs := d.core.nhs.map fun e => (e.1, nh e.2)
      hell := d.core.hell.filter fun e => e.1 / 98304 != die, classPtr := tdel d.core.classPtr die
      classDef := d.core.classDef.filter fun e => e.1 / 8 != die, rrPtr := d.core.rrPtr.filter fun e => e.1 / 8 != die
      leakOnce := d.core.leakOnce.filter fun e => e.1 != die, auditRun := d.core.auditRun.filter (· != die)
      stallNoted := d.core.stallNoted.filter fun e => portDie e.1 != die }
    let imp := { d.imp with fast := d.imp.fast.filter fun e => e.die != die
                            members := mapIf (fun m => m.die == die) (fun m => { m with bad := false }) d.imp.members }
    { d with
      cfg := d.cfg.filter fun e => !dieCfg die e.1
      links := d.links.filter fun e => portDie e.1 != die, trays := d.trays.filter fun e => trayDie e.1 != die
      sched := sched, core := core, imp := imp
      time := { d.time with ports := d.time.ports.filter fun e => portDie e.1 != die } }
  else if 24 ≤ die ∧ die < 29 then
    { d with core := { d.core with planeOff := d.core.planeOff.filter (· != die - 24), planeErr := tdel d.core.planeErr (die - 24) } }
  else d

/-- A die stops with its own domain: what it held of running work goes, its blocks lose their contents, a stack its data. -/
def dieStops (d : Dev) (die : Nat) : Dev :=
  let d :=
    if die < 16 then portDieEmpty d die
    else if die < 24 then crossGone (pressGone d (die - 16) (d.pool.jobs.filter fun j => j.st != .wait && jobAt d (die - 16) j)) die
    else if 32 ≤ die ∧ die < 40 then
      let s := die - 32
      let pool := { d.pool with
        lines := d.pool.lines.filter fun l => l.stack != s
        gbad := d.pool.gbad.filter fun e => e.1 / 2 ^ 32 != s
        scrub := tdel d.pool.scrub s
        mem := if d.stackUp (pairOf s) then d.pool.mem else d.pool.mem.filter fun c => !onPair s c }
      slotsGone { d with pool := pool } s
    else d
  clearDie d die

/-! ### Domains off (R568, R569) -/

/-- A domain and those that can be on only with it, children first (R568). -/
def domainKin (p : Nat) : List Nat :=
  let kids (q : Nat) : List Nat := (upTo 61).filter fun c => domainParent c == some q
  (kids p).flatMap kids ++ kids p ++ [p]

/-- Take one domain off: EN low, its reports gone (R29, R606). -/
def domainOff (d : Dev) (p : Nat) : Dev :=
  let was := bit d.pwr.on p || d.pwr.waitPg.contains p
  let pwr := { d.pwr with
    on := setBits d.pwr.on p p 0, toSeq := d.pwr.toSeq.filter (· != p), waitPg := d.pwr.waitPg.filter (· != p)
    firstWin := d.pwr.firstWin.filter (· != p), pace := tdel d.pwr.pace p }
  { d with pwr := pwr }.emitIf (was && decide (p < 61)) (.enable p false)

/-- Domains named by a mask, in the order they are switched on. -/
def maskDoms (mask : Nat) : List Nat := seqOrder.filter fun p => bit mask p

/-- Switch domains off, children first; a die stops with its own domain. -/
def switchOff (d : Dev) (ps : List Nat) : Dev :=
  foldOver (seqOrder.filter fun p => ps.contains p).reverse d fun p d =>
    if d.domOn p ∨ d.pwr.toSeq.contains p ∨ d.pwr.waitPg.contains p then
      let die := domainDie p
      let ran := d.domOn p
      let d := domainOff d p
      if p = mainDomain die then
        let d := { d with pwr := { d.pwr with stest := d.pwr.stest.filter (· != die), joining := d.pwr.joining.filter (· != die) } }
        if ran then dieStops d die else d
      else d
    else d

/-- PWRSTATE (R594). -/
def pwrNotice (d : Dev) : Dev := d.notice 0x0A05 d.kpDie none (d.pwr.on % 2 ^ 64) d.pwr.trip 0

/-- Does a forme, with the definitions of its chase, name a core of a press die? -/
def namesCore (d : Dev) (f : Forme) (px : Nat) : Bool :=
  f.cores.any (· / 32 == px) || f.chunks.any (fun c => c.core / 32 == px || (match c.alt with | some a => a / 32 == px | none => false))
    || f.shards.any (fun e => e.core / 32 == px) || f.experts.any (fun e => e.core / 32 == px)
    || d.press.moes.any fun m => m.disp.any (· / 32 == px)

/-- Does a forme name a stack as a KIND 1 target, a CSTACK or the mirror of one (R254, R255)? -/
def namesStack (f : Forme) (s : Nat) : Bool :=
  f.folios.any fun e =>
    (e.2.kind == 1 && (e.2.target == s || (e.2.use == 1 && pairOf e.2.target == s)))
      || (e.2.mig && e.2.mkind == 1 && (e.2.mtarget == s || (e.2.use == 1 && pairOf e.2.mtarget == s)))
      || (e.2.gcache && (e.2.cstack == s || pairOf e.2.cstack == s))

/-- No chase is bound and no forme staged. -/
def idleComps (d : Dev) : Bool := d.imp.comps.all fun e => !e.2.bound

/-- Planes, port dies and press dies on under a mask are enough to keep a plane off (R569, R573). -/
def planesOk (on : Nat) : Bool :=
  decide (4 ≤ ((upTo 5).filter fun k => bit on (32 + k)).length)
    || (decide (((upTo 16).filter fun n => bit on (2 * n) || bit on (2 * n + 1)).length ≤ 1)
        && (upTo 8).all fun n => !(bit on (37 + 2 * n) || bit on (38 + 2 * n)))

/-- The switch-off table: may a domain go off, in the state whose domains on are `left` (R569)? -/
def offOk (d : Dev) (left p : Nat) : Bool :=
  if p < 32 then
    let n := p / 2
    if p % 2 = 0 then
      !(d.links.any fun e => portDie e.1 == n && e.2.st != .down)
        && (upTo 32).all fun l => !(trayDie l == n && isTray d l && ((d.tray l).trained || d.enabled (8 * trayOct l)))
    else
      !(d.imp.members.any fun m => m.die == n)
        && !((liveFormes d).any fun f => f.marks.any (fun m => markDie m == n)
          || f.folios.any fun e => e.2.locs.any fun l => l.1 == 2 && trayDie l.2.1 == n)
  else if p < 37 then planesOk left
  else if p < 53 ∧ (p - 37) % 2 = 0 then
    let n := (p - 37) / 2
    !((liveFormes d).any fun f => namesCore d f n)
      && (!(d.pool.stripes.any fun e => e.1 % 8 == n) || bit left (37 + 2 * ((n + 4) % 8)))
  else if p < 61 then
    let n := if p < 53 then (p - 38) / 2 else p - 53
    !((liveFormes d).any fun f => namesStack f n) && !(d.pool.layers.any fun l => l.stack == n)
      && !(d.marks.place.any fun e => e.2.1 == n || pairOf e.2.1 == n) && (n % 4 != 0 || idleComps d)
  else false

/-- A mask of domains on obeys R568: no child without its parent. -/
def maskOk (on : Nat) : Bool := (upTo 61).all fun p => !bit on p || (match domainParent p with | some q => bit on q | none => true)

/-- The bits of `a` that `b` does not have. -/
def without (a b : Nat) : Nat := (a ^^^ (a &&& b)) % 2 ^ 64

/-- Stacks whose own domain a mask names, with cached lines or retry slots still in use (R569). -/
def stacksInUse (d : Dev) (mask : Nat) : Bool :=
  (upTo 8).any fun s => bit mask (53 + s) && (d.pool.lines.any (fun l => l.stack == s) || decide (slotsOn d s ≠ 0))

/-- A stack to be switched off empties its cache share under R259. -/
def emptyShare (d : Dev) (mask : Nat) : Dev :=
  let hit := d.pool.lines.filter fun l => (upTo 8).any fun s => bit mask (53 + s) && l.stack == s
  foldOver hit d fun l d =>
    let l := { l with drop := true }
    if l.st.stable then evict (d.setLine l) l else d.setLine l

def pwrOffFx (b : Bas) (mask : Nat) (d : Dev) : Dev :=
  let left := without d.pwr.on mask
  let go := maskDoms (mask &&& d.pwr.on)
  if 2 ^ 61 ≤ mask ∨ !maskOk left then d.reply b 0x0A01 .unsupported
  else if d.pwr.level ≠ 0 ∨ !(go.all fun p => offOk d left p) then d.reply b 0x0A01 .busy
  else if stacksInUse d mask then (emptyShare d mask).defer b .device 0x0A01 mask
  else if go.isEmpty then d.reply b 0x0A01 .ok
  else (pwrNotice (switchOff d go)).reply b 0x0A01 .ok

/-- PWR_OFF (R567 to R569). -/
def execPwrOff (b : Bas) (mask : Nat) (s : State) : Out := onCmd (.pwrOff b mask) b (pwrCmd 0x0A01) (pwrOffFx b mask) s

/-! ### Domains on (R571, R590, R606, R607) -/

def pwrOnFx (b : Bas) (mask : Nat) (hot : List Nat) (d : Dev) : Dev :=
  let new := maskDoms (without mask d.pwr.on)
  if 2 ^ 64 ≤ mask ∨ !maskOk (mask ||| d.pwr.on) then d.reply b 0x0A02 .unsupported
  else if d.pwr.level ≠ 0 ∨ new.any (fun p => bit d.pwr.trip p && hot.contains p) then d.reply b 0x0A02 .busy
  else if new.isEmpty then d.reply b 0x0A02 .ok
  else { d with pwr := { d.pwr with toSeq := seqOrder.filter fun p => d.pwr.toSeq.contains p || new.contains p } }.defer b .device 0x0A02 mask

/-- PWR_ON (R568, R571, R575). `hot`: tripped domains whose sensors read above TWARN. -/
def execPwrOn (b : Bas) (mask : Nat) (hot : List Nat) (s : State) : Out := onCmd (.pwrOn b mask hot) b (pwrCmd 0x0A02) (pwrOnFx b mask hot) s

/-- May the next domain in order be switched on: its parent on and past its first valid window (R590)? -/
def mayStart (d : Dev) (p : Nat) : Bool := match domainParent p with
  | none => true
  | some q => d.domOn q && !d.pwr.firstWin.contains q

/-- Domains from the front of the order that may start now. -/
def startable (d : Dev) : Nat → List Nat → List Nat
  | 0, _ => []
  | _, [] => []
  | n + 1, p :: r => if mayStart d p then p :: startable d n r else []

/-- The keeper switches on the next domains in order, at most four (R590). -/
def seqStepFx (d : Dev) : Dev :=
  if d.mgmt.active.isNone then d
  else
    let go := startable d 4 d.pwr.toSeq
    let d := { d with pwr := { d.pwr with toSeq := d.pwr.toSeq.filter fun p => !go.contains p, waitPg := d.pwr.waitPg ++ go } }
    foldOver go d fun p d => d.emit (.enable p true)

def execDomainSequenceStep (s : State) : Out := onDev seqStepFx s

/-- A die whose domains have all come up that were to begins its self-test (R591). -/
def beginTests (d : Dev) : Dev :=
  let due (die : Nat) : Bool := !(dieDomains die).any fun p => d.pwr.toSeq.contains p || d.pwr.waitPg.contains p
  let go := d.pwr.joining.filter due
  { d with pwr := { d.pwr with joining := d.pwr.joining.filter fun x => !due x, stest := d.pwr.stest ++ go } }

/-- PG rises: the domain is on, its regulator at 0.750 V (R605, R606). -/
def pgRiseFx (p : Nat) (d : Dev) : Dev :=
  if !d.pwr.waitPg.contains p then d
  else
    let die := domainDie p
    let pwr := { d.pwr with
      waitPg := d.pwr.waitPg.filter (· != p), on := setBits d.pwr.on p p 1, trip := setBits d.pwr.trip p p 0, pace := tdel d.pwr.pace p
      firstWin := if domainReports p then d.pwr.firstWin ++ [p] else d.pwr.firstWin
      joining := if p = mainDomain die ∧ !d.pwr.joining.contains die then d.pwr.joining ++ [die] else d.pwr.joining }
    beginTests { d with pwr := pwr }

/-! ### What the poll of the keeper finishes -/

/-- No domain of a mask is still to come up, and no die of it to pass its self-test. -/
def maskUp (d : Dev) (ps : List Nat) : Bool :=
  ps.all fun p => !d.pwr.toSeq.contains p && !d.pwr.waitPg.contains p && !d.pwr.joining.contains (domainDie p)
    && !d.pwr.stest.contains (domainDie p)

/-- The key of a command of this opcode that the keeper runs. -/
def runKey (d : Dev) (opc : Nat) : Option Nat := (d.mgmt.running.find? fun r => r.opc == opc).map fun r => r.key

/-- PWR_OFF, PWR_ON and RESET_DIE end once what they wait for has happened. -/
def pollDomains (d : Dev) : Dev :=
  let d := match runKey d 0x0A01 with
    | some mask =>
      if stacksInUse d mask then emptyShare d mask
      else (pwrNotice (switchOff d (maskDoms (mask &&& d.pwr.on)))).finish 0x0A01 mask .ok
    | none => d
  let d := match runKey d 0x0A02 with
    | some mask => if maskUp d (maskDoms mask) then (pwrNotice d).finish 0x0A02 mask .ok else d
    | none => d
  let d := match runKey d 0x0A07 with
    | some die =>
      if d.pwr.resetting.contains die then d
      else (d.notice 0x0A06 d.kpDie none 3 die 0).finish 0x0A07 die .ok
    | none => d
  if d.pwr.seqRun ∧ maskUp d seqOrder then { d with pwr := { d.pwr with seqRun := false } } else d

def execPgRise (pwd : Nat) (s : State) : Out := onPool (fun d => pollDomains (pgRiseFx pwd d)) s

/-! ### Domains that fail (R575, R607) -/

/-- A die fails with a domain of it: a record of class 3, the die held lost, what depends on the domain off. -/
def dieFails (d : Dev) (p unit : Nat) : Dev :=
  let die := domainDie p
  let d := d.record 3 die unit none p
  let d := holdDieLost d die
  let d := switchOff d (domainKin p)
  { d with pwr := { d.pwr with resetting := d.pwr.resetting.filter (· != die) } }

/-- PG does not rise in time (R607). -/
def pgTimeoutFx (p : Nat) (d : Dev) : Dev := if d.pwr.waitPg.contains p then dieFails d p 17 else d

def execPgTimeout (pwd : Nat) (s : State) : Out := onPool (fun d => pollDomains (pgTimeoutFx pwd d)) s

/-- PG falls while the domain is on (R607). -/
def pgFallFx (p : Nat) (d : Dev) : Dev := if d.domOn p ∧ p < 61 then dieFails d p 17 else d

def execPgFall (pwd : Nat) (s : State) : Out := onPool (fun d => pollDomains (pgFallFx pwd d)) s

/-- A notice of the meter (R489): at most one of each type per 100 ms; those held back are carried by the next and by the colophon's SUPP. -/
def meterNotice (d : Dev) (code die p0 p1 : Nat) : Dev :=
  let last := tfind d.meter.noted code
  let held := match last with
    | some (t, _) => decide (d.clk < t + 100 * cycMs)
    | none => false
  if held then
    let x := last.getD (0, 0)
    { d with meter := { d.meter with supp := d.meter.supp + 1, noted := tput d.meter.noted code (x.1, x.2 + 1) } }
  else if d.mgmt.active.isNone then d
  else
    let n : Notice := { code := code, time := d.now, die := die, supp := (last.map Prod.snd).getD 0, p0 := p0, p1 := p1 }
    { d with meter := { d.meter with noted := tput d.meter.noted code (d.clk, 0) } }.putNotice n

/-- The meter is without power: the running commit ends, an authority command that waits for it too, and the keeper sends METEROFF. Where no
POWERFAIL colophon was written (`lost`), what only the meter held is gone (R487 to R489). -/
def meterCut (d : Dev) (lost : Bool) : Dev :=
  let d := match d.meter.pend with
    | some c => d.finish c.opc 0 .targetLost
    | none => d
  let m := d.meter
  meterNotice { d with meter := { m with powered := false, committing := none, pend := none, lost := m.lost || lost } } 0x0B06 d.kpDie 0 0

/-- A keeper is lost: a takeover where it was active (R516). -/
def keeperLost (d : Dev) (n cause : Nat) : Dev := if d.mgmt.active = some n then keeperFails cause d else keeperOut d n

/-- A domain's hardware trip cuts it (R575); trips of two domains within 100 ms shut the package down (R576). -/
def tripFx (p : Nat) (d : Dev) : Dev :=
  if 64 ≤ p ∨ !(d.domOn p || d.pwr.waitPg.contains p) then d
  else
    let die := domainDie p
    let two := match d.pwr.lastTrip with
      | some (t, q) => q != p && decide (d.clk ≤ t + 100 * cycMs)
      | none => false
    let d := if p < 61 then dieFails d p 18 else d.record 3 die 18 none p
    let d := if p = 61 ∨ p = 62 then keeperLost d (p - 61) 2 else if p = 63 then meterCut d true else d
    let d := { d with pwr := { d.pwr with on := setBits d.pwr.on p p 0, trip := setBits d.pwr.trip p p 1, lastTrip := some (d.clk, p) } }
    let d := d.notice 0x0A04 die none p die 0
    if two then shutDown d 2 2 else d

def execThermalTrip (pwd : Nat) (s : State) : Out := onPool (fun d => pollDomains (tripFx pwd d)) s

/-- THERMSHUT_N (R576, R613): a shutdown, at once or, while the device is held in reset, once its keepers run. -/
def thermshutFx (d : Dev) : Dev :=
  let d := { d with pwr := { d.pwr with thermShut := true } }
  if d.pwr.porst ∨ d.mgmt.active.isNone && decide (d.pwr.mode = .booting) then d else shutDown d 1 1

def execThermshutAssert (s : State) : Out := onPool thermshutFx s

/-- SHUTDOWN (R576): the reply, then the shutdown, which makes no record. -/
def execShutdown (b : Bas) (s : State) : Out :=
  onCmd (.shutdown b) b (pwrCmd 0x0A0A) (fun d => shutDown (d.reply b 0x0A0A .ok) 4 0) s

/-! ### Self-tests (R591) -/

/-- A sort that failed goes to the hellbox, marked bad (R177). -/
def badSort (d : Dev) (die sort : Nat) : Dev :=
  { d.count .cHellmove die with core := { d.core with hell := tput d.core.hell (98304 * die + sort) (true, 0, 0) } }

/-- A self-test ends: `unit` 0 when it passes, else the UNIT code of what failed; `sorts` that failed on a port die, `grans` granules that
failed on a stack, of which more than 4,096 fail it. -/
def selftestFx (die unit : Nat) (sorts grans : List Nat) (d : Dev) : Dev :=
  if !d.pwr.stest.contains die then d
  else
    let unit := if unit = 0 ∧ 32 ≤ die ∧ 4096 < grans.length then 1 else unit
    let d := { d with pwr := { d.pwr with stest := d.pwr.stest.filter (· != die) } }
    let d := if die < 16 then foldOver sorts d fun x d => badSort d die (x % 98304) else d
    let d := if 32 ≤ die then foldOver grans d fun g d => d.setGbad (die - 32) ((die - 32) % 4 * 2 ^ 36 + 64 * (g % 2 ^ 30)) true else d
    let d := d.notice 0x0A07 die none die unit 0
    let was := d.pwr.resetting.contains die
    let d := { d with pwr := { d.pwr with resetting := d.pwr.resetting.filter (· != die) } }
    if unit = 0 then
      (if was then { d with flt := { d.flt with lostDies := d.flt.lostDies.filter (· != die) } } else d).finish 0x0E12 die .ok
    else holdDieLost (d.record 3 die unit none 0) die

def execSelftestComplete (die unit : Nat) (sorts grans : List Nat) (s : State) : Out :=
  onPool (fun d => pollDomains (selftestFx die unit sorts grans d)) s

/-- DIE codes of FLT_ERRLOG that name a die with a self-test of its own. -/
def testable (die : Nat) : Bool := decide (die < 29) || (decide (32 ≤ die) && decide (die < 40))

/-- Would a die's domains meet the switch-off table, with the stack of a press die's interface off too (R569, R584)? -/
def dieMayStop (d : Dev) (die : Nat) : Bool :=
  let ps := (dieDomains die).flatMap domainKin
  let mask := ps.foldl (fun m p => m ||| 2 ^ p) 0
  (ps.filter fun p => bit d.pwr.on p).all fun p => offOk d (without d.pwr.on mask) p

def selftestRunFx (b : Bas) (die : Nat) (d : Dev) : Dev :=
  if !testable die then d.reply b 0x0E12 .unsupported
  else if !d.dieUp die ∨ !dieMayStop d die then d.reply b 0x0E12 .busy
  else { d with pwr := { d.pwr with stest := d.pwr.stest ++ [die] } }.defer b .device 0x0E12 die

/-- SELFTEST_RUN (R591). -/
def execSelftestRun (b : Bas) (die : Nat) (s : State) : Out := onCmd (.selftestRun b die) b (devCmd 0x0E12) (selftestRunFx b die) s

/-! ### The reference clock (R608) -/

/-- A die's reference is lost: a port die is held lost, at every port die the package is; a stack cannot be reached; a keeper is lost. -/
def refclkFx (die : Nat) (d : Dev) : Dev :=
  if d.flt.refLost.contains die ∨ !(decide (die < 24) || die == 29 || die == 30) then d
  else
    let d := { d with flt := { d.flt with refLost := d.flt.refLost ++ [die] } }
    if die < 16 then
      let d := holdDieLost (d.record 3 die 19 none 0) die
      if (upTo 16).all (fun n => d.flt.refLost.contains n) then fatalPackage d 4 else d
    else if die < 24 then
      let s := die - 16
      holdDieLost (d.record 3 (dGS s) 19 none 0) (dGS s)
    else keeperLost (d.record 3 die 19 none 0) (die - 29) 2

def execRefclkLoss (die : Nat) (s : State) : Out := onPool (refclkFx die) s

end Sys2Proof.Machine
end

