-- ==== Sys2Proof/Machine/Registers.lean ====
section
/-! DEFINITION. Reading and writing registers by name, and the write rules of every register (R9–R11, R31, R64, R78, R85, R95, R140, R156, R157,
R159, R166, R174, R176, R184–R189, R193, R194, R204, R240, R253, R268, R493, R495, R554–R557, R573, R574). -/

namespace Sys2Proof.Machine
open Sys2Proof

/-! ### Words that are computed -/

/-- The port of a tray link: the first lane of its octet (R598). -/
def trayPort (d : Dev) (p : Nat) : Option Nat :=
  if p % 8 = 0 ∧ 96 ≤ p / 8 ∧ p / 8 < 128 ∧ isTray d (p / 8 - 96) then some (p / 8 - 96) else none

def chaseStat (d : Dev) (c : Nat) : Nat :=
  let x := d.comp c
  b2n x.bound <<< 31 + b2n x.drnLive <<< 30 + b2n x.drnClosed <<< 29 + b2n (x.phase != .idle) <<< 28 + x.cur <<< 24 + x.drn <<< 20
    + b2n x.strag <<< 19 + min 524287 x.inflight

def linkStat (l : Link) : Nat :=
  l.st.code <<< 29 + l.width <<< 27 + l.rate <<< 24 + b2n l.spared <<< 23 + l.splane <<< 20 + b2n l.narrowed <<< 19 + b2n l.encact <<< 18
    + b2n l.kslot <<< 17 + l.lastdown <<< 8

def keyStat (l : Link) : Nat :=
  let der (s : Option KeySlot) : Nat := b2n ((s.map fun k => k.derived).getD false)
  b2n l.slot0.isSome <<< 31 + b2n l.slot1.isSome <<< 30 + der l.slot0 <<< 29 + der l.slot1 <<< 28

/-- A member that a stripe word names, 15 for none. -/
def lostAt (s : Stripe) (i : Nat) : Nat := (s.lost[i]?).getD 15

def stripeWord (d : Dev) (i : Nat) : Nat := match tfind d.pool.stripes i with
  | none => 0x0FFF <<< 48
  | some s => 1 <<< 63 + stripeState s <<< 60 + lostAt s 0 <<< 56 + lostAt s 1 <<< 52 + ((s.rb.map Prod.fst).getD 15) <<< 48
      + s.extent <<< 32 + s.prog % 2 ^ 32

def StripeMem.word (m : StripeMem) : Nat := m.mkind <<< 61 + b2n m.sparein <<< 60 + m.target <<< 32 + m.base % 2 ^ 32

def ChunkEnt.word (c : ChunkEnt) : Nat := 1 <<< 63 + c.core <<< 55 + c.alt.getD 0 <<< 47 + b2n c.onAlt <<< 46
def ShardEnt.word (e : ShardEnt) : Nat := 1 <<< 63 + e.core <<< 55 + e.table <<< 32 + e.first
def ExpertEnt.word (e : ExpertEnt) : Nat := 1 <<< 63 + e.ovf <<< 61 + e.eid <<< 41 + e.core <<< 33 + e.fbexp <<< 21 + e.cap

def PartyKeys.word (k : PartyKeys) : Nat :=
  b2n k.agent.isSome <<< 63 + b2n k.pdk.isSome <<< 62 + b2n k.psk0.isSome <<< 61 + b2n k.psk1.isSome <<< 60 + b2n k.cur <<< 59
    + k.agent.getD 0 % 2 ^ 48

/-- A number as two's complement of `n` bits, saturating. -/
def satTwos (n : Nat) (v : Int) : Nat :=
  let hi : Int := (2 : Int) ^ (n - 1)
  let w := if v < -hi then -hi else if hi ≤ v then hi - 1 else v
  (w % (2 : Int) ^ n).toNat

def timeStat (t : Time) : Nat :=
  t.st.code <<< 30 + b2n t.ppsOk <<< 29 + b2n t.tenOk <<< 28 + b2n t.stepReq <<< 27 + satTwos 20 t.offset

def snapStat (s : Snap) : Nat := s.st.code <<< 30 + b2n s.incomp <<< 29 + b2n s.early <<< 28 + s.lanes.length <<< 13

def mtId (m : Meter) : Nat := m.lrMaj <<< 56 + m.lrMin <<< 48 + m.nlrVer % 256 <<< 40 + m.lrSum % 2 ^ 32
def mtSeal (m : Meter) : Nat := m.sealCnt % 2 ^ 32 <<< 32 + m.lastEvt <<< 24
def mtStat (m : Meter) : Nat :=
  b2n m.committing.isSome <<< 63 + b2n m.auth.isSome <<< 62 + b2n (!m.sfault.isEmpty) <<< 61 + b2n m.lastDiff <<< 60
    + min (2 ^ 28 - 1) m.lostRec <<< 32 + m.seq % 2 ^ 32

/-- The member store of a port die: members reached through its ports, by group and group order: (group, position, port, EID) (R170). -/
def memberStore (d : Dev) (die : Nat) : List (Nat × Nat × Nat × Nat) :=
  d.core.mcMem.flatMap fun g => ((upTo g.2.length).zip g.2).filterMap fun m => if portDie m.2.1 = die then some (g.1, m.1, m.2.1, m.2.2) else none

/-- Words of the registers kept once per entry of the live and staged formes, or once per definition, in the order the device holds them. -/
def listed (d : Dev) (r : RegName) (die : Nat) : Option (List Nat) :=
  match r with
  | .impFolio => some ((liveFormes d).flatMap fun f => f.folios.map fun e => e.2.word)
  | .impChunk => some ((liveFormes d).flatMap fun f => f.chunks.map ChunkEnt.word)
  | .impShard => some ((liveFormes d).flatMap fun f => f.shards.map ShardEnt.word)
  | .impExpert => some ((liveFormes d).flatMap fun f => f.experts.map ExpertEnt.word)
  | .impRedStat => some ((d.press.reds.filter fun x => !x.staged).map redStatWord)
  | .impEmbStat => some ((d.press.embs.filter fun x => !x.staged).map embStatWord)
  | .pxShardload => some (d.press.embs.flatMap fun e =>
      ((d.comp e.chase).curF.shards.filter fun s => s.table == e.d.table && s.core / 32 == die).map fun s => shardWord (tget {} e.latched s.first))
  | _ => none

/-- What a register element reads as. -/
def regValue (d : Dev) (r : RegName) (ix : Nat) : Nat :=
  match r with
  | .kpPaceStat => paceStat d ix
  | .impChaseStat => chaseStat d ix
  | .ptPortCfg => if isPort d ix || (trayPort d ix).isSome then d.reg r ix else 0
  | .ptLinkStat => if isPort d ix then linkStat (d.link ix) else 0
  | .ptLinkPeer => if isPort d ix then (d.link ix).caps <<< 28 + (d.link ix).ptype <<< 26 + (d.link ix).peer else 0
  | .ptKeyStat => if isPort d ix then keyStat (d.link ix) else 0
  | .ptMcmem => match (memberStore d (ix / 65536))[ix % 65536]? with
    | some m => (m.2.2.1 % 64) <<< 26 + m.2.2.2
    | none => d.reg r ix
  | .ptHellStat => b2n (d.core.auditRun.contains ix) <<< 31 + d.fld r ix 30 24 <<< 24 + hellCount d ix
  | .schGateCtl => b2n (thas d.sched.pend ix) <<< 31 + d.fld r ix 22 16 <<< 16 + ((tfind d.sched.oper ix).map fun g => g.ents.length).getD 0
  | .schGateStart => ((tfind d.sched.pend ix).map fun g => g.start).getD 0
  | .schTimeStat => timeStat d.time
  | .schTimeNow => d.now % 2 ^ 64
  | .schSnapStat => snapStat d.snap
  | .schSnapCut => d.snap.cut % 2 ^ 64
  | .impStripeset => stripeWord d ix
  | .impStripemem => ((((d.stripe (ix / 10)).mem[ix % 10]?).map StripeMem.word).getD 0)
  | .impLayer => ((d.pool.layers.find? fun l => !l.staged && l.chase == ix / 4096 && l.layer == ix % 4096).map Layer.word).getD 0
  | .pxFmtdesc => if ix < 12 then 1 <<< 31 + ix <<< 27 else if ix < 16 then 0 else d.reg r ix
  | .pxPlateStat => plateWord d (ix / 8) (ix % 8)
  | .mkMark => markWord d ix
  | .mkLink => (d.mark ix).link
  | .kpPartyKey => (tget ({} : PartyKeys) d.pool.keys ix).word
  | .mtCfg => d.meter.interval <<< 8
  | .mtId => mtId d.meter
  | .mtSeal => mtSeal d.meter
  | .mtStat => mtStat d.meter
  | .fltErrlog => ((tfind d.flt.ring ix).map ErrRec.word).getD 0
  | .fltLogstat => d.flt.head <<< 20 + min (2 ^ 20 - 1) d.flt.logLost
  | .kpPwrStat => pwrStat d
  | .kpDevStat => devStat d
  | _ => d.reg r ix

/-! ### Names (R554) -/

/-- The block group of a counter, by the prefix of its die. -/
def cntGroup (die : Nat) : Nat := if 16 ≤ die ∧ die < 24 then 0x06 else if die = 29 ∨ die = 30 then 0x0A else 0x02

/-- The counter set table (R561). -/
def cntSets : List (Nat × List CntName) :=
  let cut (lo hi : CntName) : List CntName := cntAll.filter fun c => decide (lo.ctorIdx ≤ c.ctorIdx) && decide (c.ctorIdx ≤ hi.ctorIdx)
  [(1, cut .cFlittx .cWrstdrop), (2, cut .cHdrerr .cCtoexp), (3, cut .cNoroute .cHellmove), (4, cut .cPromote .cPtpdisc),
    (5, cut .cDenycls .cMovfail), (6, cut .cMirrd .cNotmiss), (7, cut .cNanout .cFmtmism), (8, cut .cRedcontrib .cRedreissue),
    (9, cut .cGathers .cScanskip), (10, cut .cPlatefull .cEngidle), (11, cut .cCmpsheet .cExppois), (12, cut .cMkops .cMkupfail),
    (13, cut .cSealfail .cSnapstray), (14, cut .cBadpkt .cCmdrefuse)]

/-- Which dies keep a counter (R114, R146, R179, R205, R248, R287, R317, R346, R381, R400, R416, R441, R467, R522, R525, R534, R543). -/
def cntKept (c : CntName) (die : Nat) : Bool :=
  let set := ((cntSets.find? fun e => e.2.contains c).map Prod.fst).getD 0
  let pt := decide (set ≤ 5) || set == 8 || set == 12 || (set == 13 && c != .cSealfail && c != .cKminfail)
  let px := (set == 2 && (c == .cDuphit || c == .cDupmism || c == .cFiltfull)) || (decide (5 ≤ set) && decide (set ≤ 11))
    || c == .cSealfail || c == .cKminfail || c == .cSinglecopy
  if die < 16 then pt else if die < 24 then px else (die == 29 || die == 30) && set == 14

/-- Elements of a counter of a die. -/
def cntElems (c : CntName) : Nat := match cntPer c with | .die => 1 | .port => 64 | .plane => 5 | .cls => 8

/-- The unit number an element of a die's counter is kept under. -/
def cntUnit (c : CntName) (die i : Nat) : Nat := match cntPer c with | .die => die | .port => 64 * die + i | .plane | .cls => 8 * die + i

/-- What a NAME with an element index stands for: a register and its element in the device, or a counter and its unit; with the die that
holds it, where one die does. -/
inductive Named where
  | reg (r : RegName) (die : Nat)
  | cnt (c : CntName) (die : Nat)
  deriving DecidableEq, Repr

/-- Look a NAME up under a group (R554). -/
def lookName (g : Nat) (n : RegRef) : Option Named :=
  match n with
  | .reg r die =>
    let u := (regDesc r).units
    if regGroup r ≠ g then none
    else match die, u with
      | none, .dev => some (.reg r 0)
      | some x, .pt => if x < 16 then some (.reg r x) else none
      | some x, .px => if x < 8 then some (.reg r x) else none
      | _, _ => none
  | .cnt c die => if cntGroup die = g ∧ cntKept c die then some (.cnt c die) else none
  | .unknown => none

/-- Elements of a register of one unit; a register kept per entry has as many as there are entries. -/
def elems (d : Dev) (r : RegName) (die : Nat) : Nat := match listed d r die with
  | some l => l.length
  | none => (regDesc r).perUnit

/-- The die whose own block holds a register element, where one does (R554, R556). -/
def regDie (r : RegName) (ix : Nat) : Option Nat :=
  match r with
  | .schShaper | .schPolicer => some (ix / 512)
  | .schPortCfg | .schGateCtl | .schGateStart | .fltPortpol => some (ix / 64)
  | .schGateEnt => some (ix / 4096)
  | .ptTrayTmo => some (trayDie ix)
  | .mkMark | .mkLink => some (markDie ix)
  | .pxPlateStat => some (dPX (ix / 256))
  | _ => match (regDesc r).units with
    | .pt => some (ix / (regDesc r).perUnit)
    | .px => none
    | .dev => none

/-- Can a die's blocks be reached: not held lost, its own domain on? -/
def dieReach (d : Dev) (die : Nat) : Bool := !d.lost die && d.domOn (mainDomain die)

def regReach (d : Dev) (n : Named) (ix : Nat) : Bool := match n with
  | .cnt _ die => dieReach d die
  | .reg .pxShardload die => dieReach d (dPX die)
  | .reg r _ => if regGroup r = 0x0B then d.meter.powered else match regDie r ix with
    | some x => dieReach d x
    | none => true

/-- A KP_PACE_ element of a domain that reports nothing does not exist (R29, R30). -/
def existsElem (r : RegName) (ix : Nat) : Bool := if r = .kpPaceStat ∨ r = .kpPaceTgt then domainReports ix else true

/-! ### REG_READ (R555) -/

/-- A counter as it reads; how often an engine finds no busy plate the model does not time, so ENGIDLE is a free value (R400). -/
def cntRead (d : Dev) (c : CntName) (unit : Nat) : Nat :=
  if c = .cEngidle then min (2 ^ 64 - 1) (Config.engIdle unit d.clk) else (d.counter c unit).toNat

def readElem (d : Dev) (n : Named) (i : Nat) : Nat := match n with
  | .reg r die => match listed d r die with
    | some l => (l[i]?).getD 0
    | none => regValue d r ((regDesc r).perUnit * die + i)
  | .cnt c die => cntRead d c (cntUnit c die i)

def clearElem (d : Dev) (n : Named) (i : Nat) : Dev := match n with
  | .reg _ _ => d
  | .cnt c die => { d with cnt := tput d.cnt (cntKey c (cntUnit c die i)) 0 }

def Named.width (n : Named) : Nat := match n with | .reg r _ => (regDesc r).width | .cnt _ _ => 64
def Named.count (d : Dev) (n : Named) : Nat := match n with | .reg r die => elems d r die | .cnt c _ => cntElems c

/-- Is the reader the fabric owner, whose read clears RC fields (R555)? -/
def ownerReads (d : Dev) (b : Bas) : Bool := (d.rolesOf b).owner

def regReadFx (b : Bas) (name : RegRef) (group index count : Nat) (peek : Bool) (d : Dev) : Dev :=
  let opc := group * 256 + 0xF0
  match lookName group name with
  | none => d.reply b opc .unsupported
  | some n =>
    let is := (upTo count).map (index + ·)
    let flat := match n with | .reg r die => (regDesc r).perUnit * die + index | .cnt _ _ => index
    let there := is.all fun i => match n with | .reg r _ => existsElem r i | .cnt _ _ => true
    if count = 0 ∨ 256 < count ∨ n.count d < index + count ∨ 4080 < 8 + count * (cdiv n.width 64 * 8) ∨ !there then d.reply b opc .unsupported
    else if !regReach d n flat then d.reply b opc .targetLost
    else
      let vals := is.map fun i => readElem d n i
      let d := if !peek && ownerReads d b then foldOver is d fun i d => clearElem d n i else d
      d.reply b opc .ok 0 0 (n.width :: vals)

/-- REG_READ (R555): every authority reads every register; only the fabric owner's read clears, unless PEEK. -/
def execRegRead (b : Bas) (name : RegRef) (group index count : Nat) (peek : Bool) (s : State) : Out :=
  onCmd (.regRead b name group index count peek) b { opc := group * 256 + 0xF0, who := .a, i3c := true }
    (regReadFx b name group index count peek) s

/-! ### What a write must meet -/

/-- The answer to a write that is refused: status, and for NOFIT the resource and what is short. -/
abbrev Verdict := Option (Status × Nat × Nat)

def no : Verdict := some (.unsupported, 0, 0)
def busy : Verdict := some (.busy, 0, 0)
def denied : Verdict := some (.denied, 0, 0)
def unlessOk (c : Bool) (v : Verdict) : Verdict := if c then none else v

/-- The first refusal of a list of checks. -/
def firstNo (l : List Verdict) : Verdict := l.findSome? id

/-- No die's reserved pool with its hellbox may exceed 81,920 sorts after a write (R156). -/
def headroom (d : Dev) (dies : List Nat) : Verdict :=
  let most := (dies.map fun n => reservedPool d n + hellCount d n).foldl max 0
  if 81920 < most then some (.noFit, 7, most - 81920) else none

def allDown (d : Dev) : Bool := d.links.all fun e => e.2.st == .down

/-- PT_OCTET_CFG (R78, R156). -/
def octetVerdict (d : Dev) (oct v : Nat) : Verdict :=
  let tray := bit v 31
  let x16 := bit v 30
  let rate := bits v 29 27
  let width := bits v 26 25
  let spare := bit v 24
  let pair := if bit (octCfg d (oct / 2 * 2)) 30 ∨ (x16 ∧ oct % 2 = 0) then [oct / 2 * 2, oct / 2 * 2 + 1] else [oct]
  let used (o : Nat) : Bool := d.links.any (fun e => e.1 / 8 == o && e.2.st != .down)
    || (decide (96 ≤ o) && decide (o < 128) && isTray d (o - 96) && ((d.tray (o - 96)).trained || d.enabled (8 * o)))
  firstNo
    [unlessOk (!((tray && decide (oct < 96)) || (x16 && (!tray || oct % 2 == 1)) || decide (2 < rate) || (spare && (decide (2 ≤ width) || tray))
        || (tray && (rate != 0 || width != 0)))) no,
      unlessOk (!pair.any used) busy,
      headroom (d.setReg .ptOctetCfg oct v) [oct / 8]]

/-- PT_PORT_CFG (R95, R156). -/
def portVerdict (d : Dev) (p v : Nat) : Verdict :=
  let l := d.link p
  firstNo
    [unlessOk ((isPort d p || (trayPort d p).isSome) && bits v 23 16 != 0 && bits v 15 8 != 0 && decide (8 ≤ bits v 7 0) && decide (bits v 7 0 ≤ 22)
        && (!bit v 30 || (l.slot0.isSome && l.slot1.isSome))) no,
      unlessOk (bit v 30 == d.flag .ptPortCfg p 30 || l.st == .down) busy,
      if bit v 31 then headroom (d.setReg .ptPortCfg p v) [portDie p] else none]

/-- The bound of R173 on a multicast, in µs, at PT_MC_CFG: its first round and its retry rounds. -/
def mcBound (w : Nat) : Nat := (bits w 23 20 + 1) * bits w 31 24 + bits w 23 20 * (10 * bits w 19 12)

/-- GS_COH_CFG (R268). -/
def cohVerdict (d : Dev) (v : Nat) : Verdict :=
  let tc := [bits v 25 23, bits v 22 20, bits v 19 17]
  let old := d.reg .gsCohCfg 0
  let self := bits v 30 26
  let cached := d.pool.lines.any fun l => !l.silent d
  firstNo
    [unlessOk (decide (tc.eraseDups.length = 3) && tc.all (fun c => lossless d c) && bits v 16 8 != 0
        && (!bit v 31 || (d.flag .gsCohMember self 31 && d.fld .gsCohMember self 19 0 == d.tfp.eid))) no,
      unlessOk (setBits v 16 8 0 == setBits old 16 8 0 || !(bit old 31 && cached)) busy]

def cohTblVerdict (d : Dev) : Verdict := unlessOk (!(cohEn d && d.pool.lines.any fun l => !l.silent d)) busy

/-- KP_PWR_START (R573). -/
def startVerdict (v : Nat) : Verdict := unlessOk (bits v 63 61 == 7 && maskOk v && planesOk v) no

/-- Who may write a register: the fabric owner, or whom its chapter names (R557). -/
def writerOk (d : Dev) (r : RegName) (ix v : Nat) (ro : Roles) : Bool :=
  ro.owner || (match r with
    | .impChaseCfg | .fltComppol => ro.chases.contains ix
    | .pxFmtdesc => (fmtWriters d ix v).all ro.chases.contains
    | .mkMark => ro.chases.contains (d.mark ix).chase
    | _ => false)

/-- The write rules of each register's chapter. -/
def chapterVerdict (d : Dev) (r : RegName) (ix v : Nat) (ro : Roles) : Verdict :=
  match r with
  | .kpPaceTgt => unlessOk (decide (1450 ≤ bits v 27 16 ∧ bits v 27 16 ≤ 2300 ∧ 0x4B ≤ bits v 7 0 ∧ bits v 15 8 ≤ 0xAF ∧ bits v 7 0 ≤ bits v 15 8)) no
  | .impChaseCfg => unlessOk (decide (1 ≤ bits v 31 22 ∧ bits v 31 22 ≤ 1000 ∧ bits v 21 12 ≤ bits v 31 22 ∧ bits v 11 5 ≤ 125)) no
  | .ptOctetCfg => octetVerdict d ix v
  | .ptTrayTmo => unlessOk (decide (1 ≤ bits v 9 0 ∧ bits v 9 0 ≤ 1000)) no
  | .ptPortCfg => portVerdict d ix v
  | .ptTfpCfg => unlessOk (decide (10 ≤ bits v 31 16) && bits v 15 8 != 0 && decide (mcBound (d.reg .ptMcCfg 0) + 100 < 10 * bits v 31 16)) no
  | .ptClassCfg =>
    let old := d.reg .ptClassCfg ix
    firstNo
      [unlessOk (bits v 27 20 != 0 && decide (17 ≤ bits v 15 0) && decide (bits v 15 0 ≤ 1024)) no,
        unlessOk ((bit v 31 == bit old 31 && bits v 15 0 == bits old 15 0) || allDown d) busy,
        headroom (d.setReg .ptClassCfg ix v) (upTo 16)]
  | .ptRedProf => unlessOk (!bit v 0 || decide (bits v 31 20 < bits v 19 8)) no
  | .ptEgrCfg => unlessOk (decide (64 ≤ bits v 31 16 ∧ bits v 31 16 ≤ 4096 ∧ bits v 15 0 < bits v 31 16)) no
  | .ptMcgrp => unlessOk (decide (bits v 50 35 ≤ 32768)) no
  | .ptMcCfg => unlessOk (bits v 31 24 != 0 && bits v 19 12 != 0 && decide (mcBound v + 100 < 10 * d.fld .ptTfpCfg 0 31 16)) no
  | .ptHellStat => unlessOk (bits v 30 24 != 0) no
  | .schClassCfg => unlessOk (bits v 23 16 != 0) no
  | .schShaper => unlessOk (bits v 15 0 != 0 && bits v 27 16 != 0) no
  | .schPortCfg => unlessOk (decide (1 ≤ bits v 25 16 ∧ bits v 25 16 ≤ 1000)) no
  | .schPolicer => unlessOk (decide (1 ≤ bits v 15 0 ∧ 1 ≤ bits v 43 32 ∧ bits v 15 0 ≤ bits v 31 16 ∧ bits v 43 32 ≤ bits v 55 44)) no
  | .schGateStart =>
    let n := d.fld .schGateCtl ix 22 16
    unlessOk (decide (d.now + 1000000 ≤ v ∧ v ≤ d.now + 60000000000 ∧ 1 ≤ n ∧ n ≤ 64)
      && (upTo n).all fun i => decide (64 ≤ d.fld .schGateEnt (64 * ix + i) 23 0)) no
  | .schPtpCfg => unlessOk (decide (bits v 23 16 ≤ 127) && (bits v 15 12 == 0 || decide (9 ≤ bits v 15 12)) && (bits v 11 8 == 0 || decide (9 ≤ bits v 11 8))) no
  | .impPoolCfg => unlessOk (decide (1 ≤ bits v 31 20 ∧ 1 ≤ bits v 19 12 ∧ bits v 19 12 ≤ 64)) no
  | .impGalleyCfg =>
    let room := admissible (bits v 31 26) - offSpace d
    firstNo
      [unlessOk (decide (bits v 31 26 ≤ 62) && bits v 23 16 != 0) no,
        if d.fld .impGalleyCfg 0 31 26 < bits v 31 26 ∧ room < allowances d then some (.noFit, 1, allowances d - room) else none]
  | .gsCohCfg => cohVerdict d v
  | .gsCohMember | .gsCohDist => cohTblVerdict d
  | .pxFmtdesc => match fmtVerdict d ix v ro with
    | .ok => none
    | st => some (st, 0, 0)
  | .fltThr => unlessOk (bits v 31 16 != 0 && decide (4 ≤ bits v 15 8 ∧ bits v 15 8 ≤ 30) && bits v 7 0 != 0) no
  | .ptStallCfg => unlessOk (bits v 31 16 != 0) no
  | .kpMgmtCfg => unlessOk (decide (1 ≤ bits v 23 16 ∧ bits v 23 16 ≤ 128) && bits v 15 0 != 0 && bits v 31 29 != 0) no
  | .kpPwrStart => startVerdict v
  | .kpThermCfg => unlessOk (decide (bits v 31 24 < bits v 23 16 ∧ bits v 23 16 ≤ 0xA0)) no
  | _ => none

/-- Registers that only commands of their own change (R557). -/
def ownCommand (r : RegName) (v : Nat) : Bool :=
  match r with
  | .mtCfg | .mtId | .mtSeal | .mtStat | .impColmask | .mkLink => true
  | .mkMark => setBits v 105 100 0 != 0
  | _ => false

/-- Every check of one entry (R11, R556, R557). -/
def entVerdict (d : Dev) (group : Nat) (e : RegEnt) (ro : Roles) : Verdict :=
  match lookName group e.name with
  | none => no
  | some (.cnt c _) => unlessOk (decide (e.index < cntElems c) && e.rsv == 0 && decide (e.value < 2 ^ 64)) no
  | some (.reg r die) =>
    let ix := (regDesc r).perUnit * die + e.index
    if elems d r die ≤ e.index ∨ e.rsv ≠ 0 ∨ 2 ^ (regDesc r).width ≤ e.value ∨ !existsElem r ix then no
    else if ownCommand r e.value then denied
    else if (regDesc r).wr.isEmpty ∧ r ≠ .mkMark then unlessOk (e.value &&& regRsv r == 0) no
    else if e.value &&& regRsv r ≠ 0 then no
    else if !writerOk d r ix e.value ro then denied
    else chapterVerdict d r ix e.value ro

/-! ### What a write does -/

/-- ENABLE set or cleared (R93, R94 map, R583): a tray link that is disabled leaves link-up. -/
def enableChange (d : Dev) (p : Nat) (was : Bool) : Dev :=
  let now := d.enabled p
  match trayPort d p with
  | some l => if was && !now && (d.tray l).trained then holdLost (d.modTray l fun t => { t with trained := false, fullRate := false }) 2 l else d
  | none => if !was && now then linkEnable d p else if was && !now then linkDisable d p else d

/-- Arming bits that reach back (R495): REBUILD starts or resumes every rebuild, TSTEP steps while STEPREQ is set. -/
def armed (d : Dev) (old : Nat) : Dev :=
  let new := d.reg .fltFabpol 0
  let d := if bit new 27 ∧ !bit old 27 then foldOver (d.pool.stripes.map Prod.fst) d fun s d => rebuildStart d s else d
  if bit new 28 ∧ !bit old 28 ∧ d.time.stepReq then
    let d := stepTime d (-d.time.offset)
    { d with time := { d.time with stepReq := false, offset := 0 } }
  else d

/-- A smaller cache share waits until the lines above it have been evicted (R253): lines of a stack above a new share. -/
def sharePast (d : Dev) (c s : Nat) : Nat :=
  let held := d.pool.lines.filter fun l => l.stack == s && !(l.st == .miA || l.st == .oiA || l.st == .eiA || l.st == .siA || l.st == .iiA)
  held.length - (if s % 4 = 0 then min c 59 else c) * 4194304

/-- Evict the least recently used stable lines above a new share (R253, R259). -/
def shrinkShare (d : Dev) (c : Nat) : Dev :=
  foldOver (upTo 8) d fun s d =>
    let ls := ((d.pool.lines.filter fun l => l.stack == s && l.st.stable).mergeSort fun a b => decide (a.used ≤ b.used)).take (sharePast d c s)
    foldOver ls d fun l d => evict d l

/-- The word a register takes: its writable fields from the value, the others kept. -/
def mergeWord (d : Dev) (r : RegName) (ix v : Nat) : Nat :=
  let m := regMask r
  (v &&& m) ||| ((d.reg r ix) ^^^ (d.reg r ix &&& m))

/-- Apply one write (R10, R31, R93, R186, R193, R495, R541). -/
def regApply (d : Dev) (r : RegName) (ix v : Nat) : Dev :=
  let w := mergeWord d r ix v
  match r with
  | .kpPaceTgt => if d.domOn ix then d.modPace ix fun x => { x with tgtPend := some w } else d.setReg r ix w
  | .impChaseStat => if bit v 19 then d.modComp ix fun c => { c with strag := false } else d
  | .ptPortCfg => let was := d.enabled ix; enableChange (d.setReg r ix w) ix was
  | .ptMcmem => match (memberStore d (ix / 65536))[ix % 65536]? with
    | some m =>
      let new := (ix / 65536 * 64 + bits v 31 26, bits v 19 0)
      { d with core := { d.core with mcMem := tmod [] d.core.mcMem m.1 fun l => l.modify m.2.1 fun _ => new } }
    | none => d.setReg r ix w
  | .schGateCtl =>
    let d := d.setReg r ix w
    if bit v 30 then { d with sched := { d.sched with pend := tdel d.sched.pend ix } } else d
  | .schGateStart =>
    let ents := (upTo (d.fld .schGateCtl ix 22 16)).map fun i => (d.fld .schGateEnt (64 * ix + i) 31 24, d.fld .schGateEnt (64 * ix + i) 23 0)
    { d with sched := { d.sched with pend := tput d.sched.pend ix { ents := ents, start := v } } }
  | .mkMark => d.modMark ix fun m => { m with flags := m.flags ^^^ (m.flags &&& bits v 105 100) }
  | .fltFabpol => let old := d.reg .fltFabpol 0; armed (d.setReg r ix w) old
  | .kpMgmtCfg | .kpMgmtAddr => { d with mgmt := { d.mgmt with cfgAfter := d.mgmt.cfgAfter ++ [(regKey r ix, w)] } }
  | _ => if (regDesc r).wr.isEmpty then d else d.setReg r ix w

/-- Apply an entry; `none` where the die that holds it is held lost or off (R556). -/
def applyEnt (d : Dev) (group : Nat) (e : RegEnt) : Option Dev :=
  match lookName group e.name with
  | some (.reg r die) =>
    let ix := (regDesc r).perUnit * die + e.index
    if !regReach d (.reg r die) ix then none else some (regApply d r ix e.value)
  | _ => some d

/-- Check a batch: each entry against the words the entries before it write; the first that fails, with its place. -/
def batchVerdict (group : Nat) (ro : Roles) : List RegEnt → Nat → Dev → Option (Nat × Status × Nat × Nat)
  | [], _, _ => none
  | e :: r, i, d => match entVerdict d group e ro with
    | some v => some (i, v)
    | none =>
      let d := match lookName group e.name with
        | some (.reg n die) => if (regDesc n).wr.isEmpty then d else d.setReg n ((regDesc n).perUnit * die + e.index) (mergeWord d n ((regDesc n).perUnit * die + e.index) e.value)
        | _ => d
      batchVerdict group ro r (i + 1) d

/-- Apply a batch in order; the first entry skipped. -/
def applyBatch (group : Nat) : List RegEnt → Nat → Dev → Option Nat → Dev × Option Nat
  | [], _, d, s => (d, s)
  | e :: r, i, d, s => match applyEnt d group e with
    | some d => applyBatch group r (i + 1) d s
    | none => applyBatch group r (i + 1) d (s.or (some i))

/-- The new CACHE of a batch, where it is smaller (R253). -/
def smallerCache (d : Dev) (ents : List RegEnt) : Option Nat :=
  ((ents.filter fun e => e.name == .reg .impGalleyCfg none).getLast?).bind fun e =>
    if bits e.value 31 26 < d.fld .impGalleyCfg 0 31 26 then some (bits e.value 31 26) else none

/-- REG_WRITE (R556): every entry checked before any is applied. A refusal carries the entry's place; one for want of space names the resource.
A smaller cache share takes effect, with the reply, once the lines above it are gone (R253). -/
def regWriteFx (b : Bas) (group : Nat) (ents : List RegEnt) (d : Dev) : Dev :=
  let opc := group * 256 + 0xF1
  if ents.isEmpty ∨ 32 < ents.length then d.reply b opc .unsupported
  else match batchVerdict group (d.rolesOf b) ents 0 d with
    | some (_, .noFit, res, short) => d.reply b opc .noFit 0x01 res [short]
    | some (i, st, _, _) => d.reply b opc st 0x03 i
    | none =>
      let held := smallerCache d ents
      let hold (d1 : Dev) : Dev := match held with
        | some _ => d1.setReg .impGalleyCfg 0 (setBits (d1.reg .impGalleyCfg 0) 31 26 (d.fld .impGalleyCfg 0 31 26))
        | none => d1
      let (d1, skip) := applyBatch group ents 0 d none
      match held, skip with
      | some c, _ => ((shrinkShare (hold d1) c)).defer b .device opc c
      | none, some i => d1.reply b opc .targetLost 0x03 i
      | none, none => d1.reply b opc .ok

/-- The held reply of a smaller cache share (R253). -/
def pollCache (d : Dev) : Dev := match runKey d 0x03F1 with
  | none => d
  | some c =>
    let d := shrinkShare d c
    if (upTo 8).any fun s => sharePast d c s != 0 then d
    else (d.setReg .impGalleyCfg 0 (setBits (d.reg .impGalleyCfg 0) 31 26 c)).finish 0x03F1 c .ok

/-- The domain of a register write: the chase whose registers alone it names, else the device (R547). -/
def writeDom (d : Dev) (ents : List RegEnt) : Dom :=
  let chase (e : RegEnt) : Option Nat := match e.name with
    | .reg .impChaseCfg none | .reg .fltComppol none | .reg .impChaseStat none => some e.index
    | .reg .mkMark none => some (d.mark e.index).chase
    | .reg .pxFmtdesc none => some (bits e.value 11 0)
    | _ => none
  match ents.map chase with
  | some c :: r => if r.all (· == some c) then .chase c else .device
  | _ => .device

/-- A register write as the keeper takes it (R547, R551, R552). -/
def writeCmd (d : Dev) (group : Nat) (ents : List RegEnt) : CmdInfo :=
  { opc := group * 256 + 0xF1, who := .a, i3c := group == 0x0A, dom := some (writeDom d ents) }

def onWrite (self : Instr) (b : Bas) (group : Nat) (ents : List RegEnt) (s : State) : Out :=
  onCmd self b (writeCmd s.dev group ents) (regWriteFx b group ents) s

/-- One entry that names a register of the device. -/
def devEnt (r : RegName) (ix v : Nat) : RegEnt := { name := .reg r none, index := ix, value := v }

/-- One entry that names a port's PT_PORT_CFG. -/
def portEnt (port v : Nat) : RegEnt := { name := .reg .ptPortCfg (some (port / 64)), index := port % 64, value := v }

/-- REG_WRITE (R556). -/
def execRegWrite (b : Bas) (group : Nat) (ents : List RegEnt) (s : State) : Out := onWrite (.regWrite b group ents) b group ents s

/-- A write to KP_PACE_TGT (R31). -/
def execKpPaceTgtWrite (b : Bas) (pwd value : Nat) (s : State) : Out :=
  onWrite (.kpPaceTgtWrite b pwd value) b 0x0A [devEnt .kpPaceTgt pwd value] s

/-- A write to a port's PT_PORT_CFG that sets ENABLE (R93, R95). -/
def execPortEnable (b : Bas) (port value : Nat) (s : State) : Out :=
  onWrite (.portEnable b port value) b 0x02 [portEnt port value] s

/-- A write to a port's PT_PORT_CFG that clears ENABLE (R94 map, R95). -/
def execPortDisable (b : Bas) (port value : Nat) (s : State) : Out :=
  onWrite (.portDisable b port value) b 0x02 [portEnt port value] s

/-- A write to SCH_GATE_START: the admin list becomes the pending list (R193, R194). -/
def execGateCommit (b : Bas) (port value : Nat) (s : State) : Out :=
  onWrite (.gateCommit b port value) b 0x08 [devEnt .schGateStart port value] s

/-- A write to SCH_GATE_CTL; CANCEL discards the pending list (R193). -/
def execGateCancel (b : Bas) (port value : Nat) (s : State) : Out :=
  onWrite (.gateCancel b port value) b 0x08 [devEnt .schGateCtl port value] s

/-- A write to FLT_FABPOL (R495). -/
def execFltFabpolWrite (b : Bas) (value : Nat) (s : State) : Out := onWrite (.fltFabpolWrite b value) b 0x09 [devEnt .fltFabpol 0 value] s

/-- A write to IMP_GALLEY_CFG (R253). -/
def execGalleyCacheResize (b : Bas) (value : Nat) (s : State) : Out :=
  onWrite (.galleyCacheResize b value) b 0x03 [devEnt .impGalleyCfg 0 value] s

/-! ### Telemetry (R561) -/

/-- The counters of a set for a die, each expanded from FIRST. -/
def telemKeys (die set first : Nat) : List (CntName × Nat) :=
  ((((cntSets.find? fun e => e.1 == set).map Prod.snd).getD []).filter fun c => cntKept c die).flatMap fun c =>
    match cntPer c with
    | .die => [(c, cntUnit c die 0)]
    | _ => (((upTo (cntElems c)).drop first).map fun i => (c, cntUnit c die i))

def telemFx (b : Bas) (die set first : Nat) (peek : Bool) (d : Dev) : Dev :=
  let ks := (telemKeys die set first).take 510
  if ks.isEmpty then d.reply b 0x0D03 .unsupported
  else if !(if die < 24 then dieReach d die else !d.lost die) then d.reply b 0x0D03 .targetLost
  else
    let vals := ks.map fun k => cntRead d k.1 k.2
    let d := if !peek && ownerReads d b then foldOver ks d fun k d => { d with cnt := tput d.cnt (cntKey k.1 k.2) 0 } else d
    d.reply b 0x0D03 .ok 0 0 vals

/-- TELEM_READ (R561). -/
def execTelemRead (b : Bas) (die set first : Nat) (peek : Bool) (s : State) : Out :=
  onCmd (.telemRead b die set first peek) b { opc := 0x0D03, who := .a, i3c := true } (telemFx b die set first peek) s

end Sys2Proof.Machine
end

