-- ==== Sys2Proof/Machine/ChaseReset.lean ====
section
/-! DEFINITION. A chase reset (R581). -/

namespace Sys2Proof.Machine
open Sys2Proof

/-! ### What the device holds of a chase's operations -/

/-- Deliveries a chase reset leaves alone: coherence messages, and tray requests of accesses that go on (copies, the home's own). -/
def dlvStays (d : Dev) (jobs : List PJob) (tag : Nat) : Bool := d.tfp.dlv.any fun v => v.tag == tag && (match v.kind with
  | .coh => true
  | .trayPart j _ => jobs.any fun x => x.id == j
  | _ => false)

/-- Is a packet one of a chase: not MGMT, TIME or SNAP, which carry no chase? -/
def ofChase (c : Nat) (k : Pkt) : Bool := k.chase == c && k.opc != opMGMT && k.opc != opTIME && k.opc != opSNAP

/-- Does a group of accesses work for an operation of a chase: a request, a mover, a layer, a plate, a service? -/
def grpOf (d : Dev) (c : Nat) (g : Grp) : Bool := match g.cont with
  | .request id => ((d.outst id).map fun o => o.pkt.chase == c).getD false
  | .moverRead x _ _ | .moverWrite x _ _ | .moverDesc x _ | .moverStat x _ | .layer x _ _ => x == c
  | .plate k _ _ => d.press.plates.insts.any fun i => instKey i.core i.slot == k && i.chase == c
  | .service s _ => ((d.svc s).map fun s => s.chase == c).getD false
  | _ => false

/-- A queued packet is discarded: `n` sorts of it are still in the type case of its ingress. -/
def dropQueued (d : Dev) (q : QPkt) (n : Nat) : Dev :=
  let d := freeArrival d q.inp n
  if q.die < 16 then { d with core := { d.core with qcharge := tmod 0 d.core.qcharge (inqKey q) (· - n) } } else d

/-- Packets of a chase leave every queue; one already begun on its port is sent to its end, sorts on the planes are discarded where they
arrive. -/
def dropPackets (d : Dev) (goes : QPkt → Bool) : Dev :=
  let vq := (d.core.voq.flatMap Prod.snd).filter goes
  let run := (d.core.xRun.map Prod.snd).filter fun r => goes r.1
  let eq := (d.core.egq.flatMap Prod.snd).filter fun q => goes q && q.sent == 0
  let core := { d.core with
    voq := (d.core.voq.map fun e => (e.1, e.2.filter fun q => !goes q)).filter fun e => !e.2.isEmpty
    xRun := d.core.xRun.filter fun e => !goes e.2.1
    egq := (d.core.egq.map fun e => (e.1, e.2.filter fun q => !(goes q && q.sent == 0))).filter fun e => !e.2.isEmpty
    flights := d.core.flights.map fun f => if goes f.q then { f with lost := true } else f }
  let d := foldOver vq { d with core := core } fun q d => dropQueued d q q.pkt.sorts
  let d := foldOver run d fun r d => dropQueued d r.1 (r.1.pkt.sorts - r.2)
  foldOver eq d fun q d => if q.die < 24 then oweSorts d q.die q.port q.got else d

/-- Steps 2 and 3 of R581 for accesses and packets: what runs for the chase's operations goes, unanswered requests are answered TIMEOUT. -/
def endRequests (d : Dev) (c : Nat) : Dev :=
  let gone := (d.pool.grps.filter (grpOf d c)).map fun g => g.id
  let jobs := d.pool.jobs.filter fun j => !gone.contains j.grp
  let stays (q : QPkt) : Bool := (q.dlvTag.map (dlvStays d jobs)).getD false
  let d := dropPackets d fun q => ofChase c q.pkt && !stays q
  let d := foldOver (d.marks.waits.filter fun w => (d.mark w.mark).chase == c) d fun w d => endWait d w .timeout false
  let d := foldOver (d.imp.waitFill.filter fun w => w.1.pkt.chase == c) d fun w d => refuse d w.1 .timeout
  let d := foldOver (d.core.mc.filter fun r => r.pkt.chase == c) d fun r d => freeArrival d r.inp r.pkt.sorts
  let d := foldOver (d.tfp.outst.filter fun o => o.pkt.chase == c && !o.answered) d fun o d => answerEarly d o .timeout
  let far (o : Outst) : Bool := match o.home with | .remote _ => true | _ => false
  let mine (v : Delivery) : Bool := ((v.pkts.head?).map (ofChase c)).getD false
  { d with
    tfp := { d.tfp with
      outst := d.tfp.outst.filter fun o => o.pkt.chase != c || far o
      filters := d.tfp.filters.filter fun f => f.chase != c
      trains := d.tfp.trains.filter fun t => !ofChase c t.first
      dlv := d.tfp.dlv.filter fun v => !mine v || dlvStays d jobs v.tag }
    core := { d.core with mc := d.core.mc.filter fun r => r.pkt.chase != c }
    imp := { d.imp with waitFill := d.imp.waitFill.filter fun w => w.1.pkt.chase != c }
    pool := { d.pool with
      grps := d.pool.grps.filter fun g => !gone.contains g.id
      jobs := jobs
      notices := mapIf (fun b => b.chase == c) (fun b => { b with holdG := [], holdR := [] }) d.pool.notices } }

/-- Step 3 of R581 for definitions: rounds, steps, scans, jobs and items end without a result; definitions stand as when they took effect. -/
def endServices (d : Dev) (c : Nat) : Dev :=
  let red (r : Red) : Red := { r with cur := 0, rounds := [], lastst := 0, lastrnd := 0, failwhy := 0, misses := 0, resid := [], badRes := [] }
  let emb (e : Emb) : Emb := { e with ust := .idle, lastst := 0, failwhy := 0, usteps := 0, shards := [], sat := false, drnLive := false, drnClosed := false }
  let moe (m : Moe) : Moe := { m with cur := none, drain := none, counts := [], full := [], reqs := [], batches := [] }
  let inst (i : PInst) : PInst :=
    { i with items := [], queues := i.queues.map fun _ => [], nodes := i.nodes.map fun _ => {}, pieces := [], ring := { i.ring with next := 0, count := 0 } }
  let ring (r : Ring) : Ring :=
    { r with next := 0, job := false, desc := [], taking := false, pos := 0, pieces := [], failN := 0, dstat := .ok, failOff := 0, ending := false }
  let d := foldOver (d.pool.layers.filter fun l => l.chase == c && !l.staged) d fun l d => retireLayer d l
  let ps := d.press.plates
  { d with
    press := { d.press with
      svcs := d.press.svcs.filter fun s => s.chase != c
      reds := mapIf (fun r => r.chase == c && !r.staged) red d.press.reds
      embs := mapIf (fun e => e.chase == c && !e.staged) emb d.press.embs
      moes := mapIf (fun m => m.chase == c && !m.staged) moe d.press.moes
      plates := { ps with insts := mapIf (fun i => i.chase == c) inst (ps.insts.filter fun i => !(i.chase == c && i.drain)) } }
    pool := { d.pool with
      rings := mapIf (fun r => r.chase == c) ring (d.pool.rings.filter fun r => !(r.chase == c && r.gone))
      layers := mapIf (fun l => l.chase == c) (fun l => { l with req := none, pos := 0, grps := [] }) d.pool.layers } }

/-- Step 4 of R581: every mark of the chase as its last MARK_SET left it, FLAGS clear; a mark a service set up counts from zero again. -/
def restoreMarks (d : Dev) (c : Nat) : Dev :=
  let back (m : Mark) : Mark := match m.saved with
    | some (t, pl, pa, w, l) => { m with type := t, plock := pl, party := pa, word := w, link := l, flags := 0, upMop := 0 }
    | none => { m with word := 0, flags := 0, upMop := 0 }
  let ms := d.marks.tbl.filter fun e => e.2.chase == c
  foldOver ms d fun e d =>
    let d := { d with flt := { d.flt with badMarks := d.flt.badMarks.filter (· != e.1) } }
    let d := d.modMark e.1 back
    let m := d.mark e.1
    if m.type = 2 ∧ m.checked ∧ m.bitmap.isSome then writeBitmap d m else d

/-- Step 5 of R581: a draining epoch is released, nothing counted any more. -/
def endDrain (d : Dev) (c : Nat) : Dev :=
  let x := d.comp c
  let d := if x.drnLive then dropFast (releaseEpoch (straggleAll d c x.drn) c) c x.drn (upTo 16) else d
  d.modComp c fun x => { x with count := [] }

/-- The whole of R581 once no commit is past its commit point. -/
def resetChaseNow (d : Dev) (c : Nat) : Dev :=
  let d := endDrain (restoreMarks (endServices (endRequests d c) c) c) c
  (d.modComp c fun x => { x with suspended := false }).notice 0x0A06 d.kpDie (some c) 1 c 0

/-- A chase reset under way goes on when the commit before it has switched. -/
def pollChaseReset (d : Dev) : Dev :=
  if d.mgmt.active.isNone then d
  else foldOver ((d.imp.comps.filter fun e => e.2.suspended && e.2.phase == .idle).map Prod.fst) d fun c d => (resetChaseNow d c).finish 0x0A05 c .ok

def resetChaseFx (b : Bas) (chase : Nat) (d : Dev) : Dev :=
  if !(d.comp chase).bound then d.reply b 0x0A05 .unsupported 0x02 0
  else pollChaseReset ((d.modComp chase fun x => { x with suspended := true }).defer b .device 0x0A05 chase)

/-- RESET_CHASE (R581). -/
def execResetChase (b : Bas) (chase : Nat) (s : State) : Out := onCmd (.resetChase b chase) b (pwrCmd 0x0A05) (resetChaseFx b chase) s

end Sys2Proof.Machine
end

