-- ==== Sys2Proof/Machine/Links.lean ====
section
/-! DEFINITION. The meanings of the link-layer commands: bring-up, flits, credits, lanes, key switch, trickle and wake
(Ports, Lanes and the Link Layer). -/

namespace Sys2Proof.Machine
open Sys2Proof

/-! ### Bring-up (R93, R103) -/

/-- This device's capabilities in HELLO (R96): ENC, TRICKLE (TRKOK), SPARE, NARROW, all of which it has. -/
def ownCaps : Nat := 0xF

/-- Send HELLO on a port (R93, R96). -/
def sendHello (d : Dev) (p : Nat) (spare : Bool) : Dev :=
  sendCtl d p (.hello d.tfp.eid 0 ownCaps p spare)

/-- FEC_LOCK: every lane holds FEC lock; the port starts sending HELLO (R93). Equaliser settings are stored at every
successful training (R112). -/
def fecLockFx (p : Nat) (d : Dev) : Dev :=
  if (d.link p).st = .training ∧ !(d.link p).fecLock then
    sendHello (d.modLink p fun l => { l with fecLock := true, eqStored := true }) p false
  else d

def execFecLock (port : Nat) (s : State) : Out := onDev (fecLockFx port) s

/-- HELLO_REPEAT: every 10 µs HELLO is sent again until one is received (R93). A port in NOTTFP only listens. -/
def helloRepeatFx (p : Nat) (d : Dev) : Dev :=
  if (d.link p).st = .training ∧ (d.link p).fecLock ∧ !(d.link p).hello then sendHello d p false else d

def execHelloRepeat (port : Nat) (s : State) : Out := onDev (helloRepeatFx port) s

/-- HELLO_TIMEOUT: no valid HELLO within 1 ms of FEC lock, so NOTTFP and a NOTTFP notice (R93). -/
def helloTimeoutFx (p : Nat) (d : Dev) : Dev :=
  if (d.link p).st = .training ∧ (d.link p).fecLock ∧ !(d.link p).hello then
    ((resetPortDone (d.modLink p fun l => { l with st := .notTfp }) p).notice 0x0203 (portDie p) none p 0 0)
  else d

def execHelloTimeout (port : Nat) (s : State) : Out := onDev (helloTimeoutFx port) s

/-- The notice of a port's protocol error (R89, R96). -/
def protoErr (d : Dev) (p : Nat) : Dev :=
  let d := d.count .cProtoerr p
  d.notice 0x0204 (portDie p) none p (d.counter .cProtoerr p).toNat 0

/-! ### Receiving sequenced flits (R99, R100) -/

/-- NAK: asks replay from the expected FSEQ once; the next is sent only after an ACKTMO (R100). -/
def nak (d : Dev) (p : Nat) : Dev :=
  if (d.link p).nakPend then d
  else sendAck ((d.modLink p fun l => { l with nakPend := true }).count .cNaktx p) p

/-- Sender's side of a replay (R100): a try of the flit after ACKSEQ; past REPLAYMAX the port enters FAULT with cause 0x02, else
every buffered flit is resent in order with current ACKSEQ, NAK and no credits of its own. -/
def replay (d : Dev) (p : Nat) : Dev :=
  let l := d.link p
  let q := seqAdd l.ackGot 1
  let n := tget 0 l.tries q + 1
  let d := d.modLink p fun l => { l with tries := tput l.tries q n }
  if d.fld .ptPortCfg p 23 16 < n then enterFault d p 0x02
  else
    let again (f : Flit) : Flit := sealFlit { f with ackseq := seqAdd l.rxExp 4095, nak := l.nakPend, crvl := 0, crcnt := 0 }
    foldOver (l.replay.map again) (d.count .cReplay p) fun f d => d.emit (.flit p f)

/-- What a good header brings: acks, a NAK, credits (R99, R100, R102). -/
def headerRx (d : Dev) (p ackseq : Nat) (nk : Bool) (crvl crcnt : Nat) : Dev :=
  let d := creditRx (ackRx d p ackseq) p crvl crcnt
  if nk then replay d p else d

/-- A sequenced flit reaches the receiver (R100): bad CRC, a failed tag or a wrong FSEQ discards it and asks replay once; with REPLAY
disarmed a bad CRC or tag takes the port to FAULT with cause 0x03. `true` when it is accepted. -/
def recvSeq (d : Dev) (p fseq : Nat) (crcOk tagOk : Bool) : Bool × Dev :=
  let l := d.link p
  if l.st = .down ∨ l.st = .fault then (false, d)
  else if !crcOk || !tagOk then
    let d := if crcOk then d.count .cAuthfail p else d.count .cCrcerr p
    if d.flag .fltPortpol p 31 then (false, nak d p) else (false, enterFault d p 0x03)
  else if fseq ≠ l.rxExp then (false, nak d p)
  else
    let d := d.modLink p fun l => { l with rxExp := seqAdd l.rxExp 1, nakPend := false, sinceAck := l.sinceAck + 1
                                           rxExt := l.rxExt + 1 }
    let d := d.count .cFlitrx p
    (true, if 32 ≤ (d.link p).sinceAck then sendAck d p else d)

/-- A control flit (R96, R100): taken if it is accepted, with its acks and credits. -/
def ctlRx (p : Nat) (h : FlitHdr) (body : Dev → Dev) (d : Dev) : Dev :=
  let (ok, d) := recvSeq d p h.fseq h.crcOk true
  if ok then body (headerRx d p h.ackseq h.nak h.crvl h.crcnt) else d

/-- Once both directions of CREDIT_INIT are done the port is UP and LINKUP is sent (R93); the VLU and VLM buckets start full
(R182). A RESET_PORT or its AUTOSVC wait ends here (R583). -/
def goUp (p : Nat) (d : Dev) : Dev :=
  let l := d.link p
  if l.crSent ∧ l.crGot ∧ l.st = .training then
    let d := d.modLink p fun l => { l with st := .up, encact := d.flag .ptPortCfg p 30 }
    let sched := { d.sched with vlu := tdel d.sched.vlu p, vlm := tdel d.sched.vlm p, vluFl := tdel d.sched.vluFl p,
                                vlmFl := tdel d.sched.vlmFl p }
    let d := { d with sched := sched }
    let d := d.notice 0x0201 (portDie p) none p l.peer (l.width <<< 3 + l.rate)
    resetPortDone d p
  else d

/-- Credits this device advertises on each lane: CRMIN of the class, 17 on VLM and VLU (R153). -/
def ownCredits (d : Dev) : List Nat := (upTo 18).map (crMin d)

/-- HELLO (R93, R96): a port HELLO records the partner and is answered by CREDIT_INIT; a spare-lane HELLO is looked at by
SPARE_HELLO_TIMER. A PTYPE of 3 is reserved: it is counted and ignored (R13, log 8). Heard in NOTTFP, it takes bring-up on. -/
def helloFx (p : Nat) (h : FlitHdr) (eid ptype caps _sport : Nat) (spare : Bool) (d : Dev) : Dev :=
  ctlRx p h (fun d =>
    let l := d.link p
    if spare then d
    else if 3 ≤ ptype then protoErr d p
    else if l.st = .training ∨ l.st = .notTfp then
      let first := !l.hello
      let d := d.modLink p fun l =>
        { l with st := .training, fecLock := true, hello := true, peer := eid, ptype := ptype
                 caps := bits caps 3 0 }
      if first then
        let counts := ownCredits d
        let d := sendHello d p false
        let d := sendCtl d p (.creditInit counts)
        let ch := (upTo 18).map fun v => (v, (counts[v]?).getD 0)
        goUp p (d.modLink p fun l => { l with crSent := true, charge := ch })
      else d
    else d) d

def execHello (port : Nat) (h : FlitHdr) (eid ptype caps sport : Nat) (spare : Bool) (s : State) : Out :=
  onDev (helloFx port h eid ptype caps sport spare) s

/-- CREDIT_INIT (R103): fewer than 17 credits on any lane takes the port to FAULT with cause 0x05. -/
def creditInitFx (p : Nat) (h : FlitHdr) (counts : List Nat) (d : Dev) : Dev :=
  ctlRx p h (fun d =>
    if (d.link p).st ≠ .training then d
    else if (upTo 18).any fun v => decide ((counts[v]?).getD 0 < 17) then enterFault d p 0x05
    else goUp p (d.modLink p fun l => { l with crGot := true, credits := (upTo 18).map fun v => (v, (counts[v]?).getD 0) })) d

def execCreditInit (port : Nat) (h : FlitHdr) (counts : List Nat) (s : State) : Out := onDev (creditInitFx port h counts) s

/-- CREDIT: increments of the lanes it names (R96, R102). -/
def creditFx (p : Nat) (h : FlitHdr) (counts : List Nat) (d : Dev) : Dev :=
  ctlRx p h (fun d => foldOver (upTo 18) d fun v d => creditRx d p v ((counts[v]?).getD 0)) d

def execCredit (port : Nat) (h : FlitHdr) (counts : List Nat) (s : State) : Out := onDev (creditFx port h counts) s

/-- RESERVED_CTYPE_FLIT: ignored and counted in PROTOERR (R96); its FSEQ counts as received. -/
def reservedCtypeFx (p : Nat) (h : FlitHdr) (d : Dev) : Dev := ctlRx p h (fun d => protoErr d p) d

def execReservedCtypeFlit (port : Nat) (h : FlitHdr) (ctype : Nat) (s : State) : Out :=
  onDev (fun d => if ctype = 0 ∨ 0x0E ≤ ctype then reservedCtypeFx port h d else d) s

/-! ### Data flits (R89–R91, R100, R108) -/

/-- A reserved value in a data flit (R89): VL above 17, SOPOFF beyond the layout's last unit and not 31, FILL outside its range,
ENC other than the link's state. -/
def flitReserved (l : Link) (f : Flit) : Bool :=
  let units := if f.enc then 28 else 30
  decide (f.ftype ≠ 1) || decide (17 < f.vl) || (decide (units ≤ f.sopoff) && f.sopoff != 31) || f.fill == 0
    || decide (units < f.fill) || f.enc != l.encact

/-- Take as many whole packets as the bytes hold; a packet's length is 32 + 8 × HEXT + LEN and the next one starts at the next
8-byte boundary (R91, R115). `fuel` bounds the packets of one flit. -/
def splitPkts : Nat → List Byte → List Pkt × List Byte
  | 0, b => ([], b)
  | fuel + 1, b =>
    if b.length < 32 then ([], b)
    else
      let k := Pkt.ofBytes b
      if b.length < k.size then ([], b)
      else
        let (ks, r) := splitPkts fuel (b.drop (8 * cdiv k.size 8))
        (k :: ks, r)

/-- The bytes of an accepted data flit join their lane's stream: bytes before SOPOFF end the packet before (R91). A lane that lost
a flit discards up to the next packet start (R89). -/
def assemble (d : Dev) (p : Nat) (f : Flit) (plain : List Byte) : Dev :=
  let a := tget {} (d.link p).asm f.vl
  let use := plain.take (8 * f.fill)
  let use := if a.dead then (if f.sopoff = 31 then [] else use.drop (8 * f.sopoff)) else use
  let (ks, rest) := splitPkts 8 (a.bytes ++ use)
  let dead := a.dead && f.sopoff == 31
  let open_ := !a.bytes.isEmpty
  let alone := f.sopoff == 0 && ks.length + b2n (!rest.isEmpty) == 1 + b2n open_
  let a' : Assembly := { bytes := rest, framed := if open_ && ks.isEmpty then a.framed else alone, dead := dead }
  let d := d.modLink p fun l => { l with asm := tput l.asm f.vl a' }
  foldOver ((upTo ks.length).zip ks) d fun e d =>
    let k := e.2
    let d := chargeArrival d p f.vl k.sorts
    if f.vl = vlU ∧ ((d.link p).ptype = 1 ∨ (d.link p).ptype = 2) then
      freeCharge (d.count .cVludrop p) p f.vl k.sorts
    else if d.pwr.warmRun then freeCharge (d.count .cWrstdrop p) p f.vl k.sorts
    else { d with arrived := d.arrived ++ [{ port := p, vl := f.vl, pkt := k, framed := if e.1 = 0 ∧ open_ then a.framed else alone }] }

/-- The receive key, salt and extended sequence number that open an encrypted flit (R108, R110): the flit's slot. -/
def openFlit (d : Dev) (p : Nat) (f : Flit) : Option (List Byte) :=
  let l := d.link p
  let slot := if f.kslot then l.slot1 else l.slot0
  slot.bind fun s => Config.gcmOpen s.rxKey s.rxSalt l.rxExt
    (flitHdrWord { f with ackseq := 0, nak := false, crvl := 0, crcnt := 0 })
    (f.payload.take 224) ((f.payload.drop 224).take 16)

/-- DATA_FLIT_RX: CRC, tag and sequence (R100), reserved values (R89), then acks, NAK and credits, then assembly (R91). A flit
discarded under R89 still counts as received, and the packet it carried part of is lost. -/
def dataFlitFx (p : Nat) (f : Flit) (d : Dev) : Dev :=
  let plain := if f.enc ∧ (d.link p).encact then openFlit d p f else some f.payload
  let (ok, d) := recvSeq d p f.fseq (crcGood f) plain.isSome
  if !ok then d
  else
    let d := headerRx d p f.ackseq f.nak f.crvl f.crcnt
    if flitReserved (d.link p) f then
      let dead (a : Assembly) : Assembly := { a with bytes := [], dead := true }
      protoErr (d.modLink p fun l => { l with asm := tmod {} l.asm f.vl dead }) p
    else assemble d p f (plain.getD [])

def execDataFlitRx (port : Nat) (f : Flit) (s : State) : Out := onDev (dataFlitFx port f) s

/-- IDLE_FLIT_RX: a bad CRC is discarded and counted only; else ACKSEQ and NAK are taken (R100). -/
def idleFlitFx (p : Nat) (h : FlitHdr) (d : Dev) : Dev :=
  if !h.crcOk then d.count .cCrcerr p
  else
    let d := ackRx d p h.ackseq
    if h.nak then replay d p else d

def execIdleFlitRx (port : Nat) (h : FlitHdr) (s : State) : Out := onDev (idleFlitFx port h) s

/-- ACK_TIMEOUT: unacked flits exist and ACKSEQ has not changed for ACKTMO, so they are replayed (R100). -/
def ackTimeoutFx (p : Nat) (d : Dev) : Dev := if (d.link p).replay.isEmpty then d else replay d p

def execAckTimeout (port : Nat) (s : State) : Out := onDev (ackTimeoutFx port) s

/-- NAK_RESEND_TIMEOUT: a NAK unanswered for ACKTMO is sent again (R100). -/
def nakResendFx (p : Nat) (d : Dev) : Dev := if (d.link p).nakPend then sendAck (d.count .cNaktx p) p else d

def execNakResendTimeout (port : Nat) (s : State) : Out := onDev (nakResendFx port) s

/-- ACK_SEND_DEADLINE: a flit carrying ACKSEQ leaves within 32 flits or 100 ns of a good flit (R99). -/
def ackSendFx (p : Nat) (d : Dev) : Dev := if (d.link p).sinceAck = 0 then d else sendAck d p

def execAckSendDeadline (port : Nat) (s : State) : Out := onDev (ackSendFx port) s

/-- CREDIT_RETURN_TIMEOUT: credits returnable for 200 ns leave in a CREDIT control flit (R154). -/
def creditReturnFx (p : Nat) (d : Dev) : Dev :=
  let l := d.link p
  if l.ret.any fun e => decide (0 < e.2) then
    sendCtl (d.modLink p fun l => { l with ret := [] }) p (.credit (l.ret.filter fun e => decide (0 < e.2)))
  else d

def execCreditReturnTimeout (port : Nat) (s : State) : Out := onDev (creditReturnFx port) s

/-! ### Lane sparing and narrowing (R104–R107) -/

/-- Is any usable spare lane free in the octet (R105): FEC lock and its HELLO name the partner of every port of the octet, and the
partner advertised SPARE (capability bit 2)? -/
def usableSpare (d : Dev) (p : Nat) : Option Nat :=
  let l := d.link p
  let used := (octPorts d (p / 8)).flatMap fun q => (d.link q).spareUse.map Prod.snd
  if bit l.caps 2 then
    (octSpares d (p / 8)).find? fun s => l.spareOk.contains s && !l.spareBad.contains s && !used.contains s
  else none

/-- The half of a port (0 low, 1 high) that holds no failed lane, if there is one (R107). -/
def goodHalf (d : Dev) (p : Nat) : Option Nat :=
  let w := octLanes d (p / 8)
  let first := p % 8
  let bad (h : Nat) : Bool := (d.link p).failed.any fun x => decide (first + h * (w / 2) ≤ x ∧ x < first + (h + 1) * (w / 2))
  if w < 2 ∨ (d.link p).narrowed then none else if !bad 0 then some 0 else if !bad 1 then some 1 else none

/-- Narrowing, or FAULT with the cause given when it is not armed or not possible (R106, R107). -/
def tryNarrow (d : Dev) (p cause : Nat) : Dev :=
  if d.flag .fltPortpol p 29 ∧ 2 ≤ octLanes d (p / 8) then
    match goodHalf d p with
    | some h => sendCtl (d.modLink p fun l => { l with proc := some { kind := .narrow, a := h } }) p (.narrowReq h)
    | none => enterFault d p 0x01
  else enterFault d p cause

/-- A swap or narrowing pre-empts the procedure that runs (R97): a trickle entry or wake is abandoned, a key switch resumes later. -/
def preempt (d : Dev) (p : Nat) : Dev :=
  let l := d.link p
  match l.proc with
  | some r => match r.kind with
    | .key => d.modLink p fun l => { l with proc := none, keySusp := some r }
    | .trickle => (d.modLink p fun l => { l with proc := none }).finish 0x0203 p .busy
    | .wake => (d.modLink p fun l => { l with proc := none, st := .trickle, wakeMine := false, wakePeer := false }).finish 0x0204 p .busy
    | _ => d
  | none => d

/-- A lane of a port fails (R104 to R107): counted; the trickle lane takes the port to FAULT with cause 0x08 (R113); else a usable
spare is asked for when SPARE is armed, else narrowing, else FAULT with cause 0x01. -/
def laneFail (p lane : Nat) (d : Dev) : Dev :=
  let d := (d.modLink p fun l => { l with failed := if l.failed.contains lane then l.failed else lane :: l.failed }).count .cLanefail p
  let l := d.link p
  if l.st = .trickle ∨ l.st = .waking then (if lane = p % 8 then enterFault d p 0x08 else d)
  else if l.st ≠ .up then d
  else
    let d := preempt d p
    match (if d.flag .fltPortpol p 30 then usableSpare d p else none) with
    | some sp => sendCtl (d.modLink p fun l => { l with proc := some { kind := .spare, a := lane, b := sp } }) p (.spareReq lane sp)
    | none => tryNarrow d p 0x01

/-- The port a lane of an octet belongs to. -/
def laneInPort (d : Dev) (p lane : Nat) : Bool :=
  decide (p % 8 ≤ lane ∧ lane < p % 8 + octLanes d (p / 8)) || (d.link p).spareUse.any fun e => e.2 == lane

/-- LANE_LOCK_LOSS: a lane loses FEC lock and is swapped at once (R104). `lane` is the lane in the octet. -/
def laneLockFx (p lane : Nat) (d : Dev) : Dev := if laneInPort d p lane then laneFail p lane d else d

def execLaneLockLoss (port lane : Nat) (s : State) : Out := onDev (laneLockFx port lane) s

/-- LANE_WINDOW_END: the lane's corrected symbols and uncorrectable codewords of the 1 ms window are counted; a lane above
2^LANETHR fails (R104, R114, R499: unit 13). -/
def laneWindowFx (p lane corrected uncorr : Nat) (d : Dev) : Dev :=
  let d := (d.countN .cFeccorr p corrected).countN .cFecuncorr p uncorr
  let d := d.corrected (dPT (portDie p)) 13 corrected
  if 2 ^ d.fld .ptPortCfg p 7 0 < corrected ∧ laneInPort d p lane then laneFail p lane d else d

def execLaneWindowEnd (port lane corrected uncorrectable : Nat) (s : State) : Out :=
  onDev (laneWindowFx port lane corrected uncorrectable) s

/-- Does a request that arrives while a procedure runs stand, and what becomes of our own (R97)? By rank, then by the lower EID; a
swap or narrowing pre-empts. `none`: refused. -/
def procRank : Proc → Nat
  | .spare => 0 | .narrow => 1 | .key => 2 | .trickle => 3 | .wake => 4

def stands (d : Dev) (p : Nat) (k : Proc) : Bool :=
  match (d.link p).proc with
  | none => true
  | some r =>
    if r.mine ∧ procRank k < procRank r.kind then true
    else if r.mine ∧ procRank k = procRank r.kind then decide ((d.link p).peer < d.tfp.eid)
    else (k == .spare || k == .narrow) && !(r.kind == .spare || r.kind == .narrow)

/-- Announce a key switch: KEY_SWITCH with the first FSEQ under the new slot, after the control flits owed (R110). -/
def startKey (d : Dev) (p : Nat) (slot : Bool) : Dev :=
  let first := seqAdd (d.link p).txSeq ((d.link p).ctlQ.length + 1)
  sendCtl (d.modLink p fun l => { l with newTx := some (slot, first) }) p (.keySwitch slot first)

/-- After a procedure ends, a key switch that it pre-empted or held up starts (R97). -/
def procEnd (d : Dev) (p : Nat) : Dev :=
  let susp := (d.link p).keySusp
  let d := d.modLink p fun l => { l with proc := none, keySusp := none }
  match susp with
  | some r => startKey d p (r.a == 1)
  | none => d

/-- The lane moves onto the spare, and what was lost is replayed (R106). -/
def swapLane (d : Dev) (p failed spare : Nat) : Dev :=
  let d := d.modLink p fun l =>
    { l with spared := true, splane := failed, spareUse := l.spareUse ++ [(failed, spare)]
             failed := l.failed.filter (· != failed) }
  let d := d.notice 0x0205 (portDie p) none p failed spare
  procEnd d p

/-- SPARE_REQ: answered with SPARE_ACK (R106); refused when the spare is not usable here or another procedure stands (R97). -/
def spareReqFx (p : Nat) (h : FlitHdr) (failed spare : Nat) (d : Dev) : Dev :=
  ctlRx p h (fun d =>
    if stands d p .spare ∧ (octSpares d (p / 8)).contains spare ∧ !(d.link p).spareBad.contains spare then
      let d := sendCtl (preempt d p) p (.spareAck failed spare false)
      swapLane d p failed spare
    else sendCtl d p (.spareAck failed spare true)) d

def execSpareReq (port : Nat) (h : FlitHdr) (failed spare : Nat) (s : State) : Out := onDev (spareReqFx port h failed spare) s

/-- The swap fails: narrowing if NARROW is armed, else FAULT with cause 0x04 (R106). -/
def swapFailed (d : Dev) (p : Nat) : Dev :=
  let d := d.modLink p fun l => { l with proc := none }
  if d.flag .fltPortpol p 29 then tryNarrow d p 0x04 else enterFault d p 0x04

/-- SPARE_ACK: the lane moves onto the spare, or the swap fails (R106). -/
def spareAckFx (p : Nat) (h : FlitHdr) (failed spare : Nat) (refuse : Bool) (d : Dev) : Dev :=
  ctlRx p h (fun d =>
    if (d.link p).proc = some { kind := .spare, a := failed, b := spare } then
      if refuse then swapFailed d p
      else
        let d := swapLane d p failed spare
        if (d.link p).replay.isEmpty then d else replay d p
    else d) d

def execSpareAck (port : Nat) (h : FlitHdr) (failed spare : Nat) (refuse : Bool) (s : State) : Out :=
  onDev (spareAckFx port h failed spare refuse) s

/-- SPARE_ACK_TIMEOUT: no SPARE_ACK within 4 µs (R106). -/
def spareAckTmoFx (p : Nat) (d : Dev) : Dev :=
  match (d.link p).proc with
  | some r => if r.kind = .spare ∧ r.mine then swapFailed d p else d
  | none => d

def execSpareAckTimeout (port : Nat) (s : State) : Out := onDev (spareAckTmoFx port) s

/-- SPARE_HELLO_TIMER: each spare lane of the octet sends its HELLO; a spare whose partner's HELLO named an EID other than that of every
port of the octet is marked unusable, with a SPAREBAD notice (R105). `heard`: the EIDs the spare lanes last named. -/
def spareHelloFx (oct : Nat) (heard : List (Nat × Nat)) (d : Dev) : Dev :=
  let ports := octPorts d oct
  let lead := ports.headD (8 * oct)
  let d := foldOver (octSpares d oct) d fun _ d => sendHello d lead true
  foldOver heard d fun e d =>
    if !(octSpares d oct).contains e.1 then d
    else
      let same := ports.all fun q => (d.link q).peer == e.2
      let upd (l : Link) : Link :=
        if same then { l with spareOk := e.1 :: l.spareOk.filter (· != e.1), spareBad := l.spareBad.filter (· != e.1) }
        else { l with spareOk := l.spareOk.filter (· != e.1), spareBad := e.1 :: l.spareBad.filter (· != e.1) }
      let d := foldOver ports d fun q d => d.modLink q upd
      if same then d else d.notice 0x0206 (oct / 8) none oct e.2 0

def execSpareHelloTimer (octet : Nat) (heard : List (Nat × Nat)) (s : State) : Out := onDev (spareHelloFx octet heard) s

/-- Both ends go on at half width (R107). -/
def narrowTo (d : Dev) (p half : Nat) : Dev :=
  let d := d.modLink p fun l => { l with narrowed := true, half := half, width := l.width - 1 }
  procEnd d p

/-- NARROW_REQ: answered with NARROW_ACK (R107); refused where NARROW is not armed at this end, the port has one lane or the half
asked for holds a failed lane, or another procedure stands (R97, log 9). -/
def narrowReqFx (p : Nat) (h : FlitHdr) (half : Nat) (d : Dev) : Dev :=
  ctlRx p h (fun d =>
    let w := octLanes d (p / 8)
    let badHalf := (d.link p).failed.any fun x => decide (p % 8 + half * (w / 2) ≤ x ∧ x < p % 8 + (half + 1) * (w / 2))
    if stands d p .narrow ∧ 2 ≤ w ∧ !(d.link p).narrowed ∧ !badHalf then
      let d := sendCtl (preempt d p) p (.narrowAck half false)
      let d := narrowTo d p half
      if (d.link p).replay.isEmpty then d else replay d p
    else sendCtl d p (.narrowAck half true)) d

def execNarrowReq (port : Nat) (h : FlitHdr) (half : Nat) (s : State) : Out := onDev (narrowReqFx port h half) s

/-- NARROW_ACK: half width, or FAULT with cause 0x04 (R107). -/
def narrowAckFx (p : Nat) (h : FlitHdr) (half : Nat) (refuse : Bool) (d : Dev) : Dev :=
  ctlRx p h (fun d =>
    if (d.link p).proc = some { kind := .narrow, a := half } then
      if refuse then enterFault d p 0x04
      else
        let d := narrowTo d p half
        if (d.link p).replay.isEmpty then d else replay d p
    else d) d

def execNarrowAck (port : Nat) (h : FlitHdr) (half : Nat) (refuse : Bool) (s : State) : Out :=
  onDev (narrowAckFx port h half refuse) s

/-- NARROW_ACK_TIMEOUT: no NARROW_ACK within 4 µs: FAULT with cause 0x04 (R107, down cause table). -/
def narrowAckTmoFx (p : Nat) (d : Dev) : Dev :=
  match (d.link p).proc with
  | some r => if r.kind = .narrow ∧ r.mine then enterFault d p 0x04 else d
  | none => d

def execNarrowAckTimeout (port : Nat) (s : State) : Out := onDev (narrowAckTmoFx port) s

/-! ### Key switch (R108–R110) -/

/-- KEY_SWITCH: the receiver keeps the old receive key until its ACKSEQ covers the last flit sent under it (R110). -/
def keySwitchFx (p : Nat) (h : FlitHdr) (slot : Bool) (first : Nat) (d : Dev) : Dev :=
  ctlRx p h (fun d =>
    if stands d p .key then
      d.modLink p fun l => { l with oldRx := some (l.rxSlot, first), rxSlot := slot, proc := none }
    else d) d

def execKeySwitch (port : Nat) (h : FlitHdr) (slot : Bool) (first : Nat) (s : State) : Out :=
  onDev (keySwitchFx port h slot first) s

/-- TX_KEY_EXHAUSTED: 2^48 flits under one transmit key take the port to FAULT with cause 0x06 (R110). -/
def txKeyFx (p : Nat) (d : Dev) : Dev := if (d.link p).encact then enterFault d p 0x06 else d

def execTxKeyExhausted (port : Nat) (s : State) : Out := onDev (txKeyFx port) s

/-! ### Trickle and wake (R111–R113) -/

/-- Both ends of an accepted trickle entry: one lane at 53.125 Gb/s, equaliser settings stored again (R111, R112). -/
def enterTrickle (d : Dev) (p : Nat) : Dev :=
  let d := d.modLink p fun l => { l with st := .trickle, width := 0, rate := 2, eqStored := true }
  let d := procEnd d p
  (if (d.link p).replay.isEmpty then d else replay d p).finish 0x0203 p .ok

/-- TRICKLE_REQ: accepted by a port in UP with TRKOK whose procedures are free (R97, R111). -/
def trickleReqFx (p : Nat) (h : FlitHdr) (d : Dev) : Dev :=
  ctlRx p h (fun d =>
    if (d.link p).st = .up ∧ d.flag .ptPortCfg p 29 ∧ stands d p .trickle then
      enterTrickle (sendCtl (d.modLink p fun l => { l with proc := none }) p (.trickleAck false)) p
    else sendCtl d p (.trickleAck true)) d

def execTrickleReq (port : Nat) (h : FlitHdr) (s : State) : Out := onDev (trickleReqFx port h) s

/-- TRICKLE_ACK: the port moves to one lane, or stays UP and the command ends UNSUPPORTED (R111). -/
def trickleAckFx (p : Nat) (h : FlitHdr) (refuse : Bool) (d : Dev) : Dev :=
  ctlRx p h (fun d =>
    if (d.link p).proc = some { kind := .trickle } then
      if refuse then (procEnd d p).finish 0x0203 p .unsupported else enterTrickle d p
    else d) d

def execTrickleAck (port : Nat) (h : FlitHdr) (refuse : Bool) (s : State) : Out := onDev (trickleAckFx port h refuse) s

/-- Start bringing the sleeping lanes to full rate, traffic going on at the trickle lane (R112). -/
def startWaking (d : Dev) (p : Nat) (mine : Bool) : Dev :=
  d.modLink p fun l => { l with st := .waking, wakeMine := false, wakePeer := false, wakeSlow := false
                                proc := some { kind := .wake, mine := mine } }

/-- WAKE_REQ: the sleeping lanes are brought to full rate (R112); a wake of our own that crosses it is the same wake (R97). -/
def wakeReqFx (p : Nat) (h : FlitHdr) (d : Dev) : Dev :=
  ctlRx p h (fun d =>
    if (d.link p).st = .trickle ∧ stands d p .wake then startWaking d p false else d) d

def execWakeReq (port : Nat) (h : FlitHdr) (s : State) : Out := onDev (wakeReqFx port h) s

/-- Once both ends are ready the port switches over to full width and rate and is UP (R112). -/
def wakeDone (d : Dev) (p : Nat) : Dev :=
  let l := d.link p
  if l.st = .waking ∧ l.wakeMine ∧ l.wakePeer then
    let d := d.modLink p fun l =>
      { l with st := .up, width := d.fld .ptOctetCfg (p / 8) 26 25, rate := d.fld .ptOctetCfg (p / 8) 29 27, eqStored := true }
    let sched := { d.sched with vlu := tdel d.sched.vlu p, vlm := tdel d.sched.vlm p }
    (procEnd { d with sched := sched } p).finish 0x0204 p .ok
  else d

/-- WAKE_LANES_READY: all lanes pass the training check, so WAKE_READY is sent (R112). `slow` names a lane that failed its check with
stored settings and ran full training: a WAKESLOW notice (R113). -/
def wakeLanesFx (p : Nat) (slow : Option Nat) (d : Dev) : Dev :=
  if (d.link p).st = .waking then
    let d := match slow with
      | some lane => d.notice 0x0207 (portDie p) none p lane 0
      | none => d
    wakeDone ((sendCtl d p .wakeReady).modLink p fun l => { l with wakeMine := true, wakeSlow := slow.isSome }) p
  else d

def execWakeLanesReady (port : Nat) (slow : Option Nat) (s : State) : Out := onDev (wakeLanesFx port slow) s

/-- WAKE_READY: the partner's lanes are ready (R112). -/
def wakeReadyFx (p : Nat) (h : FlitHdr) (d : Dev) : Dev :=
  ctlRx p h (fun d =>
    if (d.link p).st = .waking then wakeDone (d.modLink p fun l => { l with wakePeer := true }) p else d) d

def execWakeReady (port : Nat) (h : FlitHdr) (s : State) : Out := onDev (wakeReadyFx port h) s

/-- WAKE_TRAINING_FAIL: full training fails too: back to TRICKLE, the command ends TIMEOUT, a WAKEFAIL notice (R113). -/
def wakeFailFx (p lane : Nat) (d : Dev) : Dev :=
  if (d.link p).st = .waking then
    let d := d.modLink p fun l => { l with st := .trickle, wakeMine := false, wakePeer := false }
    ((procEnd d p).notice 0x0208 (portDie p) none p lane 0).finish 0x0204 p .timeout
  else d

def execWakeTrainingFail (port lane : Nat) (s : State) : Out := onDev (wakeFailFx port lane) s

/-- TRICKLE_LANE_LOSS: the trickle lane fails in TRICKLE or WAKING: FAULT with cause 0x08, no spare or narrowing (R113). -/
def trickleLossFx (p : Nat) (d : Dev) : Dev :=
  if (d.link p).st = .trickle ∨ (d.link p).st = .waking then enterFault (d.count .cLanefail p) p 0x08 else d

def execTrickleLaneLoss (port : Nat) (s : State) : Out := onDev (trickleLossFx port) s

/-- LINKDOWN: FAULT with cause 0x07 (R94, down cause table). -/
def linkDownFx (p : Nat) (h : FlitHdr) (d : Dev) : Dev :=
  ctlRx p h (fun d => if (d.link p).st.carries then enterFault d p 0x07 else d) d

def execLinkdown (port : Nat) (h : FlitHdr) (_cause : Nat) (s : State) : Out := onDev (linkDownFx port h) s

end Sys2Proof.Machine
end

