-- ==== Sys2Proof/Machine/Resets.lean ====
section
/-! DEFINITION. Trickle and wake commands, standby, resets of ports, dies and the package, boot, start-up, modes, the test port
(R111, R112, R577–R593, R601, R613). -/

namespace Sys2Proof.Machine
open Sys2Proof

/-! ### TRICKLE and WAKE (R111, R112) -/

/-- Could a port enter TRICKLE now: in UP, TRKOK set, its partner able to, no other procedure in the way (R97, R111)? -/
def trickleOk (d : Dev) (p : Nat) : Bool :=
  (d.link p).st == .up && d.flag .ptPortCfg p 29 && bit (d.link p).caps 1 && stands d p .trickle

/-- Ask the partner for TRICKLE. -/
def askTrickle (d : Dev) (p : Nat) : Dev := sendCtl (d.modLink p fun l => { l with proc := some { kind := .trickle } }) p .trickleReq

def trickleFx (b : Bas) (p : Nat) (d : Dev) : Dev :=
  let l := d.link p
  if !isPort d p ∨ l.st ≠ .up ∨ !d.flag .ptPortCfg p 29 ∨ !bit l.caps 1 then d.reply b 0x0203 .unsupported
  else if !stands d p .trickle then d.reply b 0x0203 .busy
  else (askTrickle d p).defer b .device 0x0203 p

/-- TRICKLE (R111): the reply comes with the partner's answer. -/
def execTrickle (b : Bas) (port : Nat) (s : State) : Out := onCmd (.trickle b port) b (devCmd 0x0203) (trickleFx b port) s

/-- Ask the partner to wake. -/
def askWake (d : Dev) (p : Nat) : Dev := startWaking (sendCtl d p .wakeReq) p true

def wakeFx (b : Bas) (p : Nat) (d : Dev) : Dev :=
  if !isPort d p ∨ (d.link p).st ≠ .trickle then d.reply b 0x0204 .unsupported
  else if !stands d p .wake then d.reply b 0x0204 .busy
  else (askWake d p).defer b .device 0x0204 p

/-- WAKE (R112). -/
def execWake (b : Bas) (port : Nat) (s : State) : Out := onCmd (.wake b port) b (devCmd 0x0204) (wakeFx b port) s

/-! ### Standby (R577–R579) -/

/-- Domains a power level leaves on (R577). -/
def levelDoms (level w : Nat) : List Nat :=
  if level = 1 then (upTo 37) ++ [61, 62, 63] else [2 * w, 2 * w + 1, 61, 62, 63]

/-- Change ENABLE of a port or tray link (R578, R579). -/
def putEnable (d : Dev) (p : Nat) (on : Bool) : Dev :=
  let was := d.enabled p
  enableChange (d.setReg .ptPortCfg p (setBits (d.reg .ptPortCfg p) 31 31 (b2n on))) p was

/-- Steps 2 and 3 of a standby entry (R578). -/
def standbyOff (d : Dev) (level w : Nat) : Dev :=
  let en := if level = 2 then (upTo 1024).filter fun p => d.enabled p && !d.pwr.asked.contains p && (isPort d p || (trayPort d p).isSome) else []
  let d := foldOver en { d with pwr := { d.pwr with saved := en } } fun p d => putEnable d p false
  let off := (upTo 61).filter fun p => !(levelDoms level w).contains p && d.domOn p
  let d := switchOff { d with pwr := { d.pwr with offByLevel := off } } off
  modeChg { d with pwr := { d.pwr with level := level } }

/-- The 1,024-bit mask of ports asked to trickle that did not, as sixteen words (R578). -/
def notTrickled (d : Dev) : List Nat :=
  let out := d.pwr.asked.filter fun p => (d.link p).st != .trickle
  (upTo 16).map fun i => (out.filter fun p => p / 64 == i).foldl (fun w p => w + 2 ^ (p % 64)) 0

/-- A standby entry goes on once no port it asked awaits its partner. -/
def pollEntry (d : Dev) : Dev :=
  match d.mgmt.running.find? fun r => r.opc == 0x0A03 with
  | none => d
  | some r =>
    let waits (p : Nat) : Bool := match (d.link p).proc with
      | some x => x.kind == .trickle && x.mine
      | none => false
    if d.pwr.asked.any waits then d
    else
      let d := standbyOff d r.key r.aux
      (pwrNotice d).finish 0x0A03 r.key .ok 0 0 (notTrickled d)

def standbyEnterFx (b : Bas) (level die : Nat) (ports : List Nat) (d : Dev) : Dev :=
  let bad := level = 0 ∨ 3 ≤ level ∨ (level = 2 ∧ (16 ≤ die ∨ ports.isEmpty ∨ 16 < ports.length ∨ ports.any fun p => portDie p != die || !isPort d p))
  if !idleComps d ∨ d.pwr.level ≠ 0 then d.reply b 0x0A03 .busy
  else if bad then d.reply b 0x0A03 .unsupported
  else
    let ask := if level = 1 then (d.links.filter fun e => e.2.st == .up).map Prod.fst else ports.eraseDups
    let d := { d with pwr := { d.pwr with asked := ask, saved := [], exitPh := false } }
    pollEntry ((foldOver (ask.filter (trickleOk d)) d fun p d => askTrickle d p).defer b .device 0x0A03 level die)

/-- STANDBY_ENTER (R578). -/
def execStandbyEnter (b : Bas) (level die : Nat) (ports : List Nat) (s : State) : Out :=
  onCmd (.standbyEnter b level die ports) b (pwrCmd 0x0A03) (standbyEnterFx b level die ports) s

/-- A standby exit goes on: with its dies joined it restores ENABLE and wakes every port in TRICKLE; with them awake LEVEL is 0 (R579). -/
def pollExit (d : Dev) : Dev :=
  if !d.isRunning 0x0A04 0 ∨ !maskUp d d.pwr.offByLevel then d
  else
    let d :=
      if d.pwr.exitPh then d
      else
        let d := foldOver d.pwr.saved d fun p d => putEnable d p true
        let sleep := ((d.links.filter fun e => e.2.st == .trickle).map Prod.fst).filter fun p => stands d p .wake
        let d := { d with pwr := { d.pwr with exitPh := true, asked := sleep, saved := [] } }
        foldOver sleep d fun p d => askWake d p
    if d.pwr.asked.any fun p => (d.link p).st == .waking then d
    else
      let d := { d with pwr := { d.pwr with level := 0, asked := [], offByLevel := [], exitPh := false } }
      (pwrNotice (modeChg d)).finish 0x0A04 0 .ok

def standbyExitFx (b : Bas) (d : Dev) : Dev :=
  if d.pwr.level = 0 then d.reply b 0x0A04 .ok
  else
    let on := seqOrder.filter fun p => d.pwr.toSeq.contains p || (d.pwr.offByLevel.contains p && !d.domOn p)
    pollExit ({ d with pwr := { d.pwr with toSeq := on, exitPh := false } }.defer b .device 0x0A04 0)

/-- STANDBY_EXIT (R579). -/
def execStandbyExit (b : Bas) (s : State) : Out := onCmd (.standbyExit b) b (pwrCmd 0x0A04) (standbyExitFx b) s

/-! ### Port reset (R583) -/

/-- A tray link's reset: down, its target held lost, PERST# asserted for 100 ms. -/
def resetTray (d : Dev) (link : Nat) : Dev :=
  holdLost (d.modTray link fun t => { t with trained := false, fullRate := false, perst := true }) 2 link

/-- A TFP port's reset: DOWN, keys zeroised, equaliser settings and spare lanes forgotten. -/
def resetLink (d : Dev) (p : Nat) : Dev :=
  (linkDisable d p).modLink p fun l => { l with eqStored := false, spareBad := [], spareOk := [] }

def resetPortFx (b : Bas) (p : Nat) (d : Dev) : Dev :=
  match (if p < 1024 then trayPort d p else none) with
  | some l =>
    if !d.domOn (mainDomain (portDie p)) then d.reply b 0x0A06 .busy
    else (resetTray d l).defer b .device 0x0A06 p
  | none =>
    if !isPort d p then d.reply b 0x0A06 .unsupported
    else if !d.domOn (mainDomain (portDie p)) then d.reply b 0x0A06 .busy
    else
      let d := resetLink d p
      if d.enabled p then (linkEnable d p).defer b .device 0x0A06 p
      else (d.notice 0x0A06 d.kpDie none 2 p 0).reply b 0x0A06 .ok

/-- RESET_PORT (R583): the reply comes with UP, NOTTFP or FAULT, a tray link's when PERST# is released. -/
def execResetPort (b : Bas) (port : Nat) (s : State) : Out := onCmd (.resetPort b port) b (pwrCmd 0x0A06) (resetPortFx b port) s

def execResetPortReplyTimeout (port : Nat) (s : State) : Out := onDev (fun d => resetPortDone d port) s

def perstEndFx (link : Nat) (d : Dev) : Dev :=
  if (d.tray link).perst then resetPortDone (d.modTray link fun t => { t with perst := false }) (8 * trayOct link) else d

/-- 100 ms after its reset a tray link's PERST# is released, and the link trains again (R583). -/
def execPerstHoldEnd (link : Nat) (s : State) : Out := onDev (perstEndFx link) s

/-! ### Die reset (R584) -/

/-- Cycle a die's domains: off, those that can be on only with it too, then on again in order, to be tested and joined. -/
def cycleDie (d : Dev) (die : Nat) : Dev :=
  let kin := ((dieDomains die).flatMap domainKin).eraseDups
  let back := dieDomains die ++ kin.filter fun p => d.domOn p
  let d := clearDie (switchOff d kin) die
  { d with pwr := { d.pwr with
      toSeq := seqOrder.filter fun p => d.pwr.toSeq.contains p || back.contains p
      resetting := if d.pwr.resetting.contains die then d.pwr.resetting else d.pwr.resetting ++ [die] } }

/-- A keeper is reset: it boots again, as standby. -/
def cycleKeeper (d : Dev) (n : Nat) : Dev :=
  let d := d.modKeeper n fun k => { k with booted := false, restarting := true }
  { d with
    pwr := { d.pwr with
      kpFault := d.pwr.kpFault.filter (· != n), on := setBits d.pwr.on (61 + n) (61 + n) 1, trip := setBits d.pwr.trip (61 + n) (61 + n) 0
      resetting := if d.pwr.resetting.contains (dKP n) then d.pwr.resetting else d.pwr.resetting ++ [dKP n] }
    flt := { d.flt with refLost := d.flt.refLost.filter (· != dKP n) } }

def resetDieFx (b : Bas) (die : Nat) (force : Bool) (hot : List Nat) (d : Dev) : Dev :=
  let there := decide (die < 31) || (decide (32 ≤ die) && decide (die < 40))
  let n := die - 29
  if !there ∨ (32 ≤ die ∧ !d.domOn (38 + 2 * (die - 32))) then d.reply b 0x0A07 .unsupported
  else if (dieDomains die).any fun p => bit d.pwr.trip p && hot.contains p then d.reply b 0x0A07 .busy
  else if die = 29 ∨ die = 30 then
    if d.mgmt.active = some n then
      if !force ∨ !keeperReady d (1 - n) then d.reply b 0x0A07 .busy
      else cycleKeeper (giveUp d 4) n
    else (cycleKeeper d n).defer b .device 0x0A07 die
  else if d.lost die then (cycleDie d die).defer b .device 0x0A07 die
  else if force then (cycleDie (holdDieLost d die) die).defer b .device 0x0A07 die
  else if dieMayStop d die then (cycleDie d die).defer b .device 0x0A07 die
  else d.reply b 0x0A07 .busy

/-- RESET_DIE (R584). `hot`: tripped domains whose sensors read above TWARN. -/
def execResetDie (b : Bas) (die : Nat) (force : Bool) (hot : List Nat) (s : State) : Out :=
  onCmd (.resetDie b die force hot) b (pwrCmd 0x0A07) (resetDieFx b die force hot) s

/-! ### Package resets (R580, R582, R585, R586) -/

/-- What a keeper's boot flash and fuses keep over every reset: slots, versions and SEL. -/
def Keeper.kept (k : Keeper) : Keeper :=
  { validA := k.validA, validB := k.validB, aver := k.aver, bver := k.bver, asvn := k.asvn, bsvn := k.bsvn, selB := k.selB, slotB := k.slotB }

/-- What the fuses and boot flashes keep of the keepers' state (R444, R445, R447, R545, R588). -/
def Mgmt.kept (m : Mgmt) : Mgmt :=
  { kp0 := m.kp0.kept, kp1 := m.kp1.kept, lastActive := m.lastActive, owner := m.owner, observers := m.observers, fuseSvn := m.fuseSvn
    revoked := m.revoked, debugLock := m.debugLock }

/-- The domains that come up at a reset: those KP_PWR_START names (R573, R590). -/
def startDoms (d : Dev) : List Nat := seqOrder.filter fun p => bit (d.reg .kpPwrStart 0) p

/-- A cold reset: everything but the meter, the fuses and the boot flashes at its reset value (R580). `porst`: PORST_N is low. -/
def coldReset (d : Dev) (lastRst : Nat) (porst : Bool) : Dev :=
  let start := d.reg .kpPwrStart 0
  let d := foldOver ((upTo 61).filter fun p => d.domOn p || d.pwr.waitPg.contains p) d fun p d => d.emit (.enable p false)
  { clk := d.clk, free := d.free, out := d.out
    cfg := d.cfg.filter fun e => e.1 == regKey .kpPwrStart 0
    mgmt := d.mgmt.kept, meter := d.meter
    pwr := { on := start, toSeq := startDoms d, lastRst := lastRst, start := d.pwr.start, porst := porst } }

/-- Registers a warm reset keeps (R585): keeper settings, SCH_PTP_CFG, and those of the ports in TRICKLE. -/
def warmCfg (ports : List Nat) (key : Nat) : Bool :=
  [regKey .kpMgmtCfg 0, regKey .kpMgmtAddr 0, regKey .kpMgmtAddr 1, regKey .kpThermCfg 0, regKey .kpPwrStart 0, regKey .schPtpCfg 0].contains key
    || (upTo 61).any (fun p => key == regKey .kpPaceTgt p)
    || ports.any fun p => key == regKey .ptOctetCfg (p / 8) || key == regKey .ptPortCfg p || key == regKey .schPortCfg p || key == regKey .fltPortpol p

/-- A port that stays in TRICKLE through a warm reset: the sorts of what it received are freed, their credits owed at once (R586). -/
def keepLink (d : Dev) (p : Nat) : Dev := foldOver (d.link p).held d fun h d => freeCharge d p h.1 h.2

/-- A warm reset (R585, R586). -/
def warmReset (d : Dev) (lastRst : Nat) : Dev :=
  let ports := (d.links.filter fun e => e.2.st == .trickle && d.dieUp (dPT (portDie e.1))).map Prod.fst
  let dies := (ports.map portDie).eraseDups
  let stay (p : Nat) : Bool := dies.contains (domainDie p) && decide (p < 32) && d.domOn p
  let d := foldOver ports d fun p d => keepLink d p
  let d := foldOver ((upTo 61).filter fun p => !stay p && (d.domOn p || d.pwr.waitPg.contains p)) d fun p d => d.emit (.enable p false)
  let m := d.mgmt.kept
  let start := d.reg .kpPwrStart 0
  let on := (upTo 61).foldl (fun w p => if stay p then setBits w p p 1 else w) start
  { clk := d.clk, free := d.free, out := d.out
    cfg := d.cfg.filter fun e => warmCfg ports e.1
    links := d.links.filter fun e => ports.contains e.1
    core := { hell := d.core.hell.filter fun e => e.2.1 }
    time := { frac := d.time.frac, rate := d.time.rate, st := .locking }
    flt := { ring := d.flt.ring, head := d.flt.head, logLost := d.flt.logLost, fatal := d.flt.fatal }
    mgmt := { m with nseq := d.mgmt.nseq, ring := d.mgmt.ring }
    meter := d.meter
    pwr := { on := on, toSeq := (startDoms d).filter fun p => !stay p, lastRst := lastRst, warmCnt := d.pwr.warmCnt + 1, start := d.pwr.start
             warmRun := true, kept := ports, thermShut := d.pwr.thermShut, faultN := d.pwr.faultN, tap := d.pwr.tap } }

def resetWarmFx (b : Bas) (cold : Bool) (d : Dev) : Dev :=
  let opc := if cold then 0x0A09 else 0x0A08
  if d.mgmt.activating then d.reply b opc .busy
  else { d.reply b opc .ok with pwr := { (d.reply b opc .ok).pwr with rstPend := some cold } }

/-- RESET_WARM (R582): the reply, then the reset 10 ms later. -/
def execResetWarm (b : Bas) (s : State) : Out := onCmd (.resetWarm b) b (pwrCmd 0x0A08) (resetWarmFx b false) s

/-- RESET_COLD (R582). -/
def execResetCold (b : Bas) (s : State) : Out := onCmd (.resetCold b) b (pwrCmd 0x0A09) (resetWarmFx b true) s

def resetBeginFx (d : Dev) : Dev := match d.pwr.rstPend with
  | none => d
  | some true => coldReset d 0x03 false
  | some false => warmReset d 0x04

def execResetBegin (s : State) : Out := onDev resetBeginFx s

/-- Power-on, or PORST_N low: it overrides everything else (R580, R613). -/
def execColdResetAssert (power : Bool) (s : State) : Out := onDev (fun d => coldReset d (if power then 0x01 else 0x02) true) s

/-- PORST_N is released: the keepers may boot. -/
def execColdResetRelease (s : State) : Out := onDev (fun d => { d with pwr := { d.pwr with porst := false } }) s

/-- A falling edge of WRST_N: ignored while PORST_N is low and while MODE reads BOOTING (R585, R613). -/
def execWarmResetInput (s : State) : Out := onDev (fun d => if d.pwr.porst ∨ d.pwr.mode = .booting then d else warmReset d 0x05) s

/-! ### Boot (R445, R447, R587, R588) -/

/-- ALTBOOT of a keeper that started from the slot SEL does not name (R588, R594). -/
def altNote (d : Dev) (n : Nat) : Dev :=
  let k := d.mgmt.keeper n
  if k.altBoot ∧ k.booted then d.notice 0x0A09 (dKP n) none n (b2n k.slotB) (b2n k.selB) else d

/-- Chases with an open account at the meter (R587). -/
def openChases (d : Dev) : List Nat := ((d.meter.gens.filter fun e => e.2.live).map fun e => e.1 / 64).eraseDups

/-- Domain sequencing begins and MODE becomes PROOF; a device that was shut down, or whose THERMSHUT_N is asserted, sequences nothing
(R592, R613). -/
def startUp (d : Dev) : Dev :=
  if d.flt.fatal then modeChg { d with pwr := { d.pwr with mode := .shutdown, on := bits d.pwr.on 63 61 * 2 ^ 61, toSeq := [] } }
  else if d.pwr.thermShut then shutDown d 1 1
  else
    let auto := (d.pwr.start.map fun r => r.autosvc).getD false
    modeChg { d with pwr := { d.pwr with mode := .proof, seqRun := true, startApplied := false, autoDue := auto, autoEnd := false } }

/-- A keeper becomes active with none active before it: at start-up it closes the accounts left open and begins the sequence. -/
def becomeActive (d : Dev) (n : Nat) : Dev :=
  let boot := d.pwr.mode = .booting
  let d := { d with mgmt := { d.mgmt with active := some n, lastActive := n, leaseAge := 0 } }
  let d := if boot then foldOver (openChases d) d fun c d => meterNote d false c else d
  let d := altNote (altNote d.collectLogs 0) 1
  if boot then startUp d else resumeFixes (d.notice 0x0905 (dKP n) none n 2 0)

/-- A keeper's firmware reports ready: it is active where no other is, else standby; a die reset of it ends (R516, R584); once both run
an activated slot, FWACTIVE is sent (R565). -/
def keeperUp (d : Dev) (n : Nat) : Dev :=
  let d := d.modKeeper n fun k => { k with booted := true, restarting := false, inService := true }
  let d := { d with flt := { d.flt with lostDies := d.flt.lostDies.filter (· != dKP n) }
                    pwr := { d.pwr with resetting := d.pwr.resetting.filter (· != dKP n) } }
  let d := if d.mgmt.active.isNone ∧ d.mgmt.takeover.isNone then becomeActive d n else altNote d n
  match d.mgmt.actSlot with
  | some s =>
    if d.mgmt.kp0.booted ∧ d.mgmt.kp1.booted ∧ d.mgmt.kp0.slotB = s ∧ d.mgmt.kp1.slotB = s then
      { d with mgmt := { d.mgmt with actSlot := none } }.notice 0x0C02 d.kpDie none 0 (b2n s) d.mgmt.kp0.runVer
    else d
  | none => d

/-- Both images fail: the keeper stays in ROM and asserts its fault output (R447). -/
def stayInRom (d : Dev) (n : Nat) : Dev :=
  { d with mgmt := { d.mgmt with romOnly := if d.mgmt.romOnly.contains n then d.mgmt.romOnly else d.mgmt.romOnly ++ [n] }
           pwr := { d.pwr with kpFault := if d.pwr.kpFault.contains n then d.pwr.kpFault else d.pwr.kpFault ++ [n] } }

/-- A keeper runs from a slot. -/
def runSlot (d : Dev) (n : Nat) (slotB : Bool) : Dev :=
  d.modKeeper n fun k =>
    { k with slotB := slotB, runVer := if slotB then k.bver else k.aver, altBoot := slotB != k.bootTo.getD k.selB, bootTo := none }

/-- May a keeper boot now: running nothing, not held in reset, not held lost but for a reset of it? -/
def mayBoot (d : Dev) (n : Nat) : Bool :=
  decide (n < 2) && !d.pwr.porst && !(d.mgmt.keeper n).booted && !d.mgmt.romOnly.contains n
    && (!d.lost (dKP n) || (d.mgmt.keeper n).restarting)

/-- The ROM reads and locks the UDS, then loads the slot SEL names, or the other where that image fails (R445, R447, R588). -/
def keeperBootFx (n : Nat) (selOk altOk ready : Bool) (d : Dev) : Dev :=
  if !mayBoot d n then d
  else
    let d := { d with mgmt := { d.mgmt with udsLocked := true } }
    let sel := (d.mgmt.keeper n).bootTo.getD (d.mgmt.keeper n).selB
    if !selOk && !altOk then stayInRom d n
    else
      let d := runSlot d n (if selOk then sel else !sel)
      if ready then keeperUp d n else d

def execKeeperBoot (keeper : Nat) (selOk altOk ready : Bool) (s : State) : Out := onPool (keeperBootFx keeper selOk altOk ready) s

/-- No report within 2 s: the keeper starts from the other slot, or stays in ROM where it has done so already (R588). -/
def bootTimeoutFx (n : Nat) (altOk : Bool) (d : Dev) : Dev :=
  if !mayBoot d n then d
  else
    let k := d.mgmt.keeper n
    if !k.altBoot ∧ altOk then keeperUp { runSlot d n (!k.slotB) with mgmt := ((runSlot d n (!k.slotB)).modKeeper n fun k => { k with altBoot := true }).mgmt } n else stayInRom d n

def execBootReadyTimeout (keeper : Nat) (altOk : Bool) (s : State) : Out := onPool (bootTimeoutFx keeper altOk) s

/-- Is a slot valid in both keepers' flashes? -/
def slotValid (d : Dev) (slotB : Bool) : Bool :=
  if slotB then d.mgmt.kp0.validB && d.mgmt.kp1.validB else d.mgmt.kp0.validA && d.mgmt.kp1.validA

def bootSelectFx (b : Bas) (slotB : Bool) (d : Dev) : Dev :=
  if !slotValid d slotB then d.reply b 0x0A0B .unsupported
  else
    let sel (d : Dev) (n : Nat) : Dev := d.modKeeper n fun k => { k with selB := slotB }
    (sel (sel { d with mgmt := { d.mgmt with actPend := false } } 0) 1).reply b 0x0A0B .ok

/-- BOOT_SELECT (R588). -/
def execBootSelect (b : Bas) (slotB : Bool) (s : State) : Out := onCmd (.bootSelect b slotB) b (pwrCmd 0x0A0B) (bootSelectFx b slotB) s

/-! ### The start record (R589) -/

/-- The registers a start record holds; a write to SCH_GATE_START is the commit of a list at an instant, not a setting, and is left out. -/
def startRegs : List RegName :=
  [.ptOctetCfg, .ptPortCfg, .ptTfpCfg, .ptClassCfg, .ptRedProf, .ptEgrCfg, .ptMcgrp, .ptMcCfg, .schClassCfg, .schShaper, .schPortCfg, .schPolicer
    , .schGateCtl, .schGateEnt, .schPtpCfg, .fltFabpol, .fltPortpol, .fltThr, .ptStallCfg]

/-- The register a key of the register file belongs to, if a start record holds it. -/
def startReg (key : Nat) : Option RegName := startRegs.find? fun r => r.ctorIdx == key / 2 ^ 64

/-- The record as the device stands. -/
def startRecord (d : Dev) (autosvc : Bool) : StartRec :=
  { words := d.cfg.filter fun e => (startReg e.1).isSome
    routeB := d.core.routeB, routeX := d.core.routeX, nhs := d.core.nhs.map fun e => (e.1, { e.2 with bad := [] })
    mcMem := d.core.mcMem, eid := d.tfp.eid, autosvc := autosvc }

/-- START_SAVE. -/
def execStartSave (b : Bas) (autosvc : Bool) (s : State) : Out :=
  onCmd (.startSave b autosvc) b (pwrCmd 0x0A0C)
    (fun d => { d with pwr := { d.pwr with start := some (startRecord d autosvc) } }.reply b 0x0A0C .ok) s

/-- START_CLEAR. -/
def execStartClear (b : Bas) (s : State) : Out :=
  onCmd (.startClear b) b (pwrCmd 0x0A0D) (fun d => { d with pwr := { d.pwr with start := none } }.reply b 0x0A0D .ok) s

/-- One word of the record: not of a die that cannot be reached, not of a port a warm reset kept; a port saved with ENCREQ comes back disabled. -/
def applyWord (d : Dev) (key v : Nat) : Dev := match startReg key with
  | none => d
  | some r =>
    let ix := key % 2 ^ 64
    if !regReach d (.reg r 0) ix ∨ warmCfg d.pwr.kept key then d
    else regApply d r ix (if r = .ptPortCfg ∧ bit v 30 then setBits v 31 31 0 else v)

/-- The record is applied as one batch, and with it a warm reset ends. -/
def applyStart (d : Dev) : Dev :=
  let d := match d.pwr.start with
    | none => d
    | some r =>
      let core := { d.core with routeB := r.routeB, routeX := r.routeX, nhs := r.nhs, mcMem := r.mcMem }
      foldOver r.words { d with core := core, tfp := { d.tfp with eid := r.eid } } fun e d => applyWord d e.1 e.2
  { d with pwr := { d.pwr with startApplied := true, warmRun := false, kept := [] } }

/-- It is due once every domain is sequenced and every port die has ended its self-test. -/
def pollStart (d : Dev) : Dev :=
  let tests := (d.pwr.stest ++ d.pwr.joining).any fun x => decide (x < 16)
  if d.pwr.startApplied ∨ d.mgmt.active.isNone ∨ !d.pwr.toSeq.isEmpty ∨ !d.pwr.waitPg.isEmpty ∨ tests ∨ d.pwr.mode ≠ .proof then d else applyStart d

/-! ### Modes (R592) -/

def serviceEnterFx (b : Bas) (d : Dev) : Dev :=
  if stest d ∨ d.pwr.mode = .shutdown then d.reply b 0x0E10 .busy
  else (setMode { d with pwr := { d.pwr with autoDue := false } } .service).reply b 0x0E10 .ok

/-- SERVICE_ENTER (R592). -/
def execServiceEnter (b : Bas) (s : State) : Out := onCmd (.serviceEnter b) b (devCmd 0x0E10) (serviceEnterFx b) s

def proofEnterFx (b : Bas) (d : Dev) : Dev :=
  if d.pwr.mode = .shutdown then d.reply b 0x0E11 .busy
  else setMode ({ d with pwr := { d.pwr with autoDue := false } }.reply b 0x0E11 .ok) .proof

/-- PROOF_ENTER (R592). -/
def execProofEnter (b : Bas) (s : State) : Out := onCmd (.proofEnter b) b (devCmd 0x0E11) (proofEnterFx b) s

/-- Ports the start record enabled. -/
def startPorts (d : Dev) : List Nat := match d.pwr.start with
  | none => []
  | some r => (r.words.filter fun e => startReg e.1 == some .ptPortCfg && bit e.2 31 && !bit e.2 30).map fun e => e.1 % 2 ^ 64

/-- With AUTOSVC saved: SERVICE once no self-test runs and every port the record enabled has settled, or 1 s has passed. -/
def autoServiceFx (d : Dev) : Dev :=
  let settled (p : Nat) : Bool := !isPort d p || (d.link p).st == .up || (d.link p).st == .notTfp || (d.link p).st == .fault
  if d.pwr.autoDue ∧ d.mgmt.active.isSome ∧ d.pwr.mode = .proof ∧ d.pwr.startApplied ∧ !stest d ∧ (d.pwr.autoEnd ∨ (startPorts d).all settled) then
    setMode { d with pwr := { d.pwr with autoDue := false } } .service
  else d

def execAutoService (s : State) : Out := onDev autoServiceFx s

/-- 1 s has passed since the record was applied. -/
def execAutosvcTimeout (s : State) : Out :=
  onDev (fun d => if d.pwr.autoDue ∧ d.pwr.startApplied then autoServiceFx { d with pwr := { d.pwr with autoEnd := true } } else d) s

/-! ### The test port (R601) -/

/-- TAP instructions in the order of R601: 0 BYPASS, 1 IDCODE, 2 SAMPLE/PRELOAD, 3 EXTEST, 4 EXTEST_PULSE, 5 EXTEST_TRAIN, 6 CLAMP, 7 HIGHZ. -/
def tapEffect (d : Dev) : Nat :=
  let free := d.pwr.mode == .booting || (d.pwr.mode == .proof && idleComps d)
  if d.pwr.tap ≤ 2 then d.pwr.tap else if d.pwr.tap ≤ 7 ∧ free then d.pwr.tap else 0

/-- The IDCODE (R601). -/
def idcode : Nat := 0x1D40996D

/-- An instruction is loaded; what it does is read from the mode (R601). -/
def execTapInstruction (instr : Nat) (s : State) : Out := onDev (fun d => { d with pwr := { d.pwr with tap := instr } }) s

/-! ### The keeper's poll -/

/-- Everything the keeper finishes once what it waits for has happened. -/
def powerPoll (d : Dev) : Dev := pollStart (pollExit (pollEntry (pollChaseReset (pollCache (pollDomains d)))))

end Sys2Proof.Machine
end

