-- ==== Sys2Proof/Machine/Meter.lean ====
section
/-! DEFINITION. The meter: accounts, attribution, colophons, the metrology authority (R472–R489). -/

namespace Sys2Proof.Machine
open Sys2Proof

/-! ### Counters (R473, R480) -/

/-- Counters are 64 bits and stay at their maximum. -/
abbrev top64 : Nat := 2 ^ 64 - 1

def Quant.add (a b : Quant) : Quant :=
  { galley := min (4096 * top64) (a.galley + b.galley), pool := min (512 * top64) (a.pool + b.pool), bin := min top64 (a.bin + b.bin)
    bout := min top64 (a.bout + b.bout), elem := min top64 (a.elem + b.elem), energy := min top64 (a.energy + b.energy) }

/-- Is any counter at its maximum? -/
def Quant.full (q : Quant) : Bool :=
  q.galley == 4096 * top64 || q.pool == 512 * top64 || q.bin == top64 || q.bout == top64 || q.elem == top64 || q.energy == top64

/-- Add to an account of a bank. -/
def MBank.acc (b : MBank) (acct : Nat) (q : Quant) : MBank := { b with acct := tmod {} b.acct acct (·.add q) }

def MBank.ports (b : MBank) (p sent got : Nat) : MBank :=
  { b with port := tmod (0, 0) b.port p fun x => (min top64 (x.1 + sent), min top64 (x.2 + got)) }

/-- Add energy to a domain. -/
def MBank.heat (b : MBank) (p e : Nat) : MBank := { b with dom := tmod 0 b.dom p fun x => min (2 ^ 63 - 1) (x + e) }

def MBank.rest (b : MBank) (e : Nat) : MBank := { b with unattr := min top64 (b.unattr + e) }

/-- Step 3 of R480: the shadow bank is added into the main bank. -/
def MBank.fold (a b : MBank) : MBank :=
  let x := foldOver b.acct a fun e a => a.acc e.1 e.2
  let x := foldOver b.port x fun e a => a.ports e.1 e.2.1 e.2.2
  let x := foldOver b.dom x fun e a => a.heat e.1 e.2
  x.rest b.unattr

def Dev.modMeter (d : Dev) (f : Meter → Meter) : Dev := { d with meter := f d.meter }

/-- What arrives goes to the main bank, during a commit to the shadow bank (R480). -/
def Meter.bank (m : Meter) (f : MBank → MBank) : Meter :=
  if m.committing.isSome then { m with shadow := f m.shadow } else { m with main := f m.main }

/-- Has an account an open generation? -/
def Meter.live (m : Meter) (acct : Nat) : Bool := (tget {} m.gens acct).live

/-! ### Opening and closing (R472) -/

def Meter.openChase (m : Meter) (chase : Nat) : Meter :=
  let seq := m.seq + 1 + b2n m.committing.isSome
  foldOver ((upTo 64).map (64 * chase + ·)) m fun a m =>
    let g := tget {} m.gens a
    { m with gens := tput m.gens a { live := true, gen := (g.gen + 1) % 65536, openSeq := seq }
             main := { m.main with acct := tdel m.main.acct a }, shadow := { m.shadow with acct := tdel m.shadow.acct a } }

def Meter.closeChase (m : Meter) (chase : Nat) : Meter :=
  foldOver (((upTo 64).map (64 * chase + ·)).filter m.live) m fun a m =>
    let g := tget {} m.gens a
    let q := (tget {} m.main.acct a).add (tget {} m.shadow.acct a)
    { m with gens := tput m.gens a { g with live := false }
             finals := m.finals ++ [{ acct := a, gen := g.gen, closed := true, q := q, openSeq := g.openSeq }]
             main := { m.main with acct := tdel m.main.acct a }, shadow := { m.shadow with acct := tdel m.shadow.acct a } }

/-- A notice of the keeper for a chase arrives: the oldest of that chase still on the link. -/
def noteFx (open_ : Bool) (chase : Nat) (d : Dev) : Dev :=
  if !d.meter.powered ∨ (d.meter.notes.find? fun n => n.2 == chase) ≠ some (open_, chase) then d
  else d.modMeter fun m =>
    let m := { m with notes := dropFirst (· == (open_, chase)) m.notes }
    if open_ then m.openChase chase else m.closeChase chase

def execMeterOpenNotice (chase : Nat) (s : State) : Out := onDev (noteFx true chase) s
def execMeterCloseNotice (chase : Nat) (s : State) : Out := onDev (noteFx false chase) s

/-! ### Export records (R476) -/

/-- What a die exports: its own counts; a press die also those of its stack. -/
def exports (die key : Nat) : Bool := key / 2 ^ 20 == die || (decide (16 ≤ die ∧ die < 24) && key / 2 ^ 20 == die + 16)

def exportFx (die : Nat) (d : Dev) : Dev :=
  let e := d.exp.filter fun x => exports die x.1
  let p := d.expPort.filter fun x => portDie x.1 == die
  if !d.meter.powered ∨ 24 ≤ die ∨ !d.dieUp die ∨ (e.isEmpty ∧ p.isEmpty) then d
  else
    let d : Dev := { d with exp := d.exp.filter (fun x => !exports die x.1), expPort := d.expPort.filter (fun x => portDie x.1 != die) }
    d.modMeter fun m => { m with wire := m.wire ++ [{ die := die, exp := e, port := p }] }

def execExportRecordDue (die : Nat) (s : State) : Out := onDev (exportFx die) s

/-- An increment of a record: none for an account without an open generation; its activity counts all the same. -/
def Meter.increment (m : Meter) (k n : Nat) : Meter :=
  let a := k / 4 % 2 ^ 18
  let m := { m with act := tmod 0 m.act k (· + n) }
  if !m.live a then m
  else match k % 4 with
    | 0 => m.bank fun b => b.acc a { bin := n }
    | 1 => m.bank fun b => b.acc a { bout := n }
    | 2 => m.bank fun b => b.acc a { elem := n }
    | _ => m

def exportRxFx (die : Nat) (d : Dev) : Dev :=
  match d.meter.wire.find? fun r => r.die == die with
  | none => d
  | some r =>
    if !d.meter.powered then d
    else d.modMeter fun m =>
      let m := { m with wire := dropFirst (fun x => x.die == die) m.wire }
      let m := foldOver r.exp m fun e m => m.increment e.1 e.2
      foldOver r.port m fun e m => m.bank fun b => b.ports e.1 e.2.1 e.2.2

def execMeterExportRecord (die : Nat) (s : State) : Out := onDev (exportRxFx die) s

/-! ### The 1 ms sample (R473, R474) -/

/-- Galley lines allocated to the accounts of a chase: its galley-resident folios, a mirrored one twice, its window lines, its shadows. -/
def galleyLines (d : Dev) (chase : Nat) (c : Comp) : List (Nat × Nat) :=
  let old := (c.drnF.map fun f => f.folios.filter fun e => !(c.curF.folios.any fun x => x.2.loc == e.2.loc)).getD []
  let folios := ((c.curF.folios ++ old).filter fun e => e.2.kind == 1).map fun e => (e.2.party, 8192 * (1 + b2n (e.2.use == 1)))
  let windows := (d.pool.lines.filter fun l => l.chase == chase && l.window).map fun l => (l.party, 1)
  let party (pva : Nat) : Nat := ((tfind c.curF.folios (pva / folioB)).map fun f => f.party).getD 0
  let shadows := (d.pool.layers.filter fun l => l.chase == chase && !l.staged && l.shres).map fun l => (party l.pva, 16 * l.shpages)
  folios ++ windows ++ shadows

/-- GALLEY and POOL are sampled. -/
def sampleSpace (d : Dev) : Dev :=
  let adds : List (Nat × Quant) :=
    (d.imp.comps.filter fun e => e.2.bound).flatMap fun e => (galleyLines d e.1 e.2).map fun x => (64 * e.1 + x.1, ({ galley := x.2 } : Quant))
  let pools : List (Nat × Quant) := d.meter.census.flatMap fun e => e.2.parties.map fun p => (64 * e.1 + p.1, ({ pool := p.2 } : Quant))
  d.modMeter fun m => foldOver (adds ++ pools) m fun x m => if m.live x.1 then m.bank fun b => b.acc x.1 x.2 else m

/-- Activity of each account in a domain during the window (attribution table). -/
def activity (act : Tbl Nat) (p : Nat) : List (Nat × Nat) :=
  let take (f : Nat → Nat → Bool) : List (Nat × Nat) := (act.filter fun e => f (e.1 / 2 ^ 20) (e.1 % 4)).map fun e => (e.1 / 4 % 2 ^ 18, e.2)
  if p < 32 then take fun die q => die == p / 2 && decide (q < 2)
  else if p < 37 then take fun _ q => decide (q < 2)
  else if p < 53 ∧ p % 2 = 1 then take fun die q => die == 16 + (p - 37) / 2 && q == 2
  else if p < 61 then take fun die q => die == 32 + (if p < 53 then (p - 38) / 2 else p - 53) && q == 3
  else []

/-- The activities of one account added up. -/
def perAccount (l : List (Nat × Nat)) : Tbl Nat := l.foldl (fun t x => tmod 0 t x.1 (· + x.2)) []

/-- Attribute a domain's energy of a window: floor shares, the remainder and the shares of closed accounts to UNATTR (R472, R474). -/
def Meter.attribute (m : Meter) (p e : Nat) : Meter :=
  let xs := perAccount (activity m.act p)
  let sum := sumNat (xs.map Prod.snd)
  let m := m.bank fun b => b.heat p e
  if sum = 0 then m.bank fun b => b.rest e
  else
    let parts := xs.map fun x => (x.1, e * x.2 / sum)
    let mine := parts.filter fun x => m.live x.1
    let m := foldOver mine m fun x m => m.bank fun b => b.acc x.1 { energy := x.2 }
    m.bank fun b => b.rest (e - sumNat (mine.map Prod.snd))

/-- A sample: `uj` the energy of each domain in the window, in µJ; `alarms` domains above their rated current, with the current. -/
def sampleFx (uj alarms : List (Nat × Nat)) (d : Dev) : Dev :=
  if !d.meter.powered then d
  else
    let d := sampleSpace (d.modMeter fun m => { m with mtime := m.mtime + 1000 })
    let energy (p : Nat) : Nat := if d.meter.sfault.contains p then 0 else sumNat ((uj.filter fun x => x.1 == p).map Prod.snd)
    let d := d.modMeter fun m => { (upTo 64).foldl (fun m p => m.attribute p (energy p)) m with act := [] }
    foldOver alarms d fun a d => meterNotice d 0x0B04 dPackage a.1 a.2

def execMeterSampleTick (uj alarms : List (Nat × Nat)) (s : State) : Out := onDev (sampleFx uj alarms) s

/-- The keeper sends the fabric time (R477). -/
def timeTickFx (d : Dev) : Dev :=
  if d.mgmt.active.isSome ∧ d.meter.powered then d.modMeter fun m => { m with ft := d.now } else d

def execKeeperTimeTick (s : State) : Out := onDev timeTickFx s

/-- A sense line fails (R475). -/
def senseFx (p : Nat) (d : Dev) : Dev :=
  if !d.meter.powered ∨ 64 ≤ p ∨ d.meter.sfault.contains p then d
  else meterNotice (d.modMeter fun m => { m with sfault := m.sfault ++ [p] }) 0x0B02 dPackage p 0

def execSenseLineFault (pwd : Nat) (s : State) : Out := onDev (senseFx pwd) s

/-! ### Census (R478) -/

/-- A copy arrives: with identical copies from more than half of the powered port dies the census is accepted. `copy`: what the die sent,
none for what the Imposer wrote. -/
def censusFx (chase die : Nat) (copy : Option Census) (d : Dev) : Dev :=
  if !d.meter.powered ∨ 16 ≤ die ∨ !d.dieUp die then d
  else
    let c := copy.getD (tget {} d.imp.census chase)
    let copies := (d.meter.copies.filter fun x => !(x.1 == chase && x.2.1 == die)) ++ [(chase, die, c)]
    let same := (copies.filter fun x => x.1 == chase && x.2.2 == c).length
    if ((upTo 16).filter d.dieUp).length < 2 * same then
      d.modMeter fun m => { m with census := tput m.census chase c, copies := copies.filter (fun x => x.1 != chase), lastDiff := false }
    else d.modMeter fun m => { m with copies := copies }

def execCensusCopyRx (chase die : Nat) (copy : Option Census) (s : State) : Out := onDev (censusFx chase die copy) s

/-- 10 ms after the first copy without a majority. -/
def censusTmoFx (chase : Nat) (d : Dev) : Dev :=
  if !d.meter.powered ∨ !(d.meter.copies.any fun x => x.1 == chase) then d
  else
    let d := d.modMeter fun m => { m with copies := m.copies.filter (fun x => x.1 != chase), diff := true, lastDiff := true }
    meterNotice d 0x0B03 dPackage 0 0

def execCensusTimeout (chase : Nat) (s : State) : Out := onDev (censusTmoFx chase) s

/-! ### Colophons (R479–R482, R488) -/

def MEntry.word (e : MEntry) : Nat :=
  (e.acct / 64) <<< 500 + (e.acct % 64) <<< 494 + e.gen <<< 478 + b2n e.closed <<< 476 + (e.q.galley / 4096) <<< 384 + (e.q.pool / 512) <<< 320
    + e.q.bin <<< 256 + e.q.bout <<< 192 + e.q.elem <<< 128 + e.q.energy <<< 64 + e.openSeq % 2 ^ 64

/-- The header (colophon header map). -/
def Colophon.header (c : Colophon) : Nat :=
  c.prev % 2 ^ 384 <<< 640 + c.seq % 2 ^ 64 <<< 576 + c.mstart % 2 ^ 64 <<< 512 + c.mend % 2 ^ 64 <<< 448 + c.ftend % 2 ^ 64 <<< 384
    + c.sealCnt % 2 ^ 32 <<< 352 + c.lrsum % 2 ^ 32 <<< 320 + c.supp % 2 ^ 32 <<< 288 + c.entries.length <<< 264 + c.interval <<< 248
    + c.kind <<< 240 + c.cflags <<< 232 + 1 <<< 224

/-- Every byte before the signature (R481). -/
def Colophon.body (c : Colophon) : List Byte :=
  leBytes 128 c.header ++ c.entries.flatMap (fun e => leBytes 64 e.word)
    ++ (upTo 1024).flatMap (fun p => leBytes 8 (tget (0, 0) c.port p).1 ++ leBytes 8 (tget (0, 0) c.port p).2)
    ++ (upTo 64).flatMap (fun p => leBytes 8 (b2n (c.sfault.contains p) <<< 63 + tget 0 c.dom p)) ++ leBytes 8 c.unattr

def Colophon.bytes (c : Colophon) : List Byte := c.body ++ c.sig

/-- Its size in bytes (R481). -/
def Colophon.size (c : Colophon) : Nat := 17128 + 64 * c.entries.length

/-- Account entries of a colophon, in account order: the final entries of the interval and the open accounts not all zero (R481). -/
def Meter.entries (m : Meter) : List MEntry :=
  let mine := (m.main.acct.filter fun e => m.live e.1 && e.2 != {}).map fun e =>
    let g := tget {} m.gens e.1
    ({ acct := e.1, gen := g.gen, q := e.2, openSeq := g.openSeq } : MEntry)
  (m.finals ++ mine).mergeSort fun a b => decide (a.acct ≤ b.acct)

/-- Assemble and sign a colophon that ends the running interval. -/
def Meter.colophon (m : Meter) (kind mend draw : Nat) : Colophon :=
  let es := m.entries
  let full := es.any (fun e => e.q.full) || m.main.port.any (fun e => e.2.1 == top64 || e.2.2 == top64) || m.main.unattr == top64
    || m.main.dom.any fun e => e.2 == 2 ^ 63 - 1
  let c : Colophon :=
    { prev := m.prevHash, seq := m.seq + 1, mstart := m.mstart, mend := mend, ftend := m.ft, sealCnt := m.sealCnt, lrsum := m.lrSum
      supp := m.supp, interval := m.interval, kind := kind
      cflags := b2n full + 2 * b2n m.diff + 4 * b2n m.slow + 8 * b2n m.lost + 16 * b2n m.flagInt
      entries := es, port := m.main.port, dom := m.main.dom, sfault := m.sfault, unattr := m.main.unattr }
  { c with sig := leBytes 96 (Config.ecdsa 2 draw c.body) }

/-- The boundary ending the running interval, in µs of meter time. -/
def Meter.boundary (m : Meter) : Nat := (m.mstart / (m.interval * 1000000) + 1) * (m.interval * 1000000)

/-- A boundary (R479, R480): the main bank stands still while the colophon is written; a new INTERVAL is in force from here (R484). -/
def boundaryFx (d : Dev) : Dev :=
  let m := d.meter
  if !m.powered ∨ m.committing.isSome then d
  else
    let (n, d) := d.draw
    let c := m.colophon (if m.resume then 2 else 0) m.boundary n
    { d with meter := { m with
        committing := some c, mstart := c.mend, mtime := max m.mtime c.mend, interval := m.newInt.getD m.interval, newInt := none
        flagInt := m.newInt.isSome, finals := [], diff := false, slow := false, lost := false, resume := false, supp := 0 } }

def execColophonBoundary (s : State) : Out := onDev boundaryFx s

/-- Make room in the store (R482): the oldest acknowledged colophon goes, else the oldest. The count of unacknowledged ones overwritten. -/
def storeRoom (size : Nat) : Nat → List (Bool × Colophon) → Nat → List (Bool × Colophon) × Nat
  | 0, l, n => (l, n)
  | k + 1, l, n =>
    if sumNat (l.map fun c => c.2.size) + size ≤ gib then (l, n)
    else if l.any fun c => c.1 then storeRoom size k (dropFirst (fun c => c.1) l) n
    else storeRoom size k (l.drop 1) (n + 1)

/-- Write a colophon: the store, the chain, what a return of power starts from, METREC. -/
def storeColophon (d : Dev) (c : Colophon) : Dev :=
  let m := d.meter
  let (st, nLost) := storeRoom c.size m.store.length m.store 0
  let d := d.modMeter fun m => { m with
    store := st ++ [(false, c)], lostRec := m.lostRec + nLost, seq := c.seq, prevHash := Config.sha384 c.bytes, saved := m.main, savedGens := m.gens }
  let d := if nLost = 0 then d else meterNotice d 0x0B05 dPackage d.meter.lostRec 0
  meterNotice d 0x0B01 dPackage c.seq 0

/-! ### The metrology authority (R483–R486) -/

/-- A seal event (authority command table). -/
def Meter.sealEvent (m : Meter) (e : Nat) : Meter := { m with sealCnt := m.sealCnt + 1, lastEvt := e }

/-- Carry an authority command out: the status, resource and shortfall of its reply, and the meter. -/
def Meter.authority (m : Meter) (c : MtCmd) : (Status × Nat × Nat) × Meter :=
  let ok (m : Meter) : (Status × Nat × Nat) × Meter := ((.ok, 0, 0), { m with acnt := c.auth.acnt })
  let no (s : Status) : (Status × Nat × Nat) × Meter := ((s, 0, 0), m)
  if c.opc = 0x0B10 ∧ (!c.pin ∨ m.auth.isSome) then no .denied
  else if !c.auth.sigOk ∨ c.auth.acnt ≤ m.acnt ∨ (m.auth.isNone ∧ c.opc ≠ 0x0B10) then no .sealed_
  else if c.opc = 0x0B10 then ok ({ m with auth := some c.val }.sealEvent 1)
  else if c.opc = 0x0B11 then
    if 15 ≤ m.repl then ((.noFit, 13, 1), m) else ok ({ m with auth := some c.val, repl := m.repl + 1 }.sealEvent 2)
  else if c.opc = 0x0B12 then
    if 1 ≤ c.val ∧ c.val ≤ 3600 then ok { m with newInt := some c.val } else no .unsupported
  else if c.opc = 0x0B13 then
    if c.imgOk then
      let h := Config.sha384 c.image
      ok ({ m with lrMaj := c.val % 256, lrMin := c.val2 % 256, lrDigest := h, lrSum := h % 2 ^ 32 }.sealEvent 3)
    else no .sealed_
  else if c.corr.all (fun x => decide (x.1 < 64)) then
    ok ({ m with corr := c.corr.foldl (fun t (x : Nat × Nat × Nat) => tput t x.1 x.2) m.corr }.sealEvent 4)
  else no .unsupported

/-- The reply of an authority command. -/
def mtAnswer (d : Dev) (c : MtCmd) (send : Dev → Status → Nat → Nat → List Nat → Dev) : Dev :=
  let ((st, res, short), m) := d.meter.authority c
  let d := { d with meter := m }
  if st = .noFit then send d st 0x01 res [short] else send d st 0 0 []

/-- The end of a commit (R480): the colophon is in the store, the shadow is folded in, an authority command that waited is carried out. `retried`:
a write failed and the next free block took it. -/
def commitDoneFx (retried : Bool) (d : Dev) : Dev :=
  match d.meter.committing with
  | none => d
  | some c =>
    let d := storeColophon d c
    let d := d.modMeter fun m => { m with committing := none, main := m.main.fold m.shadow, shadow := {}, slow := m.slow || retried }
    match d.meter.pend with
    | none => d
    | some p => mtAnswer (d.modMeter fun m => { m with pend := none }) p fun d st dc dv data => d.finish p.opc 0 st dc dv data

def execColophonCommitDone (retried : Bool) (s : State) : Out := onDev (commitDoneFx retried) s

/-- A commit that is abandoned (R480): its flags and final entries belong to the colophon that takes its place. -/
def Meter.abandon (m : Meter) : Meter := match m.committing with
  | none => m
  | some c =>
    { m with committing := none, mstart := c.mstart, main := m.main.fold m.shadow, shadow := {}, finals := c.entries.filter (fun e => e.closed) ++ m.finals
             diff := m.diff || bit c.cflags 1, slow := m.slow || bit c.cflags 2, lost := m.lost || bit c.cflags 3, supp := m.supp + c.supp
             interval := c.interval, newInt := if m.interval = c.interval then m.newInt else m.newInt.or (some m.interval)
             flagInt := bit c.cflags 4, resume := m.resume || c.kind == 2 }

/-- Supply failure (R488): a POWERFAIL colophon, where the hold-up lasted (`held`). -/
def supplyFailFx (held : Bool) (d : Dev) : Dev :=
  if !d.meter.powered then d
  else if held then
    let (n, d) := d.draw
    let d := d.modMeter Meter.abandon
    let c := d.meter.colophon 1 d.meter.mtime n
    let d := storeColophon d c
    meterCut (d.modMeter fun m => { m with mstart := c.mend, finals := [], diff := false, slow := false, lost := false, supp := 0, flagInt := false }) false
  else meterCut (d.modMeter Meter.abandon) true

def execMeterSupplyFail (held : Bool) (s : State) : Out := onDev (supplyFailFx held) s

/-- Power returns (R488): the counters are those last committed, the next colophon is of KIND 2. -/
def powerReturnFx (d : Dev) : Dev :=
  if d.meter.powered then d
  else
    let d := d.modMeter fun m =>
      let back : Meter := if m.lost then { m with main := m.saved, gens := m.savedGens, finals := [] } else m
      { back with powered := true, mtime := m.mstart, shadow := {}, resume := true, act := [], copies := [] }
    { d with pwr := { d.pwr with on := setBits d.pwr.on 63 63 1, trip := setBits d.pwr.trip 63 63 0 } }

def execMeterPowerReturn (s : State) : Out := onDev powerReturnFx s

/-! ### Group 0x0B commands -/

/-- An authority command reaches the meter: unpowered it is not there; a running commit is let end first (R480, R487). -/
def mtFx (b : Bas) (c : MtCmd) (d : Dev) : Dev :=
  if !d.meter.powered then d.reply b c.opc .targetLost
  else if d.meter.committing.isSome then (d.modMeter fun m => { m with pend := some c }).defer b .meter c.opc 0
  else mtAnswer d c fun d st dc dv data => d.reply b c.opc st dc dv data

def mtInfo (opc : Nat) : CmdInfo := { opc := opc, who := .m, dom := some .meter }

/-- MT_ENROL (R483). `pin`: the ENROL input. -/
def execMtEnrol (b : Bas) (a : MtAuth) (pin : Bool) (digest : Nat) (s : State) : Out :=
  onCmd (.mtEnrol b a pin digest) b (mtInfo 0x0B10) (mtFx b { opc := 0x0B10, auth := a, pin := pin, val := digest }) s

/-- MT_AUTHKEY (R483). -/
def execMtAuthkey (b : Bas) (a : MtAuth) (digest : Nat) (s : State) : Out :=
  onCmd (.mtAuthkey b a digest) b (mtInfo 0x0B11) (mtFx b { opc := 0x0B11, auth := a, val := digest }) s

/-- MT_SETINT (R484). -/
def execMtSetint (b : Bas) (a : MtAuth) (value : Nat) (s : State) : Out :=
  onCmd (.mtSetint b a value) b (mtInfo 0x0B12) (mtFx b { opc := 0x0B12, auth := a, val := value }) s

/-- MT_FWLR (R485). `ok`: the meter's verification of the image. -/
def execMtFwlr (b : Bas) (a : MtAuth) (maj min : Nat) (image : List Byte) (ok : Bool) (s : State) : Out :=
  onCmd (.mtFwlr b a maj min image ok) b (mtInfo 0x0B13) (mtFx b { opc := 0x0B13, auth := a, val := maj, val2 := min, image := image, imgOk := ok }) s

/-- MT_CORR (R483): (rail, gain, offset). -/
def execMtCorr (b : Bas) (a : MtAuth) (corr : List (Nat × Nat × Nat)) (s : State) : Out :=
  onCmd (.mtCorr b a corr) b (mtInfo 0x0B14) (mtFx b { opc := 0x0B14, auth := a, corr := corr }) s

def mtReadFx (b : Bas) (seq offset : Nat) (d : Dev) : Dev :=
  let c := if seq = 0 then d.meter.store.getLast? else d.meter.store.find? fun c => c.2.seq == seq
  if !d.meter.powered then d.reply b 0x0B01 .targetLost
  else match c with
    | none => d.reply b 0x0B01 .unsupported 0x02 0
    | some (_, c) =>
      if c.size ≤ offset then d.reply b 0x0B01 .unsupported 0x02 8
      else d.reply b 0x0B01 .ok 0 0 (((c.bytes.drop offset).take 4080).map fun x => x.toNat)

/-- MT_READ (R482): a colophon by SEQ, 0 the newest. -/
def execMtRead (b : Bas) (seq offset : Nat) (s : State) : Out :=
  onCmd (.mtRead b seq offset) b { opc := 0x0B01, who := .a } (mtReadFx b seq offset) s

def mtAckFx (b : Bas) (seq : Nat) (d : Dev) : Dev :=
  if !d.meter.powered then d.reply b 0x0B02 .targetLost
  else if seq = 0 ∨ d.meter.seq < seq then d.reply b 0x0B02 .unsupported 0x02 0
  else
    (d.modMeter fun m => { m with store := m.store.map fun c => if c.2.seq ≤ seq then (true, c.2) else c }).reply b 0x0B02 .ok

/-- MT_ACK (R482). -/
def execMtAck (b : Bas) (seq : Nat) (s : State) : Out := onCmd (.mtAck b seq) b { opc := 0x0B02, who := .f, dom := some .meter } (mtAckFx b seq) s

end Sys2Proof.Machine
end

