-- ==== Sys2Proof/Machine/Snapshot.lean ====
section
/-! DEFINITION. The consistent snapshot (R145, R533–R536): arming, the cut by fabric time or by a SNAP, SNAP copies on every lane of the
ports that take part, the marks recorded at the cut, the packets in flight, the records read and released. -/

namespace Sys2Proof.Machine
open Sys2Proof

def Dev.modSnap (d : Dev) (f : Snap → Snap) : Dev := { d with snap := f d.snap }

/-! ### The cut (R534, R535) -/

/-- The SNAP copy of one lane (R122, R123, R145). -/
def snapPkt (d : Dev) (p vl : Nat) : Pkt :=
  { opc := opSNAP, tc := vl / 2, dst := (d.link p).peer, src := d.tfp.eid
    w2 := BitVec.ofNat 64 (d.snap.id % 2 ^ 32 <<< 32 + d.snap.init % 2 ^ 20), w3 := BitVec.ofNat 64 d.snap.tcut }

/-- Queue the copy of a lane at its next packet boundary: behind a packet already begun, ahead of every other. -/
def snapCopy (d : Dev) (p vl : Nat) : Dev :=
  let k := snapPkt d p vl
  let die := portDie p
  let key := egqKey p k.tc
  let q : QPkt := { pkt := k, port := p, vl := vl, die := die, got := k.sorts, born := d.clk, uid := d.core.nextQ }
  let put (l : List QPkt) : List QPkt := (l.filter fun e => e.sent != 0) ++ q :: (l.filter fun e => e.sent == 0)
  let core := { d.core with
    egq := tmod [] d.core.egq key put
    nextQ := d.core.nextQ + 1
    egCred := tmod 0 d.core.egCred (1024 * die + p) (· + k.sorts)
    xCred := tmod 0 d.core.xCred (xKey die die) (· + k.sorts) }
  gateCheck { d with core := core } p

/-- Does a port take part: named, or its partner is a switch (R533)? -/
def takesPart (d : Dev) (p : Nat) : Bool := d.snap.ports.contains p || (d.portUp p && (d.link p).ptype == 0)

/-- The cut: the type word of every mark of a named chase is recorded as it stands, and SNAP copies are queued on VL0–VL15 of every port
in UP that takes part; those lanes are open until their own SNAP arrives. -/
def takeCut (d : Dev) (early : Bool) (at_ : Nat) : Dev :=
  let ps := (upTo 1024).filter fun p => isPort d p && (d.link p).st == .up && takesPart d p
  let marks := (d.marks.tbl.filter fun e => d.snap.chases.contains e.2.chase && e.2.type != 0).map fun e => (e.1, e.2.word)
  let d := d.modSnap fun s => { s with
    st := .cut, early := early, cut := at_, marks := marks
    lanes := ps.flatMap fun p => (upTo 16).map fun v => (p, v) }
  foldOver ps d fun p d => foldOver ((upTo 16).reverse) d fun v d => snapCopy d p v

/-- The snapshot is DONE once the sweep has ended and no lane is open (R536). -/
def snapCheck (d : Dev) : Dev := if d.snap.st = .cut ∧ d.snap.swept ∧ d.snap.lanes.isEmpty then snapDone d else d

/-- A SNAP is consumed: of the armed snapshot on a port that takes part it takes the cut if none is taken and closes its lane; a stray one
is counted (R534, R536). -/
def snapFx (x : Rx) (d : Dev) : Dev :=
  match hdrCheck d x with
  | .error d => d
  | .ok d =>
    let d := discard d x
    let live := d.snap.st == .armed || d.snap.st == .cut
    if !live ∨ wbits x.pkt.w2 63 32 ≠ d.snap.id then d.count .cSnapstray (portDie x.port)
    else if !takesPart d x.port then d
    else
      let d := if d.snap.st = .armed then takeCut d true d.now else d
      snapCheck (d.modSnap fun s => { s with lanes := s.lanes.filter fun l => l != (x.port, x.vl) })

def execSnap (x : Rx) (s : State) : Out := onDev (snapFx (asOp opSNAP x)) s

/-- SNAP_CUT_TIME: fabric time reaches TCUT. -/
def snapCutFx (d : Dev) : Dev := if d.snap.st = .armed then snapCheck (takeCut d false d.snap.tcut) else d

def execSnapCutTime (s : State) : Out := onDev snapCutFx s

/-- SNAP_SWEEP_DONE: the sweep of the marks not yet copied has ended (R535). -/
def snapSweepFx (d : Dev) : Dev := if d.snap.st = .cut then snapCheck (d.modSnap fun s => { s with swept := true }) else d

def execSnapSweepDone (s : State) : Out := onDev snapSweepFx s

/-- SNAP_TIMEOUT: a lane is still open SNAPTMO after the cut (R536). -/
def snapTimeoutFx (d : Dev) : Dev := if d.snap.st = .cut ∧ !d.snap.lanes.isEmpty then snapIncomplete d else d

def execSnapTimeout (s : State) : Out := onDev snapTimeoutFx s

/-! ### The commands (R533, R536) -/

/-- TCUT lies at least 1 ms and at most 60 s ahead of fabric time. -/
def tcutOk (d : Dev) (t : Nat) : Bool := decide (d.now + 1000000 ≤ t ∧ t ≤ d.now + 60000000000)

def snapArmFx (b : Bas) (id init tcut : Nat) (chases ports : List Nat) (d : Dev) : Dev :=
  match chases.findIdx? fun c => !(d.comp c).bound with
  | some i => d.reply b 0x0803 .unsupported 0x02 (16 + 2 * i)
  | none =>
    if !tcutOk d tcut ∨ !ports.all (isPort d) then d.reply b 0x0803 .unsupported
    else if d.snap.st ≠ .idle then d.reply b 0x0803 .busy
    else { d with snap := { st := .armed, id := id, init := init, tcut := tcut, chases := chases, ports := ports } }.reply b 0x0803 .ok

/-- SNAP_ARM (R533). -/
def execSnapArm (b : Bas) (id init tcut : Nat) (chases ports : List Nat) (s : State) : Out :=
  onCmd (.snapArm b id init tcut chases ports) b (devCmd 0x0803) (snapArmFx b id init tcut chases ports) s

/-- The records of a snapshot as bytes: each mark's index and type word, then each lane's number (32 × port + VL), packets and bytes, all
little-endian words of 8 bytes (log 42). -/
def snapBytes (s : Snap) : List Byte :=
  (s.marks.flatMap fun e => leBytes 8 e.1 ++ leBytes 8 e.2)
    ++ s.flight.flatMap fun e => leBytes 8 e.1 ++ leBytes 8 e.2.1 ++ leBytes 8 e.2.2

def snapReadFx (b : Bas) (id offset : Nat) (d : Dev) : Dev :=
  let all := snapBytes d.snap
  if d.snap.st = .idle ∨ id ≠ d.snap.id then d.reply b 0x0804 .unsupported 0x02 0
  else if d.snap.st ≠ .done then d.reply b 0x0804 .busy
  else if all.length < offset then d.reply b 0x0804 .unsupported 0x02 4
  else
    let piece := (all.drop offset).take 4072
    let last := decide (offset + piece.length = all.length)
    d.reply b 0x0804 .ok 0 0 ((offset + b2n last <<< 31) :: piece.map fun x => x.toNat)

/-- SNAP_READ: a piece of the records of a snapshot that is DONE; bit 31 of the OFFSET word marks the last piece (R536, R553). -/
def execSnapRead (b : Bas) (id offset : Nat) (s : State) : Out :=
  onCmd (.snapRead b id offset) b { opc := 0x0804, who := .a } (snapReadFx b id offset) s

def snapReleaseFx (b : Bas) (id : Nat) (d : Dev) : Dev :=
  if d.snap.st = .idle ∨ id ≠ d.snap.id then d.reply b 0x0805 .unsupported 0x02 0
  else if d.snap.st ≠ .done then d.reply b 0x0805 .busy
  else { d with snap := {} }.reply b 0x0805 .ok

/-- SNAP_RELEASE: the records are freed and the next snapshot may be armed (R533, R536). -/
def execSnapRelease (b : Bas) (id : Nat) (s : State) : Out :=
  onCmd (.snapRelease b id) b (devCmd 0x0805) (snapReleaseFx b id) s

end Sys2Proof.Machine
end

