-- ==== Sys2Proof/Machine/Security.lean ====
section
/-! DEFINITION. SPDM (R446, R448, R449, R469), the party requests (R450, R451, R468, R471) and link keys (R109, R454). Codes of SPDM
responses and errors are those of DMTF DSP0274 (log 43). -/

namespace Sys2Proof.Machine
open Sys2Proof

/-! ### SPDM outside a session (R448) -/

/-- Errors of the responder (log 43). -/
abbrev eInvalid : Nat := 0x01
abbrev eBusy : Nat := 0x03
abbrev eUnexpected : Nat := 0x04
abbrev eDecrypt : Nat := 0x06
abbrev eSession : Nat := 0x0B
abbrev eVersion : Nat := 0x41

def connKey (tr : Transport) (peer : Nat) : Nat := 4 * peer + match tr with | .eth => 0 | .inBand => 1 | .i3c => 2

/-- How far a peer's connection has come: 1 its version is agreed, 2 its capabilities are known, 3 its algorithms are agreed. -/
def Dev.conn (d : Dev) (tr : Transport) (peer : Nat) : Nat := tget 0 d.mgmt.conns (connKey tr peer)

def Dev.setConn (d : Dev) (tr : Transport) (peer n : Nat) : Dev :=
  { d with mgmt := { d.mgmt with conns := tput d.mgmt.conns (connKey tr peer) n } }

/-- Answer a peer outside any session. -/
def say (d : Dev) (tr : Transport) (peer code : Nat) (body : List Nat) : Dev := d.emit (.spdm none tr peer code body)

def sayError (d : Dev) (tr : Transport) (peer e : Nat) : Dev := say d tr peer 0x7F [e]

/-- An SPDM request outside a session: taken by an active keeper over a transport that is taken (SPDM over MCTP needs no Basod); `f` gets
the keeper. -/
def spdmIn (tr : Transport) (f : Nat → Dev → Dev) (d : Dev) : Dev :=
  match d.mgmt.active with
  | some n => if d.taken tr || tr == .i3c then f n d else d
  | none => d

/-- A request that needs the connection to have come to a stage. -/
def spdmAt (tr : Transport) (peer need : Nat) (f : Nat → Dev → Dev) (d : Dev) : Dev :=
  spdmIn tr (fun n d => if d.conn tr peer < need then sayError d tr peer eUnexpected else f n d) d

def getVersionFx (tr : Transport) (peer : Nat) (has13 : Bool) : Dev → Dev :=
  spdmIn tr fun _ d =>
    if has13 then say (d.setConn tr peer 1) tr peer 0x04 [0x13] else sayError (d.setConn tr peer 0) tr peer eVersion

/-- GET_VERSION: 1.3 only (R448). -/
def execGetVersion (tr : Transport) (peer : Nat) (has13 : Bool) (s : State) : Out := onDev (getVersionFx tr peer has13) s

def getCapabilitiesFx (tr : Transport) (peer : Nat) : Dev → Dev :=
  spdmAt tr peer 1 fun _ d => say (d.setConn tr peer (max 2 (d.conn tr peer))) tr peer 0x61 []

def execGetCapabilities (tr : Transport) (peer : Nat) (s : State) : Out := onDev (getCapabilitiesFx tr peer) s

def negotiateFx (tr : Transport) (peer : Nat) (common : Bool) : Dev → Dev :=
  spdmAt tr peer 2 fun _ d => if common then say (d.setConn tr peer 3) tr peer 0x63 [] else sayError d tr peer eInvalid

/-- NEGOTIATE_ALGORITHMS: `common` says that the requester offers the one suite of the SPDM support table. -/
def execNegotiateAlgorithms (tr : Transport) (peer : Nat) (common : Bool) (s : State) : Out := onDev (negotiateFx tr peer common) s

/-- The chain of a slot: slot 0 of KP0, slot 1 of KP1 (R446). -/
def certOf (d : Dev) (slot : Nat) : List Byte := Config.cert slot (d.mgmt.keeper slot).runVer

def getDigestsFx (tr : Transport) (peer : Nat) : Dev → Dev :=
  spdmAt tr peer 3 fun _ d => say d tr peer 0x01 [Config.sha384 (certOf d 0), Config.sha384 (certOf d 1)]

/-- GET_DIGESTS reports both slots (R446). -/
def execGetDigests (tr : Transport) (peer : Nat) (s : State) : Out := onDev (getDigestsFx tr peer) s

def getCertificateFx (tr : Transport) (peer slot offset length : Nat) : Dev → Dev :=
  spdmAt tr peer 3 fun _ d =>
    let c := certOf d slot
    if 2 ≤ slot ∨ c.length ≤ offset then sayError d tr peer eInvalid
    else
      let part := (c.drop offset).take length
      say d tr peer 0x02 (slot :: part.length :: (c.length - offset - part.length) :: part.map fun x => x.toNat)

def execGetCertificate (tr : Transport) (peer slot offset length : Nat) (s : State) : Out :=
  onDev (getCertificateFx tr peer slot offset length) s

/-- Sign with the active keeper's Alias key: the signature's own nonce is drawn. -/
def aliasSign (d : Dev) (n : Nat) (msg : List Byte) : Nat × Dev :=
  let (r, d) := d.draw
  (Config.ecdsa n r msg, d)

def challengeFx (tr : Transport) (peer slot nonce : Nat) : Dev → Dev :=
  spdmAt tr peer 3 fun n d =>
    if slot ≠ n then sayError d tr peer eInvalid
    else
      let (sig, d) := aliasSign d n (leBytes 32 nonce)
      say d tr peer 0x03 [slot, Config.sha384 (certOf d slot), sig]

/-- CHALLENGE: the active keeper answers with its own slot (R446). -/
def execChallenge (tr : Transport) (peer slot nonce : Nat) (s : State) : Out := onDev (challengeFx tr peer slot nonce) s

/-! ### Measurements (R469) -/

/-- The security state that measurement 6 digests: DEBUGLOCK, the fused security version number, revoked signing keys, the mode. -/
def securityBytes (d : Dev) : List Byte :=
  leBytes 1 (b2n d.mgmt.debugLock) ++ leBytes 4 d.mgmt.fuseSvn ++ leBytes 1 d.mgmt.revoked.length ++ d.mgmt.revoked.flatMap (leBytes 1)
    ++ leBytes 1 d.pwr.mode.code

/-- A measurement of the measurement table. -/
def measurement (d : Dev) (i : Nat) : Nat :=
  if i = 6 then Config.sha384 (securityBytes d)
  else if i = 7 then d.meter.lrDigest
  else if i = 8 then Config.sha384 (d.mgmt.policy.flatMap (leBytes 48))
  else Config.measure i (d.mgmt.keeper d.mgmt.lastActive).runVer

def getMeasurementsFx (tr : Transport) (peer index nonce : Nat) : Dev → Dev :=
  spdmAt tr peer 3 fun n d =>
    let which := if index = 0xFF then (upTo 8).map (· + 1) else if index = 0 then [] else [index]
    if index ≠ 0xFF ∧ 8 < index then sayError d tr peer eInvalid
    else
      let ms := which.map (measurement d)
      let (sig, d) := aliasSign d n (leBytes 32 nonce ++ ms.flatMap (leBytes 48))
      say d tr peer 0x60 ((8 :: ms) ++ [sig])

/-- GET_MEASUREMENTS: index 0 asks for their number, 0xFF for all; signed over the requester's nonce (R469). -/
def execGetMeasurements (tr : Transport) (peer index nonce : Nat) (s : State) : Out := onDev (getMeasurementsFx tr peer index nonce) s

/-! ### Sessions (R448, R449, R544) -/

/-- A number no session uses, and that no command still running or held was sent in. -/
def freeSession (d : Dev) : Nat :=
  let used (n : Nat) : Bool :=
    (d.session n).isSome || d.mgmt.running.any (fun r => r.sess == some n) || d.mgmt.held.any fun h => h.2.1.sess == some n
  ((upTo (d.mgmt.sessions.length + d.mgmt.running.length + d.mgmt.held.length + 1)).find? fun n => !used n).getD 0

def keyExchangeFx (tr : Transport) (peer slot : Nat) (both : Bool) : Dev → Dev :=
  spdmAt tr peer 3 fun n d =>
    if 64 ≤ d.mgmt.sessions.length then sayError d tr peer eBusy
    else if slot ≠ n then sayError d tr peer eInvalid
    else
      let id := freeSession d
      let se : Session := { mutual_ := both, fin := false }
      let d := { d with mgmt := { d.mgmt with sessions := tput d.mgmt.sessions id se } }
      let (sig, d) := aliasSign d n (leBytes 8 id)
      say d tr peer 0x64 [id, b2n both, sig]

/-- KEY_EXCHANGE: a session's handshake begins; a 65th ends with Busy (R448). -/
def execKeyExchange (tr : Transport) (peer slot : Nat) (both : Bool) (s : State) : Out := onDev (keyExchangeFx tr peer slot both) s

/-- An SPDM message inside a session: a secured message (R543). -/
def inSession (b : Bas) (f : Nat → Session → Dev → Dev) (d : Dev) : Dev :=
  match d.mgmt.active with
  | none => d
  | some _ => d.received b fun d => match b.sess, b.sess.bind d.session with
    | some n, some se => f n se d
    | _, _ => sayError d b.tr b.src eSession

def answerIn (d : Dev) (b : Bas) (code : Nat) (body : List Nat) : Dev := d.emit (.spdm b.sess b.tr b.src code body)

/-- A session ends, its reply cache with it (R549). -/
def endSession (d : Dev) (n : Nat) : Dev := { d with mgmt := { d.mgmt with sessions := tdel d.mgmt.sessions n } }

def finishFx (b : Bas) (digest : Nat) (ok : Bool) : Dev → Dev :=
  inSession b fun n se d =>
    if se.fin then answerIn d b 0x7F [eUnexpected]
    else if !ok then answerIn (endSession d n) b 0x7F [eDecrypt]
    else answerIn (d.modSession n fun se => { se with fin := true, digest := if se.mutual_ then digest else 0 }) b 0x65 []

/-- FINISH: the handshake is complete. `digest` is that of the requester's leaf key, `ok` that its proofs verify. -/
def execFinish (b : Bas) (digest : Nat) (ok : Bool) (s : State) : Out := onDev (finishFx b digest ok) s

/-- A message only a session whose handshake is done takes. -/
def inOpen (b : Bas) (f : Nat → Dev → Dev) : Dev → Dev :=
  inSession b fun n se d => if se.fin then f n d else answerIn d b 0x7F [eUnexpected]

def execHeartbeat (b : Bas) (s : State) : Out := onDev (inOpen b fun _ d => answerIn d b 0x68 []) s

def keyUpdateFx (b : Bas) (op : Nat) : Dev → Dev :=
  inOpen b fun n d =>
    if op = 0 ∨ 3 < op then answerIn d b 0x7F [eInvalid]
    else answerIn (d.modSession n fun se => { se with keys := if op = 3 then se.keys else se.keys + 1 }) b 0x69 [op]

/-- KEY_UPDATE: 1 the requester's key, 2 both keys, 3 verification of the new key. -/
def execKeyUpdate (b : Bas) (op : Nat) (s : State) : Out := onDev (keyUpdateFx b op) s

def execEndSession (b : Bas) (s : State) : Out := onDev (inOpen b fun n d => endSession (answerIn d b 0x6C []) n) s

/-! ### Party requests (R450, R451, R468, R471) -/

/-- The response of a party request: its status, the resource short, then what it returns. -/
def partyAnswer (d : Dev) (b : Bas) (st : Status) (res : Nat := 0) (body : List Nat := []) : Dev :=
  answerIn d b 0x7E (st.code :: res :: body)

/-- A party request: only the party's own agent may make it, in a session with mutual authentication (R450); a chase being reset answers
BUSY (R581). -/
def partyIn (b : Bas) (chase party : Nat) (f : Dev → Dev) : Dev → Dev :=
  inSession b fun _ se d =>
    let mine := (d.comp chase).bound && (d.partyKeys chase party).agent == some se.digest
    if !se.fin ∨ !se.mutual_ ∨ !mine then partyAnswer d b .sealed_
    else if (d.comp chase).suspended then partyAnswer d b .busy
    else f d

def putKeys (d : Dev) (chase party : Nat) (k : PartyKeys) : Dev :=
  { d with pool := { d.pool with keys := tput d.pool.keys (64 * chase + party) k } }

/-- Entries taken of the key stores: of PDKs on PT12–PT15, of PSKs on every press die. -/
def pdkUse (d : Dev) : Nat := (d.pool.keys.filter fun e => e.2.pdk.isSome).length
def pskUse (d : Dev) : Nat := sumNat (d.pool.keys.map fun e => b2n e.2.psk0.isSome + b2n e.2.psk1.isSome)

/-- Live formes of every chase with their chase. -/
def formesOf (d : Dev) : List (Nat × Forme) :=
  d.imp.comps.flatMap fun e =>
    if e.2.bound then ([e.2.curF] ++ e.2.drnF.toList ++ (e.2.staged.map fun g => g.forme).toList).map fun f => (e.1, f) else []

def keyInstallFx (b : Bas) (chase party kind key : Nat) : Dev → Dev :=
  partyIn b chase party fun d =>
    let k := d.partyKeys chase party
    if !d.mgmt.debugLock then partyAnswer d b .sealed_
    else if 1 < kind then partyAnswer d b .unsupported
    else if kind = 0 then
      if k.pdk.isSome then partyAnswer d b .busy
      else if 16384 ≤ pdkUse d then partyAnswer d b .noFit 8
      else
        let d := putKeys d chase party { k with pdk := some key }
        partyAnswer (foldOver (formesOf d) d fun f d => deliverKeys d f.1 f.2) b .ok
    else
      let new := !k.cur
      let taken := if new then k.psk1.isSome else k.psk0.isSome
      if !taken ∧ 16384 ≤ pskUse d then partyAnswer d b .noFit 8
      else
        let k := if new then { k with psk1 := some key } else { k with psk0 := some key }
        partyAnswer (putKeys d chase party { k with cur := new }) b .ok

/-- KEY_INSTALL (R451): a PDK, or a PSK into the slot PSKCUR does not name. A part whose DEBUGLOCK fuse is not blown refuses (R444). -/
def execKeyInstall (b : Bas) (chase party kind key : Nat) (s : State) : Out := onDev (keyInstallFx b chase party kind key) s

/-- Does a folio that a PDK keys lie on a tray of a live forme (R451)? -/
def keysTray (d : Dev) (place : Nat) : Bool :=
  (formesOf d).any fun f => f.2.folios.any fun e =>
    keyOf d f.1 (e.1 * folioB) e.2 == place && e.2.locs.any fun l => l.1 == 2 || l.1 == 3 || l.1 == 5

def keyRevokeFx (b : Bas) (chase party kind slot : Nat) : Dev → Dev :=
  partyIn b chase party fun d =>
    let k := d.partyKeys chase party
    let place := 64 * chase + party
    if 1 < kind ∨ 1 < slot then partyAnswer d b .unsupported
    else if kind = 1 then partyAnswer (putKeys d chase party (if slot = 1 then { k with psk1 := none } else { k with psk0 := none })) b .ok
    else if keysTray d place then partyAnswer d b .busy
    else
      let held := d.imp.trayKeys.filter fun x => x.2 == place
      let d := putKeys d chase party { k with pdk := none }
      let d := { d with imp := { d.imp with trayKeys := d.imp.trayKeys.filter fun x => x.2 != place } }
      partyAnswer (foldOver held d fun x d => d.emit (.trayKey x.1 x.2 false)) b .ok

/-- KEY_REVOKE (R451): the key is zeroised, at the trays it was delivered to as well (R457). -/
def execKeyRevoke (b : Bas) (chase party kind slot : Nat) (s : State) : Out := onDev (keyRevokeFx b chase party kind slot) s

def colmaskSetFx (b : Bas) (chase owner reader : Nat) (allow : Bool) (pvis rvis : Nat) : Dev → Dev :=
  partyIn b chase owner fun d =>
    if owner = reader ∨ 64 ≤ reader then partyAnswer d b .unsupported
    else
      let w := b2n allow <<< 128 + (pvis % 2 ^ 64) <<< 64 + rvis % 2 ^ 64
      partyAnswer (d.setReg .impColmask (4096 * chase + 64 * owner + reader) w) b .ok

/-- COLMASK_SET (R468): the owner party's agent writes its entry for another reader. -/
def execColmaskSet (b : Bas) (chase owner reader : Nat) (allow : Bool) (pvis rvis : Nat) (s : State) : Out :=
  onDev (colmaskSetFx b chase owner reader allow pvis rvis) s

/-! ### The chase manifest (R471) -/

/-- A sealed definition in the manifest: RID, OP, MODE, KMIN, the descriptor rows, LDESTS. -/
def sealedDef (d : Dev) (q : RedDef) : List Nat :=
  [q.rid, q.op, q.mode, q.kmin, d.reg .pxFmtdesc q.ifmt, d.reg .pxFmtdesc q.ofmt] ++ q.ldests.flatMap fun x => [x.1, x.2]

/-- The chase manifest for an agent's party. -/
def manifest (d : Dev) (chase : Nat) (parties : List Nat) : List Nat :=
  let n := (d.comp chase).curF.req.parties
  let agents := (upTo n).map fun p => (d.partyKeys chase p).agent.getD 0
  let defs := (d.press.reds.filter fun r => r.chase == chase && !r.staged && r.d.sealv == 1).flatMap fun r => sealedDef d r.d
  let imgs := (d.press.plates.images.filter fun p => p.chase == chase).flatMap fun p => [p.id, Config.sha384 p.bytes]
  let binds := (d.press.plates.binds.filter fun b => b.chase == chase && !b.staged).flatMap fun b =>
    [b.plate, b.party, ((d.image chase b.plate).map fun p => Config.sha384 p.bytes).getD 0]
  let masks := parties.flatMap fun p => (upTo n).map fun o => colmask d chase o p
  (upTo 6).map (fun i => measurement d (i + 1)) ++ n :: agents ++ defs ++ imgs ++ binds ++ masks

def chaseQuoteFx (b : Bas) (chase nonce : Nat) : Dev → Dev :=
  inSession b fun _ se d =>
    let mine := (upTo 64).filter fun p => (d.partyKeys chase p).agent == some se.digest
    if !se.fin ∨ !se.mutual_ ∨ !(d.comp chase).bound ∨ mine.isEmpty then partyAnswer d b .sealed_
    else if (d.comp chase).suspended then partyAnswer d b .busy
    else
      let m := manifest d chase mine
      let (sig, d) := aliasSign d d.mgmt.lastActive (leBytes 32 nonce ++ m.flatMap (leBytes 48))
      partyAnswer d b .ok 0 (m ++ [sig])

/-- CHASE_QUOTE (R471): the signed manifest of a chase, for the agent of one of its parties. -/
def execChaseQuote (b : Bas) (chase nonce : Nat) (s : State) : Out := onDev (chaseQuoteFx b chase nonce) s

/-! ### Link keys (R109, R110, R453, R454) -/

/-- A slot is filled. An encrypted port in UP that sends under the other slot announces the switch, once the procedure that runs on it ends (R97). -/
def fillSlot (d : Dev) (p : Nat) (slot : Bool) (k : KeySlot) : Dev :=
  let d := d.modLink p fun l => if slot then { l with slot1 := some k } else { l with slot0 := some k }
  let l := d.link p
  if !l.encact ∨ l.st ≠ .up ∨ l.kslot = slot then d
  else if l.proc.isSome then d.modLink p fun l => { l with keySusp := some { kind := .key, a := b2n slot } }
  else startKey d p slot

def portKeysetFx (b : Bas) (p : Nat) (slot : Bool) (k : KeySlot) (d : Dev) : Dev :=
  if !isPort d p then d.reply b 0x0201 .unsupported 0x02 0 else (fillSlot d p slot k).reply b 0x0201 .ok

/-- PORT_KEYSET (R109). -/
def execPortKeyset (b : Bas) (port : Nat) (slot : Bool) (txKey rxKey txSalt rxSalt : Nat) (s : State) : Out :=
  onCmd (.portKeyset b port slot txKey rxKey txSalt rxSalt) b (devCmd 0x0201)
    (portKeysetFx b port slot { txKey := txKey, rxKey := rxKey, txSalt := txSalt, rxSalt := rxSalt }) s

/-- The keys both ends derive: "lo" names the direction the lower EID sends (R454). -/
def derivedKeys (d : Dev) (p secret : Nat) : KeySlot :=
  let low := decide (d.tfp.eid < (d.link p).peer)
  let at_ (lo : Bool) (key : Nat) : Nat := Config.hkdf (key + b2n (!lo)) secret
  { txKey := at_ low 0, rxKey := at_ (!low) 0, txSalt := at_ low 2, rxSalt := at_ (!low) 2, derived := true }

def linkDeriveFx (b : Bas) (p : Nat) (slot : Bool) (secret : Option Nat) (d : Dev) : Dev :=
  if !isPort d p then d.reply b 0x0202 .unsupported 0x02 0
  else match secret with
    | some s =>
      if (d.link p).st = .up ∧ (d.link p).ptype = 0 ∧ !d.mgmt.policy.isEmpty then (fillSlot d p slot (derivedKeys d p s)).reply b 0x0202 .ok
      else d.reply b 0x0202 .denied
    | none => d.reply b 0x0202 .denied

/-- LINK_DERIVE (R454). `secret` is the export master secret of the SPDM session with the partner, none where the partner is not a Dengobo,
fails verification or does not answer. -/
def execLinkDerive (b : Bas) (port : Nat) (slot : Bool) (secret : Option Nat) (s : State) : Out :=
  onCmd (.linkDerive b port slot secret) b (devCmd 0x0202) (linkDeriveFx b port slot secret) s

end Sys2Proof.Machine
end

