-- ==== Sys2Proof/Machine/Manage.lean ====
section
/-! DEFINITION. The management plane's remaining commands: MGMT packets and the standby's answer (R540–R543), identity and authorities (R119,
R544–R546), routes and groups (R149, R170, R509), fabric time (R201, R203), the hellbox, attestation policy and error log (R177, R457, R504),
notices (R558–R560), firmware (R447, R563–R565), debug reads (R444), IPv6 and PLDM (R541, R562). -/

namespace Sys2Proof.Machine
open Sys2Proof

/-! ### MGMT packets and transports (R143, R540, R541) -/

/-- An MGMT packet for the switch EID goes to the active keeper, at most 10,000 in one second over all ports; the rest count as MGMTDROP
(R541). With INBAND = 0, or no active keeper, it is not taken. -/
def mgmtHere (x : Rx) (d : Dev) : Dev :=
  let d := discard d x
  match d.mgmt.active with
  | none => d
  | some _ =>
    if !d.taken .inBand then d
    else
      let fresh := decide (d.mgmt.inbandT + 1000 * cycMs ≤ d.clk)
      let n := if fresh then 0 else d.mgmt.inbandN
      if 10000 ≤ n then d.count .cMgmtdrop d.kpDie
      else
        let d := { d with mgmt := { d.mgmt with inbandT := if fresh then d.clk else d.mgmt.inbandT, inbandN := n + 1 } }
        d.emit (.toKeeper x.pkt.src x.pkt.data)

/-- MGMT: not subject to R43; passed to the keeper or forwarded by its DST (R143). -/
def mgmtFx (x : Rx) (d : Dev) : Dev :=
  match hdrCheck d x with
  | .error d => d
  | .ok d => if x.pkt.dst = d.tfp.eid then mgmtHere x d else sendResp d (portDie x.port) x.pkt (some (x.port, x.vl))

def execMgmt (x : Rx) (s : State) : Out := onDev (mgmtFx (asOp opMGMT x)) s

/-- The keeper that is standing by, if one runs. -/
def standby (d : Dev) : Option Nat := ([0, 1] : List Nat).find? fun n => d.mgmt.active != some n && (d.mgmt.keeper n).booted && (d.mgmt.keeper n).inService

def atStandbyFx (b : Bas) (d : Dev) : Dev :=
  match standby d with
  | none => d
  | some n =>
    if !d.taken b.tr then d
    else if b.bad then d.count .cBadpkt (dKP n)
    else
      let r : Reply := { cseq := b.cseq, status := .busy, dcode := 0x06, data := [d.reg .kpMgmtAddr 0] }
      (d.count .cCmdrefuse (dKP n)).emit (.reply none b.tr r)

/-- BASOD_AT_STANDBY: answered BUSY with DCODE 0x06 and the device's address, outside any session (R540). -/
def execBasodAtStandby (b : Bas) (s : State) : Out := onDev (atStandbyFx b) s

/-- Is an address one a keeper answers for: its own link-local address, and the device's while it is active (R541)? -/
def ownAddr (d : Dev) (n addr : Nat) : Bool :=
  decide (n < 2) && (d.mgmt.keeper n).booted && (d.mgmt.keeper n).inService
    && (addr == Config.linkLocal n || (addr != 0 && d.mgmt.active == some n && addr == d.reg .kpMgmtAddr 0))

/-- IPv6 neighbour discovery (R541). -/
def execIpv6NeighbourDiscovery (keeper target : Nat) (s : State) : Out :=
  onDev (fun d => d.emitIf (ownAddr d keeper target) (.netAnswer 0 [keeper, target])) s

/-- ICMPv6 echo: the reply returns the data (R541). -/
def execIcmpv6Echo (keeper dst : Nat) (data : List Byte) (s : State) : Out :=
  onDev (fun d => d.emitIf (ownAddr d keeper dst) (.netAnswer 1 (keeper :: dst :: data.map fun x => x.toNat))) s

/-! ### PLDM (R447, R562) -/

/-- Sensor numbers: 0–39 temperatures, 40–103 powers, 104 package power, 105 the keeper's role, 106 the fault output, 107 proof mode or
service (log 44). -/
def sensorValue (d : Dev) (n s : Nat) : Nat :=
  if s < 105 then tget 0 d.mgmt.sensors (128 * n + s)
  else if s = 105 then b2n (d.mgmt.active == some n)
  else if s = 106 then b2n (d.pwr.kpFault.contains n)
  else d.pwr.mode.code

def pldmFx (n s : Nat) (d : Dev) : Dev :=
  if 2 ≤ n then d
  else if d.mgmt.romOnly.contains n then d.emit (.pldm [n, 0x100])
  else if !(d.mgmt.keeper n).booted then d
  else if 108 ≤ s then d.emit (.pldm [n, 0x80])
  else d.emit (.pldm [n, 0, s, sensorValue d n s])

/-- PLDM_REQUEST: a reading, with no session (R562); a keeper that stays in ROM gives its boot-failure state (R447). -/
def execPldmRequest (keeper sensor : Nat) (s : State) : Out := onDev (pldmFx keeper sensor) s

def sensorsFx (n : Nat) (temps powers : List Nat) (pkg : Nat) (d : Dev) : Dev :=
  if 2 ≤ n then d
  else
    let vals := (upTo 40).map (fun i => temps.getD i 0) ++ (upTo 64).map (fun i => powers.getD i 0) ++ [pkg]
    let t := ((upTo 105).zip vals).foldl (fun t e => tput t (128 * n + e.1) e.2) d.mgmt.sensors
    { d with mgmt := { d.mgmt with sensors := t } }

/-- PLDM_SENSOR_UPDATE: every 100 ms (R562). -/
def execPldmSensorUpdate (keeper : Nat) (temps powers : List Nat) (pkg : Nat) (s : State) : Out := onDev (sensorsFx keeper temps powers pkg) s

/-! ### Identity and authorities (R1, R119, R544–R546) -/

/-- A read command (R547), carried by I3C too where the reduced set holds it (R552). -/
def readCmd (opc : Nat) (who : Who) (i3c : Bool) : CmdInfo := { opc := opc, who := who, i3c := i3c }

def identFx (b : Bas) (d : Dev) : Dev :=
  d.reply b 0x0101 .ok 0 0
    [Config.ident 0, Config.ident 1, Config.ident 2, d.tfp.eid, d.mgmt.lastActive, d.mgmt.kp0.runVer, d.mgmt.kp1.runVer]

/-- Outside a session the checks of R551 leave only the packet's form. -/
def identAlone (b : Bas) (d : Dev) : Dev :=
  match d.mgmt.active with
  | none => d
  | some _ =>
    d.received b fun d => if b.fault then d.reply b 0x0101 .unsupported (if b.faultAt.isSome then 0x02 else 0) (b.faultAt.getD 0) else identFx b d

/-- IDENT_GET, in a session or outside any (R543). -/
def execIdentGet (b : Bas) (s : State) : Out :=
  onPool (fun d => if b.sess.isNone then identAlone b d else d.command (.identGet b) b (readCmd 0x0101 .info true) (identFx b)) s

/-- Is any chase bound? -/
def anyBound (d : Dev) : Bool := d.imp.comps.any fun e => e.2.bound

def eidSetFx (b : Bas) (eid : Nat) (d : Dev) : Dev :=
  if 2 ^ 20 ≤ eid ∨ eid = eidFABRIC ∨ eidReserved eid then d.reply b 0x0102 .unsupported 0x02 0
  else if anyBound d then d.reply b 0x0102 .busy
  else { d with tfp := { d.tfp with eid := eid } }.reply b 0x0102 .ok

/-- EID_SET: the switch EID (R119). -/
def execEidSet (b : Bas) (eid : Nat) (s : State) : Out := onCmd (.eidSet b eid) b (devCmd 0x0102) (eidSetFx b eid) s

/-- A command governed by R545 alone. -/
def presCmd (opc : Nat) : CmdInfo := { opc := opc, who := .pres, i3c := true, dom := some .device }

def ownerSetFx (b : Bas) (pres : Bool) (d : Dev) : Dev :=
  let key := (b.sess.bind d.session).map fun se => se.digest
  if d.mgmt.owner.isSome ∨ b.tr = .inBand ∨ !pres ∨ key.isNone then d.reply b 0x0103 .denied
  else { d with mgmt := { d.mgmt with owner := key } }.reply b 0x0103 .ok

/-- OWNER_SET (R545). `pres`: the OWNPRES land is asserted. -/
def execOwnerSet (b : Bas) (pres : Bool) (s : State) : Out := onCmd (.ownerSet b pres) b (presCmd 0x0103) (ownerSetFx b pres) s

/-- OWNER_CHANGE (R545). -/
def execOwnerChange (b : Bas) (digest : Nat) (s : State) : Out :=
  onCmd (.ownerChange b digest) b (devCmd 0x0104) (fun d => { d with mgmt := { d.mgmt with owner := some digest } }.reply b 0x0104 .ok) s

def ownerClearFx (b : Bas) (pres : Bool) (d : Dev) : Dev :=
  if !pres then d.reply b 0x0105 .denied
  else if anyBound d then d.reply b 0x0105 .busy
  else { d with mgmt := { d.mgmt with owner := none, observers := [] } }.reply b 0x0105 .ok

/-- OWNER_CLEAR (R545). -/
def execOwnerClear (b : Bas) (pres : Bool) (s : State) : Out := onCmd (.ownerClear b pres) b (presCmd 0x0105) (ownerClearFx b pres) s

def observerSetFx (b : Bas) (digests : List Nat) (d : Dev) : Dev :=
  if 16 < digests.length then d.reply b 0x0106 .unsupported
  else { d with mgmt := { d.mgmt with observers := digests } }.reply b 0x0106 .ok

/-- OBSERVER_SET (R546). -/
def execObserverSet (b : Bas) (digests : List Nat) (s : State) : Out :=
  onCmd (.observerSet b digests) b (devCmd 0x0106) (observerSetFx b digests) s

def sessionInfoFx (b : Bas) (d : Dev) : Dev :=
  let r := d.rolesOf b
  d.reply b 0x0107 .ok 0 0 (b2n r.owner :: b2n r.observer :: r.chases)

/-- SESSION_INFO: roles of the session, chases held as composition owner (R553). -/
def execSessionInfo (b : Bas) (s : State) : Out := onCmd (.sessionInfo b) b (readCmd 0x0107 .info true) (sessionInfoFx b) s

/-! ### Routes, next hops, groups (R149, R170, R171, R501, R509) -/

/-- A route entry as written: none where it names no set (0xFFFF, log 45). -/
def routeEnt (set : Nat) : Option Nat := if set = 0xFFFF then none else some set

/-- The exact-match table with a batch of entries from an index on. -/
def putExact (t : Tbl (Nat × Nat)) (first : Nat) (ents : List (Nat × Nat)) : Tbl (Nat × Nat) :=
  ((upTo ents.length).zip ents).foldl
    (fun t (e : Nat × Nat × Nat) => if e.2.2 = 0xFFFF then tdel t (first + e.1) else tput t (first + e.1) e.2) t

/-- The first entry of a batch whose EID another entry of the table holds too (R149). -/
def doubled (t : Tbl (Nat × Nat)) (first : Nat) (ents : List (Nat × Nat)) : Option Nat :=
  (upTo ents.length).find? fun i => match tfind t (first + i) with
    | some e => t.any fun x => x.1 != first + i && x.2.1 == e.1
    | none => false

def routeWriteFx (b : Bas) (table first : Nat) (ents : List (Nat × Nat)) (d : Dev) : Dev :=
  let size := if table = 0 then 65536 else 16384
  let setOk (e : Nat × Nat) : Bool := decide (e.2 < 4096) || e.2 == 0xFFFF
  let covers (k : Nat) : Bool := decide (first ≤ k % 65536 ∧ k % 65536 < first + ents.length)
  if 2 ≤ table then d.reply b 0x0205 .unsupported 0x02 0
  else if ents.isEmpty ∨ 256 < ents.length ∨ size < first + ents.length ∨ !ents.all setOk then d.reply b 0x0205 .unsupported
  else if table = 0 then
    let t := ((upTo ents.length).zip ents).foldl
      (fun t (e : Nat × Nat × Nat) => match routeEnt e.2.2 with | some s => tput t (first + e.1) s | none => tdel t (first + e.1)) d.core.routeB
    { d with core := { d.core with routeB := t, badB := d.core.badB.filter fun k => !covers k } }.reply b 0x0205 .ok
  else
    let t := putExact d.core.routeX first ents
    match doubled t first ents with
    | some i => d.reply b 0x0205 .unsupported 0x03 i
    | none => { d with core := { d.core with routeX := t, badX := d.core.badX.filter fun k => !covers k } }.reply b 0x0205 .ok

/-- ROUTE_WRITE (R149): table 0 the block entries, 1 the exact-match entries (EID, set). -/
def execRouteWrite (b : Bas) (table first : Nat) (ents : List (Nat × Nat)) (s : State) : Out :=
  onCmd (.routeWrite b table first ents) b (devCmd 0x0205) (routeWriteFx b table first ents) s

def nhsetWriteFx (b : Bas) (set : Nat) (members : List Nat) (alt : Nat) (d : Dev) : Dev :=
  if 4096 ≤ set ∨ members.isEmpty ∨ 16 < members.length ∨ !members.all (fun p => decide (p < 1024)) ∨ (4096 ≤ alt ∧ alt ≠ 0xFFFF) then
    d.reply b 0x0206 .unsupported
  else
    let nh : NhSet :=
      { slots := (upTo 16).map fun i => members[i % members.length]?, members := members, alt := if alt = 0xFFFF then none else some alt }
    { d with core := { d.core with nhs := tput d.core.nhs set nh } }.reply b 0x0206 .ok

/-- NHSET_WRITE: sixteen slots filled from the members in turn (R509). -/
def execNhsetWrite (b : Bas) (set : Nat) (members : List Nat) (alt : Nat) (s : State) : Out :=
  onCmd (.nhsetWrite b set members alt) b (devCmd 0x0206) (nhsetWriteFx b set members alt) s

/-- Entries of a die's member store that groups but one take. -/
def memberUse (d : Dev) (group die : Nat) : Nat :=
  sumNat (d.core.mcMem.map fun e => if e.1 = group then 0 else (e.2.filter fun m => portDie m.1 == die).length)

/-- The member store entries a group would lack: beyond 32,768 members, or beyond 65,536 on one die (R170). -/
def groupShort (d : Dev) (group : Nat) (mem : List (Nat × Nat)) : Nat :=
  let on (die : Nat) : Nat := (mem.filter fun m => portDie m.1 == die).length
  max (mem.length - 32768) (((upTo 16).map fun i => memberUse d group i + on i - 65536).foldl max 0)

def mcgrpWriteFx (b : Bas) (group value : Nat) (mem : List (Nat × Nat)) (d : Dev) : Dev :=
  let mask := (upTo 16).foldl (fun m i => m + if mem.any fun x => portDie x.1 == i then 2 ^ i else 0) 0
  let agree := !bit value 63 || (bits value 50 35 == mem.length && bits value 34 19 == mask && !mem.isEmpty)
  if 65536 ≤ group ∨ 2 ^ 64 ≤ value ∨ value % 2 ^ 19 ≠ 0 ∨ 32768 < bits value 50 35 ∨ !mem.all (fun m => decide (m.1 < 1024 ∧ m.2 < 2 ^ 20)) then
    d.reply b 0x0207 .unsupported
  else if bit value 63 ∧ !(d.comp (bits value 62 51)).bound then d.reply b 0x0207 .unsupported 0x02 4
  else if groupShort d group mem ≠ 0 then d.reply b 0x0207 .noFit 0x01 11 [groupShort d group mem]
  else if !agree then d.reply b 0x0207 .unsupported
  else
    let order := (upTo 16).flatMap fun i => mem.filter fun m => portDie m.1 == i
    let core := { d.core with
      mcMem := if mem.isEmpty then tdel d.core.mcMem group else tput d.core.mcMem group order
      badGroups := d.core.badGroups.filter fun k => k % 65536 != group }
    ({ d with core := core }.setReg .ptMcgrp group value).reply b 0x0207 .ok

/-- MCGRP_WRITE: a group's descriptor, and its members in group order (R170, R171). -/
def execMcgrpWrite (b : Bas) (group value : Nat) (mem : List (Nat × Nat)) (s : State) : Out :=
  onCmd (.mcgrpWrite b group value mem) b (devCmd 0x0207) (mcgrpWriteFx b group value mem) s

/-! ### Fabric time (R201, R203) -/

def timeStepFx (b : Bas) (d : Dev) : Dev :=
  let d := stepTime d (-d.time.offset)
  { d with time := { d.time with stepReq := false, offset := 0 } }.reply b 0x0801 .ok

/-- TIME_STEP: fabric time is stepped by the offset from the master (R201). -/
def execTimeStep (b : Bas) (s : State) : Out := onCmd (.timeStep b) b (devCmd 0x0801) (timeStepFx b) s

/-- TIME_SET: the time of day the next PPS edge takes (R203). -/
def execTimeSet (b : Bas) (tod : Nat) (s : State) : Out :=
  onCmd (.timeSet b tod) b (devCmd 0x0802) (fun d => { d with time := { d.time with tod := some tod } }.reply b 0x0802 .ok) s

/-! ### Group 0x09 (R177, R457, R504) -/

def hellReclaimFx (b : Bas) (pt : Nat) (pass : List Nat) (d : Dev) : Dev :=
  if 16 ≤ pt then d.reply b 0x0901 .unsupported 0x02 0
  else if !dieReach d (dPT pt) then d.reply b 0x0901 .targetLost
  else
    let fails := ((d.core.hell.filter fun e => e.1 / 98304 == pt).map fun e => e.1 % 98304).filter fun i => !pass.contains i
    (reclaim d pt fails).reply b 0x0901 .ok

/-- HELL_RECLAIM: `pass` are the sorts that pass both test patterns (R177). -/
def execHellReclaim (b : Bas) (pt : Nat) (pass : List Nat) (s : State) : Out :=
  onCmd (.hellReclaim b pt pass) b (devCmd 0x0901) (hellReclaimFx b pt pass) s

def attestFx (b : Bas) (digests : List Nat) (d : Dev) : Dev :=
  if digests.isEmpty ∨ 64 < digests.length then d.reply b 0x0902 .unsupported
  else { d with mgmt := { d.mgmt with policy := digests } }.reply b 0x0902 .ok

/-- ATTEST_POLICY: the approved measurements (R454, R457). -/
def execAttestPolicy (b : Bas) (digests : List Nat) (s : State) : Out :=
  onCmd (.attestPolicy b digests) b (devCmd 0x0902) (attestFx b digests) s

def errlogFx (b : Bas) (first count : Nat) (d : Dev) : Dev :=
  if count = 0 ∨ 170 < count ∨ 4096 < first + count then d.reply b 0x0903 .unsupported
  else d.reply b 0x0903 .ok 0 0 ((upTo count).map fun i => ((tfind d.flt.ring (first + i)).map ErrRec.word).getD 0)

/-- ERRLOG_READ: records of FLT_ERRLOG, 24 bytes each (R504). -/
def execErrlogRead (b : Bas) (first count : Nat) (s : State) : Out :=
  onCmd (.errlogRead b first count) b (readCmd 0x0903 .a false) (errlogFx b first count) s

/-! ### Notices (R558–R560) -/

/-- NOTICE_SUB: the session's group mask (R560). -/
def execNoticeSub (b : Bas) (mask : Nat) (s : State) : Out :=
  onCmd (.noticeSub b mask) b { opc := 0x0D01, who := .a, i3c := true, dom := some .device }
    (fun d => (d.modSession (b.sess.getD 0) fun se => { se with mask := mask % 65536 }).reply b 0x0D01 .ok) s

/-- A notice as the Basod packet that was sent: header and payload (R542, R558). -/
def Notice.bytes (n : Notice) : List Byte :=
  let plen := 56 + 4 * n.list.length
  leBytes 8 (1 <<< 60 + 2 <<< 58 + n.code <<< 40 + (n.nseq % 65536) <<< 24 + plen <<< 12) ++ leBytes 8 0
    ++ leBytes 8 n.nseq ++ leBytes 8 n.time ++ leBytes 1 n.die ++ leBytes 1 (b2n n.chase.isSome) ++ leBytes 2 (n.chase.getD 0) ++ leBytes 4 n.supp
    ++ leBytes 8 n.p0 ++ leBytes 8 n.p1 ++ leBytes 8 n.p2 ++ leBytes 8 0 ++ n.list.flatMap (leBytes 4)

/-- As many whole notices as fit. -/
def fitNotices : List Notice → Nat → List Byte
  | [], _ => []
  | n :: r, room => if n.bytes.length ≤ room then n.bytes ++ fitNotices r (room - n.bytes.length) else []

def noticeReadFx (b : Bas) (first : Nat) (d : Dev) : Dev :=
  let all := d.mgmt.ring.reverse
  let oldest := ((all.head?).map fun n => n.nseq).getD d.mgmt.nseq
  let gone := decide (1 ≤ first ∧ first < oldest)
  let give := (fitNotices (all.filter fun n => decide (first ≤ n.nseq)) 4080).map fun x => x.toNat
  d.reply b 0x0D02 .ok 0 (if gone then oldest else 0) give

/-- NOTICE_READ: the ring's notices from an NSEQ on; where it was overwritten, DVAL names the oldest (R560). -/
def execNoticeRead (b : Bas) (first : Nat) (s : State) : Out :=
  onCmd (.noticeRead b first) b (readCmd 0x0D02 .a true) (noticeReadFx b first) s

/-! ### Firmware (R447, R485, R563–R565) -/

def fwCmd (opc : Nat) : CmdInfo := { opc := opc, who := .f, dom := some .firmware }

/-- The slot that is inactive: not the one the keepers last booted from (R563). -/
def idleSlot (d : Dev) : Bool := !(d.mgmt.keeper d.mgmt.lastActive).slotB

/-- Do the keepers run different firmware? -/
def fwDiffer (d : Dev) : Bool := d.mgmt.kp0.booted && d.mgmt.kp1.booted && d.mgmt.kp0.runVer != d.mgmt.kp1.runVer

/-- One piece written to a keeper's inactive slot, which is invalid from then on. -/
def Keeper.piece (k : Keeper) (slotB : Bool) (off : Nat) (data : List Byte) : Keeper :=
  let k := { k with image := (if off = 0 then [] else k.image) ++ [(off, data)], xfer := off + data.length }
  if slotB then { k with validB := false, bver := 0, bsvn := 0 } else { k with validA := false, aver := 0, asvn := 0 }

def fwWriteFx (b : Bas) (target off : Nat) (last : Bool) (data : List Byte) (d : Dev) : Dev :=
  let m := d.mgmt
  let have_ := if target = 0 then (m.keeper m.lastActive).xfer else m.mtXfer
  let ended := if target = 0 then m.xferEnd else m.mtEnd
  if 1 < target ∨ data.isEmpty ∨ 2048 < data.length ∨ (!last ∧ data.length ≠ 2048) then d.reply b 0x0C01 .unsupported
  else if fwDiffer d then d.reply b 0x0C01 .busy
  else if off ≠ 0 ∧ (off ≠ have_ ∨ ended) ∨ 60 * 2 ^ 20 < off + data.length then d.reply b 0x0C01 .unsupported
  else if target = 0 then
    let put (d : Dev) (n : Nat) : Dev := d.modKeeper n fun k => k.piece (idleSlot d) off data
    let d := put (put d 0) 1
    { d with mgmt := { d.mgmt with verified := false, xferEnd := last } }.reply b 0x0C01 .ok
  else
    let img := (if off = 0 then [] else m.mtImage) ++ [(off, data)]
    { d with mgmt := { m with mtImage := img, mtXfer := off + data.length, mtVerified := false, mtEnd := last } }.reply b 0x0C01 .ok

/-- FW_WRITE (R563). -/
def execFwWrite (b : Bas) (target offset : Nat) (last : Bool) (data : List Byte) (s : State) : Out :=
  onCmd (.fwWrite b target offset last data) b (fwCmd 0x0C01) (fwWriteFx b target offset last data) s

/-- The inactive slot of a keeper holds a verified bundle. -/
def Keeper.staged (k : Keeper) (slotB : Bool) (ver svn : Nat) : Keeper :=
  if slotB then { k with validB := true, bver := ver, bsvn := svn } else { k with validA := true, aver := ver, asvn := svn }

def fwVerifyFx (b : Bas) (target len : Nat) (ok : Bool) (ver svn : Nat) (d : Dev) : Dev :=
  let m := d.mgmt
  let wrote := if target = 0 then (m.keeper m.lastActive).xfer else m.mtXfer
  let ended := if target = 0 then m.xferEnd else m.mtEnd
  let slot := idleSlot d
  let sl := if target = 0 then b2n slot else 0
  if 1 < target then d.reply b 0x0C02 .unsupported 0x02 0
  else if len ≠ wrote ∨ !ended ∨ !ok ∨ (target = 0 ∧ svn < m.fuseSvn) then
    (d.notice 0x0C03 d.kpDie none target sl Status.sealed_.code).reply b 0x0C02 .sealed_
  else
    let d := if target = 1 then { d with mgmt := { m with mtVerified := true, mtVer := ver } }
      else
        let put (d : Dev) (n : Nat) : Dev := d.modKeeper n fun k => k.staged slot ver svn
        let d := put (put d 0) 1
        { d with mgmt := { d.mgmt with verified := true, verLen := len } }
    (d.notice 0x0C01 d.kpDie none target sl ver).reply b 0x0C02 .ok

/-- FW_VERIFY (R564). `ok`: both copies pass the signature check; `ver`, `svn`: the versions the image carries. -/
def execFwVerify (b : Bas) (target len : Nat) (ok : Bool) (ver svn : Nat) (s : State) : Out :=
  onCmd (.fwVerify b target len ok ver svn) b (fwCmd 0x0C02) (fwVerifyFx b target len ok ver svn) s

def fwActivateFx (b : Bas) (target mode : Nat) (d : Dev) : Dev :=
  let m := d.mgmt
  let slot := idleSlot d
  if 1 < target ∨ 1 < mode then d.reply b 0x0C03 .unsupported
  else if !(if target = 0 then m.verified else m.mtVerified) then d.reply b 0x0C03 .busy
  else if target = 1 then
    if !d.meter.powered then d.reply b 0x0C03 .targetLost
    else (d.modMeter fun t => { t with nlrVer := m.mtVer }).reply b 0x0C03 .ok
  else if mode = 0 then
    let sel (d : Dev) (n : Nat) : Dev := d.modKeeper n fun k => { k with selB := slot }
    let d := sel (sel d 0) 1
    { d with mgmt := { d.mgmt with actPend := true } }.reply b 0x0C03 .ok
  else
    let n := 1 - m.lastActive
    if !keeperReady d n then d.reply b 0x0C03 .busy
    else
      let d := d.modKeeper n fun k => { k with booted := false, restarting := true, bootTo := some slot }
      { d with mgmt := { d.mgmt with activating := true, actSlot := some slot } }.defer b .firmware 0x0C03 0

/-- FW_ACTIVATE (R565). -/
def execFwActivate (b : Bas) (target mode : Nat) (s : State) : Out :=
  onCmd (.fwActivate b target mode) b (fwCmd 0x0C03) (fwActivateFx b target mode) s

/-- A keeper that restarts for an activation runs a slot. -/
def restarted (d : Dev) (n : Nat) (slotB : Bool) : Dev :=
  (runSlot d n slotB).modKeeper n fun k => { k with booted := true, restarting := false, altBoot := false }

def standbyReadyFx (ok : Bool) (d : Dev) : Dev :=
  match d.mgmt.active, d.mgmt.actSlot with
  | some a, some slot =>
    if !d.mgmt.activating ∨ d.mgmt.handover ∨ !(d.mgmt.keeper (1 - a)).restarting then d
    else if ok then
      let d := restarted d (1 - a) slot
      { d with mgmt := { d.mgmt with handover := true } }.finish 0x0C03 0 .ok
    else
      let d := restarted d (1 - a) (!slot)
      let d := { d with mgmt := { d.mgmt with activating := false, actSlot := none } }
      (d.notice 0x0C03 d.kpDie none 0 (b2n slot) Status.timeout.code).finish 0x0C03 0 .timeout
  | _, _ => d

/-- STANDBY_FW_READY: the standby runs the new slot and the reply is sent, or it runs the old slot again and the command ends TIMEOUT (R565). -/
def execStandbyFwReady (ok : Bool) (s : State) : Out := onDev (standbyReadyFx ok) s

def handoverFx (d : Dev) : Dev :=
  match d.mgmt.active, d.mgmt.actSlot with
  | some a, some slot =>
    if !d.mgmt.handover then d
    else (giveUp d 3).modKeeper a fun k => { k with booted := false, restarting := true, bootTo := some slot }
  | _, _ => d

/-- LEASE_HANDOVER_TIMER: 10 ms after the reply the active keeper gives up its lease and restarts from the new slot (R565). -/
def execLeaseHandoverTimer (s : State) : Out := onDev handoverFx s

def svnRaiseFx (b : Bas) (d : Dev) : Dev :=
  let k := d.mgmt.keeper d.mgmt.lastActive
  { d with mgmt := { d.mgmt with fuseSvn := max d.mgmt.fuseSvn (if k.slotB then k.bsvn else k.asvn) } }.reply b 0x0C04 .ok

/-- FW_SVN_RAISE: the fused minimum rises to the security version number of the running image (R447). -/
def execFwSvnRaise (b : Bas) (s : State) : Out := onCmd (.fwSvnRaise b) b (fwCmd 0x0C04) (svnRaiseFx b) s

/-- One keeper's 32 bytes of FW_STATUS, as words of 32 bits. -/
def fwStatusOf (d : Dev) (n : Nat) : List Nat :=
  let k := d.mgmt.keeper n
  let slots := b2n (!k.slotB) + 2 * b2n k.validA + 4 * b2n k.validB + 8 * b2n d.mgmt.verified + 16 * b2n d.mgmt.actPend
  [k.runVer, slots, if k.validA then k.aver else 0, if k.validB then k.bver else 0, k.asvn, k.bsvn, d.mgmt.fuseSvn, k.xfer]

/-- FW_STATUS: KP0 first (R565). -/
def execFwStatus (b : Bas) (s : State) : Out :=
  onCmd (.fwStatus b) b (readCmd 0x0C05 .a false) (fun d => d.reply b 0x0C05 .ok 0 0 (fwStatusOf d 0 ++ fwStatusOf d 1)) s

/-! ### Debug reads (R444) -/

def dbgReadFx (b : Bas) (len : Nat) (d : Dev) : Dev :=
  if d.pwr.mode ≠ .proof ∨ anyBound d then d.reply b 0x0E01 .sealed_
  else if 4080 < len then d.reply b 0x0E01 .unsupported
  else { d with free := d.free + len }.reply b 0x0E01 .ok 0 0 ((upTo len).map fun i => Config.freeNat (d.free + i) % 256)

/-- DBG_READ: SEALED outside proof mode, and while a chase is bound (R444). What unit and address name is not stated: the bytes are free
(log 46). -/
def execDbgRead (b : Bas) (unit addr len : Nat) (s : State) : Out :=
  onCmd (.dbgRead b unit addr len) b (devCmd 0x0E01) (dbgReadFx b len) s

end Sys2Proof.Machine
end

