-- ==== Sys2Proof/Machine/Ptp.lean ====
section
/-! DEFINITION. Fabric time: PTP messages, the servo, the time inputs (R144, R198–R203). -/

namespace Sys2Proof.Machine
open Sys2Proof

/-- Does a port run PTP (R199, R204 maps)? -/
def ptpOn (d : Dev) (p : Nat) : Bool := d.flag .schPtpCfg 0 31 && d.flag .schPortCfg p 30

def Dev.ptpPort (d : Dev) (p : Nat) : PtpPort := tget {} d.time.ports p
def Dev.modPtp (d : Dev) (p : Nat) (f : PtpPort → PtpPort) : Dev :=
  { d with time := { d.time with ports := tmod {} d.time.ports p f } }

/-- The PTP state of a port: ROLE with EXTCFG = 1, else the best master clock algorithm's (R199). -/
def ptpState (d : Dev) (p : Nat) : Nat :=
  if d.flag .schPtpCfg 0 29 then d.fld .schPortCfg p 29 28 else (d.ptpPort p).state

/-- A PTP message reaches its port: one that breaks the framing of R144 is discarded and counted in HDRERR; one for a port without PTP
or of another domain is discarded (IEEE 1588). -/
def ptpRx (m : PtpMsg) (body : Dev → Dev) (d : Dev) : Dev :=
  if !m.framed then hdrErr d m.port
  else if !ptpOn d m.port || m.domain != d.fld .schPtpCfg 0 23 16 then d
  else body d

/-- A 16-bit two's complement field. -/
def sext16 (n : Nat) : Int := if n < 32768 then (n : Int) else (n : Int) - 65536

def asym (d : Dev) (p : Nat) : Int := sext16 (d.fld .schPortCfg p 15 0)

/-! ### The servo (R201) -/

/-- An offset above 1 ms in either direction. -/
def farOff (o : Int) : Bool := decide (1000000 < o.natAbs)

/-- The servo gets a new offset from the master (R201). Before LOCKED was first reached it may step; it does so for an offset above 1 ms
(log 17). After that such an offset sets STEPREQ and sends TIMEOFF, and is stepped at once only with TSTEP armed. Otherwise it
slews: the rate word, within ±100 ppm, and the moment STATE becomes LOCKED are free values (log 14). -/
def servo (d : Dev) (o : Int) : Dev :=
  let d := { d with time := { d.time with offset := o } }
  let (r, d) := d.draw
  let (l, d) := d.draw
  let rate : Int := (r % 200001 : Nat) - 100000
  let slew (d : Dev) : Dev :=
    let st := if d.time.st = .locked ∨ l % 2 = 1 then TimeSt.locked else .locking
    { d with time := { d.time with rate := rate, st := st, locked1 := d.time.locked1 || st == .locked } }
  if !farOff o then slew { d with time := { d.time with stepReq := false } }
  else if !d.time.locked1 then slew (stepTime d (-o))
  else
    let d := { d with time := { d.time with stepReq := true } }
    let d := d.notice 0x0802 (d.kpDie) none (o % (2 : Int) ^ 64).toNat 0 0
    if d.flag .fltFabpol 0 28 then slew { stepTime d (-o) with time := { (stepTime d (-o)).time with stepReq := false } }
    else slew d

/-- The offset from a master on a peer-to-peer port (IEEE 1588): receive time less origin time, correction, asymmetry, link delay. -/
def offsetOf (d : Dev) (p rx origin : Nat) (corr : Int) : Int :=
  (rx : Int) - origin - corr - asym d p - ((d.ptpPort p).delay.getD 0 : Nat)

/-! ### Messages received (R199, R200) -/

/-- SYNC: a one-step Sync drives the servo, a two-step one waits for its Follow_Up. -/
def syncFx (m : PtpMsg) (d : Dev) : Dev :=
  ptpRx m (fun d =>
    if ptpState d m.port ≠ 2 then d
    else if m.twoStep then d.modPtp m.port fun q => { q with syncRx := some (m.seq, m.ts), syncCorr := m.corr }
    else servo d (offsetOf d m.port m.ts m.time m.corr)) d

def execSync (m : PtpMsg) (s : State) : Out := onDev (syncFx m) s

/-- FOLLOW_UP of the Sync received (R199): the servo gets its offset. -/
def followUpFx (m : PtpMsg) (d : Dev) : Dev :=
  ptpRx m (fun d =>
    match (d.ptpPort m.port).syncRx with
    | some (seq, rx) =>
      if seq ≠ m.seq ∨ ptpState d m.port ≠ 2 then d
      else
        let o := offsetOf d m.port rx m.time (m.corr + (d.ptpPort m.port).syncCorr)
        servo (d.modPtp m.port fun q => { q with syncRx := none }) o
    | none => d) d

def execFollowUp (m : PtpMsg) (s : State) : Out := onDev (followUpFx m) s

/-- Announced data as compared by the default best master clock algorithm: priority1, clockClass, priority2, identity, stepsRemoved. -/
abbrev AnnData := Nat × Nat × Nat × Nat × Nat

/-- Is one better than another (lower first)? -/
def annBetter (a b : AnnData) : Bool :=
  decide (a.1 < b.1) || (a.1 == b.1 && (decide (a.2.1 < b.2.1) || (a.2.1 == b.2.1 && (decide (a.2.2.1 < b.2.2.1)
    || (a.2.2.1 == b.2.2.1 && (decide (a.2.2.2.1 < b.2.2.2.1) || (a.2.2.2.1 == b.2.2.2.1 && decide (a.2.2.2.2 < b.2.2.2.2))))))))

/-- This device's own data (R199 clock attributes). -/
def ownAnn (d : Dev) : AnnData :=
  let gm := d.flag .schPtpCfg 0 30
  let cls := if gm ∧ d.time.st = .locked then 6 else if d.time.st = .holdover then 7 else 248
  (d.fld .schPtpCfg 0 7 0, cls, 128, Config.clockIdentity, 0)

/-- The best announcement over all ports running PTP, with its port. -/
def bestAnn (d : Dev) : Option (Nat × AnnData) :=
  (d.time.ports.filterMap fun e => if ptpOn d e.1 then e.2.best.map fun b => (e.1, b) else none).foldl
    (fun acc e => match acc with
      | none => some e
      | some a => if annBetter e.2 a.2 then some e else some a) none

/-- The state decision for a port (IEEE 1588 default algorithm): MASTER where the device itself is best, SLAVE on the port of the best
announcement, PASSIVE where another path of the same grandmaster is heard, MASTER elsewhere. -/
def decide1588 (d : Dev) (best : Option (Nat × AnnData)) (p : Nat) (q : PtpPort) : Nat :=
  let own := ownAnn d
  match best with
  | none => 1
  | some (bp, b) =>
    if own.2.1 < 128 then (match q.best with | some a => if annBetter own a then 1 else 3 | none => 1)
    else if annBetter own b then 1
    else if p = bp then 2
    else match q.best with
      | some a => if a.2.2.2.1 = b.2.2.2.1 ∧ !annBetter own a then 3 else 1
      | none => 1

def runBmca (d : Dev) : Dev :=
  let best := bestAnn d
  let ports := d.time.ports.map fun e => (e.1, { e.2 with state := decide1588 d best e.1 e.2 })
  let slave := (ports.find? fun e => e.2.state == 2).map Prod.fst
  { d with time := { d.time with ports := ports, slave := slave } }

/-- ANNOUNCE (R199): kept if it is the first, better, or of the same clock; then the best master clock algorithm runs. -/
def announceFx (m : PtpMsg) (d : Dev) : Dev :=
  ptpRx m (fun d =>
    let a : AnnData := (m.prio1, m.cls, m.prio2, m.ident, m.steps)
    let keep := match (d.ptpPort m.port).best with
      | none => true
      | some b => annBetter a b || b.2.2.2.1 == m.ident
    let d := if keep then d.modPtp m.port fun q => { q with best := some a } else d
    if d.flag .schPtpCfg 0 29 then d else runBmca d) d

def execAnnounce (m : PtpMsg) (s : State) : Out := onDev (announceFx m) s

/-- PDELAY_REQ: answered with Pdelay_Resp carrying its receive time and the Follow_Up carrying the response's (R199). -/
def pdelayReqFx (m : PtpMsg) (d : Dev) : Dev :=
  ptpRx m (fun d => (d.emit (.ptp m.port 3 m.seq m.ts 0)).emit (.ptp m.port 10 m.seq d.now m.corr)) d

def execPdelayReq (m : PtpMsg) (s : State) : Out := onDev (pdelayReqFx m) s

/-- PDELAY_RESP: its receive time t4 and the request's receive time t2 wait for the Follow_Up (R200). -/
def pdelayRespFx (m : PtpMsg) (d : Dev) : Dev :=
  ptpRx m (fun d =>
    match (d.ptpPort m.port).pdTx with
    | some (seq, _) =>
      if seq = m.seq then d.modPtp m.port fun q => { q with pdRx := some (m.seq, m.time, m.ts), pdCorr := m.corr } else d
    | none => d) d

def execPdelayResp (m : PtpMsg) (s : State) : Out := onDev (pdelayRespFx m) s

/-- PDELAY_RESP_FOLLOW_UP: the link delay ((t4 − t1) − (t3 − t2) − corrections) ÷ 2 (IEEE 1588 peer delay). -/
def pdelayFuFx (m : PtpMsg) (d : Dev) : Dev :=
  ptpRx m (fun d =>
    match (d.ptpPort m.port).pdTx, (d.ptpPort m.port).pdRx with
    | some (s1, t1), some (s2, t2, t4) =>
      if s1 ≠ m.seq ∨ s2 ≠ m.seq then d
      else
        let x : Int := ((t4 : Int) - t1 - ((m.time : Int) - t2) - m.corr - (d.ptpPort m.port).pdCorr) / 2
        d.modPtp m.port fun q => { q with delay := some x.toNat, pdTx := none, pdRx := none }
    | _, _ => d) d

def execPdelayRespFollowUp (m : PtpMsg) (s : State) : Out := onDev (pdelayFuFx m) s

/-- PTP_UNSUPPORTED_MESSAGE: discarded and counted in PTPDISC (R199). -/
def ptpOtherFx (m : PtpMsg) (d : Dev) : Dev :=
  if !m.framed then hdrErr d m.port else d.count .cPtpdisc (portDie m.port)

def execPtpUnsupportedMessage (m : PtpMsg) (s : State) : Out := onDev (ptpOtherFx m) s

/-! ### Messages originated (R199) -/

/-- PTP_SYNC_INTERVAL: a master port sends Sync and its Follow_Up with the transmit timestamp. -/
def ptpSyncFx (p txTime : Nat) (d : Dev) : Dev :=
  if !ptpOn d p || ptpState d p != 1 || !d.portUp p then d
  else
    let q := (d.ptpPort p).seqSync
    let d := d.modPtp p fun x => { x with seqSync := (q + 1) % 65536 }
    (d.emit (.ptp p 0 q 0 0)).emit (.ptp p 8 q txTime 0)

def execPtpSyncInterval (port txTime : Nat) (s : State) : Out := onDev (ptpSyncFx port txTime) s

/-- PTP_PDELAY_INTERVAL: a PTP port sends Pdelay_Req and keeps its transmit timestamp t1. -/
def ptpPdelayFx (p txTime : Nat) (d : Dev) : Dev :=
  if !ptpOn d p || ptpState d p == 0 || !d.portUp p then d
  else
    let q := (d.ptpPort p).seqPd
    (d.modPtp p fun x => { x with seqPd := (q + 1) % 65536, pdTx := some (q, txTime), pdRx := none }).emit (.ptp p 2 q 0 0)

def execPtpPdelayInterval (port txTime : Nat) (s : State) : Out := onDev (ptpPdelayFx port txTime) s

/-- PTP_ANNOUNCE_INTERVAL: a master port sends Announce. -/
def ptpAnnounceFx (p : Nat) (d : Dev) : Dev :=
  if !ptpOn d p || ptpState d p != 1 || !d.portUp p then d
  else
    let q := (d.ptpPort p).seqAnn
    (d.modPtp p fun x => { x with seqAnn := (q + 1) % 65536 }).emit (.ptp p 11 q d.now 0)

def execPtpAnnounceInterval (port : Nat) (s : State) : Out := onDev (ptpAnnounceFx port) s

/-! ### Time sources (R201, R203) -/

/-- TIME_SOURCE_LOSS: input 0 the PTP master, 1 the 1 PPS input, 2 the 10 MHz input. STATE becomes HOLDOVER, the rate word stays,
TIMEHOLD is sent. Without GM the loss of a time input loses no time source. -/
def timeLossFx (input : Nat) (d : Dev) : Dev :=
  let gm := d.flag .schPtpCfg 0 30
  let t := d.time
  let d := { d with time := { t with
    ppsOk := t.ppsOk && input != 1
    tenOk := t.tenOk && input != 2
    slave := if input = 0 then none else t.slave } }
  if (gm && input == 0) || (!gm && input != 0) then d
  else { d with time := { d.time with st := .holdover } }.notice 0x0803 d.kpDie none 0 0 0

def execTimeSourceLoss (input : Nat) (s : State) : Out := onDev (timeLossFx input) s

/-- TIME_SOURCE_REGAIN: STATE becomes LOCKED and TIMELOCK is sent (log 18). With GM both inputs must be present. -/
def timeRegainFx (input : Nat) (offset : Int) (d : Dev) : Dev :=
  let gm := d.flag .schPtpCfg 0 30
  let t := d.time
  let d := { d with time := { t with ppsOk := t.ppsOk || input == 1, tenOk := t.tenOk || input == 2 } }
  if (gm && !(d.time.ppsOk && d.time.tenOk)) || (!gm && input != 0) then d
  else
    let d := { d with time := { d.time with st := .locked, locked1 := true, offset := offset } }
    d.notice 0x0804 d.kpDie none (offset % (2 : Int) ^ 64).toNat 0 0

def execTimeSourceRegain (input : Nat) (offset : Int) (s : State) : Out := onDev (timeRegainFx input offset) s

/-- PPS_EDGE: with GM = 1 the edge is a whole second of fabric time, and a pending time of day is loaded (R203). -/
def ppsFx (d : Dev) : Dev :=
  let d := { d with time := { d.time with ppsOk := true } }
  if !d.flag .schPtpCfg 0 30 then d
  else
    let target : Nat := match d.time.tod with
      | some t => t
      | none => (d.now + 500000000) / 1000000000 * 1000000000
    let d := stepTime d ((target : Int) - d.now)
    { d with time := { d.time with frac := target * 2 ^ 32, tod := none } }

def execPpsEdge (s : State) : Out := onDev ppsFx s

/-- PPS_OUT_SECOND: the keeper drives its 1 PPS output (R203). -/
def execPpsOutSecond (keeper : Nat) (s : State) : Out :=
  onDev (fun d => if keeper < 2 then d.emit (.pps keeper (d.now / 1000000000)) else d) s

end Sys2Proof.Machine
end

