-- ==== Sys2Proof/Machine/Dispatch.lean ====
section
/-! DEFINITION. The effect of each command on everything but the queue: one arm per constructor. -/

namespace Sys2Proof.Machine
open Sys2Proof

def exec (i : Instr) (s : State) : Host.Outcome State Fault Refusal :=
  match i with
  | .paceWindowEnd pwd pace tj ack => Sys2Proof.Machine.execPaceWindowEnd pwd pace tj ack s
  | .kpPaceTgtWrite b pwd value => Sys2Proof.Machine.execKpPaceTgtWrite b pwd value s
  | .keeperLeaseRenew => Sys2Proof.Machine.execKeeperLeaseRenew s
  | .keeperLeaseLapse => Sys2Proof.Machine.execKeeperLeaseLapse s
  | .keeperFatalReport => Sys2Proof.Machine.execKeeperFatalReport s
  | .keeperTakeover => Sys2Proof.Machine.execKeeperTakeover s
  | .commitPressAcks chase => Sys2Proof.Machine.execCommitPressAcks chase s
  | .chaseUpdateApply chase die => Sys2Proof.Machine.execChaseUpdateApply chase die s
  | .commitSwitchComplete chase => Sys2Proof.Machine.execCommitSwitchComplete chase s
  | .drainholdExpiry chase what => Sys2Proof.Machine.execDrainholdExpiry chase what s
  | .drainCloseApply chase die => Sys2Proof.Machine.execDrainCloseApply chase die s
  | .drainPoll chase what => Sys2Proof.Machine.execDrainPoll chase what s
  | .drainboundExpiry chase what => Sys2Proof.Machine.execDrainboundExpiry chase what s
  | .epochReleaseApply chase die => Sys2Proof.Machine.execEpochReleaseApply chase die s
  | .vacatedFrameFenced kind target frame => Sys2Proof.Machine.execVacatedFrameFenced kind target frame s
  | .fastpathFillDone die chase epoch kind key => Sys2Proof.Machine.execFastpathFillDone die chase epoch kind key s
  | .rebalStage chase r => Sys2Proof.Machine.execRebalStage chase r s
  | .migCopyStart chase folio => Sys2Proof.Machine.execMigCopyStart chase folio s
  | .migCopyComplete chase folio => Sys2Proof.Machine.execMigCopyComplete chase folio s
  | .chaseFree chase => Sys2Proof.Machine.execChaseFree chase s
  | .portEnable b port value => Sys2Proof.Machine.execPortEnable b port value s
  | .portDisable b port value => Sys2Proof.Machine.execPortDisable b port value s
  | .fecLock port => Sys2Proof.Machine.execFecLock port s
  | .helloRepeat port => Sys2Proof.Machine.execHelloRepeat port s
  | .helloTimeout port => Sys2Proof.Machine.execHelloTimeout port s
  | .hello port h eid ptype caps sport spare => Sys2Proof.Machine.execHello port h eid ptype caps sport spare s
  | .creditInit port h counts => Sys2Proof.Machine.execCreditInit port h counts s
  | .credit port h counts => Sys2Proof.Machine.execCredit port h counts s
  | .dataFlitRx port f => Sys2Proof.Machine.execDataFlitRx port f s
  | .idleFlitRx port h => Sys2Proof.Machine.execIdleFlitRx port h s
  | .ackTimeout port => Sys2Proof.Machine.execAckTimeout port s
  | .nakResendTimeout port => Sys2Proof.Machine.execNakResendTimeout port s
  | .ackSendDeadline port => Sys2Proof.Machine.execAckSendDeadline port s
  | .creditReturnTimeout port => Sys2Proof.Machine.execCreditReturnTimeout port s
  | .laneLockLoss port lane => Sys2Proof.Machine.execLaneLockLoss port lane s
  | .laneWindowEnd port lane corrected uncorrectable => Sys2Proof.Machine.execLaneWindowEnd port lane corrected uncorrectable s
  | .spareReq port h failed spare => Sys2Proof.Machine.execSpareReq port h failed spare s
  | .spareAck port h failed spare refuse => Sys2Proof.Machine.execSpareAck port h failed spare refuse s
  | .spareAckTimeout port => Sys2Proof.Machine.execSpareAckTimeout port s
  | .spareHelloTimer octet heard => Sys2Proof.Machine.execSpareHelloTimer octet heard s
  | .narrowReq port h half => Sys2Proof.Machine.execNarrowReq port h half s
  | .narrowAck port h half refuse => Sys2Proof.Machine.execNarrowAck port h half refuse s
  | .narrowAckTimeout port => Sys2Proof.Machine.execNarrowAckTimeout port s
  | .keySwitch port h slot first => Sys2Proof.Machine.execKeySwitch port h slot first s
  | .txKeyExhausted port => Sys2Proof.Machine.execTxKeyExhausted port s
  | .trickleReq port h => Sys2Proof.Machine.execTrickleReq port h s
  | .trickleAck port h refuse => Sys2Proof.Machine.execTrickleAck port h refuse s
  | .wakeReq port h => Sys2Proof.Machine.execWakeReq port h s
  | .wakeLanesReady port slow => Sys2Proof.Machine.execWakeLanesReady port slow s
  | .wakeReady port h => Sys2Proof.Machine.execWakeReady port h s
  | .wakeTrainingFail port lane => Sys2Proof.Machine.execWakeTrainingFail port lane s
  | .trickleLaneLoss port => Sys2Proof.Machine.execTrickleLaneLoss port s
  | .linkdown port h cause => Sys2Proof.Machine.execLinkdown port h cause s
  | .trayLinkTrained link rate width => Sys2Proof.Machine.execTrayLinkTrained link rate width s
  | .trayLinkDown link => Sys2Proof.Machine.execTrayLinkDown link s
  | .cxlCompletion link cid data poison => Sys2Proof.Machine.execCxlCompletion link cid data poison s
  | .trayReqTimeout link cid => Sys2Proof.Machine.execTrayReqTimeout link cid s
  | .trayDcAdd link capacity => Sys2Proof.Machine.execTrayDcAdd link capacity s
  | .trayDcForcedRemoval link first frames => Sys2Proof.Machine.execTrayDcForcedRemoval link first frames s
  | .load x => Sys2Proof.Machine.execLoad x s
  | .store x => Sys2Proof.Machine.execStore x s
  | .atomic x => Sys2Proof.Machine.execAtomic x s
  | .fence x => Sys2Proof.Machine.execFence x s
  | .fenceAnswer req => Sys2Proof.Machine.execFenceAnswer req s
  | .resp x => Sys2Proof.Machine.execResp x s
  | .reduceContrib x => Sys2Proof.Machine.execReduceContrib x s
  | .reduceResult x => Sys2Proof.Machine.execReduceResult x s
  | .carry x => Sys2Proof.Machine.execCarry x s
  | .gather x => Sys2Proof.Machine.execGather x s
  | .scatterAdd x => Sys2Proof.Machine.execScatterAdd x s
  | .dispatch x => Sys2Proof.Machine.execDispatch x s
  | .combine x => Sys2Proof.Machine.execCombine x s
  | .scan x => Sys2Proof.Machine.execScan x s
  | .push x => Sys2Proof.Machine.execPush x s
  | .mcast x => Sys2Proof.Machine.execMcast x s
  | .mgmt x => Sys2Proof.Machine.execMgmt x s
  | .snap x => Sys2Proof.Machine.execSnap x s
  | .trainTimeout src chase tag resp => Sys2Proof.Machine.execTrainTimeout src chase tag resp s
  | .completionTimeout req => Sys2Proof.Machine.execCompletionTimeout req s
  | .filterEntryExpiry home src chase tag => Sys2Proof.Machine.execFilterEntryExpiry home src chase tag s
  | .xbarSchedule die full => Sys2Proof.Machine.execXbarSchedule die full s
  | .sliceRx x => Sys2Proof.Machine.execSliceRx x s
  | .rebuildTimeout src dst pseq => Sys2Proof.Machine.execRebuildTimeout src dst pseq s
  | .rack src dst pseq => Sys2Proof.Machine.execRack src dst pseq s
  | .rnak src dst pseq => Sys2Proof.Machine.execRnak src dst pseq s
  | .rackTimeout src dst pseq => Sys2Proof.Machine.execRackTimeout src dst pseq s
  | .xbarCreditRx src port n => Sys2Proof.Machine.execXbarCreditRx src port n s
  | .gateChangeRx die port => Sys2Proof.Machine.execGateChangeRx die port s
  | .rsqGapTimeout src dst => Sys2Proof.Machine.execRsqGapTimeout src dst s
  | .planeWindowEnd plane => Sys2Proof.Machine.execPlaneWindowEnd plane s
  | .egressSelect port => Sys2Proof.Machine.execEgressSelect port s
  | .mcOutcomeRx id die => Sys2Proof.Machine.execMcOutcomeRx id die s
  | .mcwaitExpiry id member => Sys2Proof.Machine.execMcwaitExpiry id member s
  | .mcRetryTimer id => Sys2Proof.Machine.execMcRetryTimer id s
  | .hellboxAudit die found fails => Sys2Proof.Machine.execHellboxAudit die found fails s
  | .sortSramError die sort chase arr port tc pos => Sys2Proof.Machine.execSortSramError die sort chase arr port tc pos s
  | .creditStall port vl => Sys2Proof.Machine.execCreditStall port vl s
  | .refillBoundary port => Sys2Proof.Machine.execRefillBoundary port s
  | .gateEntryChange port => Sys2Proof.Machine.execGateEntryChange port s
  | .gateCommit b port value => Sys2Proof.Machine.execGateCommit b port value s
  | .gateCancel b port value => Sys2Proof.Machine.execGateCancel b port value s
  | .gateListTakeover port => Sys2Proof.Machine.execGateListTakeover port s
  | .agePromotion egress die port tc => Sys2Proof.Machine.execAgePromotion egress die port tc s
  | .sync m => Sys2Proof.Machine.execSync m s
  | .followUp m => Sys2Proof.Machine.execFollowUp m s
  | .announce m => Sys2Proof.Machine.execAnnounce m s
  | .pdelayReq m => Sys2Proof.Machine.execPdelayReq m s
  | .pdelayResp m => Sys2Proof.Machine.execPdelayResp m s
  | .pdelayRespFollowUp m => Sys2Proof.Machine.execPdelayRespFollowUp m s
  | .ptpUnsupportedMessage m => Sys2Proof.Machine.execPtpUnsupportedMessage m s
  | .ptpSyncInterval port txTime => Sys2Proof.Machine.execPtpSyncInterval port txTime s
  | .ptpPdelayInterval port txTime => Sys2Proof.Machine.execPtpPdelayInterval port txTime s
  | .timeSourceLoss input => Sys2Proof.Machine.execTimeSourceLoss input s
  | .timeSourceRegain input offset => Sys2Proof.Machine.execTimeSourceRegain input offset s
  | .ppsEdge => Sys2Proof.Machine.execPpsEdge s
  | .ppsOutSecond keeper => Sys2Proof.Machine.execPpsOutSecond keeper s
  | .galleyReadReturn job ce ue => Sys2Proof.Machine.execGalleyReadReturn job ce ue s
  | .mirrorWriteDone job => Sys2Proof.Machine.execMirrorWriteDone job s
  | .stripeMemberAnswer job member => Sys2Proof.Machine.execStripeMemberAnswer job member s
  | .rebuildStart set => Sys2Proof.Machine.execRebuildStart set s
  | .rebuildSlot set => Sys2Proof.Machine.execRebuildSlot set s
  | .moverDescriptorTake chase ring => Sys2Proof.Machine.execMoverDescriptorTake chase ring s
  | .moverPieceDone chase ring => Sys2Proof.Machine.execMoverPieceDone chase ring s
  | .moverStatusWritten chase ring => Sys2Proof.Machine.execMoverStatusWritten chase ring s
  | .layerPieceDone chase layer => Sys2Proof.Machine.execLayerPieceDone chase layer s
  | .layerNeedReached chase layer => Sys2Proof.Machine.execLayerNeedReached chase layer s
  | .pushEarlyAnswer chase layer => Sys2Proof.Machine.execPushEarlyAnswer chase layer s
  | .patrolScrub stack ce ue => Sys2Proof.Machine.execPatrolScrub stack ce ue s
  | .gets chase party pva m => Sys2Proof.Machine.execGets chase party pva m s
  | .getm chase party pva m => Sys2Proof.Machine.execGetm chase party pva m s
  | .upgr chase party pva m => Sys2Proof.Machine.execUpgr chase party pva m s
  | .puts chase party pva m => Sys2Proof.Machine.execPuts chase party pva m s
  | .pute chase party pva m => Sys2Proof.Machine.execPute chase party pva m s
  | .putm chase party pva m => Sys2Proof.Machine.execPutm chase party pva m s
  | .puto chase party pva m => Sys2Proof.Machine.execPuto chase party pva m s
  | .fwds chase party pva m => Sys2Proof.Machine.execFwds chase party pva m s
  | .fwdm chase party pva m => Sys2Proof.Machine.execFwdm chase party pva m s
  | .inv chase party pva m => Sys2Proof.Machine.execInv chase party pva m s
  | .srcs chase party pva m => Sys2Proof.Machine.execSrcs chase party pva m s
  | .data chase party pva m => Sys2Proof.Machine.execData chase party pva m s
  | .grant chase party pva m => Sys2Proof.Machine.execGrant chase party pva m s
  | .iack chase party pva m => Sys2Proof.Machine.execIack chase party pva m s
  | .pack chase party pva m => Sys2Proof.Machine.execPack chase party pva m s
  | .done chase party pva m => Sys2Proof.Machine.execDone chase party pva m s
  | .snak chase party pva m => Sys2Proof.Machine.execSnak chase party pva m s
  | .invalNoticeFlush chase base => Sys2Proof.Machine.execInvalNoticeFlush chase base s
  | .roundTimeout chase rid => Sys2Proof.Machine.execRoundTimeout chase rid s
  | .updateStepTimeout chase table => Sys2Proof.Machine.execUpdateStepTimeout chase table s
  | .versionSwitch chase table => Sys2Proof.Machine.execVersionSwitch chase table s
  | .shardLoadWindow chase table => Sys2Proof.Machine.execShardLoadWindow chase table s
  | .moeBatchTimer chase moe step expert core => Sys2Proof.Machine.execMoeBatchTimer chase moe step expert core s
  | .combineDeadline chase moe req => Sys2Proof.Machine.execCombineDeadline chase moe req s
  | .scanEarlyAnswer svc => Sys2Proof.Machine.execScanEarlyAnswer svc s
  | .scanDone svc => Sys2Proof.Machine.execScanDone svc s
  | .stationFire core slot node => Sys2Proof.Machine.execStationFire core slot node s
  | .platePieceDone core slot => Sys2Proof.Machine.execPlatePieceDone core slot s
  | .deadlineExpiry core slot node item => Sys2Proof.Machine.execDeadlineExpiry core slot node item s
  | .ingestWaitTimeout px x => Sys2Proof.Machine.execIngestWaitTimeout px x s
  | .plateInstanceFault core slot => Sys2Proof.Machine.execPlateInstanceFault core slot s
  | .read x => Sys2Proof.Machine.execRead x s
  | .add x => Sys2Proof.Machine.execAdd x s
  | .sub x => Sys2Proof.Machine.execSub x s
  | .set x => Sys2Proof.Machine.execSet x s
  | .take x => Sys2Proof.Machine.execTake x s
  | .waitge x => Sys2Proof.Machine.execWaitge x s
  | .arrive x => Sys2Proof.Machine.execArrive x s
  | .arrivewait x => Sys2Proof.Machine.execArrivewait x s
  | .waitrnd x => Sys2Proof.Machine.execWaitrnd x s
  | .acquire x => Sys2Proof.Machine.execAcquire x s
  | .tryacq x => Sys2Proof.Machine.execTryacq x s
  | .release x => Sys2Proof.Machine.execRelease x s
  | .renew x => Sys2Proof.Machine.execRenew x s
  | .ticket x => Sys2Proof.Machine.execTicket x s
  | .serve x => Sys2Proof.Machine.execServe x s
  | .waitturn x => Sys2Proof.Machine.execWaitturn x s
  | .heldOpTimeout req => Sys2Proof.Machine.execHeldOpTimeout req s
  | .quoinLeaseExpiry mark => Sys2Proof.Machine.execQuoinLeaseExpiry mark s
  | .barrierParentAnswer mark st => Sys2Proof.Machine.execBarrierParentAnswer mark st s
  | .barrierUpResend mark => Sys2Proof.Machine.execBarrierUpResend mark s
  | .livenessSend die => Sys2Proof.Machine.execLivenessSend die s
  | .dieSilence die => Sys2Proof.Machine.execDieSilence die s
  | .fatalSliceRx die => Sys2Proof.Machine.execFatalSliceRx die s
  | .nexthopFailover set port => Sys2Proof.Machine.execNexthopFailover set port s
  | .galleyStackLoss stack => Sys2Proof.Machine.execGalleyStackLoss stack s
  | .ceWindowEnd die unit => Sys2Proof.Machine.execCeWindowEnd die unit s
  | .portTableError die table index => Sys2Proof.Machine.execPortTableError die table index s
  | .formeStoreError chase part key => Sys2Proof.Machine.execFormeStoreError chase part key s
  | .markRecordError mark => Sys2Proof.Machine.execMarkRecordError mark s
  | .directoryError line => Sys2Proof.Machine.execDirectoryError line s
  | .fatalPackage cause => Sys2Proof.Machine.execFatalPackage cause s
  | .fltFabpolWrite b value => Sys2Proof.Machine.execFltFabpolWrite b value s
  | .snapCutTime => Sys2Proof.Machine.execSnapCutTime s
  | .snapSweepDone => Sys2Proof.Machine.execSnapSweepDone s
  | .snapTimeout => Sys2Proof.Machine.execSnapTimeout s
  | .meterOpenNotice chase => Sys2Proof.Machine.execMeterOpenNotice chase s
  | .meterCloseNotice chase => Sys2Proof.Machine.execMeterCloseNotice chase s
  | .meterSampleTick uj alarms => Sys2Proof.Machine.execMeterSampleTick uj alarms s
  | .keeperTimeTick => Sys2Proof.Machine.execKeeperTimeTick s
  | .exportRecordDue die => Sys2Proof.Machine.execExportRecordDue die s
  | .meterExportRecord die => Sys2Proof.Machine.execMeterExportRecord die s
  | .censusCopyRx chase die copy => Sys2Proof.Machine.execCensusCopyRx chase die copy s
  | .censusTimeout chase => Sys2Proof.Machine.execCensusTimeout chase s
  | .colophonBoundary => Sys2Proof.Machine.execColophonBoundary s
  | .colophonCommitDone retried => Sys2Proof.Machine.execColophonCommitDone retried s
  | .senseLineFault pwd => Sys2Proof.Machine.execSenseLineFault pwd s
  | .meterSupplyFail held => Sys2Proof.Machine.execMeterSupplyFail held s
  | .meterPowerReturn => Sys2Proof.Machine.execMeterPowerReturn s
  | .getVersion tr peer has13 => Sys2Proof.Machine.execGetVersion tr peer has13 s
  | .getCapabilities tr peer => Sys2Proof.Machine.execGetCapabilities tr peer s
  | .negotiateAlgorithms tr peer common => Sys2Proof.Machine.execNegotiateAlgorithms tr peer common s
  | .getDigests tr peer => Sys2Proof.Machine.execGetDigests tr peer s
  | .getCertificate tr peer slot offset length => Sys2Proof.Machine.execGetCertificate tr peer slot offset length s
  | .challenge tr peer slot nonce => Sys2Proof.Machine.execChallenge tr peer slot nonce s
  | .getMeasurements tr peer index nonce => Sys2Proof.Machine.execGetMeasurements tr peer index nonce s
  | .keyExchange tr peer slot both => Sys2Proof.Machine.execKeyExchange tr peer slot both s
  | .finish b digest ok => Sys2Proof.Machine.execFinish b digest ok s
  | .heartbeat b => Sys2Proof.Machine.execHeartbeat b s
  | .keyUpdate b op => Sys2Proof.Machine.execKeyUpdate b op s
  | .endSession b => Sys2Proof.Machine.execEndSession b s
  | .keyInstall b chase party kind key => Sys2Proof.Machine.execKeyInstall b chase party kind key s
  | .keyRevoke b chase party kind slot => Sys2Proof.Machine.execKeyRevoke b chase party kind slot s
  | .colmaskSet b chase owner reader allow pvis rvis => Sys2Proof.Machine.execColmaskSet b chase owner reader allow pvis rvis s
  | .chaseQuote b chase nonce => Sys2Proof.Machine.execChaseQuote b chase nonce s
  | .keeperBoot keeper selOk altOk ready => Sys2Proof.Machine.execKeeperBoot keeper selOk altOk ready s
  | .bootReadyTimeout keeper altOk => Sys2Proof.Machine.execBootReadyTimeout keeper altOk s
  | .ipv6NeighbourDiscovery keeper target => Sys2Proof.Machine.execIpv6NeighbourDiscovery keeper target s
  | .icmpv6Echo keeper dst data => Sys2Proof.Machine.execIcmpv6Echo keeper dst data s
  | .pldmRequest keeper sensor => Sys2Proof.Machine.execPldmRequest keeper sensor s
  | .pldmSensorUpdate keeper temps powers pkg => Sys2Proof.Machine.execPldmSensorUpdate keeper temps powers pkg s
  | .basodAtStandby b => Sys2Proof.Machine.execBasodAtStandby b s
  | .identGet b => Sys2Proof.Machine.execIdentGet b s
  | .eidSet b eid => Sys2Proof.Machine.execEidSet b eid s
  | .ownerSet b pres => Sys2Proof.Machine.execOwnerSet b pres s
  | .ownerChange b digest => Sys2Proof.Machine.execOwnerChange b digest s
  | .ownerClear b pres => Sys2Proof.Machine.execOwnerClear b pres s
  | .observerSet b digests => Sys2Proof.Machine.execObserverSet b digests s
  | .sessionInfo b => Sys2Proof.Machine.execSessionInfo b s
  | .portKeyset b port slot txKey rxKey txSalt rxSalt => Sys2Proof.Machine.execPortKeyset b port slot txKey rxKey txSalt rxSalt s
  | .linkDerive b port slot secret => Sys2Proof.Machine.execLinkDerive b port slot secret s
  | .trickle b port => Sys2Proof.Machine.execTrickle b port s
  | .wake b port => Sys2Proof.Machine.execWake b port s
  | .routeWrite b table first ents => Sys2Proof.Machine.execRouteWrite b table first ents s
  | .nhsetWrite b set members alt => Sys2Proof.Machine.execNhsetWrite b set members alt s
  | .mcgrpWrite b group value mem => Sys2Proof.Machine.execMcgrpWrite b group value mem s
  | .compCreate b chase cowner q trays => Sys2Proof.Machine.execCompCreate b chase cowner q trays s
  | .compDestroy b chase => Sys2Proof.Machine.execCompDestroy b chase s
  | .formeStage b chase q trays => Sys2Proof.Machine.execFormeStage b chase q trays s
  | .formeCommit b chase force => Sys2Proof.Machine.execFormeCommit b chase force s
  | .partyBind b chase party digest => Sys2Proof.Machine.execPartyBind b chase party digest s
  | .trunkBind b port chase bind => Sys2Proof.Machine.execTrunkBind b port chase bind s
  | .compOwner b chase digest => Sys2Proof.Machine.execCompOwner b chase digest s
  | .capAccept b kind target capacity => Sys2Proof.Machine.execCapAccept b kind target capacity s
  | .regionFreeze b chase base trays => Sys2Proof.Machine.execRegionFreeze b chase base trays s
  | .regionShare b chase base into trays => Sys2Proof.Machine.execRegionShare b chase base into trays s
  | .trayOffline b kind target => Sys2Proof.Machine.execTrayOffline b kind target s
  | .trayOnline b kind target => Sys2Proof.Machine.execTrayOnline b kind target s
  | .spareAdd b kind target base extent => Sys2Proof.Machine.execSpareAdd b kind target base extent s
  | .spareRemove b kind target base => Sys2Proof.Machine.execSpareRemove b kind target base s
  | .stripeDefine b set extent mem => Sys2Proof.Machine.execStripeDefine b set extent mem s
  | .stripeDelete b set => Sys2Proof.Machine.execStripeDelete b set s
  | .moverBind b chase party r => Sys2Proof.Machine.execMoverBind b chase party r s
  | .moverUnbind b chase ring => Sys2Proof.Machine.execMoverUnbind b chase ring s
  | .layerDef b chase l => Sys2Proof.Machine.execLayerDef b chase l s
  | .dirRead b chase block line => Sys2Proof.Machine.execDirRead b chase block line s
  | .noticeBind b chase base group tc => Sys2Proof.Machine.execNoticeBind b chase base group tc s
  | .noticeUnbind b chase base => Sys2Proof.Machine.execNoticeUnbind b chase base s
  | .fmtdescWrite b row value => Sys2Proof.Machine.execFmtdescWrite b row value s
  | .redDefine b chase q => Sys2Proof.Machine.execRedDefine b chase q s
  | .redDelete b chase rid => Sys2Proof.Machine.execRedDelete b chase rid s
  | .embDefine b chase q => Sys2Proof.Machine.execEmbDefine b chase q s
  | .embDelete b chase table => Sys2Proof.Machine.execEmbDelete b chase table s
  | .embVersion b chase table newbase => Sys2Proof.Machine.execEmbVersion b chase table newbase s
  | .embSetopt b chase table lr eps => Sys2Proof.Machine.execEmbSetopt b chase table lr eps s
  | .embReshard b chase table firsts => Sys2Proof.Machine.execEmbReshard b chase table firsts s
  | .moeDefine b chase q => Sys2Proof.Machine.execMoeDefine b chase q s
  | .moeDelete b chase moe => Sys2Proof.Machine.execMoeDelete b chase moe s
  | .plateLoad b chase offset data => Sys2Proof.Machine.execPlateLoad b chase offset data s
  | .plateUnload b chase plate => Sys2Proof.Machine.execPlateUnload b chase plate s
  | .plateBind b chase party plate rings => Sys2Proof.Machine.execPlateBind b chase party plate rings s
  | .plateUnbind b chase plate ring => Sys2Proof.Machine.execPlateUnbind b chase plate ring s
  | .markSet b chase mark type plock party word link => Sys2Proof.Machine.execMarkSet b chase mark type plock party word link s
  | .markClear b mark => Sys2Proof.Machine.execMarkClear b mark s
  | .markEplost b eid => Sys2Proof.Machine.execMarkEplost b eid s
  | .timeStep b => Sys2Proof.Machine.execTimeStep b s
  | .timeSet b tod => Sys2Proof.Machine.execTimeSet b tod s
  | .snapArm b id init tcut chases ports => Sys2Proof.Machine.execSnapArm b id init tcut chases ports s
  | .snapRead b id offset => Sys2Proof.Machine.execSnapRead b id offset s
  | .snapRelease b id => Sys2Proof.Machine.execSnapRelease b id s
  | .hellReclaim b pt pass => Sys2Proof.Machine.execHellReclaim b pt pass s
  | .attestPolicy b digests => Sys2Proof.Machine.execAttestPolicy b digests s
  | .errlogRead b first count => Sys2Proof.Machine.execErrlogRead b first count s
  | .mtRead b seq offset => Sys2Proof.Machine.execMtRead b seq offset s
  | .mtAck b seq => Sys2Proof.Machine.execMtAck b seq s
  | .mtEnrol b a pin digest => Sys2Proof.Machine.execMtEnrol b a pin digest s
  | .mtAuthkey b a digest => Sys2Proof.Machine.execMtAuthkey b a digest s
  | .mtSetint b a value => Sys2Proof.Machine.execMtSetint b a value s
  | .mtFwlr b a maj min image ok => Sys2Proof.Machine.execMtFwlr b a maj min image ok s
  | .mtCorr b a corr => Sys2Proof.Machine.execMtCorr b a corr s
  | .fwWrite b target offset last data => Sys2Proof.Machine.execFwWrite b target offset last data s
  | .fwVerify b target len ok ver svn => Sys2Proof.Machine.execFwVerify b target len ok ver svn s
  | .fwActivate b target mode => Sys2Proof.Machine.execFwActivate b target mode s
  | .standbyFwReady ok => Sys2Proof.Machine.execStandbyFwReady ok s
  | .leaseHandoverTimer => Sys2Proof.Machine.execLeaseHandoverTimer s
  | .fwSvnRaise b => Sys2Proof.Machine.execFwSvnRaise b s
  | .fwStatus b => Sys2Proof.Machine.execFwStatus b s
  | .noticeSub b mask => Sys2Proof.Machine.execNoticeSub b mask s
  | .noticeRead b first => Sys2Proof.Machine.execNoticeRead b first s
  | .telemRead b die set first peek => Sys2Proof.Machine.execTelemRead b die set first peek s
  | .dbgRead b unit addr len => Sys2Proof.Machine.execDbgRead b unit addr len s
  | .regRead b name group index count peek => Sys2Proof.Machine.execRegRead b name group index count peek s
  | .regWrite b group ents => Sys2Proof.Machine.execRegWrite b group ents s
  | .galleyCacheResize b value => Sys2Proof.Machine.execGalleyCacheResize b value s
  | .pwrOff b mask => Sys2Proof.Machine.execPwrOff b mask s
  | .pwrOn b mask hot => Sys2Proof.Machine.execPwrOn b mask hot s
  | .standbyEnter b level die ports => Sys2Proof.Machine.execStandbyEnter b level die ports s
  | .standbyExit b => Sys2Proof.Machine.execStandbyExit b s
  | .resetChase b chase => Sys2Proof.Machine.execResetChase b chase s
  | .resetPort b port => Sys2Proof.Machine.execResetPort b port s
  | .resetDie b die force hot => Sys2Proof.Machine.execResetDie b die force hot s
  | .resetWarm b => Sys2Proof.Machine.execResetWarm b s
  | .resetCold b => Sys2Proof.Machine.execResetCold b s
  | .resetBegin => Sys2Proof.Machine.execResetBegin s
  | .shutdown b => Sys2Proof.Machine.execShutdown b s
  | .bootSelect b slotB => Sys2Proof.Machine.execBootSelect b slotB s
  | .startSave b autosvc => Sys2Proof.Machine.execStartSave b autosvc s
  | .startClear b => Sys2Proof.Machine.execStartClear b s
  | .serviceEnter b => Sys2Proof.Machine.execServiceEnter b s
  | .proofEnter b => Sys2Proof.Machine.execProofEnter b s
  | .selftestRun b die => Sys2Proof.Machine.execSelftestRun b die s
  | .thermalTrip pwd => Sys2Proof.Machine.execThermalTrip pwd s
  | .thermshutAssert => Sys2Proof.Machine.execThermshutAssert s
  | .coldResetAssert power => Sys2Proof.Machine.execColdResetAssert power s
  | .coldResetRelease => Sys2Proof.Machine.execColdResetRelease s
  | .warmResetInput => Sys2Proof.Machine.execWarmResetInput s
  | .domainSequenceStep => Sys2Proof.Machine.execDomainSequenceStep s
  | .pgRise pwd => Sys2Proof.Machine.execPgRise pwd s
  | .pgTimeout pwd => Sys2Proof.Machine.execPgTimeout pwd s
  | .pgFall pwd => Sys2Proof.Machine.execPgFall pwd s
  | .selftestComplete die unit sorts grans => Sys2Proof.Machine.execSelftestComplete die unit sorts grans s
  | .autoService => Sys2Proof.Machine.execAutoService s
  | .autosvcTimeout => Sys2Proof.Machine.execAutosvcTimeout s
  | .refclkLoss die => Sys2Proof.Machine.execRefclkLoss die s
  | .deliveryTimeout tag => Sys2Proof.Machine.execDeliveryTimeout tag s
  | .standbyKeeperLoss => Sys2Proof.Machine.execStandbyKeeperLoss s
  | .reservedOpcodePacket x => Sys2Proof.Machine.execReservedOpcodePacket x s
  | .reservedCtypeFlit port h ctype => Sys2Proof.Machine.execReservedCtypeFlit port h ctype s
  | .perstHoldEnd link => Sys2Proof.Machine.execPerstHoldEnd link s
  | .resetPortReplyTimeout port => Sys2Proof.Machine.execResetPortReplyTimeout port s
  | .ptpAnnounceInterval port => Sys2Proof.Machine.execPtpAnnounceInterval port s
  | .tapInstruction instr => Sys2Proof.Machine.execTapInstruction instr s

end Sys2Proof.Machine
end

