-- ==== Sys2Proof/Machine/Idle.lean ====
section
/-! DEFINITION. What the device does when no command waits (log 10), in this order: a packet the link layer has assembled becomes its
command, a command the keeper holds starts, a delivery that used up its reissues has its outcome, the keeper finishes what it waits for, a
queued notice leaves, or the reference clock advances by one cycle. -/

namespace Sys2Proof.Machine
open Sys2Proof

/-! ### Packets become commands (R120, R144, R421) -/

/-- The mark operation a MARK_OP spells: MOP, W2[45:40] (R421). READ's arm refuses a reserved MOP. -/
def markInstr (x : Rx) : Instr :=
  match wbits x.pkt.w2 45 40 with
  | 0x01 => .add x | 0x02 => .sub x | 0x03 => .set x | 0x04 => .take x | 0x05 => .waitge x
  | 0x10 => .arrive x | 0x11 => .arrivewait x | 0x12 => .waitrnd x
  | 0x20 => .acquire x | 0x21 => .tryacq x | 0x22 => .release x | 0x23 => .renew x
  | 0x30 => .ticket x | 0x31 => .serve x | 0x32 => .waitturn x
  | _ => .read x

/-- A big-endian field of a 1588 message. -/
def beField (b : List Byte) (at_ n : Nat) : Nat := ((b.drop at_).take n).foldl (fun v x => 256 * v + x.toNat) 0

/-- The PTP fields of a TIME packet's payload (R144; IEEE 1588-2019 message formats); its receive time is fabric time now. -/
def ptpOf (d : Dev) (x : Rx) : PtpMsg :=
  let b := x.pkt.data
  let c := beField b 8 8
  let corr : Int := if c < 2 ^ 63 then ((c / 65536 : Nat) : Int) else ((c : Int) - (2 : Int) ^ 64) / 65536
  { port := x.port, framed := x.framed, domain := beField b 4 1, seq := beField b 30 2, ts := d.now
    twoStep := bit (beField b 6 1) 1, time := beField b 34 6 * 1000000000 + beField b 40 4, corr := corr
    prio1 := beField b 47 1, cls := beField b 48 1, prio2 := beField b 52 1, ident := beField b 53 8, steps := beField b 61 2 }

/-- The command a TIME packet is. -/
def timeInstr (d : Dev) (x : Rx) : Instr :=
  let m := ptpOf d x
  match beField x.pkt.data 0 1 % 16 with
  | 0x0 => .sync m | 0x2 => .pdelayReq m | 0x3 => .pdelayResp m | 0x8 => .followUp m | 0xA => .pdelayRespFollowUp m | 0xB => .announce m
  | _ => .ptpUnsupportedMessage m

/-- The command a packet is, by its opcode (R120). -/
def packetInstr (x : Rx) : Instr :=
  match x.pkt.opc with
  | 0x01 => .load x | 0x02 => .store x | 0x03 => .atomic x | 0x04 => .fence x | 0x05 => .resp x
  | 0x10 => .reduceContrib x | 0x11 => .reduceResult x | 0x12 => .carry x
  | 0x20 => .gather x | 0x21 => .scatterAdd x | 0x22 => .dispatch x | 0x23 => .combine x | 0x24 => .scan x | 0x25 => .push x
  | 0x30 => markInstr x | 0x31 => .mcast x | 0x38 => .mgmt x | 0x3A => .snap x
  | _ => .reservedOpcodePacket x

/-- Take the oldest assembled packet. A TIME packet passes the header checks here, since its command is its message. -/
def takePacket (x : Rx) (s : State) : State :=
  if x.pkt.opc = opTIME then
    match hdrCheck s.dev x with
    | .error d => s.put d
    | .ok d => { s.put (discard d x) with pending := s.pending ++ [timeInstr d x] }
  else { s with pending := s.pending ++ [packetInstr x] }

/-! ### The keeper -/

/-- The first held command whose domain runs nothing (R547). -/
def freeHeld (d : Dev) : Option (Dom × Bas × Instr) :=
  if d.mgmt.active.isNone then none else d.mgmt.held.find? fun h => !d.domRunning h.1

/-- A session's oldest queued notice leaves, behind a NOTLOST where some were dropped (R560). -/
def sendNotice (d : Dev) (n : Nat) (se : Session) : Dev :=
  if se.dropped ≠ 0 then
    let x : Notice := { code := 0x0D01, nseq := d.mgmt.nseq, time := d.now, die := d.kpDie, p0 := se.dropped }
    let d := { d with mgmt := { d.mgmt with nseq := d.mgmt.nseq + 1, ring := (x :: d.mgmt.ring).take 8192 } }
    (d.modSession n fun se => { se with dropped := 0 }).emit (.notice n x)
  else match se.queue with
    | x :: r => (d.modSession n fun se => { se with queue := r }).emit (.notice n x)
    | [] => d

/-- The first session with a notice to send. -/
def toNotify (d : Dev) : Option (Nat × Session) :=
  if d.mgmt.active.isNone then none else d.mgmt.sessions.find? fun e => !e.2.queue.isEmpty

/-! ### The idle step -/

/-- What the device does on its own when nothing else is to be done first. -/
def idleDev (d : Dev) : Dev :=
  match d.tfp.dlv.find? fun v => v.failed with
  | some v => settle (deliveryMissed d v)
  | none =>
    if powerPoll d ≠ d then settle (powerPoll d)
    else match toNotify d with
      | some (n, se) => sendNotice d n se
      | none => d.tick

/-- The step on an empty queue. -/
def idle (s : State) : State :=
  match s.dev.arrived with
  | x :: r => takePacket x { s with dev := { s.dev with arrived := r } }
  | [] => match freeHeld s.dev with
    | some h =>
      let m := s.dev.mgmt
      let d := { s.dev with mgmt := { m with held := dropFirst (fun e => e == h) m.held, starting := some h.2.2 } }
      { s with dev := d, pending := s.pending ++ [h.2.2] }
    | none => s.put (idleDev s.dev)

end Sys2Proof.Machine
end

