-- ==== Sys2Proof/Safety.lean ====
section
/-! DEFINITION. The terms of the claims: what a safe run is, what a command does to the device, when a control flit is taken, when a Basod
command runs. -/

namespace Sys2Proof
open Machine

/-- A step answers a next state: it neither faults nor refuses. -/
def Answers (s : State) : Prop := ∃ t, step s = .next t

/-- A run of `n` steps goes through without a stop. -/
def RunsOn (n : Nat) (s : State) : Prop := ∃ t, core.run n s = .next t

/-- Between steps nothing waits to leave the device, and what had left it in `e` has left it. -/
def Sent (e : List Emit) (s : State) : Prop := s.dev.out = [] ∧ e <+: s.sent

/-- A command leaves the device as `d`: it answers the state with that device, the queue as it was, and what the step sent behind what had
been sent. -/
def Does (c : Instr) (s : State) (d : Dev) : Prop := exec c s = .next (s.put d)

/-- A command changes the device to `d`, and then what follows from that within the step runs: accesses, services, waiters. -/
def Leads (c : Instr) (s : State) (d : Dev) : Prop := exec c s = .next (s.put (settle d))

/-- The device after a control or idle flit's header is taken (R99, R100): none where the flit is discarded. -/
def took (d : Dev) (p : Nat) (h : FlitHdr) : Option Dev :=
  match recvSeq d p h.fseq h.crcOk true with
  | (true, d) => some (headerRx d p h.ackseq h.nak h.crvl h.crcnt)
  | (false, _) => none

/-- The device once a command's sequence number is noted (R543). -/
def heard (d : Dev) (b : Bas) : Dev :=
  match b.seq, b.sess.bind d.session with
  | some n, some _ => d.modSession (b.sess.getD 0) fun se => se.note n
  | _, _ => d

/-- A Basod command is new and nothing stands in its way: an active keeper takes its transport, its packet and its sequence number (R541–R543);
its CSEQ is neither cached nor in progress (R549); the limits and its domain leave it room (R547, R548). -/
def Arrives (d : Dev) (self : Instr) (b : Bas) (i : CmdInfo) : Bool :=
  d.mgmt.active.isSome && d.mgmt.starting != some self && d.taken b.tr && !b.bad
    && (match b.seq, b.sess.bind d.session with | some n, some se => se.takes n | _, _ => true)
    && ((heard d b).cached b).isNone && !(heard d b).inProgress b && decide ((heard d b).outstanding b < 16)
    && (match i.dom with | none => true | some x => decide ((heard d b).mgmt.held.length < 1024) && !(heard d b).domBusy x)

/-- A Basod command runs: it arrives, its form, transport and roles pass (R551), and the chase it names has a composition and is not being
reset (R581, R617). -/
def Runs (d : Dev) (self : Instr) (b : Bas) (i : CmdInfo) : Bool :=
  Arrives d self b i && ((heard d b).early b i).isNone
    && (match i.chase with | none => true | some c => ((heard d b).comp c).bound && !((heard d b).comp c).suspended)

/-- The Basod packet a Basod command came in (R542, R543); none for every other command, and for what arrives at the standby keeper. -/
def Instr.basod (i : Instr) : Option Bas :=
  match i with
  | .kpPaceTgtWrite b _ _ | .portEnable b _ _ | .portDisable b _ _ | .gateCommit b _ _ | .gateCancel b _ _ | .fltFabpolWrite b _ | .identGet b
  | .eidSet b _ | .ownerSet b _ | .ownerChange b _ | .ownerClear b _ | .observerSet b _ | .sessionInfo b | .portKeyset b _ _ _ _ _ _
  | .linkDerive b _ _ _ | .trickle b _ | .wake b _ | .routeWrite b _ _ _ | .nhsetWrite b _ _ _ | .mcgrpWrite b _ _ _ | .compCreate b _ _ _ _
  | .compDestroy b _ | .formeStage b _ _ _ | .formeCommit b _ _ | .partyBind b _ _ _ | .trunkBind b _ _ _ | .compOwner b _ _ | .capAccept b _ _ _
  | .regionFreeze b _ _ _ | .regionShare b _ _ _ _ | .trayOffline b _ _ | .trayOnline b _ _ | .spareAdd b _ _ _ _ | .spareRemove b _ _ _
  | .stripeDefine b _ _ _ | .stripeDelete b _ | .moverBind b _ _ _ | .moverUnbind b _ _ | .layerDef b _ _ | .dirRead b _ _ _ | .noticeBind b _ _ _ _
  | .noticeUnbind b _ _ | .fmtdescWrite b _ _ | .redDefine b _ _ | .redDelete b _ _ | .embDefine b _ _ | .embDelete b _ _ | .embVersion b _ _ _
  | .embSetopt b _ _ _ _ | .embReshard b _ _ _ | .moeDefine b _ _ | .moeDelete b _ _ | .plateLoad b _ _ _ | .plateUnload b _ _ | .plateBind b _ _ _ _
  | .plateUnbind b _ _ _ | .markSet b _ _ _ _ _ _ _ | .markClear b _ | .markEplost b _ | .timeStep b | .timeSet b _ | .snapArm b _ _ _ _ _
  | .snapRead b _ _ | .snapRelease b _ | .hellReclaim b _ _ | .attestPolicy b _ | .errlogRead b _ _ | .mtRead b _ _ | .mtAck b _ | .mtEnrol b _ _ _
  | .mtAuthkey b _ _ | .mtSetint b _ _ | .mtFwlr b _ _ _ _ _ | .mtCorr b _ _ | .fwWrite b _ _ _ _ | .fwVerify b _ _ _ _ _ | .fwActivate b _ _
  | .fwSvnRaise b | .fwStatus b | .noticeSub b _ | .noticeRead b _ | .telemRead b _ _ _ _ | .dbgRead b _ _ _ | .regRead b _ _ _ _ _ | .regWrite b _ _
  | .galleyCacheResize b _ | .pwrOff b _ | .pwrOn b _ _ | .standbyEnter b _ _ _ | .standbyExit b | .resetChase b _ | .resetPort b _
  | .resetDie b _ _ _ | .resetWarm b | .resetCold b | .shutdown b | .bootSelect b _ | .startSave b _ | .startClear b | .serviceEnter b
  | .proofEnter b | .selftestRun b _ => if b.sess.isSome then some b else none
  | _ => none

/-- A REG_WRITE of one entry, in its group, that names this register within its fields and comes from the owner (R11, R556, R557). -/
def writesOne (d : Dev) (b : Bas) (g : Nat) (e : RegEnt) (r : RegName) : Bool :=
  Runs d (.regWrite b g [e]) b (writeCmd d g [e]) && ((heard d b).rolesOf b).owner && (match lookName g e.name with
    | some (.reg x die) => x == r && decide (e.index < elems (heard d b) x die) && e.rsv == 0 && decide (e.value < 2 ^ (regDesc x).width)
        && existsElem x ((regDesc x).perUnit * die + e.index) && e.value &&& regRsv x == 0
    | _ => false)

/-- A secured message arrives in session `n` (R543): an active keeper takes its transport, its packet and its sequence number; `se` is the
session once it heard it. -/
def Secured (d : Dev) (b : Bas) (n : Nat) (se : Session) : Prop :=
  d.mgmt.active.isSome = true ∧ d.taken b.tr = true ∧ b.bad = false
    ∧ (match b.seq, b.sess.bind d.session with | some k, some x => x.takes k | _, _ => true) = true
    ∧ b.sess = some n ∧ (heard d b).session n = some se

/-- The session is that of the agent of a party of a bound chase that is not being reset (R450, R581). -/
def AgentOf (d : Dev) (se : Session) (chase party : Nat) : Prop :=
  se.fin = true ∧ se.mutual_ = true ∧ (d.comp chase).bound = true ∧ (d.partyKeys chase party).agent = some se.digest
    ∧ (d.comp chase).suspended = false

/-- A definition of a chase finds a staged forme to join: `d1` is the device once it stands (R319). -/
def Stages (d : Dev) (chase : Nat) (d1 : Dev) : Prop := ∃ r : Status × Nat × Nat, ensureStage d chase = (r, d1) ∧ r.1 ≠ .noFit ∧ r.1 ≠ .busy

/-- The chase's extent for state takes the definition that has been placed (R40, R55). -/
def Roomy (d : Dev) (chase : Nat) : Prop := ∃ n, stateRoom d chase (d.stagedF chase) = .ok n

/-- The device once a placed definition has joined the staged forme and the command is answered or left running (R71, R319). -/
def joined (d : Dev) (b : Bas) (chase opc : Nat) : Dev := answerStage (d.modStaged chase (cacheFolios d chase)) b chase opc

end Sys2Proof
end

