-- ==== Sys2Proof/Certificates/Slice0/Obligations.lean ====
section
/-! DEFINITION. The statements for the provers. Each says which rules of the spec it formalises. -/

open Sys2Proof Sys2Proof.Machine

/-! ### The block as a whole -/

/-- The step runs the command at the front of the queue on the state with the queue's rest; with no command waiting the device does what it does on
its own (DESIGN CHOICE, log 10). -/
def Obligations.StepRunsFront : Prop :=
  ∀ (c : Instr) (s : State) (rest : List Instr),
    (s.pending = c :: rest → step s = exec c { s with pending := rest }) ∧ (s.pending = [] → step s = .next (idle s))

/-- After reset: nothing waits and nothing has left; every register reads as its reset column says (R9), so Basod is taken in band, on Ethernet and on
I3C, and TC0 to TC5 are lossless; every counter is 0, no link is up, no chase is bound, no session is open, no mark is set; the duplicate filters,
the directory, the press and galley memory list nothing. What the spec gives no value is the model's choice (DESIGN CHOICE, logs 1 and 6). -/
def Obligations.ResetState : Prop :=
  State.reset.pending = [] ∧ State.reset.sent = [] ∧ Sent [] State.reset ∧ Memory.wf State.reset.dev.pool.mem = true ∧
  (∀ r i, State.reset.dev.reg r i = regReset r i) ∧ (∀ r i, r ≠ .ptClassCfg → r ≠ .impColmask → regReset r i = (regDesc r).reset) ∧
  (∀ i, bit (regReset .ptClassCfg i) 31 = decide (i < 6)) ∧ (∀ t, State.reset.dev.taken t = true) ∧
  State.reset.dev.fld .kpMgmtCfg 0 15 0 = 0xB810 ∧ State.reset.dev.fld .kpMgmtCfg 0 23 16 = 0x40 ∧ (∀ c u, State.reset.dev.counter c u = 0) ∧
  (∀ p, (State.reset.dev.link p).st ≠ .up) ∧ (∀ c, (State.reset.dev.comp c).bound = false) ∧ (∀ n, State.reset.dev.session n = none) ∧
  (∀ a, memGet State.reset.dev.pool.mem a = 0) ∧ State.reset.dev.tfp.filters = [] ∧ State.reset.dev.pool.dir = [] ∧
  State.reset.dev.press = {} ∧ (∀ m, (State.reset.dev.mark m).type = 0)

/-- Every command of the table has its effect in every state: no step stops. The step takes exactly the command at the front, so commands run first
in, first out; nothing is left to leave the device, and what had left it before stays as it was, in its order. -/
def Obligations.EveryCommandAnswers : Prop :=
  (∀ (c : Instr) (s : State) (e : List Emit), Sent e s →
    ∃ t, exec c s = .next t ∧ Sent e t ∧ t.pending = s.pending ∧ s.sent <+: t.sent) ∧
  (∀ (cs : List Instr) (s : State) (e : List Emit), Sent e s → s.pending = cs →
    ∃ t, core.run cs.length s = .next t ∧ Sent e t ∧ t.pending = []) ∧
  (∀ (n : Nat) (s : State), RunsOn n s)

/-- No Basod command runs twice (R540–R543, R549): each of them, whatever it is, that reaches the device with no keeper active, over a transport that
is not taken, in a packet of the wrong form or under a sequence number already received, changes nothing but a counter; one whose CSEQ has a reply
cached has that reply resent with DUPR, one still running is absorbed. -/
def Obligations.CommandsRunOnce : Prop :=
  ∀ (i : Instr) (s : State) (b : Bas) (d : Dev) (r : Reply) (n : Nat) (se : Session), i.basod = some b →
    (s.dev.mgmt.active = none → Leads i s s.dev) ∧
    (s.dev.mgmt.active.isSome = true → s.dev.mgmt.starting ≠ some i →
      (s.dev.taken b.tr = false → Leads i s s.dev) ∧
      (s.dev.taken b.tr = true → b.bad = true → Leads i s (s.dev.count .cBadpkt s.dev.kpDie)) ∧
      (s.dev.taken b.tr = true → b.bad = false → b.seq = some n → b.sess.bind s.dev.session = some se → se.takes n = false →
        Leads i s (s.dev.count .cSpdmreplay s.dev.kpDie)) ∧
      (s.dev.taken b.tr = true → b.bad = false →
        (match b.seq, b.sess.bind s.dev.session with | some k, some x => x.takes k | _, _ => true) = true → d = heard s.dev b →
        (d.cached b = some r → Leads i s (d.emit (.reply b.sess b.tr { r with dupr := true }))) ∧
        (d.cached b = none → d.inProgress b = true → Leads i s d)))

/-- The window of a session's sequence numbers (R543): after any numbers have been received in a session, it takes a number exactly when that is not
one of them and lies no more than 63 below the highest of them. -/
def Obligations.SequenceWindow : Prop :=
  ∀ (ns : List Nat) (se : Session) (n : Nat), se.hiSeq = none → se.seen = [] →
    ((ns.foldl Session.note se).takes n = true ↔ n ∉ ns ∧ ∀ m ∈ ns, m ≤ n + 63)

/-- An accumulator's value does not depend on the order its addends come in, nor on how they are split over accumulators that are combined later; nor
does their count (R302–R304, R310, R314). -/
def Obligations.SumsInAnyOrder : Prop :=
  ∀ (prod : Bool) (a : Machine.Acc) (n : Nat) (xs ys zs : List (Machine.Num × Nat)),
    (xs.Perm ys → xs.foldl (fun a x => accAdd prod a x.1 x.2) a = ys.foldl (fun a x => accAdd prod a x.1 x.2) a) ∧
    (xs.Perm ys → xs.foldl (fun c x => addCnt c x.2) n = ys.foldl (fun c x => addCnt c x.2) n) ∧
    ((xs.foldl (fun a x => accAdd prod a x.1 x.2) a).combine (zs.foldl (fun a x => accAdd prod a x.1 x.2) {}) =
      (xs ++ zs).foldl (fun a x => accAdd prod a x.1 x.2) a)

/-- A write to galley memory (R216, R227, R228, R250): a part that covers a poisoned granule only in part leaves every byte as it was; else the bytes
of the part are the new ones and every other byte of memory reads as before; the canonical form is kept, and equal memories are equal data. -/
def Obligations.GalleyMemory : Prop :=
  (∀ (d e : Dev) (j : PJob) (st : Nat) (ce : List Nat), e = galleyStore d j st ce →
    ((∃ g ∈ j.granules, readGran d st (gAddr j.loc (64 * g)) (j.mirrored d) = .poisoned ∧ j.covers g = false) → e.pool.mem = d.pool.mem) ∧
    ((∀ g ∈ j.granules, readGran d st (gAddr j.loc (64 * g)) (j.mirrored d) = .poisoned → j.covers g = true) →
      (Memory.wf d.pool.mem = true → Memory.wf e.pool.mem = true ∧
        ∀ i (h : i < j.data.length), memGet e.pool.mem (gAddr j.loc j.off + i) = j.data[i]) ∧
      (∀ a, (a < gAddr j.loc j.off ∨ gAddr j.loc j.off + j.data.length ≤ a) → memGet e.pool.mem a = memGet d.pool.mem a))) ∧
  (∀ m m' : List Host.Cell, Memory.wf m = true → Memory.wf m' = true → (∀ a, memGet m a = memGet m' a) → m = m')

/-- A write to PT_EGR_CFG whose EGRHI lies outside 64 to 4,096, or whose EGRLO is not below EGRHI, is refused whole (R166): the reply is UNSUPPORTED
for that entry, and no register changes (a management word accepted before that waits for a reply, R541, takes effect with it). -/
def Obligations.EgressThresholdWrites : Prop :=
  ∀ (s : State) (b : Bas) (e : RegEnt) (d x : Dev), d = heard s.dev b → writesOne s.dev b 0x02 e .ptEgrCfg = true →
    (bits e.value 31 16 < 64 ∨ 4096 < bits e.value 31 16 ∨ bits e.value 31 16 ≤ bits e.value 15 0) →
    x = d.reply b 0x02F1 .unsupported 0x03 0 →
      Leads (.regWrite b 0x02 [e]) s x ∧ x.cfg = s.dev.mgmt.cfgAfter.foldl (fun c e => tput c e.1 e.2) s.dev.cfg

/-- A write to SCH_POLICER with CIR, CBS, PIR or PBS 0, PIR below CIR or PBS below CBS (R189), and a write to FLT_THR with PLANETHR 0, CETHR outside 4
to 30 or RECCOAL 0 (R493), is refused whole: the reply is UNSUPPORTED for that entry, and no register changes (a management word accepted before
that waits for a reply, R541, takes effect with it). -/
def Obligations.PolicerAndThresholdWrites : Prop :=
  ∀ (s : State) (b : Bas) (e : RegEnt) (d x : Dev), d = heard s.dev b →
    (writesOne s.dev b 0x08 e .schPolicer = true →
      (bits e.value 15 0 = 0 ∨ bits e.value 43 32 = 0 ∨ bits e.value 31 16 = 0 ∨ bits e.value 55 44 = 0 ∨
        bits e.value 31 16 < bits e.value 15 0 ∨ bits e.value 55 44 < bits e.value 43 32) →
      x = d.reply b 0x08F1 .unsupported 0x03 0 →
      Leads (.regWrite b 0x08 [e]) s x ∧ x.cfg = s.dev.mgmt.cfgAfter.foldl (fun c e => tput c e.1 e.2) s.dev.cfg) ∧
    (writesOne s.dev b 0x09 e .fltThr = true →
      (bits e.value 31 16 = 0 ∨ bits e.value 15 8 < 4 ∨ 30 < bits e.value 15 8 ∨ bits e.value 7 0 = 0) →
      x = d.reply b 0x09F1 .unsupported 0x03 0 →
      Leads (.regWrite b 0x09 [e]) s x ∧ x.cfg = s.dev.mgmt.cfgAfter.foldl (fun c e => tput c e.1 e.2) s.dev.cfg)

/-- Frames of the link and time commands (chapters 3 and 6): each answers a next state that leaves memory, pool, press, marks and the queue as they
were. -/
def Obligations.FramesOfLinksAndTime : Prop :=
  ∀ (s : State) (p q : Nat) (h : FlitHdr) (f : Flit) (counts : List Nat) (ls : List (Nat × Nat)) (x : Option Nat) (o : Int) (m : PtpMsg) (k : Bool),
    ∀ i ∈ [.fecLock p, .helloRepeat p, .helloTimeout p, .creditInit p h counts, .credit p h counts, .dataFlitRx p f, .idleFlitRx p h, .ackTimeout p,
        .nakResendTimeout p, .ackSendDeadline p, .creditReturnTimeout p, .laneLockLoss p q, .spareReq p h p q, .spareAckTimeout p,
        .spareHelloTimer p ls, .narrowReq p h q, .narrowAckTimeout p, .txKeyExhausted p, .trickleReq p h, .trickleAck p h k, .wakeReq p h,
        .wakeLanesReady p x, .wakeReady p h, .wakeTrainingFail p q, .trickleLaneLoss p, .linkdown p h q, .sync m, .followUp m, .announce m,
        .pdelayReq m, .pdelayResp m, .pdelayRespFollowUp m, .ptpUnsupportedMessage m, .ptpSyncInterval p q, .ptpPdelayInterval p q,
        .ptpAnnounceInterval p, .timeSourceLoss p, .timeSourceRegain p o, .ppsEdge],
      ∃ t, exec i s = .next t ∧ t.dev.pool = s.dev.pool ∧ t.dev.press = s.dev.press ∧ t.dev.marks = s.dev.marks ∧ t.pending = s.pending

/-! ### Compositions (R40–R73, R210, R546) -/

/-- Creating, staging and committing (R40–R46, R55, R57, R65–R67, R73, R210, R546): an admitted request is bound at epoch 0 with its marks, census and
account; one that does not fit leaves nothing; a destroy stops admission; a staged forme that fits commits once no epoch drains; a region is
frozen by a stage and its commit, and shared when frozen into a chase that has room for it. -/
def Obligations.Compositions : Prop :=
  ∀ (s : State) (b : Bas) (d e e1 : Dev) (chase base into x r n : Nat) (q : CompReq) (trays : List Nat) (a : Admission) (g : Staged) (st : Status)
    (rg : Region) (f' : Forme) (ents : List (Nat × Folio)), d = heard s.dev b →
    (Runs s.dev (.compCreate b chase x q trays) b { opc := 0x0301, who := .f, dom := some (.chase chase) } = true → chase < 4096 →
      reqOk (asAsked q) = true → (d.comp chase).bound = false →
      admitReq (setAttested d trays) chase (asAsked q) none (asAsked q).tightmax false [] = (a, e) →
      (a.st = .noFit → Leads (.compCreate b chase x q trays) s (d.reply b 0x0301 .noFit 0x01 a.res [a.short])) ∧
      (a.st = .ok → Leads (.compCreate b chase x q trays) s ((compBind e chase x (asAsked q) a).reply b 0x0301 .ok)) ∧
      (a.st = .tight → Leads (.compCreate b chase x q trays) s ((compBind e chase x (asAsked q) a).reply b 0x0301 .tight 0x05
        (predSlow q.layers a.forme.depth) (tightData (asAsked q) a)))) ∧
    (Runs s.dev (.compDestroy b chase) b (chaseCmd 0x0302 chase) = true →
      Leads (.compDestroy b chase) s
        ((d.modComp chase fun c => { c with destroying := true, dstBound := d.fld .impChaseCfg chase 31 22 }).defer b (.chase chase) 0x0302 chase)) ∧
    (Runs s.dev (.formeStage b chase q trays) b (chaseCmd 0x0303 chase) = true → reqOk (asAsked q) = true →
      stageComp (setAttested d trays) chase (asAsked q) false false {} = ((st, r, n), e) →
      ((st = .ok ∨ st = .tight) → Leads (.formeStage b chase q trays) s (answerStage e b chase 0x0303)) ∧
      (st = .noFit → Leads (.formeStage b chase q trays) s (e.reply b 0x0303 .noFit 0x01 r [n])) ∧
      (st = .busy → Leads (.formeStage b chase q trays) s (d.reply b 0x0303 .busy))) ∧
    (Runs s.dev (.formeCommit b chase false) b (chaseCmd 0x0304 chase) = true → (d.comp chase).staged = some g → g.adm ≠ .noFit → g.moving = [] →
      ((d.comp chase).drnLive = false →
        Leads (.formeCommit b chase false) s (commitForme (d.defer b (.chase chase) 0x0304 chase) chase false)) ∧
      ((d.comp chase).drnLive = true → Leads (.formeCommit b chase false) s (d.reply b 0x0304 .busy))) ∧
    (Runs s.dev (.compOwner b chase x) b { chaseCmd 0x0307 chase with who := .f } = true →
      Leads (.compOwner b chase x) s ((d.modComp chase fun c => { c with cowner := x }).reply b 0x0307 .ok)) ∧
    (Runs s.dev (.regionFreeze b chase base trays) b (chaseCmd 0x0402 chase) = true →
      ((d.comp chase).curF.req.regions.find? fun r => r.base == base) = some rg → rg.cls = 1 → rg.frozen = false → (d.comp chase).drnLive = false →
      stageComp (setAttested d trays) chase { (d.comp chase).curF.req with
        regions := mapIf (fun x => x.base == base) (fun x => { x with frozen := true }) (d.comp chase).curF.req.regions } false true {}
          = ((.ok, r, n), e) →
      Leads (.regionFreeze b chase base trays) s (commitForme (e.defer b (.chase chase) 0x0402 chase) chase false)) ∧
    (Runs s.dev (.regionShare b chase base into trays) b { chaseCmd 0x0403 chase with dom := some (.chase into) } = true →
      ((d.comp chase).curF.req.regions.find? fun r => r.base == base) = some rg → rg.cls = 1 → rg.frozen = true → (d.comp into).bound = true →
      (d.comp into).destroying = false → (d.comp into).suspended = false → into ≠ chase →
      ensureStage (setAttested d trays) into = ((.ok, r, n), e) → rg.party < (e.stagedF into).req.parties →
      (e.stagedF into).req.regions.any (regionMeets rg) = false → (e.stagedF into).req.regions.length < 4096 →
      ents = ((upTo rg.size).map (rg.base / folioB + ·)).filterMap
        (fun n => (tfind (d.comp chase).curF.folios n).map fun e => (n, { e with gcache := true })) →
      f' = { e.stagedF into with
        folios := ents.foldl (fun t e => tput t e.1 e.2) (e.stagedF into).folios
        req := { (e.stagedF into).req with regions := (e.stagedF into).req.regions ++ [rg] } } →
      storeUsed e + 256 * (pagesBeyond f' (some (d.comp into).curF) - pagesBeyond (e.stagedF into) (some (d.comp into).curF)) ≤ storeEntries →
      e1 = { e with pool := { e.pool with
        fold := ents.foldl (fun t x => tput t (2 ^ 36 * (into + 1) + x.1) (keyOf d chase (x.1 * folioB) x.2)) e.pool.fold } } →
      Leads (.regionShare b chase base into trays) s (answerStage (e1.modStaged into fun _ => f') b into 0x0403))

/-- The course of a commit and of a drain (R42, R51, R58, R59, R61, R63, R67): press dies, then port dies, then the switch is complete; the hold
closes the draining epoch, the dies apply the close, a poll that counts nothing releases it, and so does the bound with its stragglers; the dies
apply the release; a fenced frame is free; a fast-path miss that returns lets its requests go on. -/
def Obligations.CommitAndDrain : Prop :=
  ∀ (s : State) (chase die e t kind target frame key : Nat) (c : Comp), c = s.dev.comp chase →
    (c.phase = .press → (c.late.any fun x => decide (16 ≤ x)) = false →
      Does (.commitPressAcks chase) s (s.dev.modComp chase fun c => { c with phase := .ports })) ∧
    (c.late.contains die = true → c.phase = .press → 16 ≤ die →
      Does (.chaseUpdateApply chase die) s (s.dev.modComp chase fun c => { c with late := c.late.filter (· != die) })) ∧
    (c.late.contains die = true → c.phase = .ports → die < 16 →
      Does (.chaseUpdateApply chase die) s (putMembers (s.dev.modComp chase fun c => { c with late := c.late.filter (· != die) }) chase [die])) ∧
    (c.phase = .ports → c.late = [] → Leads (.commitSwitchComplete chase) s (switchDone s.dev chase)) ∧
    (c.drnLive = true → c.drn = e → c.phase = .idle → c.drnClosed = false →
      Does (.drainholdExpiry chase (.epoch e)) s
        (s.dev.modComp chase fun c => { c with drnClosed := true, lateClose := upDies s.dev })) ∧
    (Does (.drainholdExpiry chase (.table t)) s (versionClose s.dev chase t)) ∧
    (Does (.drainCloseApply chase die) s (s.dev.modComp chase fun c => { c with lateClose := c.lateClose.filter (· != die) })) ∧
    (c.drnLive = true → c.drn = e → c.drnClosed = true → c.lateClose = [] → countOf_ c e = 0 →
      Leads (.drainPoll chase (.epoch e)) s (releaseEpoch (s.dev.modComp chase fun c => { c with inflight := 0 }) chase)) ∧
    (c.drnLive = true → c.drn = e → 0 < countOf_ c e →
      Leads (.drainPoll chase (.epoch e)) s (s.dev.modComp chase fun c' => { c' with inflight := min (countOf_ c e) 524287 })) ∧
    (Leads (.drainPoll chase (.table t)) s (versionPoll s.dev chase t)) ∧
    (c.drnLive = true → c.drn = e → c.phase = .idle →
      Leads (.drainboundExpiry chase (.epoch e)) s (releaseEpoch (straggleAll s.dev chase e) chase)) ∧
    (Leads (.drainboundExpiry chase (.table t)) s (versionBound s.dev chase t)) ∧
    (c.lateRel.contains die = true →
      Does (.epochReleaseApply chase die) s
        (dropFast (s.dev.modComp chase fun c => { c with lateRel := c.lateRel.filter (· != die) }) chase c.drn [die])) ∧
    (s.dev.imp.vacated.contains (kind, target, frame) = true →
      (s.dev.pool.lines.any fun c => c.loc == ({ kind := kind, target := target, frame := frame } : Loc)) = false →
      (s.dev.pool.dir.any fun e => e.loc == ({ kind := kind, target := target, frame := frame } : Loc)) = false →
      ∃ d : Dev, d = { s.dev with imp := { s.dev.imp with vacated := s.dev.imp.vacated.filter (· != (kind, target, frame)) } } ∧
        Does (.vacatedFrameFenced kind target frame) s (giveFrame d (kind, target, frame))) ∧
    (∃ f : FastEnt, f = { die := die, chase := chase, epoch := e, kind := kind, key := key } ∧
      ((s.dev.imp.waitFill.filter fun w => w.2 == f) ≠ [] →
        ∃ d : Dev, d = fastPut s.dev f ∧ Does (.fastpathFillDone die chase e kind key) s
          { d with imp := { d.imp with waitFill := s.dev.imp.waitFill.filter fun w => !(w.2 == f) }
                   arrived := (s.dev.imp.waitFill.filter fun w => w.2 == f).map Prod.fst ++ d.arrived }))

/-- Moves of the Imposer and the end of a composition (R56, R71–R73, R393, R425, R452, R472): with REBAL armed it stages and commits on its own; the
copy of a dual-written folio starts once no epoch drains, and with every copy complete the next epoch has the folios at their new places; a
destroyed composition whose epochs are released is freed and its account closed. -/
def Obligations.MovesAndEnd : Prop :=
  ∀ (s : State) (chase folio r n : Nat) (q : StageReq) (c : Comp) (d : Dev) (f : Folio) (g : Staged), c = s.dev.comp chase →
    (c.bound = true → c.destroying = false → c.suspended = false → c.drnLive = false → s.dev.flag .fltComppol chase 31 = true →
      s.dev.domBusy (.chase chase) = false → c.staged = none →
      stageComp s.dev chase c.curF.req true false q = ((.ok, r, n), d) → (d.comp chase).staged = some g → g.moving = [] →
      Leads (.rebalStage chase q) s (selfCommit d chase)) ∧
    (c.bound = true → c.destroying = false → c.suspended = false → c.drnLive = false → s.dev.flag .fltComppol chase 31 = true →
      s.dev.domBusy (.chase chase) = false → c.staged = some g → g.byImposer = true → g.moving = [] → g.adm = .ok →
      Leads (.rebalStage chase q) s (selfCommit s.dev chase)) ∧
    (tfind c.curF.folios folio = some f → f.mig = true → c.drnLive = false → c.phase = .idle → (c.migs.any fun m => m.1 == folio) = false →
      Leads (.migCopyStart chase folio) s (copyRead (s.dev.modComp chase fun c => { c with migs := c.migs ++ [(folio, 0)] }) chase folio 0)) ∧
    (((c.curF.folios.filter fun e => e.2.mig).map Prod.fst).contains folio = true →
      (((c.curF.folios.filter fun e => e.2.mig).map Prod.fst).all fun n => c.migs.any fun m => m.1 == n && m.2 == 8192) = true →
      c.drnLive = false → c.phase = .idle → c.staged = none → c.destroying = false → s.dev.domBusy (.chase chase) = false →
      g = { forme := migForme c.curF, changed := ((c.curF.folios.filter fun e => e.2.mig).map Prod.fst).length,
            ents := s.dev.imp.members.filter fun m => m.chase == chase && !m.trunk, byImposer := true } →
      Leads (.migCopyComplete chase folio) s
        (selfCommit (s.dev.modComp chase fun c => { c with staged := some g, migs := [] }) chase)) ∧
    (c.destroying = true → c.curDead = true → c.drnLive = false →
      Leads (.chaseFree chase) s ((meterNote (purgeChase s.dev chase) false chase).finish 0x0302 chase .ok))

/-! ### Ports and links (R89–R114) -/

/-- Bring-up (R93, R96, R103): FEC lock starts HELLO, which repeats until one is heard; a port that hears none within 1 ms becomes NOTTFP; the first
HELLO records the partner and sends CREDIT_INIT; a CREDIT_INIT of at least 17 credits on each lane gives the credits the port starts with; CREDIT
adds to them; a reserved CTYPE is counted. A port whose CREDIT_INIT went both ways is UP, and LINKUP is sent; a CREDIT_INIT that offers a lane
fewer than 17 credits takes the port to FAULT with cause 0x05 (R93, R103). -/
def Obligations.LinkBringUpAndFaults : Prop :=
  (∀ (s : State) (p : Nat) (h : FlitHdr) (d : Dev) (eid pt caps sp ct : Nat) (counts : List Nat),
    ((s.dev.link p).st = .training → (s.dev.link p).fecLock = false →
      Does (.fecLock p) s (sendHello (s.dev.modLink p fun l => { l with fecLock := true, eqStored := true }) p false)) ∧
    ((s.dev.link p).st = .training → (s.dev.link p).fecLock = true → (s.dev.link p).hello = false →
      Does (.helloRepeat p) s (sendHello s.dev p false)) ∧
    ((s.dev.link p).st = .training → (s.dev.link p).fecLock = true → (s.dev.link p).hello = false →
      Does (.helloTimeout p) s
        ((resetPortDone (s.dev.modLink p fun l => { l with st := .notTfp }) p).notice 0x0203 (portDie p) none p 0 0)) ∧
    (took s.dev p h = some d → (d.link p).st = .training → (d.link p).hello = false → pt < 3 →
      ∃ e, e = sendHello (d.modLink p fun l =>
          { l with st := .training, fecLock := true, hello := true, peer := eid, ptype := pt, caps := bits caps 3 0 }) p false ∧
        Does (.hello p h eid pt caps sp false) s
          (goUp p ((sendCtl e p (.creditInit (ownCredits d))).modLink p fun l =>
            { l with crSent := true, charge := (upTo 18).map fun v => (v, ((ownCredits d)[v]?).getD 0) }))) ∧
    (took s.dev p h = some d → (d.link p).st = .training → (∀ v < 18, 17 ≤ (counts[v]?).getD 0) →
      Does (.creditInit p h counts) s
        (goUp p (d.modLink p fun l => { l with crGot := true, credits := (upTo 18).map fun v => (v, (counts[v]?).getD 0) }))) ∧
    (took s.dev p h = some d →
      Does (.credit p h counts) s (foldOver (upTo 18) d fun v d => creditRx d p v ((counts[v]?).getD 0))) ∧
    (took s.dev p h = some d → (ct = 0 ∨ 0x0E ≤ ct) → Does (.reservedCtypeFlit p h ct) s (protoErr d p))) ∧
  (∀ (s : State) (p : Nat) (h : FlitHdr) (d : Dev) (counts : List Nat),
    took s.dev p h = some d → (d.link p).st = .training →
    ((∀ v < 18, 17 ≤ (counts[v]?).getD 0) → (d.link p).crSent = true →
      ∃ t, exec (.creditInit p h counts) s = .next t ∧ (t.dev.link p).st = .up ∧ (t.dev.link p).crGot = true) ∧
    ((∃ v < 18, (counts[v]?).getD 0 < 17) →
      ∃ t, exec (.creditInit p h counts) s = .next t ∧ (t.dev.link p).st = .fault ∧ (t.dev.link p).lastdown = 5))

/-- Flits and acknowledgements (R89–R91, R99–R102, R154): an accepted data flit brings its acks and credits and joins its lane's stream; an idle flit
brings its acks; unacked flits are replayed at ACKTMO; an unanswered NAK is sent again; an ACKSEQ owed leaves; credits owed leave. What a
sequenced flit does to its receiver (R100): in a port that is neither DOWN nor in FAULT, a good flit of the expected FSEQ is accepted and the next
is expected; one of another FSEQ is discarded and asked for once; a bad CRC with REPLAY armed is counted and asked for, and with REPLAY disarmed
takes the port to FAULT with cause 0x03. -/
def Obligations.FlitsAndSequenceNumbers : Prop :=
  (∀ (s : State) (p : Nat) (h : FlitHdr) (f : Flit) (d : Dev),
    (recvSeq s.dev p f.fseq (crcGood f) true = (true, d) → f.enc = false →
      flitReserved ((headerRx d p f.ackseq f.nak f.crvl f.crcnt).link p) f = false →
      Does (.dataFlitRx p f) s (assemble (headerRx d p f.ackseq f.nak f.crvl f.crcnt) p f f.payload)) ∧
    (recvSeq s.dev p f.fseq (crcGood f) true = (true, d) → f.enc = false →
      flitReserved ((headerRx d p f.ackseq f.nak f.crvl f.crcnt).link p) f = true →
      Does (.dataFlitRx p f) s
        (protoErr ((headerRx d p f.ackseq f.nak f.crvl f.crcnt).modLink p fun l =>
          { l with asm := tmod {} l.asm f.vl fun a => { a with bytes := [], dead := true } }) p)) ∧
    (h.crcOk = true → h.nak = false → Does (.idleFlitRx p h) s (ackRx s.dev p h.ackseq)) ∧
    ((s.dev.link p).replay ≠ [] → Does (.ackTimeout p) s (replay s.dev p)) ∧
    ((s.dev.link p).nakPend = true → Does (.nakResendTimeout p) s (sendAck (s.dev.count .cNaktx p) p)) ∧
    ((s.dev.link p).sinceAck ≠ 0 → Does (.ackSendDeadline p) s (sendAck s.dev p)) ∧
    ((∃ e ∈ (s.dev.link p).ret, 0 < e.2) →
      Does (.creditReturnTimeout p) s
        (sendCtl (s.dev.modLink p fun l => { l with ret := [] }) p
          (.credit ((s.dev.link p).ret.filter fun e => decide (0 < e.2)))))) ∧
  (∀ (d : Dev) (p q : Nat),
    (d.link p).st ≠ .down → (d.link p).st ≠ .fault →
    (q = (d.link p).rxExp →
      (recvSeq d p q true true).1 = true ∧ ((recvSeq d p q true true).2.link p).rxExp = (q + 1) % 4096 ∧
      ((recvSeq d p q true true).2.link p).nakPend = false ∧
      (recvSeq d p q true true).2.counter .cFlitrx p = satAdd64 (d.counter .cFlitrx p) 1) ∧
    (q ≠ (d.link p).rxExp →
      (recvSeq d p q true true).1 = false ∧ ((recvSeq d p q true true).2.link p).rxExp = (d.link p).rxExp ∧
      ((recvSeq d p q true true).2.link p).nakPend = true) ∧
    (d.flag .fltPortpol p 31 = true →
      (recvSeq d p q false true).1 = false ∧ ((recvSeq d p q false true).2.link p).nakPend = true ∧
      (recvSeq d p q false true).2.counter .cCrcerr p = satAdd64 (d.counter .cCrcerr p) 1) ∧
    (d.flag .fltPortpol p 31 = false →
      recvSeq d p q false true = (false, enterFault (d.count .cCrcerr p) p 3)))

/-- Lanes (R104–R107): a lane that loses lock, or passes 2^LANETHR corrected symbols in a window, fails; the window's counts are kept; a SPARE_REQ for
a usable spare is answered and the lane moves; the answer moves it at the asker; a refusal or no answer fails the swap; the spare lanes send their
HELLO; narrowing goes the same way. -/
def Obligations.LaneRepair : Prop :=
  ∀ (s : State) (p lane n u a b half oct : Nat) (h : FlitHdr) (d : Dev) (r : ProcRun),
    (laneInPort s.dev p lane = true → Does (.laneLockLoss p lane) s (laneFail p lane s.dev)) ∧
    (2 ^ s.dev.fld .ptPortCfg p 7 0 < n →
      laneInPort (((s.dev.countN .cFeccorr p n).countN .cFecuncorr p u).corrected (dPT (portDie p)) 13 n) p lane = true →
      Does (.laneWindowEnd p lane n u) s
        (laneFail p lane (((s.dev.countN .cFeccorr p n).countN .cFecuncorr p u).corrected (dPT (portDie p)) 13 n))) ∧
    (n ≤ 2 ^ s.dev.fld .ptPortCfg p 7 0 →
      Does (.laneWindowEnd p lane n u) s (((s.dev.countN .cFeccorr p n).countN .cFecuncorr p u).corrected (dPT (portDie p)) 13 n)) ∧
    (took s.dev p h = some d → stands d p .spare = true → (octSpares d (p / 8)).contains b = true → (d.link p).spareBad.contains b = false →
      Does (.spareReq p h a b) s (swapLane (sendCtl (preempt d p) p (.spareAck a b false)) p a b)) ∧
    (took s.dev p h = some d → (d.link p).proc = some { kind := .spare, a := a, b := b } → ((swapLane d p a b).link p).replay = [] →
      Does (.spareAck p h a b false) s (swapLane d p a b)) ∧
    ((s.dev.link p).proc = some r → r.kind = .spare → r.mine = true → Does (.spareAckTimeout p) s (swapFailed s.dev p)) ∧
    (Does (.spareHelloTimer oct []) s
      (foldOver (octSpares s.dev oct) s.dev fun _ d => sendHello d ((octPorts s.dev oct).headD (8 * oct)) true)) ∧
    (took s.dev p h = some d → stands d p .narrow = true → 2 ≤ octLanes d (p / 8) → (d.link p).narrowed = false → (d.link p).failed = [] →
      ((narrowTo (sendCtl (preempt d p) p (.narrowAck half false)) p half).link p).replay ≠ [] →
      Does (.narrowReq p h half) s (replay (narrowTo (sendCtl (preempt d p) p (.narrowAck half false)) p half) p)) ∧
    (took s.dev p h = some d → (d.link p).proc = some { kind := .narrow, a := half } → ((narrowTo d p half).link p).replay = [] →
      Does (.narrowAck p h half false) s (narrowTo d p half)) ∧
    ((s.dev.link p).proc = some r → r.kind = .narrow → r.mine = true → Does (.narrowAckTimeout p) s (enterFault s.dev p 0x04))

/-- Keys, trickle and wake (R94, R110–R113): a KEY_SWITCH turns the receive slot and keeps the old one; an exhausted key, the loss of the trickle lane
and a LINKDOWN take the port to FAULT with causes 0x06, 0x08 and 0x07; a TRICKLE_REQ in UP with TRKOK is accepted, and its answer moves the asker;
a WAKE_REQ in TRICKLE starts waking; the lanes of both ends ready, the port is UP; a training that fails puts it back. -/
def Obligations.KeysTrickleWake : Prop :=
  ∀ (s : State) (p lane first cause : Nat) (slot : Bool) (h : FlitHdr) (d : Dev),
    (took s.dev p h = some d → stands d p .key = true →
      Does (.keySwitch p h slot first) s
        (d.modLink p fun l => { l with oldRx := some (l.rxSlot, first), rxSlot := slot, proc := none })) ∧
    ((s.dev.link p).encact = true → Does (.txKeyExhausted p) s (enterFault s.dev p 0x06)) ∧
    (took s.dev p h = some d → (d.link p).st = .up → d.flag .ptPortCfg p 29 = true → stands d p .trickle = true →
      Does (.trickleReq p h) s (enterTrickle (sendCtl (d.modLink p fun l => { l with proc := none }) p (.trickleAck false)) p)) ∧
    (took s.dev p h = some d → (d.link p).proc = some { kind := .trickle } → Does (.trickleAck p h false) s (enterTrickle d p)) ∧
    (took s.dev p h = some d → (d.link p).st = .trickle → stands d p .wake = true → Does (.wakeReq p h) s (startWaking d p false)) ∧
    ((s.dev.link p).st = .waking →
      Does (.wakeLanesReady p none) s (wakeDone ((sendCtl s.dev p .wakeReady).modLink p fun l => { l with wakeMine := true, wakeSlow := false }) p)) ∧
    (took s.dev p h = some d → (d.link p).st = .waking →
      Does (.wakeReady p h) s (wakeDone (d.modLink p fun l => { l with wakePeer := true }) p)) ∧
    ((s.dev.link p).st = .waking →
      Does (.wakeTrainingFail p lane) s
        (((procEnd (s.dev.modLink p fun l => { l with st := .trickle, wakeMine := false, wakePeer := false }) p).notice 0x0208 (portDie p) none p
          lane 0).finish 0x0204 p .timeout)) ∧
    (((s.dev.link p).st = .trickle ∨ (s.dev.link p).st = .waking) →
      Does (.trickleLaneLoss p) s (enterFault (s.dev.count .cLanefail p) p 0x08)) ∧
    (took s.dev p h = some d → (d.link p).st.carries = true → Does (.linkdown p h cause) s (enterFault d p 0x07))

/-! ### Transactions (R43, R60, R115–R146) -/

/-- Admission (R43, R60, R126): a packet whose lane and fields are right passes the header check; one whose fields are wrong is refused or discarded;
a source that is no member of the chase fails step 1 with DENIED, one of another party step 2, and each failure is counted; a packet of an epoch
that is neither current nor draining is a straggler: MAPGONE and STRAG. Duplicate filters (R135, R136): of a request its home tracks, a fresh one
takes a place or its key's old place; a full filter answers RETRY; a reissue with other operands is answered UNSUPPORTED and counted; one whose
execution runs is absorbed into it; one that has its answer gets it again with DUP set. -/
def Obligations.AdmissionAndDuplicates : Prop :=
  (∀ (d : Dev) (x : Rx) (m : MemberEnt) (cont : Bool),
    (laneOk x.pkt x.vl = true → fieldsOk x.pkt (d.link x.port).ptype = true → hdrCheck d x = .ok (arrivedPkt d x)) ∧
    (laneOk x.pkt x.vl = true → fieldsOk x.pkt (d.link x.port).ptype = false → isRequest x.pkt = true →
      hdrCheck d x = .error (refuse (hdrErr (arrivedPkt d x) x.port) x .unsupported)) ∧
    ((d.comp x.pkt.chase).suspended = false → memberOf d x.port x.pkt = none → isRequest x.pkt = true →
      memberCheck d x = .error (refuse (chkCount d x.pkt.chase 1) x .denied)) ∧
    ((d.comp x.pkt.chase).suspended = false → memberOf d x.port x.pkt = some m → m.trunk = false → m.party ≠ x.pkt.party →
      isRequest x.pkt = true → memberCheck d x = .error (refuse (chkCount d x.pkt.chase 2) x .denied)) ∧
    ((d.comp x.pkt.chase).suspended = false → memberOf d x.port x.pkt = some m → m.party = x.pkt.party → memberCheck d x = .ok d) ∧
    ((d.comp x.pkt.chase).bound = true → (d.comp x.pkt.chase).destroying = false →
      x.pkt.epoch ≠ (epochView (d.comp x.pkt.chase) (portDie x.port)).1 →
      (epochView (d.comp x.pkt.chase) (portDie x.port)).2.1 ≠ some x.pkt.epoch → isRequest x.pkt = true →
      epochCheck d x cont =
        .error (refuse (chkCount (d.modComp x.pkt.chase fun c => { c with strag := true }) x.pkt.chase 3) x .mapGone))) ∧
  (∀ (d : Dev) (id : Nat) (home : Home) (o : Outst) (e : FilterEnt) (r : Pkt),
    d.outst id = some o →
    ((d.tfp.filters.find? fun e => e.home == home && e.src == o.pkt.src && e.chase == o.pkt.chase && e.tag == o.pkt.tag) = none →
      (d.tfp.filters.filter fun e => e.home == home).length < filterCap home →
      ∃ d', filterCheck d id home = .ok d' ∧ d'.tfp.filters = d.tfp.filters ++
        [{ home := home, src := o.pkt.src, chase := o.pkt.chase, tag := o.pkt.tag, opc := o.pkt.opc, w2 := o.pkt.w2, w3 := o.pkt.w3, own := id }]) ∧
    ((d.tfp.filters.find? fun e => e.home == home && e.src == o.pkt.src && e.chase == o.pkt.chase && e.tag == o.pkt.tag) = none →
      filterCap home ≤ (d.tfp.filters.filter fun e => e.home == home).length →
      ∃ d', filterCheck d id home = .error (answer d' id .retry)) ∧
    ((d.tfp.filters.find? fun e => e.home == home && e.src == o.pkt.src && e.chase == o.pkt.chase && e.tag == o.pkt.tag) = some e →
      o.pkt.rtry = true →
      ((e.opc ≠ o.pkt.opc ∨ e.w2 ≠ o.pkt.w2 ∨ e.w3 ≠ o.pkt.w3) → ∃ d', filterCheck d id home = .error (answer d' id .unsupported) ∧
        d'.counter .cDupmism (homeDie home) = satAdd64 (d.counter .cDupmism (homeDie home)) 1) ∧
      (e.opc = o.pkt.opc → e.w2 = o.pkt.w2 → e.w3 = o.pkt.w3 → e.done = false →
        ∃ d', filterCheck d id home = .error d' ∧ d'.counter .cDuphit (homeDie home) = satAdd64 (d.counter .cDuphit (homeDie home)) 1 ∧
          d'.tfp.filters = d.tfp.filters ∧ d'.out = d.out) ∧
      (e.opc = o.pkt.opc → e.w2 = o.pkt.w2 → e.w3 = o.pkt.w3 → e.done = true → e.resp = some r →
        ∃ d', filterCheck d id home = .error (sendResp d' o.die { r with dup := true }))))

/-- Fences, responses and limits (R117, R128, R132, R135, R138, R143, R335): a FENCE waits for the requests it covers and is answered OK when all have
completed; a RESP that completes a tracked request leaves by its destination; MGMT is forwarded; an incomplete train is answered RETRY; a request
past CTO is answered TIMEOUT, or TARGETLOST; a filter entry leaves after DUPWIN; a delivery without a RESP is missed; a reserved opcode is
answered UNSUPPORTED on a request lane. -/
def Obligations.FencesAndAnswers : Prop :=
  ∀ (s : State) (x : Rx) (d e : Dev) (id src chase tag : Nat) (k : Pkt) (o : Outst) (f : FenceWait) (t : Train) (v : Delivery) (home : Home)
    (st : Status),
    (ingress s.dev (asOp opFENCE x) false = .ok (d, id, k) → isLocal d k = true → wbits k.w2 63 8 = 0 → wbits k.w2 7 0 ≠ 0 → k.w3 = 0 →
      Does (.fence x) s
        (settle { d with tfp := { d.tfp with fences := d.tfp.fences ++ [{ id := id, waits := fenceWaits d id k }] } })) ∧
    ((s.dev.tfp.fences.find? fun f => f.id == id) = some f → fenceDone s.dev f = true →
      Does (.fenceAnswer id) s
        (settle (answer { s.dev with tfp := { s.dev.tfp with fences := s.dev.tfp.fences.filter fun f => f.id != id } } id .ok))) ∧
    (hdrCheck s.dev (asOp opRESP x) = .ok d → memberCheck d (asOp opRESP x) = .ok d →
      respStep (admittedPkt d (asOp opRESP x)) (asOp opRESP x) = some e → Status.ofCode x.pkt.status = some st → x.pkt.dst ≠ e.tfp.eid →
      respMatch e (asOp opRESP x).pkt = some o → o.answered = false → x.pkt.last = true → respHold e o (asOp opRESP x).pkt = none →
      o.counted = false →
      Does (.resp x) s (settle (sendResp (e.dropOutst o.id) (portDie x.port) (asOp opRESP x).pkt (some (x.port, x.vl))))) ∧
    (hdrCheck s.dev (asOp opMGMT x) = .ok d → x.pkt.dst ≠ d.tfp.eid →
      Does (.mgmt x) s (sendResp d (portDie x.port) (asOp opMGMT x).pkt (some (x.port, x.vl)))) ∧
    ((s.dev.tfp.trains.find? fun t => t.resp == false && t.first.src == src && t.first.chase == chase && t.first.tag == tag) = some t →
      t.dead = false → t.resp = false → outstOf ((dropTrain s.dev t.first).count .cTrainerr t.die) t.first = some o →
      Does (.trainTimeout src chase tag false) s (settle (answer ((dropTrain s.dev t.first).count .cTrainerr t.die) o.id .retry))) ∧
    (s.dev.outst id = some o → o.answered = false →
      Does (.completionTimeout id) s
        (settle (answerEarly (s.dev.count .cCtoexp o.die) o (if targetGone s.dev o.pkt then .targetLost else .timeout)))) ∧
    (Does (.filterEntryExpiry home src chase tag) s { s.dev with tfp := { s.dev.tfp with filters := s.dev.tfp.filters.filter fun e =>
      !(e.home == home && e.src == src && e.chase == chase && e.tag == tag && e.done) } }) ∧
    ((s.dev.tfp.dlv.find? fun v => v.tag == tag) = some v → Does (.deliveryTimeout tag) s (settle (deliveryMissed s.dev v))) ∧
    (opcodes.contains x.pkt.opc = false → x.vl < 16 → x.vl % 2 = 0 →
      Does (.reservedOpcodePacket x) s (settle (refuse (hdrErr s.dev x.port) x .unsupported)))

/-! ### The switch core (R147–R179) -/

/-- Crossing the planes (R160–R165, R167, R172, R173): the scheduler goes on with a packet under way; the fourth good slice rebuilds its sort, which
is released in PSEQ order; a rebuild that times out asks again; RACK frees the sort at its source; a failed try sends it again, and a third voids
it; credits, gates and outcomes reach the dies they are for; a gap is skipped. -/
def Obligations.CrossingPlanes : Prop :=
  ∀ (s : State) (src dst pseq port n : Nat) (x : Slice) (f : Flight) (e : Nat × QPkt × Nat),
    ((s.dev.core.xRun.find? fun e => e.1 / 24 == src && xCredOk s.dev src e.2.1.port) = some e →
      Does (.xbarSchedule src none) s (crossFrom s.dev src e.2.1 e.2.2 none)) ∧
    (x.src < 24 → x.dst < 24 → x.sidx < 5 → x.kind = 0 → x.good = true → findFlight s.dev x.src x.dst x.pseq = some f → f.rebuilt = false →
      f.void = false → f.good.contains x.sidx = false → f.good.length = 3 →
      Does (.sliceRx x) s
        (release (modFlight s.dev x.src x.dst x.pseq fun f' => { f' with good := f.good ++ [x.sidx], rebuilt := true }) x.src x.dst)) ∧
    (Does (.rebuildTimeout src dst pseq) s (modFlight s.dev src dst pseq fun f =>
      if !f.rebuilt ∧ !f.good.isEmpty then { f with rnak := true, good := [] } else f)) ∧
    (findFlight s.dev src dst pseq = some f → f.acked = false → f.void = false → f.rebuilt = true → f.out = false →
      Does (.rack src dst pseq) s (modFlight (freeSort s.dev f.q) src dst pseq fun f => { f with acked := true })) ∧
    (findFlight s.dev src dst pseq = some f → f.acked = false → f.void = false → f.fails < 2 →
      Does (.rnak src dst pseq) s
        ((modFlight s.dev src dst pseq fun f => { f with fails := f.fails + 1, rnak := false }).count .cXresend src)) ∧
    (findFlight s.dev src dst pseq = some f → f.acked = false → f.void = false → f.rebuilt = false → f.fails < 2 →
      Does (.rackTimeout src dst pseq) s
        ((modFlight s.dev src dst pseq fun f => { f with fails := f.fails + 1, rnak := false }).count .cXresend src)) ∧
    (∃ t, exec (.xbarCreditRx src port n) s = .next t ∧
      tget 0 t.dev.core.owed (1024 * src + port) = tget 0 s.dev.core.owed (1024 * src + port) - min n (tget 0 s.dev.core.owed (1024 * src + port)) ∧
      tget 0 t.dev.core.egCred (1024 * src + port) =
        tget 0 s.dev.core.egCred (1024 * src + port) - min n (tget 0 s.dev.core.owed (1024 * src + port))) ∧
    (∃ t, exec (.gateChangeRx dst port) s = .next t ∧
      (t.dev.core.gateSeen.contains (dst, port) = true ↔ s.dev.core.gated.contains port = true) ∧
      (∀ g, g ≠ (dst, port) → (t.dev.core.gateSeen.contains g = s.dev.core.gateSeen.contains g))) ∧
    ((s.dev.core.flights.any fun f => f.src == src && f.dst == dst && f.rebuilt && !f.out && f.pseq != tget 0 s.dev.core.pseqRx (xKey src dst)) = true →
      findFlight s.dev src dst (tget 0 s.dev.core.pseqRx (xKey src dst)) = none →
      ∃ d : Dev, d = { s.dev with core := { s.dev.core with
          pseqRx := tput s.dev.core.pseqRx (xKey src dst) ((tget 0 s.dev.core.pseqRx (xKey src dst) + 1) % 65536) } } ∧
        Does (.rsqGapTimeout src dst) s
          (release ((d.count .cRsqgap dst).notice 0x020E dst none src (tget 0 s.dev.core.pseqRx (xKey src dst)) 0) src dst))

/-- Planes, multicast and the type case (R141, R164, R170–R177): a window below PLANETHR starts anew, one at it is notified and, with PLANEOFF armed,
takes the plane out; an MCAST of its chase's valid group starts its first round; outcomes end it, a delivery not begun is withdrawn, the next
round names the missing; an audit with nothing found and a full pool leaves the type case; a bad sort goes to the hellbox. -/
def Obligations.MulticastAndTypeCase : Prop :=
  ∀ (s : State) (k m die id sort chase arr port tc pos : Nat) (x : Rx) (d e : Dev) (q : Pkt) (r : McRun),
    (tget 0 s.dev.core.planeErr k < s.dev.fld .fltThr 0 31 16 →
      Does (.planeWindowEnd k) s { s.dev with core := { s.dev.core with planeErr := tdel s.dev.core.planeErr k } }) ∧
    (s.dev.fld .fltThr 0 31 16 ≤ tget 0 s.dev.core.planeErr k → s.dev.flag .fltFabpol 0 30 = true →
      ∃ d : Dev, d = { s.dev with core := { s.dev.core with planeErr := tdel s.dev.core.planeErr k } } ∧
        Does (.planeWindowEnd k) s (planeOut (d.notice 0x020D (dXP k) none k (tget 0 s.dev.core.planeErr k) 0) k)) ∧
    (ingress s.dev (asOp opMCAST x) false = .ok (d, id, q) → wbits q.w2 47 0 = 0 → q.dst = eidFABRIC → d.flag .ptMcgrp (wbits q.w2 63 48) 63 = true →
      d.fld .ptMcgrp (wbits q.w2 63 48) 62 51 = q.chase → d.core.badGroups.contains (65536 * portDie x.port + wbits q.w2 63 48) = false →
      filterCheck d id (.repl (portDie x.port)) = .ok e → groupMembers e (wbits q.w2 63 48) ≠ [] →
      ∃ r : McRun, r = { id := id, die := portDie x.port, pkt := q, members := groupMembers e (wbits q.w2 63 48),
                         outs := (groupMembers e (wbits q.w2 63 48)).map fun _ => .waiting, left := e.fld .ptMcCfg 0 23 20,
                         inp := if lossless e q.tc then some (x.port, x.vl) else none, lossless := lossless e q.tc } ∧
        Does (.mcast x) s
          (mcRound { e with core := { e.core with mc := e.core.mc ++ [r] } } r (upTo (groupMembers e (wbits q.w2 63 48)).length))) ∧
    (Does (.mcOutcomeRx id die) s (report s.dev id die)) ∧
    (s.dev.mcRun id = some r → r.outs[m]? = some .waiting → r.lossless = true →
      ∃ t, exec (.mcwaitExpiry id m) s = .next t ∧
        ∀ r', t.dev.mcRun id = some r' → r'.outs[m]? = some .missed) ∧
    (s.dev.mcRun id = some r → r.resting = true →
      ∃ r' : McRun, r' = { r with outs := r.outs.map fun o => if o == McOut.missing then McOut.waiting else McOut.idle, left := r.left - 1,
                                  resting := false } ∧
        Does (.mcRetryTimer id) s (mcRound ((modRun s.dev id fun _ => r').count .cMcretrycnt r.die) r'
          ((upTo r'.outs.length).filter fun i => r.outs[i]? == some McOut.missing))) ∧
    (16384 ≤ sharedPool s.dev die → s.dev.flag .fltFabpol 0 29 = false →
      Does (.hellboxAudit die [] []) s
        { s.dev with core := { s.dev.core with leakOnce := s.dev.core.leakOnce.filter fun e => e.1 != die } }) ∧
    (tget [] s.dev.core.voq (voqKey die port tc) = [] →
      Does (.sortSramError die sort chase arr port tc pos) s (toHell (s.dev.record 2 die 2 none sort) die (sort, chase, arr)))

/-! ### Scheduling and fabric time (R180–R205, R525) -/

/-- Egress (R180–R197, R525): a port owes control flits first, then goes on with the packet begun, else sends an idle flit; a refill boundary brings
the written words into force; gate entries follow in turn and a pending list becomes operational at its start; a head older than AGETHR is
promoted; a stalled lane is counted and notified once. A shaper's bucket (R185, R186): at a refill boundary an enabled shaper that was not enabled
starts full, one that was gains RATE up to DEPTH, and a disabled one lets every packet begin; no refill takes a bucket above DEPTH. -/
def Obligations.EgressGatesAndShapers : Prop :=
  (∀ (s : State) (p tc vl die i e : Nat) (c : Ctl) (r : List Ctl) (g : GateList) (q : QPkt) (rest : List QPkt),
    (s.dev.portUp p = true → replayRoom s.dev p = true → (s.dev.link p).psn = false → (s.dev.link p).ctlQ = c :: r →
      Does (.egressSelect p) s (sendSeq ((tokenTick s.dev p).modLink p fun l => { l with ctlQ := r }) p { ftype := 2, ctl := some c })) ∧
    (s.dev.portUp p = true → replayRoom s.dev p = true → (s.dev.link p).psn = false → (s.dev.link p).ctlQ = [] →
      ((upTo 8).findSome? fun tc => (egHead s.dev p tc).bind fun q => if q.sent ≠ 0 ∧ q.ready ≠ 0 then some (tc, q) else none) = some (tc, q) →
      Does (.egressSelect p) s (sendSegment (tokenTick s.dev p) p tc q)) ∧
    (s.dev.portUp p = true → replayRoom s.dev p = false → Does (.egressSelect p) s (sendAck (tokenTick s.dev p) p)) ∧
    (Does (.refillBoundary p) s (refillPort s.dev p)) ∧
    (tfind s.dev.sched.oper p = some g → tget (0, g.start) s.dev.sched.entry p = (i, e) →
      Does (.gateEntryChange p) s { s.dev with
        sched := { s.dev.sched with
          entry := tput s.dev.sched.entry p ((i + 1) % max 1 g.ents.length, e + ((g.ents[(i + 1) % max 1 g.ents.length]?).getD (0, 0)).2) } }) ∧
    (tfind s.dev.sched.pend p = some g → g.start ≤ s.dev.now → Does (.gateListTakeover p) s (takeOver s.dev p)) ∧
    (tget [] s.dev.core.egq (egqKey p tc) = q :: rest → s.dev.fld .schClassCfg tc 15 0 ≠ 0 → q.prom = false → q.pkt.opc ≠ opMGMT → q.sent = 0 →
      ∃ t, exec (.agePromotion true die p tc) s = .next t ∧ tget [] t.dev.core.egq (egqKey p tc) = { q with prom := true } :: rest ∧
        t.dev.counter .cPromote (8 * portDie p + tc) = satAdd64 (s.dev.counter .cPromote (8 * portDie p + tc)) 1) ∧
    (s.dev.portUp p = true → ((upTo 8).any fun tc => ((egHead s.dev p tc).map fun q => q.lane == vl && q.sent == 0).getD false) = true →
      (p, vl) ∈ s.dev.core.stallNoted → Does (.creditStall p vl) s (s.dev.count .cCredstall (portDie p)))) ∧
  (∀ (b : Bucket) (w : Nat),
    (bit w 31 = true → bit b.word 31 = false → (refillShaper b w).tc = bits w 27 16) ∧
    (bit w 31 = true → bit b.word 31 = true → (refillShaper b w).tc = min (bits w 27 16) (b.tc + bits w 15 0)) ∧
    (bit w 31 = false → refillShaper b w = { word := w, tc := b.tc, tp := b.tp }) ∧
    (bit w 31 = true → (refillShaper b w).tc ≤ bits w 27 16) ∧
    (∀ (d : Dev) (p tc : Nat), bit (tget {} d.sched.shaper (8 * p + tc)).word 31 = false → shaperOk d p tc = true))

/-- PTP messages (R199, R200): a framed message of the domain on a port that runs PTP: a one-step Sync drives the servo, a two-step one waits for its
Follow_Up, Announce runs the best master algorithm, Pdelay_Req is answered at once, Pdelay_Resp waits for its Follow_Up, which gives the link
delay; other messages are counted; a master port sends Sync, Follow_Up and Announce, and every port Pdelay_Req. Time sources (R201, R203): the
lost source puts STATE into HOLDOVER and sends TIMEHOLD, and the rate word stays; its return sets LOCKED; with GM a PPS edge is a whole second and
loads a pending time of day; each keeper drives its PPS output. -/
def Obligations.FabricTimeMessagesAndSources : Prop :=
  (∀ (s : State) (m : PtpMsg) (p tx rx t1 t2 t4 : Nat),
    m.framed = true → ptpOn s.dev m.port = true → m.domain = s.dev.fld .schPtpCfg 0 23 16 → ptpOn s.dev p = true → s.dev.portUp p = true →
    (ptpState s.dev m.port = 2 → m.twoStep = false →
      Does (.sync m) s (servo s.dev (offsetOf s.dev m.port m.ts m.time m.corr))) ∧
    (ptpState s.dev m.port = 2 → m.twoStep = true →
      Does (.sync m) s (s.dev.modPtp m.port fun q => { q with syncRx := some (m.seq, m.ts), syncCorr := m.corr })) ∧
    (ptpState s.dev m.port = 2 → (s.dev.ptpPort m.port).syncRx = some (m.seq, rx) →
      Does (.followUp m) s (servo (s.dev.modPtp m.port fun q => { q with syncRx := none })
        (offsetOf s.dev m.port rx m.time (m.corr + (s.dev.ptpPort m.port).syncCorr)))) ∧
    ((s.dev.ptpPort m.port).best = none → s.dev.flag .schPtpCfg 0 29 = false →
      Does (.announce m) s (runBmca (s.dev.modPtp m.port fun q => { q with best := some (m.prio1, m.cls, m.prio2, m.ident, m.steps) }))) ∧
    (Does (.pdelayReq m) s ((s.dev.emit (.ptp m.port 3 m.seq m.ts 0)).emit (.ptp m.port 10 m.seq s.dev.now m.corr))) ∧
    ((s.dev.ptpPort m.port).pdTx = some (m.seq, t1) →
      Does (.pdelayResp m) s (s.dev.modPtp m.port fun q => { q with pdRx := some (m.seq, m.time, m.ts), pdCorr := m.corr })) ∧
    ((s.dev.ptpPort m.port).pdTx = some (m.seq, t1) → (s.dev.ptpPort m.port).pdRx = some (m.seq, t2, t4) →
      Does (.pdelayRespFollowUp m) s (s.dev.modPtp m.port fun q =>
        { q with delay := some (((t4 : Int) - t1 - ((m.time : Int) - t2) - m.corr - (s.dev.ptpPort m.port).pdCorr) / 2).toNat, pdTx := none, pdRx := none })) ∧
    (Does (.ptpUnsupportedMessage m) s (s.dev.count .cPtpdisc (portDie m.port))) ∧
    (ptpState s.dev p = 1 → Does (.ptpSyncInterval p tx) s
      (((s.dev.modPtp p fun x => { x with seqSync := ((s.dev.ptpPort p).seqSync + 1) % 65536 }).emit
        (.ptp p 0 (s.dev.ptpPort p).seqSync 0 0)).emit (.ptp p 8 (s.dev.ptpPort p).seqSync tx 0))) ∧
    (ptpState s.dev p ≠ 0 → Does (.ptpPdelayInterval p tx) s
      ((s.dev.modPtp p fun x => { x with seqPd := ((s.dev.ptpPort p).seqPd + 1) % 65536, pdTx := some ((s.dev.ptpPort p).seqPd, tx), pdRx := none }).emit
        (.ptp p 2 (s.dev.ptpPort p).seqPd 0 0))) ∧
    (ptpState s.dev p = 1 → Does (.ptpAnnounceInterval p) s
      ((s.dev.modPtp p fun x => { x with seqAnn := ((s.dev.ptpPort p).seqAnn + 1) % 65536 }).emit (.ptp p 11 (s.dev.ptpPort p).seqAnn s.dev.now 0)))) ∧
  (∀ (s : State) (k tod : Nat) (o : Int),
    (s.dev.flag .schPtpCfg 0 30 = false →
      ∃ t, exec (.timeSourceLoss 0) s = .next t ∧ t.dev.time.st = .holdover ∧ t.dev.time.rate = s.dev.time.rate ∧ t.dev.time.slave = none) ∧
    (s.dev.flag .schPtpCfg 0 30 = false →
      ∃ t, exec (.timeSourceRegain 0 o) s = .next t ∧ t.dev.time.st = .locked ∧ t.dev.time.offset = o) ∧
    (s.dev.flag .schPtpCfg 0 30 = true → s.dev.time.tod = some tod →
      ∃ t, exec .ppsEdge s = .next t ∧ t.dev.now = tod ∧ t.dev.time.tod = none) ∧
    (s.dev.flag .schPtpCfg 0 30 = true → s.dev.time.tod = none →
      ∃ t, exec .ppsEdge s = .next t ∧ t.dev.now % 1000000000 = 0) ∧
    (k < 2 → Does (.ppsOutSecond k) s (s.dev.emit (.pps k (s.dev.now / 1000000000)))))

/-! ### Pool definitions: agents, capacity, spares, stripe sets, rings, layers (R86, R121, R207, R230–R241, R261, R273, R284, R450) -/

/-- Groups 0x03 to 0x05 that stage nothing (R86, R121, R207, R230, R233, R273, R284, R450): an agent is bound to a party that holds no keys; a trunk
is bound once, refused beyond a die's entries, and unbound; capacity is accepted within 256 TiB; a tray is held lost by command and comes back
once its link is trained; a line's directory entry is read; a plain region gets one notice group of its chase. -/
def Obligations.AgentsAndCapacity : Prop :=
  ∀ (s : State) (b : Bas) (d : Dev) (chase party x port kind target n base group tc block line loc : Nat) (r : Region) (nb : NoticeBind)
    (fo : Folio), d = heard s.dev b →
    (Runs s.dev (.partyBind b chase party x) b (chaseCmd 0x0305 chase) = true → party < (d.comp chase).curF.req.parties →
      ((d.partyKeys chase party).holds = false → ∃ e : Dev, e = { d with pool := { d.pool with
          keys := tput d.pool.keys (64 * chase + party) { d.partyKeys chase party with agent := some x } } } ∧
        Leads (.partyBind b chase party x) s (e.reply b 0x0305 .ok)) ∧
      ((d.partyKeys chase party).holds = true → Leads (.partyBind b chase party x) s (d.reply b 0x0305 .busy))) ∧
    (Runs s.dev (.trunkBind b port chase true) b { chaseCmd 0x0306 chase 2 with who := .f } = true → port < 1024 →
      (d.imp.members.any fun m => m.trunk && m.port == port && m.chase == chase) = false →
      ((d.imp.members.filter fun m => m.die == portDie port).length < 16384 → ∃ e : Dev,
        e = { d with imp := { d.imp with members := d.imp.members ++ [{ die := portDie port, port := port, chase := chase, trunk := true }] } } ∧
        Leads (.trunkBind b port chase true) s (e.reply b 0x0306 .ok)) ∧
      (16384 ≤ (d.imp.members.filter fun m => m.die == portDie port).length →
        Leads (.trunkBind b port chase true) s (d.reply b 0x0306 .noFit 0x01 5 [1]))) ∧
    (Runs s.dev (.trunkBind b port chase false) b { chaseCmd 0x0306 chase 2 with who := .f } = true → port < 1024 →
      (d.imp.members.any fun m => m.trunk && m.port == port && m.chase == chase) = true → ∃ e : Dev,
        e = { d with imp := { d.imp with members := d.imp.members.filter fun m => !(m.trunk && m.port == port && m.chase == chase) } } ∧
        Leads (.trunkBind b port chase false) s (e.reply b 0x0306 .ok)) ∧
    (Runs s.dev (.capAccept b kind target n) b (devCmd 0x0401) = true → expander kind target = true →
      (sumNat ((d.imp.cap.filter fun e => e.1 != trayKey kind target).map Prod.snd) + n ≤ 281474976710656 → ∃ e : Dev,
        e = { d with imp := { d.imp with cap := tput d.imp.cap (trayKey kind target) n } } ∧
        Leads (.capAccept b kind target n) s (e.reply b 0x0401 .ok)) ∧
      (281474976710656 < sumNat ((d.imp.cap.filter fun e => e.1 != trayKey kind target).map Prod.snd) + n →
        Leads (.capAccept b kind target n) s (d.reply b 0x0401 .noFit 0x01 2
          [sumNat ((d.imp.cap.filter fun e => e.1 != trayKey kind target).map Prod.snd) + n - 281474976710656]))) ∧
    (Runs s.dev (.trayOffline b kind target) b (devCmd 0x0404) = true → trayNamed kind target = true →
      Leads (.trayOffline b kind target) s ((holdLost d kind target).reply b 0x0404 .ok)) ∧
    (Runs s.dev (.trayOnline b 2 target) b (devCmd 0x0405) = true → target < 32 →
      ((d.tray target).trained = true → ∃ e : Dev, e = { d with flt := { d.flt with lostTgt := d.flt.lostTgt.filter (· != (2, target)) } } ∧
        e.heldLost 2 target = false ∧ Leads (.trayOnline b 2 target) s (e.reply b 0x0405 .ok)) ∧
      ((d.tray target).trained = false → d.heldLost 2 target = true →
        Leads (.trayOnline b 2 target) s (d.reply b 0x0405 .busy))) ∧
    (Runs s.dev (.dirRead b chase block line) b { opc := 0x0502, who := .a, chase := some chase, chaseAt := 9 } = true →
      block % 4096 = 0 → line < 16 → folioAt d chase (d.comp chase).cur (block + 256 * line) = some fo →
      loc = locLine fo.loc ((block + 256 * line) % folioB) →
      (d.dirEnt loc = none → Leads (.dirRead b chase block line) s (d.reply b 0x0502 .ok 0 0 [0])) ∧
      (∀ e : DirEnt, d.dirEnt loc = some e → Leads (.dirRead b chase block line) s (d.reply b 0x0502 .ok 0 0 [e.word]))) ∧
    (∀ e : DirEnt, e.owner < 32 → (∀ p ∈ e.ptrs, ∀ q, p = some q → q < 32) → (∀ q m, e.busy = some (q, m) → q < 32) →
      e.word / 2 ^ 61 = (if e.busy.isSome then 4 else dstateCode e.st) ∧ bit e.word 60 = e.ovf ∧ bits e.word 59 55 = e.owner) ∧
    (Runs s.dev (.noticeBind b chase base group tc) b (chaseCmd 0x0503 chase 8) = true → tc < 8 → group < 65536 →
      ((d.comp chase).curF.req.regions.find? fun r => r.base == base && r.cls == 3) = some r →
      (bit (d.reg .ptMcgrp group) 63 = true → bits (d.reg .ptMcgrp group) 62 51 = chase →
        (d.pool.notices.any fun x => x.chase == chase && x.base == base) = false → ∃ e : Dev, e = { d with pool := { d.pool with
            notices := d.pool.notices ++ [{ chase := chase, base := base, size := r.size, group := group, tc := tc }] } } ∧
          Leads (.noticeBind b chase base group tc) s (e.reply b 0x0503 .ok)) ∧
      (bit (d.reg .ptMcgrp group) 63 = false → Leads (.noticeBind b chase base group tc) s (d.reply b 0x0503 .denied)) ∧
      (bit (d.reg .ptMcgrp group) 63 = true → bits (d.reg .ptMcgrp group) 62 51 = chase →
        (d.pool.notices.any fun x => x.chase == chase && x.base == base) = true →
        Leads (.noticeBind b chase base group tc) s (d.reply b 0x0503 .busy))) ∧
    (Runs s.dev (.noticeUnbind b chase base) b (chaseCmd 0x0504 chase 8) = true →
      (d.pool.notices.find? fun x => x.chase == chase && x.base == base) = some nb → ∃ e : Dev, e = flushNotice d nb ∧
        Leads (.noticeUnbind b chase base) s
          ({ e with pool := { e.pool with notices := e.pool.notices.filter fun x => !(x.chase == chase && x.base == base) } }.reply b 0x0504 .ok))

/-- Spares and stripe sets (R234, R238, R239): an extent of free accepted capacity becomes a spare and sets that wait choose again; one that no
rebuild writes goes back; ten members on ten trays become a set, refused for two on one tray, for capacity lacking, for a set there already; a set
that no live forme maps is deleted and its extents are free again. -/
def Obligations.SparesAndStripeSets : Prop :=
  ∀ (s : State) (b : Bas) (d : Dev) (kind target base extent set : Nat) (mem : List (Nat × Nat × Nat)) (x : Spare) (st : Stripe),
    d = heard s.dev b →
    (Runs s.dev (.spareAdd b kind target base extent) b (devCmd 0x0406) = true → expander kind target = true → extent ≠ 0 → extent ≤ 65535 →
      (extentLack d kind target base extent = 0 → ∃ e : Dev, e = takeExtent d kind target base extent ∧
        Leads (.spareAdd b kind target base extent) s ((foldOver (e.pool.stripes.map Prod.fst)
          ({ e with pool := { e.pool with spares := e.pool.spares ++ [{ kind := kind, target := target, base := base, extent := extent }] } } : Dev)
          fun s d => if (d.stripe s).rb.isNone then rebuildStart d s else d).reply b 0x0406 .ok)) ∧
      (extentLack d kind target base extent ≠ 0 →
        Leads (.spareAdd b kind target base extent) s (d.reply b 0x0406 .noFit 0x01 2 [extentLack d kind target base extent * folioB]))) ∧
    (Runs s.dev (.spareRemove b kind target base) b (devCmd 0x0407) = true →
      (d.pool.spares.find? fun x => x.kind == kind && x.target == target && x.base == base) = some x →
      (d.pool.stripes = [] → Leads (.spareRemove b kind target base) s ((giveExtent { d with pool := { d.pool with
          spares := d.pool.spares.filter fun y => !(y.kind == kind && y.target == target && y.base == base) } } kind target base
            x.extent).reply b 0x0407 .ok)) ∧
      ((∃ e ∈ d.pool.stripes, ∃ n y, e.2.rb = some (n, y) ∧ y.mkind = kind ∧ y.target = target ∧ y.base = base) →
        Leads (.spareRemove b kind target base) s (d.reply b 0x0407 .busy))) ∧
    (Runs s.dev (.stripeDefine b set extent mem) b (devCmd 0x0408) = true →
      ((mem.map fun m => (m.1, m.2.1)).eraseDups.length ≠ 10 → Leads (.stripeDefine b set extent mem) s (d.reply b 0x0408 .unsupported)) ∧
      (stripeUnsupported d set extent mem = false → stripeLack d extent mem ≠ 0 →
        Leads (.stripeDefine b set extent mem) s (d.reply b 0x0408 .noFit 0x01 2 [stripeLack d extent mem * folioB])) ∧
      (stripeUnsupported d set extent mem = false → stripeLack d extent mem = 0 → tfind d.pool.stripes set ≠ none →
        Leads (.stripeDefine b set extent mem) s (d.reply b 0x0408 .busy)) ∧
      (stripeUnsupported d set extent mem = false → stripeLack d extent mem = 0 → tfind d.pool.stripes set = none →
        ∃ e e' : Dev, e = (foldOver mem d fun m d => takeExtent d m.1 m.2.1 m.2.2 extent) ∧
          e' = { e with pool := { e.pool with stripes := tput e.pool.stripes set (newStripe e extent mem) } } ∧
          tfind e'.pool.stripes set = some (newStripe e extent mem) ∧
          Leads (.stripeDefine b set extent mem) s ((stripeNote e e' set).reply b 0x0408 .ok))) ∧
    (Runs s.dev (.stripeDelete b set) b (devCmd 0x0409) = true → tfind d.pool.stripes set = some st →
      ((framesUsed (liveFormes d)).any (fun x => x.1 == 5 && x.2.1 == set) = true →
        Leads (.stripeDelete b set) s (d.reply b 0x0409 .busy)) ∧
      ((framesUsed (liveFormes d)).any (fun x => x.1 == 5 && x.2.1 == set) = false → ∃ e : Dev, e = { d with
          pool := { d.pool with stripes := tdel d.pool.stripes set }
          imp := { d.imp with
            freeFr := d.imp.freeFr.filter (fun x => !(x.1 == 5 && x.2.1 == set)), vacated := d.imp.vacated.filter (fun x => !(x.1 == 5 && x.2.1 == set))
            nextFr := tdel d.imp.nextFr (frameKey 5 set) } } ∧
        Leads (.stripeDelete b set) s ((foldOver st.mem e fun m d => giveExtent d m.mkind m.target m.base st.extent).reply b 0x0409 .ok)))

/-- Rings and layers (R241, R261, R393): a ring in range, allowed and not in use joins the staged forme on the least loaded core with a mover plate;
it lacks a core else; an unbound ring goes at the next commit; a layer in range and in WEIGHT regions joins it, within WINDOW and the free SHADOW. -/
def Obligations.RingsAndLayers : Prop :=
  ∀ (s : State) (b : Bas) (d d1 d2 : Dev) (chase party ring core : Nat) (r : RingDef) (l : LayerDef) (x : Ring), d = heard s.dev b →
    (Runs s.dev (.moverBind b chase party r) b (chaseCmd 0x040A chase) = true →
      (ringOk r = false → Leads (.moverBind b chase party r) s (d.reply b 0x040A .unsupported)) ∧
      (ringOk r = true → party < (nextReq d chase).parties →
        (ringDenied d chase party 64 r = true → Leads (.moverBind b chase party r) s (d.reply b 0x040A .denied)) ∧
        (ringDenied d chase party 64 r = false → Stages d chase d1 →
          (leastCore d1 chase (d1.stagedF chase) [0x28] { sram := 1024 } (fun _ => true) = none →
            Leads (.moverBind b chase party r) s (d.reply b 0x040A .noFit 0x01 3 [1])) ∧
          (leastCore d1 chase (d1.stagedF chase) [0x28] { sram := 1024 } (fun _ => true) = some core →
            d2 = { d1 with pool := { d1.pool with rings := d1.pool.rings ++
              [{ chase := chase, party := party, ring := r.ring, pva := r.pva, ents := r.ents, mark := r.mark, core := core, staged := true }] } } →
            Roomy d2 chase →
            (ringTaken d chase r.ring = true → Leads (.moverBind b chase party r) s (d.reply b 0x040A .busy)) ∧
            (ringTaken d chase r.ring = false → Leads (.moverBind b chase party r) s (joined d2 b chase 0x040A)))))) ∧
    (Runs s.dev (.moverUnbind b chase ring) b (chaseCmd 0x040B chase) = true →
      ((d.pool.rings.find? fun r => r.chase == chase && r.ring == ring && !r.leaving && !r.gone) = none →
        Leads (.moverUnbind b chase ring) s (d.reply b 0x040B .unsupported 0x02 2)) ∧
      ((d.pool.rings.find? fun r => r.chase == chase && r.ring == ring && !r.leaving && !r.gone) = some x → Stages d chase d1 →
        d2 = { d1 with pool := { d1.pool with rings := (d1.pool.rings.filter fun r =>
            !((r.chase == chase && r.ring == ring && !r.leaving && !r.gone) && r.staged)).map fun r =>
              if r.chase == chase && r.ring == ring && !r.leaving && !r.gone then { r with leaving := true } else r } } →
        Roomy d2 chase → Leads (.moverUnbind b chase ring) s (joined d2 b chase 0x040B))) ∧
    (Runs s.dev (.layerDef b chase l) b (chaseCmd 0x0501 chase) = true →
      (layerUnsupported d chase l = true → Leads (.layerDef b chase l) s (d.reply b 0x0501 .unsupported)) ∧
      (layerUnsupported d chase l = false → layerDenied d chase l = true → Leads (.layerDef b chase l) s (d.reply b 0x0501 .denied)) ∧
      (layerUnsupported d chase l = false → layerDenied d chase l = false → Stages d chase d1 →
        ((d1.stagedF chase).windowB < 4096 * l.lpages →
          Leads (.layerDef b chase l) s (d.reply b 0x0501 .noFit 0x01 1 [4096 * l.lpages - (d1.stagedF chase).windowB])) ∧
        (4096 * l.lpages ≤ (d1.stagedF chase).windowB → (l.arm ≠ 1 ∨ shadowTaken (layersBeside d chase l.layer) + 4096 * l.shpages ≤
            (d1.stagedF chase).shadowB) →
          d2 = { d1 with pool := { d1.pool with layers := d1.pool.layers.filter (fun y => !(y.chase == chase && y.layer == l.layer && y.staged)) ++
            [{ newLayer chase l with stack := layerStack d1 (d1.stagedF chase) l.layer,
                                     shres := l.arm == 1 && !(d1.stagedF chase).dropped.contains l.layer }] } } →
          Roomy d2 chase → Leads (.layerDef b chase l) s (joined d2 b chase 0x0501))))

/-! ### Pool requests, galley, trays, stripes, movers, layers at work (R43, R51, R83, R86, R122, R206–R266) -/

/-- LOAD, STORE and ATOMIC at their ingress (R43, R51, R122, R206, R209, R211, R231, R270): the first failing check answers; a missing fast-path entry
parks the request; one for another EID passes on; a bad or absent entry ends it TARGETLOST or DENIED; then the access rule, the party's key for a
tray, the operands, and the access at its home. A STORE to the switch is a coherence message, taken from a member's link. -/
def Obligations.PoolRequests : Prop :=
  ∀ (s : State) (x y : Rx) (i : Instr) (d e : Dev) (id pva len : Nat) (k : Pkt) (f : Folio) (fe : FastEnt) (op : PjOp) (m : CohMsg),
    ((i = .load x ∧ y = asOp opLOAD x) ∨ (i = .store x ∧ y = asOp opSTORE x ∧ x.pkt.dst ≠ s.dev.tfp.eid) ∨ (i = .atomic x ∧ y = asOp opATOMIC x) →
      fe = { die := portDie y.port, chase := y.pkt.chase, epoch := y.pkt.epoch, kind := 0, key := wbits y.pkt.w2 63 8 / folioB } →
      (preChecks s.dev y false = .error e → Leads i s e) ∧
      (preChecks s.dev y false = .ok () → isLocal s.dev y.pkt = true → fastHas s.dev fe = false → Leads i s (park s.dev y fe)) ∧
      (preChecks s.dev y false = .ok () → (isLocal s.dev y.pkt = false ∨ fastHas s.dev fe = true) →
        ingress s.dev y false = .ok (d, id, k) → pva = wbits k.w2 63 8 →
        (isLocal d k = false → Leads i s (forwardReq d id k (some (y.port, y.vl)))) ∧
        (isLocal d k = true →
          (d.imp.badEnt.contains (k.chase, 1, pva / folioB) = true → Leads i s (answerLost d id k)) ∧
          (d.imp.badEnt.contains (k.chase, 1, pva / folioB) = false → folioAt d k.chase k.epoch pva = none →
            Leads i s (answer (chkCount d k.chase 4) id .denied)) ∧
          (d.imp.badEnt.contains (k.chase, 1, pva / folioB) = false → folioAt d k.chase k.epoch pva = some f →
            (accessOk d f k.party (k.opc != opLOAD) = false → Leads i s (answer (d.count .cDenycls (portDie y.port)) id .denied)) ∧
            (accessOk d f k.party (k.opc != opLOAD) = true →
              ((f.kind = 2 ∨ f.kind = 3 ∨ f.kind = 5) → d.pdk (keyOf d k.chase pva f) = none → Leads i s (answer d id .sealed_)) ∧
              (f.kind = 1 → operandsOk k = false → Leads i s (answer d id .unsupported)) ∧
              (f.kind = 1 → operandsOk k = true → placeLost d f = true → f.gcache = false → Leads i s (answerLost d id k)) ∧
              (f.kind = 1 → operandsOk k = true → placeLost d f = false → layerOf d k.chase pva = none →
                len = (if k.opc = opLOAD then wbits k.w3 12 0 else if k.opc = opATOMIC then atomSize k else k.len) →
                op = (if k.opc = opLOAD then .load else if k.opc = opSTORE then .store else .atomic (wbits k.w3 3 0)) →
                (k.opc = opLOAD ∧ e = d ∨ k.opc ≠ opLOAD ∧ filterCheck d id (homeOf d f) = .ok e) →
                Leads i s (openGrp e (.request id) (portDie y.port) k.chase k.epoch k.party pva len op k.data f
                  (keyOf d k.chase pva f)))))))) ∧
    (x.pkt.dst = s.dev.tfp.eid → ingress s.dev (asOp opSTORE x) false = .ok (d, id, k) → (d.link x.port).ptype = 0 →
      memberOfEid d k.src ≠ none → pva = wbits k.w2 63 8 / 4096 * 4096 + 256 * bits (leNat (k.data.take 8)) 38 35 →
      folioAt d k.chase k.epoch pva = some f → f.kind ≠ 4 → filterCheck d id (.coh ((d.stackServer f.cstack).getD f.cstack)) = .ok e →
      cohOf k (selfM e) (locLine { kind := f.kind, target := f.target, frame := f.frame } (pva % folioB)) = some m → cohTc e m.msg = k.tc →
      homeQueued e ((d.stackServer f.cstack).getD f.cstack) < 8192 →
      Leads (.store x) s (cohRx (answer e id .ok) ((d.stackServer f.cstack).getD f.cstack) f.cstack k.chase k.party pva
        { kind := f.kind, target := f.target, frame := f.frame } m))

/-- What comes back from galley and trays (R83, R86, R214, R230, R232, R251, R255, R257, R274, R285): a galley read serves its access; the mirror copy
completes a part; the scrub reads the next line; a tray link trains, fully or degraded with a notice, and one that goes down holds the tray lost;
capacity is reported, or removed with its folios; a completion or a timeout ends the granule it names; a bad directory entry is discarded,
poisoning its line; a notice that holds lines goes out. -/
def Obligations.GalleyAndTrays : Prop :=
  ∀ (s : State) (job stack sv link rate width cap first frames cid line chase base : Nat) (ce ue : List Nat) (data : List Byte) (poison : Bool)
    (j : PJob) (l : CLine) (r : TrayReq) (e : DirEnt) (nb : NoticeBind),
    (s.dev.job job = some j → j.st = .galley →
      (j.cached = none → s.dev.stackServer j.loc.target = some sv → Leads (.galleyReadReturn job ce ue) s (galleyReturn s.dev j sv ce ue)) ∧
      (j.cached = none → s.dev.stackServer j.loc.target = none → Leads (.galleyReadReturn job ce ue) s (jobEnd s.dev j .targetLost)) ∧
      (j.cached = some stack → s.dev.stackServer stack = some sv → s.dev.line (locLine j.loc j.off) = some l →
        Leads (.galleyReadReturn job ce ue) s (cachedServe s.dev j l ce ue))) ∧
    (s.dev.job job = some j → j.st = .mirror → Leads (.mirrorWriteDone job) s (jobEnd s.dev j .ok)) ∧
    (stack < 8 → s.dev.stackUp stack = true → ∃ d : Dev, d = (({ s.dev with pool := { s.dev.pool with
        scrub := tput s.dev.pool.scrub stack ((tget 0 s.dev.pool.scrub stack + 1) % 268435456) } } : Dev).countN .cScrubce (dPX stack)
          ce.length).corrected (dGS stack) 1 ce.length ∧
      (ue = [] → Does (.patrolScrub stack ce ue) s d) ∧
      Does (.patrolScrub stack ce ue) s (foldOver ue d fun g d =>
        newBad d stack (stack % 4 * 2 ^ 36 + 256 * tget 0 s.dev.pool.scrub stack + 64 * (g % 4)))) ∧
    (isTray s.dev link = true → (s.dev.tray link).perst = false → s.dev.enabled (8 * trayOct link) = true →
      s.dev.dieUp (dPT (trayDie link)) = true → ∃ d : Dev, d = s.dev.modTray link (fun t => { t with
        trained := true, fullRate := rate == 64 && width == trayWidth s.dev link, rateGot := rate, widthGot := width }) ∧
      (rate = 64 → width = trayWidth s.dev link → Does (.trayLinkTrained link rate width) s d) ∧
      ((rate ≠ 64 ∨ width ≠ trayWidth s.dev link) →
        Does (.trayLinkTrained link rate width) s (d.notice 0x020A (dPT (trayDie link)) none link rate width))) ∧
    ((s.dev.tray link).trained = true →
      Leads (.trayLinkDown link) s (holdLost (s.dev.modTray link fun t => { t with trained := false, fullRate := false }) 2 link) ∧
      Does (.trayDcAdd link cap) s
        ((s.dev.modTray link fun t => { t with offered := t.offered + cap }).notice 0x020B (dPT (trayDie link)) none link cap 0)) ∧
    ((s.dev.tray link).trained = true → frames ≠ 0 → s.dev.pool.jobs = [] → ∃ d : Dev, d = { s.dev with
        flt := { s.dev.flt with lostFr := s.dev.flt.lostFr ++ [(link, first, frames)] }
        imp := { s.dev.imp with freeFr := s.dev.imp.freeFr.filter fun x =>
          !(x.1 == 2 && x.2.1 == link && (decide (first ≤ x.2.2) && decide (x.2.2 < first + frames))) } } ∧
      Leads (.trayDcForcedRemoval link first frames) s (d.notice 0x0401 (dPT (trayDie link)) none link 2 0 ((liveFormes d).map fun f =>
        (f.folios.filter fun e => e.2.locs.any fun l =>
          l.1 == 2 && l.2.1 == link && (decide (first ≤ l.2.2) && decide (l.2.2 < first + frames))).length))) ∧
    (jobOfReq s.dev cid = some (j, r) → j.loc.kind = 2 → j.loc.target = link →
      Leads (.cxlCompletion link cid data poison) s (cxlEnd s.dev j r (.ok (data.take 64 ++ zeros (64 - data.length), poison))) ∧
      Leads (.trayReqTimeout link cid) s (cxlEnd (s.dev.count .cTraytmo (dPT (trayDie link))) j r (.error .timeout))) ∧
    (jobOfReq s.dev cid = some (j, r) → j.loc.kind = 5 → (stripeReqAt s.dev j r).1 = link →
      (poison = false → Leads (.cxlCompletion link cid data poison) s
        (memberEnd s.dev j r link (stripeReqAt s.dev j r).2 (.ok (data.take 64 ++ zeros (64 - data.length), [])))) ∧
      Leads (.trayReqTimeout link cid) s (memberEnd (s.dev.count .cTraytmo (dPT (trayDie link))) j r 0 0 (.error .timeout))) ∧
    (s.dev.dirEnt line = some e → Leads (.directoryError line) s (dirError s.dev e) ∧ (dirError s.dev e).dirEnt e.key = none) ∧
    ((s.dev.pool.notices.find? fun b => b.chase == chase && b.base == base) = some nb →
      Leads (.invalNoticeFlush chase base) s (flushNotice s.dev nb))

/-- Stripe sets and rebuild (R234–R238, R495, R496): a stripe's ten units lie on ten members; the engine takes one member's answer at a time and goes
on with the last; a rebuild takes the spare chosen, or waits for one; it goes on slot by slot, and with the last slot the spare is the member;
with REBUILD cleared it stops at a slot boundary. -/
def Obligations.StripesAndRebuild : Prop :=
  ∀ (s : State) (job member set m g u v : Nat) (j j' : PJob) (a : Member) (x : Spare) (y : StripeMem) (st : Stripe), st = s.dev.stripe set →
    (u < 10 → v < 10 → unitMember g u < 10 ∧ (unitMember g u = unitMember g v → u = v)) ∧
    (s.dev.job job = some j → (j.mem.find? fun m => m.m == member && m.here && !m.taken) = some a →
      j' = { j with mem := mapFirst (fun m => m.m == member && m.here && !m.taken) (fun m => { m with taken := true }) j.mem } →
      ((j'.mem.all fun m => m.taken) = false → Leads (.stripeMemberAnswer job member) s (s.dev.modJob j.id fun _ => j')) ∧
      ((j'.mem.all fun m => m.taken) = true →
        Leads (.stripeMemberAnswer job member) s (stripeNext (s.dev.modJob j.id fun _ => j') j'))) ∧
    (tfind s.dev.pool.stripes set ≠ none → s.dev.flag .fltFabpol 0 27 = true → s.dev.mgmt.active ≠ none → st.lost.length < 3 →
      st.rb = none → st.lost.head? = some m →
      (pickSpare s.dev st m = some x → ∃ d : Dev, d = (s.dev.modStripe set fun s => { s with
          rb := some (m, { mkind := x.kind, sparein := true, target := x.target, base := x.base }), prog := 0, waited := false, stopped := false }) ∧
        Does (.rebuildStart set) s (stripeNote s.dev d set)) ∧
      (pickSpare s.dev st m = none → st.waited = false →
        Does (.rebuildStart set) s ((s.dev.modStripe set fun s => { s with waited := true }).notice 0x0403 s.dev.kpDie none set m 0))) ∧
    (st.rb = some (m, y) →
      (s.dev.flag .fltFabpol 0 27 = false → Leads (.rebuildSlot set) s (s.dev.modStripe set fun s => { s with stopped := true })) ∧
      (s.dev.flag .fltFabpol 0 27 = true → st.stopped = false → s.dev.pool.jobs = [] → stripeDie s.dev set = some v → ∃ d : Dev,
        d = (s.dev.modStripe set fun s => { s with prog := s.prog + 1 }).count .cRbslot (dPX v) ∧
        (st.prog + 1 < 4096 * st.extent → Leads (.rebuildSlot set) s d) ∧
        (4096 * st.extent ≤ st.prog + 1 → Leads (.rebuildSlot set) s (rebuildEnd d set m y))))

/-- Movers (R241–R246): a piece crosses no 4 KiB boundary of source or destination; a mover whose doorbell counts takes the next descriptor; an access
that ends lets the pieces go on; the status write's RESP ends the job, raises CMARK and goes on to the next entry. -/
def Obligations.Movers : Prop :=
  ∀ (s : State) (chase ring off : Nat) (r : Ring) (m : MoverDesc) (d d1 d2 e : Dev) (g : Grp),
    (m.mop = 1 → off < m.len → 0 < moverPiece m off ∧ off + moverPiece m off ≤ m.len ∧ (m.dst + off) % 4096 + moverPiece m off ≤ 4096 ∧
      (m.src + off) % 4096 + moverPiece m off ≤ 4096) ∧
    (s.dev.ring chase ring = some r → r.job = false → r.taking = false → r.staged = false → r.gone = false →
      coreServes s.dev r.core [0x28] = true →
      (markSignal s.dev chase r.mark 0x04 1 0 = (d, .ok, true) →
        d1 = (d.modRing chase ring fun r => { r with taking := true, desc := [], movout := d.fld .impPoolCfg 0 19 12, pos := 0, pieces := []
                                                     failN := 0, dstat := .ok, failOff := 0, ending := false }) →
        ownAccess d1 (.moverDesc chase ring) (coreDie r.core) chase (d1.comp chase).cur r.party (r.pva + 64 * (r.next % r.ents)) 64 .load [] []
          = .ok e → Leads (.moverDescriptorTake chase ring) s e) ∧
      (markSignal s.dev chase r.mark 0x04 1 0 = (d, .ok, false) → Leads (.moverDescriptorTake chase ring) s d)) ∧
    (takeEnded s.dev (Cont.ofPiece chase ring) = some (g, d) → d.ring chase ring = some r →
      (g.cont = .moverRead chase ring off → Leads (.moverPieceDone chase ring) s (moverIssue chase ring 128 (moverPieceEnded d r g off false))) ∧
      (g.cont = .moverWrite chase ring off → Leads (.moverPieceDone chase ring) s (moverIssue chase ring 128 (moverPieceEnded d r g off true)))) ∧
    (takeEnded s.dev (Cont.ofStatus chase ring) = some (g, d) → s.dev.ring chase ring = some r →
      d1 = (d.modRing chase ring fun r => { r with job := false, ending := false, next := (r.next + 1) % r.ents }) →
      d2 = { d1 with pool := { d1.pool with rings := d1.pool.rings.filter fun r => !(r.chase == chase && r.ring == ring && r.gone) } } →
      ((readMoverDesc r.desc).cmen = false → Leads (.moverStatusWritten chase ring) s d2) ∧
      ((readMoverDesc r.desc).cmen = true → markOfChase d2 chase (readMoverDesc r.desc).cmark = true →
        Leads (.moverStatusWritten chase ring) s (markAdd d2 chase (readMoverDesc r.desc).cmark 1)))

/-- Layer pushes (R247, R262, R264, R265): a PUSH is refused for a layer it does not know, without the service, while one runs, and without room; else
the window makes room and the layer is read; a piece that ends well joins the window, and with the last the layer is READY, its mark raised and
the PUSH answered; NEED reached while PUSHING makes it MISSED; a PUSH near its CTO is answered OK with RVAL 1. -/
def Obligations.LayerPushes : Prop :=
  ∀ (s : State) (x : Rx) (d d1 e : Dev) (chase n id : Nat) (k : Pkt) (l l1 : Layer) (out : List Layer) (g : Grp) (a : List Layer),
    (ingress s.dev (asOp opPUSH x) false = .ok (d, id, k) →
      (isLocal d k = false → Leads (.push x) s (forwardReq d id k (some (x.port, x.vl)))) ∧
      (isLocal d k = true → wbits k.w2 47 0 = 0 → n = wbits k.w2 63 48 →
        (d.layer k.chase n = none → Leads (.push x) s (answer d id .unsupported)) ∧
        (d.layer k.chase n = some l → bit (d.comp k.chase).curF.req.services 5 = false → Leads (.push x) s (answer d id .denied)) ∧
        (d.layer k.chase n = some l → bit (d.comp k.chase).curF.req.services 5 = true →
          ((l.st = .pushing ∨ l.st = .missed) → Leads (.push x) s (answer d id .busy)) ∧
          (l.st ≠ .pushing → l.st ≠ .missed → a = layersHeld d k.chase n →
            (retireList (d.comp k.chase).curF.depth (d.comp k.chase).curF.windowB (4096 * l.lpages) (a.length + 1) a = none →
              Leads (.push x) s (answer d id .busy)) ∧
            (retireList (d.comp k.chase).curF.depth (d.comp k.chase).curF.windowB (4096 * l.lpages) (a.length + 1) a = some out →
              d1 = (foldOver (l :: out) d fun x d => retireLayer d x) →
              e = (({ d1 with pool := { d1.pool with nextUse := d1.pool.nextUse + 1 } } : Dev).modLayer k.chase n fun l =>
                { l with st := .pushing, need := k.w3.toNat, die := portDie x.port, req := some id, pos := 0, grps := [], copied := []
                         order := d1.pool.nextUse, movout := d1.fld .impPoolCfg 0 19 12 }) →
              Leads (.push x) s (layerIssue k.chase n 128 (e.modLayer k.chase n fun l => if l.need ≤ e.now then { l with st := .missed } else l))))))) ∧
    (s.dev.layer chase n = some l → l.req = some id →
      Does (.pushEarlyAnswer chase n) s (answer (s.dev.modLayer chase n fun l => { l with req := none }) id .ok 1)) ∧
    (s.dev.layer chase n = some l → l.st = .pushing →
      (∃ t, exec (.layerNeedReached chase n) s = .next t ∧
        (l.need ≤ s.dev.now → t.dev.layer chase n = some { l with st := .missed }) ∧ (s.dev.now < l.need → t.dev.layer chase n = some l))) ∧
    (takeEnded s.dev (Cont.ofLayer chase n) = some (g, d) → d.layer chase n = some l → (l.st = .pushing ∨ l.st = .missed) →
      l.grps.contains ((g.pva - l.pva) / 4096) = true →
      (g.worst ≠ .ok → Leads (.layerPieceDone chase n) s (layerFail d l g.worst)) ∧
      (g.worst = .ok →
        d1 = { d with pool := { d.pool with
          lines := mapIf (fun x => x.chase == chase && x.pva / 4096 == g.pva / 4096 && x.st == .s) (fun x => { x with window := true }) d.pool.lines } } →
        e = (d1.modLayer chase n fun y => { y with grps := y.grps.filter (· != (g.pva - l.pva) / 4096), copied := y.copied ++ (upTo 16).map (g.pva + 256 * ·) }) →
        e.layer chase n = some l1 →
        (l1.lpages ≤ l1.pos → l1.grps = [] → Leads (.layerPieceDone chase n) s (layerReady e l1)) ∧
        (l1.pos < l1.lpages → Leads (.layerPieceDone chase n) s (layerIssue chase n 128 e))))

/-! ### Coherence (R270–R279) -/

/-- A message of a line of a mapped folio reaches its home or its cache if its sender is this switch or a member; else it is discarded with COHERR
(R270, R271, R279). The sender, header and line are as the message says. -/
def Obligations.CoherenceMessages : Prop :=
  ∀ (s : State) (chase party pva px : Nat) (m : CohMsg) (f : Folio) (l : Loc),
    folioAt s.dev chase (s.dev.comp chase).cur pva = some f → l = { kind := f.kind, target := f.target, frame := f.frame } →
    px = (s.dev.stackServer f.cstack).getD f.cstack →
    ∀ ci ∈ ([(.gets, .gets chase party pva m), (.getm, .getm chase party pva m), (.upgr, .upgr chase party pva m), (.puts, .puts chase party pva m),
        (.pute, .pute chase party pva m), (.putm, .putm chase party pva m), (.puto, .puto chase party pva m), (.fwds, .fwds chase party pva m),
        (.fwdm, .fwdm chase party pva m), (.inv, .inv chase party pva m), (.srcs, .srcs chase party pva m), (.data, .data chase party pva m),
        (.grant, .grant chase party pva m), (.iack, .iack chase party pva m), (.pack, .pack chase party pva m), (.done, .done chase party pva m),
        (.snak, .snak chase party pva m)] : List (CMsg × Instr)),
      ((m.srcm = selfM s.dev ∨ memberValid s.dev m.srcm = true) → Leads ci.2 s (cohRx s.dev px f.cstack chase party (pva / 256 * 256) l
        { m with msg := ci.1, dest := selfM s.dev, line := locLine l (pva % folioB) })) ∧
      (m.srcm ≠ selfM s.dev → memberValid s.dev m.srcm = false →
        Leads ci.2 s (cohErr s.dev px { m with msg := ci.1, dest := selfM s.dev, line := locLine l (pva % folioB) }))

/-- What each side of the protocol does (R272–R279): an INV drops a shared line and is acknowledged; a forward hands the data on, keeping the line in
O, dirty when it was in M, or dropping it; DATA installs the line as GRANT says and DONE follows; the last IACK completes a write; PACK ends a
write-back; a message the table does not list changes no line. At the home a request behind another is queued; DONE of the requester gives the
line the state kept for it; INVs go to every other sharer, or with OVF to every member but requester and owner. -/
def Obligations.CacheAndHome : Prop :=
  ∀ (d : Dev) (l : CLine) (px : Nat) (m : CohMsg) (e : DirEnt) (req self home pm key : Nat) (send : Dev → CohMsg → Dev) (inst : CLine),
    self = selfM d → home = (homeM d l.loc).getD self → pm = l.pois.foldl (fun a g => a + 2 ^ g) 0 →
    send = (fun d m => cohSend d l.chase l.party l.pva px { m with srcm := self, line := l.key }) →
    inst = { l with data := m.data, pois := (upTo 4).filter fun g => bit m.pmask g } →
    (m.msg = .inv → l.st = .s → l.window = false → cacheRx d l px m = send (d.dropLine l.key) { msg := .iack, reqm := m.reqm, dest := m.reqm }) ∧
    (m.msg = .fwds → l.st = .m → cacheRx d l px m = send (d.setLine { l with st := .o, dirty := true })
      { msg := .data, reqm := m.reqm, dest := m.reqm, grant := 0, pmask := pm, data := l.data }) ∧
    (m.msg = .fwds → l.st = .e → cacheRx d l px m = send (d.setLine { l with st := .o, dirty := false })
      { msg := .data, reqm := m.reqm, dest := m.reqm, grant := 0, pmask := pm, data := l.data }) ∧
    (m.msg = .fwdm → (l.st = .e ∨ l.st = .m ∨ l.st = .o) → cacheRx d l px m = send (d.dropLine l.key)
      { msg := .data, reqm := m.reqm, dest := m.reqm, grant := 2, ackcnt := m.ackcnt, pmask := pm, data := l.data }) ∧
    (m.msg = .data → l.st = .isD → m.grant ≤ 1 → cacheRx d l px m =
      (send ((d.setLine { inst with st := if m.grant = 0 then .s else .e }).count .cCachefill (dPX px))
        { msg := .done, reqm := self, dest := home }).event (.wake l.key)) ∧
    (m.msg = .data → l.st = .imAD → m.grant = 2 → l.acks = m.ackcnt → cacheRx d l px m =
      (send ((d.count .cCachefill (dPX px)).setLine { inst with st := .m, acks := 0, need := none }) { msg := .done, reqm := self, dest := home }).event
        (.wake l.key)) ∧
    (m.msg = .iack → l.st = .imA → l.need = some (l.acks + 1) → cacheRx d l px m =
      (send (d.setLine { l with st := .m, acks := 0, need := none }) { msg := .done, reqm := self, dest := home }).event (.wake l.key)) ∧
    (m.msg = .pack → (l.st = .miA ∨ l.st = .oiA ∨ l.st = .eiA ∨ l.st = .siA ∨ l.st = .iiA) →
      cacheRx d l px m = (d.dropLine l.key).event (.wake l.key)) ∧
    (m.msg = .grant → l.st ≠ .smAD → l.st ≠ .omAD → cacheRx d l px m = cohErr d px m ∧ (cohErr d px m).pool = d.pool) ∧
    (e.taken = true → homeReq d e m = d.setDir { e with queue := e.queue ++ [m] }) ∧
    (m.msg = .done → d.dirEnt key = some e → e.busy = some (req, .x) → m.srcm = req → homeDone d key px m =
      homeNext (d.setDir { e with busy := none, cur := none, src := none, st := some .x, owner := req, ptrs := [none, none, none], ovf := false }) key) ∧
    (m.msg = .done → d.dirEnt key = some e → e.busy = some (req, .s) → m.srcm ≠ req → homeDone d key px m = cohErr d px m) ∧
    (e.ovf = true → ∀ x, x ∈ invList d e req ↔ (x < 32 ∧ memberValid d x = true ∧ x ≠ req ∧ ¬(e.st = some .o ∧ x = e.owner))) ∧
    (e.ovf = false → ∀ x, x ∈ invList d e req ↔ (some x ∈ e.ptrs ∧ x ≠ req))

/-! ### Press definitions: rows, reductions, tables, mixtures, plates, marks (R297, R319–R321, R347–R370, R386–R393, R434, R439) -/

/-- Format rows, reductions and mixtures (R297, R319, R320, R369): a row within its values is written, by the writers R297 names; a definition is
refused for its fields, for what is not the chase's, for cores it lacks, as BUSY when it is there already, and else joins the staged forme with
all it occupies; a delete is refused while a round or a step is live, and else marks the definition to leave at the next commit. -/
def Obligations.RowsReductionsMixtures : Prop :=
  ∀ (s : State) (b : Bas) (d d1 d2 : Dev) (chase row v rid moe : Nat) (q : RedDef) (mq : MoeDef) (r : Red) (m : Moe), d = heard s.dev b →
    (Runs s.dev (.fmtdescWrite b row v) b { opc := 0x0601, who := .c (bits v 11 0), dom := some (.chase (bits v 11 0)) } = true →
      (row < 16 → Leads (.fmtdescWrite b row v) s (d.reply b 0x0601 .unsupported)) ∧
      (16 ≤ row → row < 1024 → v < 2 ^ 128 → v &&& regRsv .pxFmtdesc = 0 → fmtValueOk v = true →
        ((d.rolesOf b).owner = true ∨ (fmtWriters d row v).all (d.rolesOf b).chases.contains = true) →
        (rowLoaded d row = true → Leads (.fmtdescWrite b row v) s (d.reply b 0x0601 .busy)) ∧
        (rowLoaded d row = false → Leads (.fmtdescWrite b row v) s ((d.setReg .pxFmtdesc row v).reply b 0x0601 .ok))) ∧
      (16 ≤ row → row < 1024 → v < 2 ^ 128 → v &&& regRsv .pxFmtdesc = 0 → fmtValueOk v = true → (d.rolesOf b).owner = false →
        (fmtWriters d row v).all (d.rolesOf b).chases.contains = false → Leads (.fmtdescWrite b row v) s (d.reply b 0x0601 .denied))) ∧
    (Runs s.dev (.redDefine b chase q) b (chaseCmd 0x0602 chase) = true →
      (redUnsupported d chase q = true → Leads (.redDefine b chase q) s (d.reply b 0x0602 .unsupported)) ∧
      (redUnsupported d chase q = false → redDenied d chase q = true → Leads (.redDefine b chase q) s (d.reply b 0x0602 .denied)) ∧
      (redUnsupported d chase q = false → redDenied d chase q = false → Stages d chase d1 → redPlace chase q d1 = .ok d2 → Roomy d2 chase →
        d2.press.reds = d1.press.reds ++ [{ chase := chase, d := q, staged := true }] ∧
        (redBusy d chase q = true → Leads (.redDefine b chase q) s (d.reply b 0x0602 .busy)) ∧
        (redBusy d chase q = false → Leads (.redDefine b chase q) s (joined d2 b chase 0x0602)))) ∧
    (Runs s.dev (.redDelete b chase rid) b (chaseCmd 0x0603 chase) = true →
      ((d.press.reds.find? fun r => r.chase == chase && r.d.rid / 16 == rid / 16 && !r.leaving) = none →
        Leads (.redDelete b chase rid) s (d.reply b 0x0603 .unsupported 0x02 2)) ∧
      ((d.press.reds.find? fun r => r.chase == chase && r.d.rid / 16 == rid / 16 && !r.leaving) = some r →
        (r.rounds ≠ [] → Leads (.redDelete b chase rid) s (d.reply b 0x0603 .busy)) ∧
        (r.rounds = [] → Stages d chase d1 → d2 = ({ d1 with press := { d1.press with reds :=
            (d1.press.reds.filter fun r => !((r.chase == chase && r.d.rid / 16 == rid / 16 && !r.leaving) && r.staged)).map fun r =>
              if r.chase == chase && r.d.rid / 16 == rid / 16 && !r.leaving then { r with leaving := true } else r } } : Dev).modStaged chase
                (fun f => { f with chunks := f.chunks.filter fun e => e.rid / 16 != rid / 16 }) →
          Roomy d2 chase → Leads (.redDelete b chase rid) s (joined d2 b chase 0x0603)))) ∧
    (Runs s.dev (.moeDefine b chase mq) b (chaseCmd 0x0609 chase) = true →
      (moeUnsupported d mq = true → Leads (.moeDefine b chase mq) s (d.reply b 0x0609 .unsupported)) ∧
      (moeUnsupported d mq = false → moeDenied d chase mq = true → Leads (.moeDefine b chase mq) s (d.reply b 0x0609 .denied)) ∧
      (moeUnsupported d mq = false → moeDenied d chase mq = false → Stages d chase d1 →
        ((pickDisp d1 chase (d1.stagedF chase) mq.ndisp []).length < mq.ndisp → Leads (.moeDefine b chase mq) s
          (d.reply b 0x0609 .noFit 0x01 3 [mq.ndisp - (pickDisp d1 chase (d1.stagedF chase) mq.ndisp []).length])) ∧
        (moePlace chase mq d1 = .ok d2 → Roomy d2 chase →
          (d.press.moes.any (fun m => m.chase == chase && m.d.moe == mq.moe) = true → Leads (.moeDefine b chase mq) s (d.reply b 0x0609 .busy)) ∧
          (d.press.moes.any (fun m => m.chase == chase && m.d.moe == mq.moe) = false →
            Leads (.moeDefine b chase mq) s (joined d2 b chase 0x0609))))) ∧
    (Runs s.dev (.moeDelete b chase moe) b (chaseCmd 0x060A chase) = true →
      ((d.press.moes.find? fun m => m.chase == chase && m.d.moe == moe && !m.leaving) = none →
        Leads (.moeDelete b chase moe) s (d.reply b 0x060A .unsupported 0x02 2)) ∧
      ((d.press.moes.find? fun m => m.chase == chase && m.d.moe == moe && !m.leaving) = some m →
        (m.reqs ≠ [] → Leads (.moeDelete b chase moe) s (d.reply b 0x060A .busy)) ∧
        (m.reqs = [] → Stages d chase d1 → d2 = ({ d1 with press := { d1.press with moes :=
            (d1.press.moes.filter fun m => !((m.chase == chase && m.d.moe == moe && !m.leaving) && m.staged)).map fun m =>
              if m.chase == chase && m.d.moe == moe && !m.leaving then { m with leaving := true } else m } } : Dev).modStaged chase
                (fun f => { f with experts := f.experts.filter fun e => e.moe != moe }) →
          Roomy d2 chase → Leads (.moeDelete b chase moe) s (joined d2 b chase 0x060A))))

/-- Embedding tables (R347, R348, R363, R365, R368): a table is refused for its fields, for what is not the chase's, as BUSY when it is there, and
else joins the staged forme with its shards; it cannot go while a step is open or a version drains; a new version is accepted within TABLE regions
while none drains; the optimiser's LR and EPS take effect when the next step opens; boundaries move with the next commit. -/
def Obligations.Tables : Prop :=
  ∀ (s : State) (b : Bas) (d d1 d2 : Dev) (chase table newbase lr eps : Nat) (firsts : List Nat) (q : EmbDef) (e : Emb), d = heard s.dev b →
    (Runs s.dev (.embDefine b chase q) b (chaseCmd 0x0604 chase) = true →
      (embUnsupported d chase q = true → Leads (.embDefine b chase q) s (d.reply b 0x0604 .unsupported)) ∧
      (embUnsupported d chase q = false → embDenied d chase q = true → Leads (.embDefine b chase q) s (d.reply b 0x0604 .denied)) ∧
      (embUnsupported d chase q = false → embDenied d chase q = false → Stages d chase d1 → embPlace chase q d1 = .ok d2 → Roomy d2 chase →
        d2.press.embs = d1.press.embs ++ [{ chase := chase, d := q, staged := true, curBase := q.base, lr := q.lr, eps := q.eps, nlr := q.lr, neps := q.eps }] ∧
        (d.press.embs.any (fun e => e.chase == chase && e.d.table == q.table) = true → Leads (.embDefine b chase q) s (d.reply b 0x0604 .busy)) ∧
        (d.press.embs.any (fun e => e.chase == chase && e.d.table == q.table) = false →
          Leads (.embDefine b chase q) s (joined d2 b chase 0x0604)))) ∧
    (Runs s.dev (.embDelete b chase table) b (chaseCmd 0x0605 chase) = true →
      (d.press.embs.find? fun e => e.chase == chase && e.d.table == table && !e.leaving) = some e →
      ((e.ust ≠ .idle ∨ e.drnLive = true) → Leads (.embDelete b chase table) s (d.reply b 0x0605 .busy)) ∧
      (e.ust = .idle → e.drnLive = false → Stages d chase d1 → d2 = ({ d1 with press := { d1.press with embs :=
            (d1.press.embs.filter fun e => !((e.chase == chase && e.d.table == table && !e.leaving) && e.staged)).map fun e =>
              if e.chase == chase && e.d.table == table && !e.leaving then { e with leaving := true } else e } } : Dev).modStaged chase
                (fun f => { f with shards := f.shards.filter fun s => s.table != table }) →
          Roomy d2 chase → Leads (.embDelete b chase table) s (joined d2 b chase 0x0605))) ∧
    (Runs s.dev (.embVersion b chase table newbase) b (chaseCmd 0x0606 chase) = true →
      (d.emb chase table = none → Leads (.embVersion b chase table newbase) s (d.reply b 0x0606 .unsupported 0x02 2)) ∧
      (d.emb chase table = some e → e.d.home ≠ 1 → newbase % 4096 = 0 →
        (covered (d.comp chase).curF.req isTable newbase (e.d.nrows * e.d.stride (fmtRow d e.d.rrow)) = false →
          Leads (.embVersion b chase table newbase) s (d.reply b 0x0606 .unsupported)) ∧
        (covered (d.comp chase).curF.req isTable newbase (e.d.nrows * e.d.stride (fmtRow d e.d.rrow)) = true →
          (e.drnLive = true → Leads (.embVersion b chase table newbase) s (d.reply b 0x0606 .busy)) ∧
          (e.drnLive = false → Leads (.embVersion b chase table newbase) s
            ((d.modEmb chase table fun e => { e with newBase := some newbase }).reply b 0x0606 .ok))))) ∧
    (Runs s.dev (.embSetopt b chase table lr eps) b (chaseCmd 0x0607 chase) = true → d.emb chase table = some e → e.d.home ≠ 1 →
      lr < 2 ^ 32 → eps < 2 ^ 32 → Leads (.embSetopt b chase table lr eps) s
        ((d.modEmb chase table fun e => { e with nlr := lr, neps := eps }).reply b 0x0607 .ok)) ∧
    (Runs s.dev (.embReshard b chase table firsts) b (chaseCmd 0x0608 chase) = true →
      (d.press.embs.find? fun e => e.chase == chase && e.d.table == table && !e.leaving) = some e → e.d.home ≠ 1 →
      (firsts.head? ≠ some 0 → Leads (.embReshard b chase table firsts) s (d.reply b 0x0608 .unsupported)) ∧
      (firsts.length = e.d.nshard → firsts.head? = some 0 → rising firsts = true → firsts.any (fun x => decide (e.d.nrows ≤ x)) = false →
        Stages d chase d1 → d2 = (d1.modStaged chase fun f => { f with shards := (f.shards.filter fun s => s.table != table) ++
            ((f.shards.filter fun s => s.table == table).zip firsts).map fun p => { p.1 with first := p.2 } }) →
          Roomy d2 chase → Leads (.embReshard b chase table firsts) s (joined d2 b chase 0x0608)))

/-- Plates and marks (R388, R389, R391–R393, R434, R439): pieces of an image come in ascending order, and the last one has it checked and loaded; a
loaded plate with no binding and no instance goes; a binding puts an instance on a core for each ring; a mark of the chase is set up or cleared; a
lost EID's quoins break. -/
def Obligations.PlatesAndMarks : Prop :=
  ∀ (s : State) (b : Bas) (d d1 d2 : Dev) (chase off plate party ring mark type word link eid size : Nat) (plock : Bool) (data img : List Byte)
    (rings : List RingDef) (p : PImage) (bs : List PBind), d = heard s.dev b →
    (Runs s.dev (.plateLoad b chase off data) b (chaseCmd 0x060B chase) = true →
      img = ((d.press.plates.loads.find? fun l => l.chase == chase).map fun l => l.data).getD [] →
      (bits off 30 0 ≠ 0 → bits off 30 0 ≠ img.length → Leads (.plateLoad b chase off data) s (d.reply b 0x060B .unsupported)) ∧
      (off = 0 → ∃ e : Dev, e = { d with press := { d.press with plates := { d.press.plates with
          loads := d.press.plates.loads.filter (fun l => l.chase != chase) ++ [{ chase := chase, data := data }] } } } ∧
        Leads (.plateLoad b chase off data) s (e.reply b 0x060B .ok)) ∧
      (off = img.length → off ≠ 0 → off < 2 ^ 31 → ∃ e : Dev, e = { d with press := { d.press with plates := { d.press.plates with
          loads := d.press.plates.loads.filter (fun l => l.chase != chase) ++ [{ chase := chase, data := img ++ data }] } } } ∧
        Leads (.plateLoad b chase off data) s (e.reply b 0x060B .ok)) ∧
      (off = 2 ^ 31 + img.length → img.length < 2 ^ 31 → ∃ e : Dev, e = { d with press := { d.press with plates := { d.press.plates with
          loads := d.press.plates.loads.filter (fun l => l.chase != chase) } } } ∧
        (∀ r i, loadCheck e false chase (img ++ data) = some (r, i) →
          Leads (.plateLoad b chase off data) s (e.reply b 0x060B .badPlate 0x04 (r * 256 + i))) ∧
        (loadCheck e false chase (img ++ data) = none → e.image chase (readImage chase (img ++ data)).id = none →
          sumNat (e.press.plates.images.map fun i => i.bytes.length) + (img ++ data).length ≤ 1073741824 → ∃ e' : Dev,
            e' = { e with press := { e.press with plates := { e.press.plates with
              images := e.press.plates.images ++ [readImage chase (img ++ data)] } } } ∧
            Leads (.plateLoad b chase off data) s (e'.reply b 0x060B .ok)))) ∧
    (Runs s.dev (.plateUnload b chase plate) b (chaseCmd 0x060C chase) = true →
      (d.image chase plate = none → Leads (.plateUnload b chase plate) s (d.reply b 0x060C .unsupported 0x02 2)) ∧
      (d.image chase plate = some p → (d.press.plates.binds.any fun x => x.chase == chase && x.plate == plate) = true →
        Leads (.plateUnload b chase plate) s (d.reply b 0x060C .busy)) ∧
      (d.image chase plate = some p → (d.press.plates.binds.any fun x => x.chase == chase && x.plate == plate) = false →
        (d.press.plates.insts.any fun i => i.chase == chase && i.plate == plate) = false → ∃ e : Dev, e = { d with press := { d.press with
          plates := { d.press.plates with images := d.press.plates.images.filter (fun p => !(p.chase == chase && p.id == plate)) } } } ∧
        Leads (.plateUnload b chase plate) s (e.reply b 0x060C .ok))) ∧
    (Runs s.dev (.plateBind b chase party plate rings) b (chaseCmd 0x060D chase) = true → d.image chase plate = some p → p.seqSize = some size →
      rings ≠ [] → rings.length ≤ 16 → rings.all ringOk = true → (rings.map fun r => r.ring).eraseDups.length = rings.length →
      party < (nextReq d chase).parties →
      (rings.any (ringDenied d chase party size) = true → Leads (.plateBind b chase party plate rings) s (d.reply b 0x060D .denied)) ∧
      (rings.any (ringDenied d chase party size) = false → imageRowsOk d p = true → Stages d chase d1 →
        platePlace chase party plate p rings d1 = .ok d2 → Roomy d2 chase →
        ((rings.any fun r => ringTaken d chase r.ring) = true → Leads (.plateBind b chase party plate rings) s (d.reply b 0x060D .busy)) ∧
        ((rings.any fun r => ringTaken d chase r.ring) = false →
          Leads (.plateBind b chase party plate rings) s (joined d2 b chase 0x060D)))) ∧
    (Runs s.dev (.plateUnbind b chase plate ring) b (chaseCmd 0x060E chase) = true →
      (d.press.plates.binds.any fun x => x.chase == chase && x.plate == plate && !x.leaving && x.rings.any fun r => r.ring == ring) = true →
      Stages d chase d1 →
      bs = ((d1.press.plates.binds.filter fun x => !((x.chase == chase && x.plate == plate && !x.leaving && x.rings.any fun r => r.ring == ring)
          && x.staged)).map fun x => if x.chase == chase && x.plate == plate && !x.leaving && x.rings.any fun r => r.ring == ring then
            { x with leaving := true } else x) →
      d2 = { d1 with press := { d1.press with plates := { d1.press.plates with binds := bs } } } → Roomy d2 chase →
      Leads (.plateUnbind b chase plate ring) s (joined d2 b chase 0x060E)) ∧
    (Runs s.dev (.markSet b chase mark type plock party word link) b (chaseCmd 0x0701 chase 4) = true →
      (∀ e, setMark d chase mark type plock party word link = .ok e →
        Leads (.markSet b chase mark type plock party word link) s (e.reply b 0x0701 .ok)) ∧
      (∀ st r, setMark d chase mark type plock party word link = .error (st, r) → st ≠ .noFit →
        Leads (.markSet b chase mark type plock party word link) s (d.reply b 0x0701 st)) ∧
      (∀ r, setMark d chase mark type plock party word link = .error (.noFit, r) →
        Leads (.markSet b chase mark type plock party word link) s (d.reply b 0x0701 .noFit 0x01 r [1]))) ∧
    (Runs s.dev (.markClear b mark) b { chaseCmd 0x0702 (s.dev.mark mark).chase with chase := none } = true →
      (allocated d (d.mark mark).chase mark = true → Leads (.markClear b mark) s ((clearMark d mark).reply b 0x0702 .ok)) ∧
      (allocated d (d.mark mark).chase mark = false → Leads (.markClear b mark) s (d.reply b 0x0702 .denied))) ∧
    (Runs s.dev (.markEplost b eid) b (devCmd 0x0703) = true → Leads (.markEplost b eid) s ((eidLost d eid 1 none).reply b 0x0703 .ok))

/-! ### The press at work (R43, R58, R142, R325–R400) -/

/-- REDUCE_CONTRIB, CARRY and REDUCE_RESULT at their ingress, and a round's time-out (R325, R330, R331, R334, R341): the first failing check answers;
a missing fast-path entry parks the request; one for another EID passes on; a chunk that is not mapped, or a definition that is not there, is
UNSUPPORTED; a chunk whose press die does not serve fails the round; else the whole train goes to the chunk's core. A result train comes to its
child switch. A round still current, not failed and short of its second target when its time is up fails. Contributions at their core (R325, R326,
R331): a format other than the definition's is counted and UNSUPPORTED, and a CARRY of one fails its round; a source that is no contributor, or
does not own its chunk, is DENIED; a dead definition answers REDFAIL; a round that is neither current nor next OVERRUN, the next one BUSY while it
has no buffer. -/
def Obligations.ReductionRoundsAndChecks : Prop :=
  (∀ (s : State) (x y : Rx) (i : Instr) (d e e2 : Dev) (id chase rid c core : Nat) (cont : Bool) (k : Pkt) (ks : List Pkt) (fe : FastEnt)
    (en : ChunkEnt) (r : Red) (rr : RedRound),
    ((i = .reduceContrib x ∧ y = asOp opREDUCE_CONTRIB x) ∨ (i = .carry x ∧ y = asOp opCARRY x) →
      cont = (roundOpen s.dev y.pkt || continues s.dev y.pkt) → rid = wbits y.pkt.w2 63 32 → c = wbits y.pkt.w2 31 8 →
      fe = { die := portDie y.port, chase := y.pkt.chase, epoch := y.pkt.epoch, kind := 1, key := rid / 16 * 2 ^ 24 + c } →
      (preChecks s.dev y cont = .error e → Leads i s e) ∧
      (preChecks s.dev y cont = .ok () → isLocal s.dev y.pkt = true → fastHas s.dev fe = false → Leads i s (park s.dev y fe)) ∧
      (preChecks s.dev y cont = .ok () → (isLocal s.dev y.pkt = false ∨ fastHas s.dev fe = true) → ingress s.dev y cont = .ok (d, id, k) →
        (isLocal d k = false → Leads i s (forwardReq d id k (some (y.port, y.vl)))) ∧
        (isLocal d k = true → d.imp.badEnt.contains (k.chase, 2, rid / 16 * 2 ^ 24 + c) = true → Leads i s (answer d id .targetLost)) ∧
        (isLocal d k = true → d.imp.badEnt.contains (k.chase, 2, rid / 16 * 2 ^ 24 + c) = false →
          ((wbits k.w2 3 0 ≠ 0 ∨ wbits k.w3 43 32 ≠ 0) → Leads i s (answer d id .unsupported)) ∧
          (wbits k.w2 3 0 = 0 → wbits k.w3 43 32 = 0 → (k.opc = opCARRY → wbits k.w3 63 44 = 0) →
            (chunkEnt d k.chase k.epoch rid c = none → Leads i s (answer d id .unsupported)) ∧
            (chunkEnt d k.chase k.epoch rid c = some en →
              (trainStep d { y with pkt := k } = .ok (e, none) → Leads i s e) ∧
              (trainStep d { y with pkt := k } = .ok (e, some ks) → e.red k.chase rid = some r →
                (coreServes e en.at_ [redPlate r.d] = false → Leads i s (redFail (answer (openRound e k.chase rid (rid % 16) k) id .redFail)
                  k.chase rid (rid % 16) 2)) ∧
                (coreServes e en.at_ [redPlate r.d] = true → filterCheck e id (.core en.at_) = .ok e2 →
                  Leads i s (redTrain e2 id en.at_ ks)))))))) ∧
    (y = asOp opREDUCE_RESULT x → rid = wbits y.pkt.w2 63 32 →
      core = ((chunkEnt d y.pkt.chase y.pkt.epoch rid (wbits y.pkt.w2 31 8)).map fun e => e.at_).getD 0 →
      (takeDelivery s.dev y = .error d → Leads (.reduceResult x) s d) ∧
      (takeDelivery s.dev y = .ok (d, none) → Leads (.reduceResult x) s d) ∧
      (takeDelivery s.dev y = .ok (d, some id) →
        (trainStep d y = .ok (e, none) → Leads (.reduceResult x) s e) ∧
        (trainStep d y = .ok (e, some ks) → filterCheck e id (.core core) = .ok e2 → Leads (.reduceResult x) s (resultTrain e2 id core ks)))) ∧
    (s.dev.red chase rid = some r → r.round (rid % 16) = some rr →
      (rr.drain = false → rr.failed = 0 → (s.dev.mark (r.d.countMark rr.rnd)).count < r.d.t2 →
        Leads (.roundTimeout chase rid) s (redNext (redFail s.dev chase rid (rid % 16) 1) chase rid)) ∧
      ((rr.drain = true ∨ rr.failed ≠ 0 ∨ r.d.t2 ≤ (s.dev.mark (r.d.countMark rr.rnd)).count) → Leads (.roundTimeout chase rid) s s.dev))) ∧
  (∀ (d : Dev) (id core rid n : Nat) (k : Pkt) (r : Red) (inp : Input), rid = wbits k.w2 63 32 → n = rid % 16 → k.opc = opREDUCE_CONTRIB →
    (d.red k.chase rid = none → redTrain d id core [k] = answer d id .unsupported) ∧
    (d.red k.chase rid = some r →
      (wbits k.w2 7 4 ≠ (fmtRow d r.d.ifmt).code → redTrain d id core [k] = answer (d.count .cFmtmism (coreDie core)) id .unsupported) ∧
      (wbits k.w2 7 4 = (fmtRow d r.d.ifmt).code →
        ((r.d.lranks.any fun l => l == (wbits k.w3 63 44, k.src)) = false → redTrain d id core [k] = answer d id .denied) ∧
        (r.d.op = 1 → wbits k.w3 63 44 ≠ r.d.owner (wbits k.w2 31 8) → redTrain d id core [k] = answer d id .denied) ∧
        ((r.d.lranks.any fun l => l == (wbits k.w3 63 44, k.src)) = true → r.d.op ≠ 1 → r.d.sealv ≠ 1 →
          (readInput d r.d (wbits k.w2 31 8) false [(wbits k.w3 31 0, k.data)] = none → redTrain d id core [k] = answer d id .unsupported) ∧
          (readInput d r.d (wbits k.w2 31 8) false [(wbits k.w3 31 0, k.data)] = some inp →
            (r.dead = true → redTrain d id core [k] = answer d id .redFail) ∧
            (r.dead = false → n ≠ r.cur → n ≠ (r.cur + 1) % 16 →
              redTrain d id core [k] = answer (d.count .cRedoverrun (coreDie core)) id .overrun) ∧
            (r.dead = false → n ≠ r.cur → n = (r.cur + 1) % 16 → r.d.bufs ≠ 2 →
              redTrain d id core [k] = answer (d.count .cRedbusy (coreDie core)) id .busy))))))

/-- GATHER, SCATTER_ADD and what time does to a table (R43, R352, R356, R361, R364, R365, R367): the first failing check answers; a table not here is
UNSUPPORTED, one with another home passes on; its checks pass and the whole train is gathered, or added at its core. UTMO fails an open step. A
version accepted becomes current while no step is open, and the old one drains. A shard's load window is latched. -/
def Obligations.TablesAtWork : Prop :=
  ∀ (s : State) (x y : Rx) (i : Instr) (d e e2 : Dev) (id chase table base core b : Nat) (k : Pkt) (ks : List Pkt) (fe : FastEnt) (m m2 : Emb),
    ((i = .gather x ∧ y = asOp opGATHER x) ∨ (i = .scatterAdd x ∧ y = asOp opSCATTER_ADD x) → table = wbits y.pkt.w2 63 48 →
      fe = { die := portDie y.port, chase := y.pkt.chase, epoch := y.pkt.epoch, kind := 2, key := table } →
      (preChecks s.dev y (continues s.dev y.pkt) = .error e → Leads i s e) ∧
      (preChecks s.dev y (continues s.dev y.pkt) = .ok () → isLocal s.dev y.pkt = true → fastHas s.dev fe = false →
        Leads i s (park s.dev y fe)) ∧
      (preChecks s.dev y (continues s.dev y.pkt) = .ok () → (isLocal s.dev y.pkt = false ∨ fastHas s.dev fe = true) →
        ingress s.dev y (continues s.dev y.pkt) = .ok (d, id, k) →
        (isLocal d k = false → Leads i s (forwardReq d id k (some (y.port, y.vl)))) ∧
        (isLocal d k = true → d.imp.badEnt.contains (k.chase, 3, table) = true → Leads i s (answer d id .targetLost)) ∧
        (isLocal d k = true → d.imp.badEnt.contains (k.chase, 3, table) = false →
          ((11 < wbits k.w2 43 40 ∨ wbits k.w2 35 32 ≠ 0 ∨ wbits k.w3 7 0 ≠ 0) → Leads i s (answer d id .unsupported)) ∧
          (wbits k.w2 43 40 ≤ 11 → wbits k.w2 35 32 = 0 → wbits k.w3 7 0 = 0 → (k.opc = opSCATTER_ADD → wbits k.w2 39 36 = 0 ∧ k.w3 = 0) →
            (d.emb k.chase table = none → Leads i s (answer d id .unsupported)) ∧
            (d.emb k.chase table = some m →
              (m.d.home = 1 → Leads i s (forwardTo d id m.d.homesw k)) ∧
              (m.d.home ≠ 1 → embChecks d id m k (continues s.dev y.pkt) = .error e → Leads i s e) ∧
              (m.d.home ≠ 1 → embChecks d id m k (continues s.dev y.pkt) = .ok base →
                (trainStep d { y with pkt := k } = .ok (e, none) → Leads i s e) ∧
                (trainStep d { y with pkt := k } = .ok (e, some ks) → k.opc = opGATHER →
                  Leads i s (gatherTrain e id (portDie y.port) m base ks)) ∧
                (trainStep d { y with pkt := k } = .ok (e, some ks) → k.opc ≠ opGATHER →
                  core = (pickBy (distinct ((shardsOf e k.chase k.epoch table).map fun e => e.core)) (Config.leadHash k.src k.tag)).getD 0 →
                  (coreServes e core [0x0011] = false → Leads i s (answer (stepFail e k.chase table 2) id .redFail)) ∧
                  (coreServes e core [0x0011] = true → filterCheck e id (.core core) = .ok e2 →
                    Leads i s (scatterTrain e2 id (portDie y.port) m core ks)))))))) ) ∧
    (s.dev.emb chase table = some m →
      (m.ust = .open_ → e = stepFail s.dev chase table 1 → e.emb chase table = some m2 →
        ((s.dev.mark m.d.umark).count < m.d.uexpect → m2 = { m with ust := .failed, failwhy := 1, shards := [] }) ∧
        (m2.ust = .failed → Leads (.updateStepTimeout chase table) s (stepFailEnd e m2)) ∧
        (m2.ust ≠ .failed → Leads (.updateStepTimeout chase table) s e)) ∧
      (m.ust = .failed → Leads (.updateStepTimeout chase table) s (stepFailEnd s.dev m)) ∧
      ((m.ust = .idle ∨ m.ust = .closing) → Leads (.updateStepTimeout chase table) s s.dev) ∧
      (m.newBase = some b → m.ust = .idle → Leads (.versionSwitch chase table) s (s.dev.modEmb chase table fun e =>
        { e with cur := (e.cur + 1) % 16, curBase := b, newBase := none, drnLive := true, drn := e.cur, drnBase := e.curBase, drnClosed := false,
                 drnBound := bits (s.dev.reg .impChaseCfg chase) 31 22, drnHold := bits (s.dev.reg .impChaseCfg chase) 21 12 })) ∧
      ((m.newBase = none ∨ m.ust ≠ .idle) → Leads (.versionSwitch chase table) s s.dev) ∧
      (Does (.shardLoadWindow chase table) s (s.dev.modEmb chase table fun e => { e with latched := e.load, load := [] })))

/-- DISPATCH and COMBINE (R43, R142, R371–R374): a request's first failing check answers; a mixture not here is UNSUPPORTED, and so is a token format
not its own, which is counted; the whole train goes to its dispatch core, while that serves. A delivery for another EID passes on, one for this
switch is a stray. DBATCH after its first choice a batch is sent; DLINE ends or moves the choices still awaited. -/
def Obligations.MixturesAtWork : Prop :=
  ∀ (s : State) (x y : Rx) (i : Instr) (d e e2 : Dev) (id chase moe step expert core req n : Nat) (cont : Bool) (k : Pkt) (ks : List Pkt)
    (fe : FastEnt) (m : Moe) (b : MoeBatch) (r : MoeReq) (t : Token) (ch : Choice),
    ((i = .dispatch x ∧ y = asOp opDISPATCH x) ∨ (i = .combine x ∧ y = asOp opCOMBINE x) →
      (y.pkt.dlv = true →
        (takeDelivery s.dev y = .error d → Leads i s d) ∧ (takeDelivery s.dev y = .ok (d, none) → Leads i s d) ∧
        (takeDelivery s.dev y = .ok (d, some id) → trainStep d y = .ok (e, some ks) → Leads i s (answer e id .unsupported))) ∧
      (y.pkt.dlv = false → cont = (continues s.dev y.pkt || (y.pkt.opc == opCOMBINE && combines s.dev y.pkt)) → moe = wbits y.pkt.w2 63 48 →
        fe = { die := portDie y.port, chase := y.pkt.chase, epoch := y.pkt.epoch, kind := 2, key := 2 ^ 16 + moe } →
        (preChecks s.dev y cont = .error e → Leads i s e) ∧
        (preChecks s.dev y cont = .ok () → isLocal s.dev y.pkt = true → fastHas s.dev fe = false → Leads i s (park s.dev y fe)) ∧
        (preChecks s.dev y cont = .ok () → (isLocal s.dev y.pkt = false ∨ fastHas s.dev fe = true) → ingress s.dev y cont = .ok (d, id, k) →
          (isLocal d k = false → Leads i s (forwardReq d id k (some (y.port, y.vl)))) ∧
          (isLocal d k = true → d.imp.badEnt.contains (k.chase, 4, moe) = true → Leads i s (answer d id .targetLost)) ∧
          (isLocal d k = true → d.imp.badEnt.contains (k.chase, 4, moe) = false →
            ((11 < wbits k.w2 39 36 ∨ wbits k.w2 35 32 ≠ 0) → Leads i s (answer d id .unsupported)) ∧
            (wbits k.w2 39 36 ≤ 11 → wbits k.w2 35 32 = 0 → (k.opc = opDISPATCH → wbits k.w3 31 16 = 0) →
              (d.moe k.chase moe = none → Leads i s (answer d id .unsupported)) ∧
              (d.moe k.chase moe = some m →
                ((fmtRow d m.d.trow).code ≠ wbits k.w2 39 36 → Leads i s (answer (d.count .cFmtmism
                  (coreDie ((pickBy m.disp (Config.leadHash k.src k.tag)).getD 0))) id .unsupported)) ∧
                ((fmtRow d m.d.trow).code = wbits k.w2 39 36 →
                  (trainStep d { y with pkt := k } = .ok (e, none) → Leads i s e) ∧
                  (trainStep d { y with pkt := k } = .ok (e, some ks) →
                    (core = if k.opc = opDISPATCH then (pickBy m.disp (Config.leadHash k.src k.tag)).getD 0
                        else bits (leNat ((ks.flatMap fun k => k.data).take 8)) 63 56) →
                    (m.disp.contains core = false → Leads i s (answer e id .unsupported)) ∧
                    (m.disp.contains core = true → coreServes e core [0x0018] = false → Leads i s (answer e id .targetLost)) ∧
                    (m.disp.contains core = true → coreServes e core [0x0018] = true → filterCheck e id (.core core) = .ok e2 →
                      (k.opc = opDISPATCH → Leads i s (dispatchTrain e2 id core ks)) ∧
                      (k.opc ≠ opDISPATCH → Leads i s (combineTrain e2 id core ks)))))))))) ) ∧
    (s.dev.moe chase moe = some m →
      ((m.batches.find? fun b => b.step == step && b.expert == expert && b.core == core) = some b →
        Leads (.moeBatchTimer chase moe step expert core) s (sendBatch s.dev chase moe b)) ∧
      ((m.batches.find? fun b => b.step == step && b.expert == expert && b.core == core) = none →
        Leads (.moeBatchTimer chase moe step expert core) s s.dev) ∧
      ((m.reqs.find? fun r => r.id == req) = none → Leads (.combineDeadline chase moe req) s s.dev) ∧
      ((m.reqs.find? fun r => r.id == req) = some r → r.toks = [t] → t.choices = [ch] →
        e = s.dev.modReq chase moe req (fun r => { r with extra := true }) →
        (ch.open_ = false → Leads (.combineDeadline chase moe req) s e) ∧
        (ch.open_ = true → (m.d.dlpol ≠ 1 ∨ r.extra = true ∨ ch.late = true ∨ ch.fb = true) →
          Leads (.combineDeadline chase moe req) s (endChoice e chase moe req 0 0 .omitted)) ∧
        (ch.open_ = true → m.d.dlpol = 1 → r.extra = false → ch.late = false → ch.fb = false →
          n = ((m.d.experts[ch.expert]?).map fun e => e.fbexp).getD 0xFFF →
          (n = 0xFFF → Leads (.combineDeadline chase moe req) s (endChoice e chase moe req 0 0 .omitted)) ∧
          (n ≠ 0xFFF → Leads (.combineDeadline chase moe req) s (batchChoice (e.modReq chase moe req fun r => r.modTok 0 fun t =>
            t.modChoice 0 fun x => { x with at_ := n, late := true }) chase moe r.step n r.core (req, 0, 0))))))

/-- SCAN (R43, R377, R379, R380): the first failing check answers; one for another EID passes on; a request outside its rules is UNSUPPORTED; input
that is not RECORDS, output that is not the party's and a forme without the service are DENIED; no core that serves is TARGETLOST; else its input
is read on its core. A scan still running at its time is answered OK with RVAL all ones; its header is written once its records are. -/
def Obligations.Scans : Prop :=
  ∀ (s : State) (x : Rx) (d e f : Dev) (id core sid svc : Nat) (k : Pkt) (o : ScanOps) (fm : Forme) (v w : Svc) (fe : FastEnt),
    (fe = { die := portDie x.port, chase := x.pkt.chase, epoch := x.pkt.epoch, kind := 0, key := wbits x.pkt.w2 63 8 / folioB } →
      (preChecks s.dev (asOp opSCAN x) false = .error e → Leads (.scan x) s e) ∧
      (preChecks s.dev (asOp opSCAN x) false = .ok () → isLocal s.dev x.pkt = true → fastHas s.dev fe = false →
        Leads (.scan x) s (park s.dev (asOp opSCAN x) fe)) ∧
      (preChecks s.dev (asOp opSCAN x) false = .ok () → (isLocal s.dev x.pkt = false ∨ fastHas s.dev fe = true) →
        ingress s.dev (asOp opSCAN x) false = .ok (d, id, k) → o = scanOps k → fm = (formeOf (d.comp k.chase) k.epoch).getD {} →
        core = (pickBy fm.cores (Config.leadHash k.src k.tag)).getD 0 →
        (isLocal d k = false → Leads (.scan x) s (forwardReq d id k (some (x.port, x.vl)))) ∧
        (isLocal d k = true → scanOk k = false → Leads (.scan x) s (answer d id .unsupported)) ∧
        (isLocal d k = true → scanOk k = true →
          (rangeAll d k.chase k.epoch o.inp (o.nrec * o.recsz) (fun f => f.use == 4) = false → Leads (.scan x) s (answer d id .denied)) ∧
          (rangeAll d k.chase k.epoch o.out o.outLen (ownOut k.party) = false → Leads (.scan x) s (answer d id .denied)) ∧
          (bit fm.req.services 3 = false → Leads (.scan x) s (answer d id .denied)) ∧
          (rangeAll d k.chase k.epoch o.inp (o.nrec * o.recsz) (fun _ => true) = true →
            rangeAll d k.chase k.epoch o.inp (o.nrec * o.recsz) (fun f => f.use == 4) = true →
            ((folioAt d k.chase k.epoch o.inp).map fun f => f.use) = some 4 →
            rangeAll d k.chase k.epoch o.out o.outLen (ownOut k.party) = true → bit fm.req.services 3 = true → fm.cores ≠ [] →
            (coreServes d core [0x0020] = false → Leads (.scan x) s (answer d id .targetLost)) ∧
            (coreServes d core [0x0020] = true → filterCheck d id (.core core) = .ok e →
              newSvc e { kind := .scan, chase := k.chase, epoch := k.epoch, party := k.party, req := some id, die := portDie x.port, core := core,
                         cores := [core], k := k, stage := 1 } = (f, sid) → (scanRead f sid o).svc sid = some v →
              (v.left ≠ 0 → Leads (.scan x) s (scanRead f sid o)) ∧
              (v.left = 0 → Leads (.scan x) s (scanRows (scanRead f sid o) v))))))) ∧
    (s.dev.svc svc = some w → w.kind = .scan →
      e = s.dev.modSvc svc (fun s => { s with req := none }) →
      (w.req = none → Leads (.scanEarlyAnswer svc) s e) ∧
      (w.req = some id → Leads (.scanEarlyAnswer svc) s (answer e id .ok (2 ^ 48 - 1))) ∧
      (w.stage = 2 → w.left = 0 → Leads (.scanDone svc) s
        (svcAccess (s.dev.modSvc svc fun s => { s with stage := 3 }) svc 0 (scanOps w.k).out 32 .store w.hdr)) ∧
      ((w.stage ≠ 2 ∨ w.left ≠ 0) → Leads (.scanDone svc) s s.dev))

/-- Plates (R381, R382, R396, R398, R399): a station of a live instance fires by its type, or waits; an instance in FAULT fires nothing. A piece that
has ended is taken, or its node goes on. A DEADLINE whose item is still held gives a timeout token. A fault is counted and told and the instance
gives up all it holds; a standard instance's ends what it ran. A packet that waited its time for room is answered RETRY, or discarded. -/
def Obligations.PlatesAtWork : Prop :=
  ∀ (s : State) (x : Rx) (d e : Dev) (core slot node item px id : Nat) (k : Pkt) (i i2 : PInst) (p : PImage) (f : Fired) (q : PPiece) (t : Tok)
    (g : Grp) (z : StdInst),
    ((s.dev.inst core slot = none ∨ (s.dev.inst core slot = some i ∧ i.fault = true)) → Leads (.stationFire core slot node) s s.dev) ∧
    (s.dev.inst core slot = some i → i.fault = false → s.dev.image i.chase i.plate = some p →
      (p.ty node = 0x02 → Leads (.stationFire core slot node) s (fireSeq s.dev i p node)) ∧
      (p.ty node = 0x11 → Leads (.stationFire core slot node) s (fireFetch s.dev i p node)) ∧
      (p.ty node = 0x12 → Leads (.stationFire core slot node) s (fireStore s.dev i p node)) ∧
      (p.ty node = 0x15 → Leads (.stationFire core slot node) s (fireCompress s.dev i p node)) ∧
      (p.ty node = 0x16 → Leads (.stationFire core slot node) s (fireExpand s.dev i p node)) ∧
      (p.ty node = 0x17 → Leads (.stationFire core slot node) s (fireMark s.dev i p node)) ∧
      (p.ty node ∉ [0x02, 0x11, 0x12, 0x15, 0x16, 0x17] →
        (fireTokens s.dev i p node = some f → Leads (.stationFire core slot node) s (applyFired s.dev core slot i p node f)) ∧
        (fireTokens s.dev i p node = none → Leads (.stationFire core slot node) s s.dev)) ∧
      (p.ty node = 0x18 → ((i.node node).toks.find? fun t => t.item == item) = some t → i.room p node 0 ≠ 0 →
        i2 = ((i.setNode node fun n => { n with toks := n.toks.filter fun x => x.item != item }).push p node 0
          [{ t with last := true, stat := Status.timeout.code }]).noteStat item Status.timeout.code →
        Leads (.deadlineExpiry core slot node item) s (sweep (s.dev.modInst core slot fun _ => i2) core slot)) ∧
      (((i.node node).toks.find? fun t => t.item == item) = none → Leads (.deadlineExpiry core slot node item) s s.dev)) ∧
    (s.dev.pool.ev = [] → s.dev.inst core slot = some i →
      ((i.pieces.find? fun x => x.done) = some q → Leads (.platePieceDone core slot) s (pieceNext s.dev core slot q.node)) ∧
      ((i.pieces.find? fun x => x.done) = none → Leads (.platePieceDone core slot) s s.dev)) ∧
    (s.dev.pool.ev = [.ended g.id] → s.dev.grp g.id = some g → (∃ b, g.cont = .plate (instKey core slot) q.id b) → s.dev.inst core slot = some i →
      e = ({ s.dev with pool := { s.dev.pool with ev := [] } } : Dev).dropGrp g.id →
      d = e.modInst core slot (fun i => { i with pieces := mapIf (fun x => x.id == q.id) (fun x => { x with
        done := true, st := (g.outs.foldl (fun a o => graver a o.2) Status.ok).code, data := if x.write then x.data else g.data }) i.pieces }) →
      ((d.inst core slot).bind fun i => i.pieces.find? fun x => x.id == q.id) = some q →
      Leads (.platePieceDone core slot) s (pieceNext d core slot q.node)) ∧
    (s.dev.press.plates.std = [] →
      (s.dev.inst core slot = none → Leads (.plateInstanceFault core slot) s s.dev) ∧
      (s.dev.inst core slot = some i → i.fault = true → Leads (.plateInstanceFault core slot) s s.dev) ∧
      (s.dev.inst core slot = some i → i.fault = false → Leads (.plateInstanceFault core slot) s
        (((s.dev.count .cPlfault (coreDie core)).notice 0x0609 (coreDie core) (some i.chase) core i.plate 0).modInst core slot fun i =>
          { i with fault := true, mute := true, items := [], pieces := [], queues := i.queues.map fun _ => [], nodes := i.nodes.map fun _ => {} }))) ∧
    (s.dev.inst core slot = none → s.dev.press.plates.std = [z] → z.core = core → z.slot = slot → z.fault = false → z.plate ≠ 0x0029 →
      d = (s.dev.count .cPlfault (coreDie core)).notice 0x0609 (coreDie core) (some z.chase) core z.plate 0 →
      e = { d with press := { d.press with plates := { d.press.plates with
        std := mapIf (fun x => x.core == core && x.slot == slot) (fun x => { x with fault := true }) d.press.plates.std } } } →
      Leads (.plateInstanceFault core slot) s (stdLost e core z.chase z.plate)) ∧
    (isRequest x.pkt = true → ingress s.dev x (continues s.dev x.pkt) = .ok (d, id, k) →
      (isLocal d k = true → Leads (.ingestWaitTimeout px x) s (answer ((killTrain d x).count .cPlatefull (dPX px)) id .retry)) ∧
      (isLocal d k = false → Leads (.ingestWaitTimeout px x) s (forwardReq d id k (some (x.port, x.vl))))) ∧
    (isRequest x.pkt = false → (x.pkt.dlv = true ∨ x.pkt.opc = opREDUCE_RESULT) → takeDelivery s.dev x = .ok (d, some id) →
      Leads (.ingestWaitTimeout px x) s (answer ((killTrain d x).count .cPlatefull (dPX px)) id .retry)) ∧
    (isRequest x.pkt = false → x.pkt.dlv = false → x.pkt.opc ≠ opREDUCE_RESULT → hdrCheck s.dev x = .ok d →
      Leads (.ingestWaitTimeout px x) s ((discard d x).count .cPlatefull (dPX px)))

/-! ### Marks (R417–R436, R503) -/

/-- The sixteen mark operations reach the mark's home and run there (R126, R43, R417, R418, R421–R423): the home answers DENIED for a mark of another
type word, chase or locked party, UNSUPPORTED for an operation of another type or fields out of range; an operation that may go through is
answered with FLAGS, GRANT and the type word as it stood; one that must wait is held without an answer while a record is free. -/
def Obligations.MarkOperations : Prop :=
  ∀ (s : State) (x y : Rx) (d d1 e : Dev) (id i a w : Nat) (k : Pkt) (o : MOp) (st : Status) (g : Bool),
    (∀ ci ∈ ([(.read x, asRead x), (.add x, asMop 0x01 x), (.sub x, asMop 0x02 x), (.set x, asMop 0x03 x), (.take x, asMop 0x04 x),
        (.waitge x, asMop 0x05 x), (.arrive x, asMop 0x10 x), (.arrivewait x, asMop 0x11 x), (.waitrnd x, asMop 0x12 x), (.acquire x, asMop 0x20 x),
        (.tryacq x, asMop 0x21 x), (.release x, asMop 0x22 x), (.renew x, asMop 0x23 x), (.ticket x, asMop 0x30 x), (.serve x, asMop 0x31 x),
        (.waitturn x, asMop 0x32 x)] : List (Instr × Rx)),
      y = ci.2 → ingress s.dev y false = .ok (d, id, k) →
      (isLocal d k = false → Leads ci.1 s (forwardReq d id k (some (y.port, y.vl)))) ∧
      (isLocal d k = true → i = wbits k.w2 63 46 →
        (d.dieUp (dPT (markDie i)) = false → Leads ci.1 s (answer d id .targetLost)) ∧
        (d.dieUp (dPT (markDie i)) = true → filterCheck d id (.mark (markDie i)) = .ok e → Leads ci.1 s (markRun e {
          id := some id, mark := i, mop := wbits k.w2 45 40, rtag := wbits k.w2 39 32, arg0 := wbits k.w2 31 0, arg1 := k.w3.toNat
          src := k.src, chase := k.chase, party := k.party }).1))) ∧
    (d.dieUp (dPT (markDie o.mark)) = true → d.badMark o.mark = false → o.id = some id → d1 = d.count .cMkops (dPT (markDie o.mark)) →
      w = (d.mark o.mark).word →
      (((d.mark o.mark).type = 0 ∨ (d.mark o.mark).chase ≠ o.chase) → (markRun d o).1 = markAnswer d1 (some id) o.mark .denied false w) ∧
      ((d.mark o.mark).type ≠ 0 → (d.mark o.mark).chase = o.chase → (d.mark o.mark).plock = true → (d.mark o.mark).party ≠ o.party →
        (markRun d o).1 = markAnswer d1 (some id) o.mark .denied false w) ∧
      ((d.mark o.mark).type ≠ 0 → (d.mark o.mark).chase = o.chase → ((d.mark o.mark).plock = false ∨ (d.mark o.mark).party = o.party) →
        (mopType o.mop = none ∨ (∃ t, mopType o.mop = some t ∧ t ≠ 0 ∧ t ≠ (d.mark o.mark).type) ∨ mopFields o = false) →
        (markRun d o).1 = markAnswer d1 (some id) o.mark .unsupported false w) ∧
      (mopCheck d o = none → mopEffect d1 o = (e, .done st g) → (markRun d o).1 = afterMop (markAnswer e (some id) o.mark st g w) o.mark) ∧
      (mopCheck d o = none → mopEffect d1 o = (e, .hold a) → waitRoom d (markDie o.mark) = true → (markRun d o).1 = afterMop (holdOp e o a) o.mark) ∧
      (mopCheck d o = none → mopEffect d1 o = (e, .hold a) → waitRoom d (markDie o.mark) = false →
        (markRun d o).1 = markAnswer (d1.count .cMkwfull (dPT (markDie o.mark))) (some id) o.mark .busy false w))

/-- What the operations do (R421, R424, R428, R429, R432–R435): counters saturate at both ends; TAKE grants when the count suffices; WAITGE, WAITRND
and WAITTURN are held until their condition; a free quoin is granted, a held one refused, queued or given up; a sequencer issues tickets and
serves in turn. A held operation ends at its time, a lease at its own; a parent's answer releases the level. -/
def Obligations.MarkTable : Prop :=
  ∀ (s : State) (d : Dev) (o : MOp) (m : Mark) (i req : Nat) (w : MWait), m = d.mark o.mark →
    (o.mop = 0x00 → mopEffect d o = (d, .done .ok false)) ∧
    (o.mop = 0x01 → m.count + o.arg0 < 2 ^ 48 →
      mopEffect d o = (d.modMark o.mark fun m => m.put 47 0 ((d.mark o.mark).count + o.arg0), .done .ok false)) ∧
    (o.mop = 0x01 → 2 ^ 48 ≤ m.count + o.arg0 → mopEffect d o = (((d.modMark o.mark fun m => m.put 47 0 (2 ^ 48 - 1)).modMark o.mark fun m =>
      m.raise 0).count .cMksat (dPT (markDie o.mark)), .done .ok false)) ∧
    (o.mop = 0x02 → m.count < o.arg0 → mopEffect d o = (((d.modMark o.mark fun m => m.put 47 0 0).modMark o.mark fun m =>
      m.raise 1).count .cMksat (dPT (markDie o.mark)), .done .ok false)) ∧
    (o.mop = 0x02 → o.arg0 ≤ m.count →
      mopEffect d o = (d.modMark o.mark fun m => m.put 47 0 ((d.mark o.mark).count - o.arg0), .done .ok false)) ∧
    (o.mop = 0x03 → mopEffect d o = (d.modMark o.mark fun m => m.put 47 0 o.arg1, .done .ok false)) ∧
    (o.mop = 0x04 → o.arg0 ≤ m.count →
      mopEffect d o = (d.modMark o.mark fun m => m.put 47 0 ((d.mark o.mark).count - o.arg0), .done .ok true)) ∧
    (o.mop = 0x04 → m.count < o.arg0 → mopEffect d o = (d, .done .ok false)) ∧
    (o.mop = 0x05 → (o.arg1 ≤ m.count → mopEffect d o = (d, .done .ok false)) ∧ (m.count < o.arg1 → mopEffect d o = (d, .hold o.arg1))) ∧
    (o.mop = 0x12 → m.round < 256 → o.rtag < 256 →
      ((o.rtag = m.round ∨ o.rtag = (m.round + 1) % 256) → mopEffect d o = (d, .hold o.rtag)) ∧
      ((o.rtag + 1) % 256 = m.round → mopEffect d o = (d, .done .ok false))) ∧
    ((o.mop = 0x20 ∨ o.mop = 0x21) → m.qState = 0 →
      mopEffect d o = (d.modMark o.mark fun m => grantTo m o.src o.arg0, .done .ok true)) ∧
    (m.qState = 1 → m.owner ≠ o.src → (o.mop = 0x20 → mopEffect d o = (d, .hold o.arg0)) ∧ (o.mop = 0x21 → mopEffect d o = (d, .done .busy false)) ∧
      ((o.mop = 0x22 ∨ o.mop = 0x23) → mopEffect d o = (d, .done .denied false))) ∧
    (m.qState = 1 → m.owner = o.src → m.inc = o.arg0 → ((o.mop = 0x20 ∨ o.mop = 0x21) → mopEffect d o = (d, .done .denied false)) ∧
      (o.mop = 0x23 → mopEffect d o = (d, .done .ok false)) ∧
      (o.mop = 0x22 → ((waitsOn d o.mark).find? fun w => w.mop == 0x20) = none →
        mopEffect d o = (d.modMark o.mark fun m => m.put 63 62 0, .done .ok false))) ∧
    (o.mop = 0x30 → m.next < 2 ^ 32 - 1 →
      mopEffect d o = (d.modMark o.mark fun m => m.put 63 32 (m.next + 1), .done .ok false)) ∧
    (o.mop = 0x31 → m.serving ≠ m.next →
      mopEffect d o = (d.modMark o.mark fun m => m.put 31 0 (m.serving + 1), .done .ok false)) ∧
    (o.mop = 0x32 → (o.arg1 ≤ m.serving → mopEffect d o = (d, .done .ok false)) ∧ (m.serving < o.arg1 → mopEffect d o = (d, .hold o.arg1))) ∧
    ((s.dev.marks.waits.find? fun w => w.id == req) = some w →
      Leads (.heldOpTimeout req) s (endWait (s.dev.count .cMkwtmo (dPT (markDie w.mark))) w .timeout false)) ∧
    ((s.dev.mark i).type = 3 → (s.dev.mark i).qState = 1 → (s.dev.mark i).lease ≠ 0 → Leads (.quoinLeaseExpiry i) s (breakQuoin s.dev i 3)) ∧
    ((s.dev.mark i).type = 2 → (s.dev.mark i).upWait = true →
      Leads (.barrierParentAnswer i .ok) s (afterMop (releaseUp s.dev i) i) ∧ Leads (.barrierParentAnswer i .timeout) s (sendUp s.dev i 0x12) ∧
      Leads (.barrierParentAnswer i .targetLost) s (((s.dev.modMark i fun m => m.raise 5).count .cMkupfail (dPT (markDie i))).notice 0x0702
        (dPT (markDie i)) (some (s.dev.mark i).chase) i Status.targetLost.code 0) ∧
      (bit (s.dev.mark i).flags 5 = false → Leads (.barrierUpResend i) s (sendUp s.dev i (s.dev.mark i).upMop))) ∧
    (waitsOn s.dev i = [] → ∃ e : Dev, e = s.dev.record 2 (dPT (markDie i)) 8 (some (s.dev.mark i).chase) i ∧
      Leads (.markRecordError i) s { e with flt := { e.flt with badMarks := if e.badMark i then e.flt.badMarks else e.flt.badMarks ++ [i] } })

/-! ### Sessions, keys and sealing (R109, R443–R471) -/

/-- SPDM outside a session (R446, R448, R469): each request answers at its stage, with the active keeper's slot and key; KEY_EXCHANGE starts a session
under a free number, a 65th ends with Busy; a request before its stage is unexpected and changes nothing but what is sent. -/
def Obligations.SpdmConnection : Prop :=
  ∀ (s : State) (tr : Transport) (peer slot off len nonce n : Nat) (both : Bool),
    s.dev.mgmt.active = some n → (s.dev.taken tr || tr == .i3c) = true →
    (Does (.getVersion tr peer true) s (say (s.dev.setConn tr peer 1) tr peer 0x04 [0x13])) ∧
    (1 ≤ s.dev.conn tr peer →
      Does (.getCapabilities tr peer) s (say (s.dev.setConn tr peer (max 2 (s.dev.conn tr peer))) tr peer 0x61 [])) ∧
    (2 ≤ s.dev.conn tr peer → Does (.negotiateAlgorithms tr peer true) s (say (s.dev.setConn tr peer 3) tr peer 0x63 [])) ∧
    (s.dev.conn tr peer < 2 → Does (.negotiateAlgorithms tr peer both) s (say s.dev tr peer 0x7F [eUnexpected])) ∧
    (3 ≤ s.dev.conn tr peer →
      (Does (.getDigests tr peer) s (say s.dev tr peer 0x01 [Config.sha384 (certOf s.dev 0), Config.sha384 (certOf s.dev 1)])) ∧
      (slot < 2 → off < (certOf s.dev slot).length →
        Does (.getCertificate tr peer slot off len) s (say s.dev tr peer 0x02
          (slot :: (((certOf s.dev slot).drop off).take len).length ::
            ((certOf s.dev slot).length - off - (((certOf s.dev slot).drop off).take len).length) ::
            (((certOf s.dev slot).drop off).take len).map fun x => x.toNat))) ∧
      (∃ k d, s.dev.draw = (k, d) ∧ Does (.challenge tr peer n nonce) s
        (say d tr peer 0x03 [n, Config.sha384 (certOf s.dev n), Config.ecdsa n k (leBytes 32 nonce)])) ∧
      (∃ k d, s.dev.draw = (k, d) ∧ Does (.getMeasurements tr peer 0 nonce) s
        (say d tr peer 0x60 [8, Config.ecdsa n k (leBytes 32 nonce)])) ∧
      (s.dev.mgmt.sessions.length < 64 → ∃ t, exec (.keyExchange tr peer n both) s = .next t ∧
        t.dev.session (freeSession s.dev) = some { mutual_ := both, fin := false } ∧
        ∀ k, k ≠ freeSession s.dev → t.dev.session k = s.dev.session k) ∧
      (64 ≤ s.dev.mgmt.sessions.length → Does (.keyExchange tr peer n both) s (say s.dev tr peer 0x7F [eBusy])))

/-- A new session's number is new (R448, R449): no session has it, and no command still running or held was sent in it. -/
def Obligations.SessionNumbersAreNew : Prop :=
  ∀ d : Dev, d.session (freeSession d) = none ∧ (∀ r ∈ d.mgmt.running, r.sess ≠ some (freeSession d)) ∧
    (∀ h ∈ d.mgmt.held, h.2.1.sess ≠ some (freeSession d))

/-- Sessions and the requests of a party's own agent (R443, R444, R448–R451, R468, R471, R544): a finished handshake names the peer's key; a
heartbeat, a new key, an end; a key is installed only in a part whose DEBUGLOCK is blown, a PSK into the slot PSKCUR does not name; a PDK in use
at a tray stays; a column mask entry is written by its owner; a manifest is signed; any other session is answered SEALED. -/
def Obligations.SessionsAndAgents : Prop :=
  ∀ (s : State) (b : Bas) (d : Dev) (n chase party key reader pvis rvis nonce : Nat) (se : Session) (allow : Bool) (k : PartyKeys),
    d = heard s.dev b → Secured s.dev b n se → k = d.partyKeys chase party →
    (se.fin = false → Does (.finish b key true) s
      (answerIn (d.modSession n fun x => { x with fin := true, digest := if x.mutual_ then key else 0 }) b 0x65 [])) ∧
    (se.fin = true →
      Does (.heartbeat b) s (answerIn d b 0x68 []) ∧
      Does (.keyUpdate b 1) s (answerIn (d.modSession n fun x => { x with keys := x.keys + 1 }) b 0x69 [1]) ∧
      Does (.endSession b) s (endSession (answerIn d b 0x6C []) n)) ∧
    (AgentOf d se chase party →
      (d.mgmt.debugLock = true → k.pdk = none → pdkUse d < 16384 →
        ∃ e, e = putKeys d chase party { k with pdk := some key } ∧
          Does (.keyInstall b chase party 0 key) s (partyAnswer (foldOver (formesOf e) e fun f d => deliverKeys d f.1 f.2) b .ok)) ∧
      (d.mgmt.debugLock = true → k.cur = false → pskUse d < 16384 →
        Does (.keyInstall b chase party 1 key) s (partyAnswer (putKeys d chase party { k with psk1 := some key, cur := true }) b .ok)) ∧
      (d.mgmt.debugLock = true → k.cur = true → pskUse d < 16384 →
        Does (.keyInstall b chase party 1 key) s (partyAnswer (putKeys d chase party { k with psk0 := some key, cur := false }) b .ok)) ∧
      (d.mgmt.debugLock = false → Does (.keyInstall b chase party 0 key) s (partyAnswer d b .sealed_)) ∧
      (Does (.keyRevoke b chase party 1 0) s (partyAnswer (putKeys d chase party { k with psk0 := none }) b .ok)) ∧
      (keysTray d (64 * chase + party) = true → Does (.keyRevoke b chase party 0 0) s (partyAnswer d b .busy)) ∧
      (party ≠ reader → reader < 64 →
        Does (.colmaskSet b chase party reader allow pvis rvis) s (partyAnswer (d.setReg .impColmask (4096 * chase + 64 * party + reader)
          (b2n allow <<< 128 + (pvis % 2 ^ 64) <<< 64 + rvis % 2 ^ 64)) b .ok)) ∧
      (party < 64 → ∃ m sig e, m = manifest d chase ((upTo 64).filter fun p => (d.partyKeys chase p).agent == some se.digest) ∧
        aliasSign d d.mgmt.lastActive (leBytes 32 nonce ++ m.flatMap (leBytes 48)) = (sig, e) ∧
        Does (.chaseQuote b chase nonce) s (partyAnswer e b .ok 0 (m ++ [sig])))) ∧
    (se.mutual_ = false →
      Does (.keyInstall b chase party 0 key) s (partyAnswer d b .sealed_) ∧ Does (.keyRevoke b chase party 1 0) s (partyAnswer d b .sealed_) ∧
      Does (.colmaskSet b chase party reader allow pvis rvis) s (partyAnswer d b .sealed_) ∧
      Does (.chaseQuote b chase nonce) s (partyAnswer d b .sealed_))

/-- Link keys (R109, R110, R454): a key set fills the slot named; keys derived with a verified partner fill theirs as derived; without a secret, or
without a policy, the derivation is refused and no slot changes. -/
def Obligations.LinkKeys : Prop :=
  ∀ (s : State) (b : Bas) (d : Dev) (p tk rk ts rs secret : Nat) (slot : Bool), d = heard s.dev b → isPort d p = true →
    (Runs s.dev (.portKeyset b p slot tk rk ts rs) b (devCmd 0x0201) = true →
      Leads (.portKeyset b p slot tk rk ts rs) s
        ((fillSlot d p slot { txKey := tk, rxKey := rk, txSalt := ts, rxSalt := rs }).reply b 0x0201 .ok)) ∧
    ((d.link p).encact = false → ((fillSlot d p slot { txKey := tk, rxKey := rk, txSalt := ts, rxSalt := rs }).link p) =
      (if slot then { d.link p with slot1 := some { txKey := tk, rxKey := rk, txSalt := ts, rxSalt := rs } }
        else { d.link p with slot0 := some { txKey := tk, rxKey := rk, txSalt := ts, rxSalt := rs } })) ∧
    (Runs s.dev (.linkDerive b p slot (some secret)) b (devCmd 0x0202) = true → (d.link p).st = .up → (d.link p).ptype = 0 → d.mgmt.policy ≠ [] →
      Leads (.linkDerive b p slot (some secret)) s ((fillSlot d p slot (derivedKeys d p secret)).reply b 0x0202 .ok)) ∧
    (Runs s.dev (.linkDerive b p slot none) b (devCmd 0x0202) = true → Leads (.linkDerive b p slot none) s (d.reply b 0x0202 .denied))

/-! ### The meter (R472–R489) and the snapshot (R533–R536) -/

/-- Accounts (R472–R478): a notice of the keeper opens or closes a chase's accounts; a die exports what it counted, once; a record it sent is added in
order; a sample advances meter time by 1,000 µs and gives each domain's energy to its active accounts, floor shares, the rest to UNATTR; a failed
sense line is notified once; a census is accepted with copies from more than half of the port dies; the keeper's time is kept. -/
def Obligations.MeterAccounts : Prop :=
  ∀ (s : State) (chase die p e : Nat) (r : ExpRec) (c : Census) (m : Meter) (uj : List (Nat × Nat)),
    s.dev.meter.powered = true →
    ((s.dev.meter.notes.find? fun n => n.2 == chase) = some (true, chase) →
      ∃ m : Meter, m = { s.dev.meter with notes := dropFirst (· == (true, chase)) s.dev.meter.notes } ∧
        Does (.meterOpenNotice chase) s { s.dev with meter := m.openChase chase }) ∧
    ((s.dev.meter.notes.find? fun n => n.2 == chase) = some (false, chase) →
      ∃ m : Meter, m = { s.dev.meter with notes := dropFirst (· == (false, chase)) s.dev.meter.notes } ∧
        Does (.meterCloseNotice chase) s { s.dev with meter := m.closeChase chase }) ∧
    (die < 24 → s.dev.dieUp die = true → (s.dev.exp.filter fun x => exports die x.1) ≠ [] →
      ∃ t, exec (.exportRecordDue die) s = .next t ∧ t.dev.exp = s.dev.exp.filter (fun x => !exports die x.1) ∧
        t.dev.expPort = s.dev.expPort.filter (fun x => portDie x.1 != die) ∧
        t.dev.meter.wire = s.dev.meter.wire ++
          [{ die := die, exp := s.dev.exp.filter fun x => exports die x.1, port := s.dev.expPort.filter fun x => portDie x.1 == die }]) ∧
    ((s.dev.meter.wire.find? fun r => r.die == die) = some r →
      ∃ m : Meter, m = { s.dev.meter with wire := dropFirst (fun x => x.die == die) s.dev.meter.wire } ∧
        Does (.meterExportRecord die) s { s.dev with
          meter := foldOver r.port (foldOver r.exp m fun e m => m.increment e.1 e.2) fun e m => m.bank fun b => b.ports e.1 e.2.1 e.2.2 }) ∧
    (∃ t, exec (.meterSampleTick uj []) s = .next t ∧ t.dev.meter.mtime = s.dev.meter.mtime + 1000 ∧ t.dev.meter.act = []) ∧
    (sumNat ((perAccount (activity m.act p)).map Prod.snd) = 0 → m.attribute p e = (m.bank fun b => b.heat p e).bank fun b => b.rest e) ∧
    (s.dev.mgmt.active ≠ none → Does .keeperTimeTick s { s.dev with meter := { s.dev.meter with ft := s.dev.now } }) ∧
    (p < 64 → s.dev.meter.sfault.contains p = false →
      Does (.senseLineFault p) s (meterNotice { s.dev with meter := { s.dev.meter with sfault := s.dev.meter.sfault ++ [p] } } 0x0B02 dPackage p 0)) ∧
    (die < 16 → s.dev.dieUp die = true → (s.dev.meter.copies.filter fun x => x.1 == chase) = [] →
      1 < ((upTo 16).filter s.dev.dieUp).length / 2 →
      ∃ t, exec (.censusCopyRx chase die (some c)) s = .next t ∧ t.dev.meter.copies = s.dev.meter.copies ++ [(chase, die, c)] ∧
        t.dev.meter.census = s.dev.meter.census) ∧
    ((s.dev.meter.copies.any fun x => x.1 == chase) = true →
      ∃ t, exec (.censusTimeout chase) s = .next t ∧ t.dev.meter.diff = true ∧ t.dev.meter.lastDiff = true ∧
        t.dev.meter.copies = s.dev.meter.copies.filter (fun x => x.1 != chase) ∧ t.dev.meter.census = s.dev.meter.census)

/-- Colophons and the metrology authority (R479–R489): at a boundary the colophon takes what the main bank holds while the shadow bank collects; its
commit stores it, folds the shadow in and chains on; a supply failure ends the meter's power, its return starts from what was committed; the
authority's commands need its signature, a fresh count and, to enrol, the pin; colophons are read and acknowledged. -/
def Obligations.ColophonsAndAuthority : Prop :=
  ∀ (s : State) (b : Bas) (d : Dev) (a : MtAuth) (c : Colophon) (m : Meter) (v w seq off : Nat) (img : List Byte) (corr : List (Nat × Nat × Nat)),
    d = heard s.dev b →
    (s.dev.meter.powered = true → s.dev.meter.committing = none → ∃ t k, exec .colophonBoundary s = .next t ∧
      t.dev.meter.committing = some (s.dev.meter.colophon (if s.dev.meter.resume then 2 else 0) s.dev.meter.boundary k) ∧
      t.dev.meter.mstart = s.dev.meter.boundary ∧ t.dev.meter.main = s.dev.meter.main ∧ t.dev.meter.shadow = s.dev.meter.shadow ∧
      t.dev.meter.interval = s.dev.meter.newInt.getD s.dev.meter.interval) ∧
    (s.dev.meter.committing = some c → s.dev.meter.pend = none → ∃ t, exec (.colophonCommitDone false) s = .next t ∧
      t.dev.meter.committing = none ∧ t.dev.meter.shadow = {} ∧ t.dev.meter.seq = c.seq ∧ t.dev.meter.prevHash = Config.sha384 c.bytes ∧
      t.dev.meter.main = s.dev.meter.main.fold s.dev.meter.shadow ∧ t.dev.meter.store.getLast? = some (false, c)) ∧
    (s.dev.meter.powered = true → ∃ t, exec (.meterSupplyFail true) s = .next t ∧ t.dev.meter.powered = false ∧ t.dev.meter.committing = none) ∧
    (s.dev.meter.powered = false → ∃ t, exec .meterPowerReturn s = .next t ∧ t.dev.meter.powered = true ∧ t.dev.meter.resume = true ∧
      t.dev.meter.shadow = {} ∧ t.dev.meter.mtime = t.dev.meter.mstart ∧
      (s.dev.meter.lost = true → t.dev.meter.main = s.dev.meter.saved ∧ t.dev.meter.gens = s.dev.meter.savedGens) ∧
      (s.dev.meter.lost = false → t.dev.meter.main = s.dev.meter.main ∧ t.dev.meter.gens = s.dev.meter.gens)) ∧
    (d.meter.powered = true → d.meter.committing = none → a.sigOk = true → d.meter.acnt < a.acnt → m = { d.meter with acnt := a.acnt } →
      (Runs s.dev (.mtEnrol b a true v) b (mtInfo 0x0B10) = true → d.meter.auth = none →
        Leads (.mtEnrol b a true v) s ({ d with meter := { m.sealEvent 1 with auth := some v } }.reply b 0x0B10 .ok)) ∧
      (d.meter.auth ≠ none →
        (Runs s.dev (.mtAuthkey b a v) b (mtInfo 0x0B11) = true → d.meter.repl < 15 →
          Leads (.mtAuthkey b a v) s ({ d with meter := { m.sealEvent 2 with auth := some v, repl := d.meter.repl + 1 } }.reply b 0x0B11 .ok)) ∧
        (Runs s.dev (.mtSetint b a v) b (mtInfo 0x0B12) = true → 1 ≤ v → v ≤ 3600 →
          Leads (.mtSetint b a v) s ({ d with meter := { m with newInt := some v } }.reply b 0x0B12 .ok)) ∧
        (Runs s.dev (.mtFwlr b a v w img true) b (mtInfo 0x0B13) = true →
          ∃ e : Dev, Leads (.mtFwlr b a v w img true) s (e.reply b 0x0B13 .ok) ∧ e.meter.lrMaj = v % 256 ∧ e.meter.lrMin = w % 256 ∧
            e.meter.lrDigest = Config.sha384 img ∧ e.meter.sealCnt = d.meter.sealCnt + 1 ∧ e.meter.lastEvt = 3) ∧
        (Runs s.dev (.mtCorr b a corr) b (mtInfo 0x0B14) = true → (corr.all fun x => decide (x.1 < 64)) = true →
          Leads (.mtCorr b a corr) s ({ d with
            meter := { m.sealEvent 4 with corr := corr.foldl (fun t (x : Nat × Nat × Nat) => tput t x.1 x.2) d.meter.corr } }.reply b 0x0B14 .ok)))) ∧
    (Runs s.dev (.mtRead b seq off) b { opc := 0x0B01, who := .a } = true → d.meter.powered = true → seq ≠ 0 →
      (d.meter.store.find? fun c => c.2.seq == seq) = some (true, c) → off < c.size →
      Leads (.mtRead b seq off) s (d.reply b 0x0B01 .ok 0 0 (((c.bytes.drop off).take 4080).map fun x => x.toNat))) ∧
    (Runs s.dev (.mtAck b seq) b { opc := 0x0B02, who := .f, dom := some .meter } = true → d.meter.powered = true → seq ≠ 0 →
      seq ≤ d.meter.seq → m = { d.meter with store := d.meter.store.map fun c => if c.2.seq ≤ seq then (true, c.2) else c } →
      Leads (.mtAck b seq) s ({ d with meter := m }.reply b 0x0B02 .ok))

/-- The snapshot (R145, R533–R536): armed with its chases bound and its time 1 ms to 60 s ahead; cut by fabric time or by a SNAP of it, which closes
its lane; the sweep and the last lane end it, an open lane after SNAPTMO leaves it incomplete; its records are read and released. -/
def Obligations.Snapshots : Prop :=
  ∀ (s : State) (b : Bas) (d e f : Dev) (x : Rx) (id init tcut off : Nat) (chases ports : List Nat) (l : List Byte), d = heard s.dev b →
    (Runs s.dev (.snapArm b id init tcut chases ports) b (devCmd 0x0803) = true → (∀ c ∈ chases, (d.comp c).bound = true) →
      tcutOk d tcut = true → ports.all (isPort d) = true → d.snap.st = .idle →
      Leads (.snapArm b id init tcut chases ports) s
        ({ d with snap := { st := .armed, id := id, init := init, tcut := tcut, chases := chases, ports := ports } }.reply b 0x0803 .ok)) ∧
    (hdrCheck s.dev (asOp opSNAP x) = .ok e → f = discard e (asOp opSNAP x) → f.snap.st = .armed → wbits x.pkt.w2 63 32 = f.snap.id →
      takesPart f x.port = true →
      Does (.snap x) s (snapCheck ((takeCut f true f.now).modSnap fun s => { s with lanes := s.lanes.filter fun l => l != (x.port, x.vl) }))) ∧
    (s.dev.snap.st = .armed → Does .snapCutTime s (snapCheck (takeCut s.dev false s.dev.snap.tcut))) ∧
    (s.dev.snap.st = .cut → Does .snapSweepDone s (snapCheck { s.dev with snap := { s.dev.snap with swept := true } })) ∧
    (s.dev.snap.st = .cut → s.dev.snap.lanes ≠ [] → Does .snapTimeout s (snapIncomplete s.dev)) ∧
    (Runs s.dev (.snapRead b id off) b { opc := 0x0804, who := .a } = true → d.snap.st = .done → id = d.snap.id →
      off ≤ (snapBytes d.snap).length → l = ((snapBytes d.snap).drop off).take 4072 →
      Leads (.snapRead b id off) s (d.reply b 0x0804 .ok 0 0
        ((off + b2n (decide (off + l.length = (snapBytes d.snap).length)) <<< 31) :: l.map fun x => x.toNat))) ∧
    (Runs s.dev (.snapRelease b id) b (devCmd 0x0805) = true → d.snap.st = .done → id = d.snap.id →
      Leads (.snapRelease b id) s ({ d with snap := {} }.reply b 0x0805 .ok))

/-! ### Faults and recovery (R37, R449, R499–R520) -/

/-- Losing a die, a stack or the package (R512–R515, R520): liveness is sent while a die runs; one that falls silent, or sends a fatal slice, is held
lost with a record of class 3, unless it recorded its own; a lost stack too; a fatal-package condition shuts the package down, once. Keepers (R37,
R449, R516, R550): the lease is renewed; when the active keeper fails it is out of service, every session and queued command ends, and a ready
standby takes over; it becomes active and sends KEEPER; a standby that is lost leaves the active one with a record. -/
def Obligations.LosingDiesAndKeepers : Prop :=
  (∀ (s : State) (die stack cause : Nat),
    (sendsLiveness s.dev die = true → ∃ t, exec (.livenessSend die) s = .next t ∧ tfind t.dev.flt.heard die = some s.dev.clk ∧
      (∀ k, k ≠ die → tfind t.dev.flt.heard k = tfind s.dev.flt.heard k) ∧ t.sent = s.sent ++ s.dev.out ++ [.liveness die]) ∧
    (sendsLiveness s.dev die = true → s.dev.flt.selfFatal.contains die = false →
      Leads (.dieSilence die) s (holdDieLost (s.dev.record 3 die 16 none 0) die) ∧
      Leads (.fatalSliceRx die) s (holdDieLost (s.dev.record 3 die 16 none 1) die)) ∧
    (sendsLiveness s.dev die = true → s.dev.flt.selfFatal.contains die = true →
      Leads (.dieSilence die) s (holdDieLost s.dev die) ∧ Leads (.fatalSliceRx die) s (holdDieLost s.dev die)) ∧
    (stack < 8 → Leads (.galleyStackLoss stack) s (holdDieLost s.dev (dGS stack))) ∧
    (Leads (.fatalPackage cause) s (shutDown s.dev 3 cause)) ∧
    (s.dev.flt.fatal = false → cause ≠ 0 →
      (shutDown s.dev 3 cause).flt.fatal = true ∧ (shutDown s.dev 3 cause).pwr.mode = .shutdown ∧ (shutDown s.dev 3 cause).pwr.faultN = true ∧
      (shutDown s.dev 3 cause).pwr.on = bits s.dev.pwr.on 63 61 * 2 ^ 61 ∧ (shutDown s.dev 3 cause).tfp.outst = []) ∧
    (s.dev.flt.fatal = true → shutDown s.dev 3 cause = s.dev)) ∧
  (∀ (s : State) (n cause : Nat), n < 2 →
    (s.dev.mgmt.active = some n → Does .keeperLeaseRenew s { s.dev with mgmt := { s.dev.mgmt with leaseAge := 0 } }) ∧
    (s.dev.mgmt.active = some n → Does .keeperLeaseLapse s (giveUp (keeperOut s.dev n) 1)) ∧
    (s.dev.mgmt.active = some n → Does .keeperFatalReport s (giveUp (keeperOut s.dev n) 2)) ∧
    (s.dev.mgmt.active = some n → (giveUp s.dev cause).mgmt.active = none ∧ (giveUp s.dev cause).mgmt.sessions = [] ∧
      (giveUp s.dev cause).mgmt.held = [] ∧ (∀ r ∈ (giveUp s.dev cause).mgmt.running, r.sess = none) ∧
      ((giveUp s.dev cause).mgmt.takeover = some cause ↔ keeperReady s.dev (1 - n) = true)) ∧
    (s.dev.mgmt.takeover = some cause → keeperReady s.dev n = true → keeperReady s.dev (1 - n) = false →
      ∃ d : Dev, d = { s.dev with mgmt := { s.dev.mgmt with active := some n, takeover := none, lastActive := n } } ∧
        Does .keeperTakeover s (resumeFixes ((d.collectLogs.notice 0x0905 (dKP n) none n cause 0).emitIf
          ((d.collectLogs.notice 0x0905 (dKP n) none n cause 0).reg .kpMgmtAddr 0 != 0)
          (.netAnswer 2 [n, (d.collectLogs.notice 0x0905 (dKP n) none n cause 0).reg .kpMgmtAddr 0])))) ∧
    (s.dev.mgmt.active = some n → Does .standbyKeeperLoss s ((keeperOut s.dev (1 - n)).record 3 (dKP (1 - n)) 10 none 0)))

/-- Next hops, tables and stores that fail (R499, R501, R502, R509, R510): with NHFIX armed a member out of UP gives its slots to the members in UP in
turn; a window of corrected errors below 2^CETHR leaves no trace, one at it makes a record of class 0 and CESTORM; an entry that goes bad acts as
absent until rewritten, at once with TBLFIX armed; a bad forme entry is notified. -/
def Obligations.FailoverAndTables : Prop :=
  ∀ (s : State) (set port die unit index chase part key : Nat) (h : NhSet),
    (tfind s.dev.core.nhs set = some h → s.dev.flag .fltFabpol 0 31 = true → h.members.contains port = true → s.dev.portUp port = false →
      h.members.filter s.dev.portUp ≠ [] →
      ∃ c : Core, c = { s.dev.core with
          nhs := tput s.dev.core.nhs set { h with slots := giveSlots port (h.members.filter s.dev.portUp) h.slots 0 } } ∧
        Does (.nexthopFailover set port) s { s.dev with core := c }) ∧
    (∀ (ups : List Nat) (l : List (Option Nat)) (k i : Nat), ups ≠ [] → ¬ port ∈ ups →
      (giveSlots port ups l k).length = l.length ∧ (giveSlots port ups l k)[i]? ≠ some (some port) ∧
      (l[i]? ≠ some (some port) → (giveSlots port ups l k)[i]? = l[i]?)) ∧
    (tget 0 s.dev.flt.ceCount (32 * die + unit) < 2 ^ s.dev.fld .fltThr 0 15 8 →
      Does (.ceWindowEnd die unit) s { s.dev with flt := { s.dev.flt with ceCount := tdel s.dev.flt.ceCount (32 * die + unit) } }) ∧
    (2 ^ s.dev.fld .fltThr 0 15 8 ≤ tget 0 s.dev.flt.ceCount (32 * die + unit) →
      ∃ d : Dev, d = { s.dev with flt := { s.dev.flt with ceCount := tdel s.dev.flt.ceCount (32 * die + unit) } } ∧
        Does (.ceWindowEnd die unit) s
          ((d.record 0 die unit none 0).notice 0x0902 die none (die <<< 8 + unit) (tget 0 s.dev.flt.ceCount (32 * die + unit)) 0)) ∧
    (s.dev.flag .fltFabpol 0 24 = false → ∃ d : Dev, d = s.dev.record 2 die 9 none (Config.tableLoc 1 index) ∧
      Does (.portTableError die 1 index) s { d with core := { d.core with badB := d.core.badB ++ [65536 * die + index] } }) ∧
    (s.dev.flag .fltFabpol 0 24 = true → s.dev.mgmt.active ≠ none →
      Does (.portTableError die 1 index) s (s.dev.record 2 die 9 none (Config.tableLoc 1 index))) ∧
    (∃ d : Dev, d = { s.dev with imp := { s.dev.imp with badEnt := s.dev.imp.badEnt ++ [(chase, part, key)] } } ∧
      Does (.formeStoreError chase part key) s
        ((d.record 2 (dGS 0) 6 (some chase) key).notice 0x0903 (dGS 0) (some chase) part key 0))

/-! ### Basod: registers, identity, tables and firmware (R541–R565) -/

/-- Registers by name (R31, R93, R94, R193, R194, R253, R495, R554–R557, R561): a REG_READ gives a register's words and clears nothing there; the
owner's read of a counter without PEEK sets it to zero; a REG_WRITE applies its batch when every entry passes, and applies nothing when one fails;
a write with a row of its own changes its register: ENABLE brings the port up or down, GATE_START makes the admin list pending, CANCEL drops the
pending list, a pace target takes force at its window, arming bits act at once, a smaller CACHE waits. -/
def Obligations.RegistersByName : Prop :=
  ∀ (s : State) (b : Bas) (d e : Dev) (name : RegRef) (r : RegName) (cn : CntName) (die g ix n v p k : Nat) (peek : Bool) (ents : List RegEnt)
    (st : Status) (gl : GateList), d = heard s.dev b →
    (Runs s.dev (.regRead b name g ix n peek) b { opc := g * 256 + 0xF0, who := .a, i3c := true } = true →
      lookName g name = some (.reg r die) → 1 ≤ n → n ≤ 256 → ix + n ≤ elems d r die → 8 + n * (cdiv (regDesc r).width 64 * 8) ≤ 4080 →
      ((upTo n).all fun i => existsElem r (ix + i)) = true → regReach d (.reg r die) ((regDesc r).perUnit * die + ix) = true →
      Leads (.regRead b name g ix n peek) s
        (d.reply b (g * 256 + 0xF0) .ok 0 0 ((regDesc r).width :: (upTo n).map fun i => readElem d (.reg r die) (ix + i)))) ∧
    (Runs s.dev (.regRead b (.cnt cn die) g ix 1 false) b { opc := g * 256 + 0xF0, who := .a, i3c := true } = true →
      lookName g (.cnt cn die) = some (.cnt cn die) → ix < cntElems cn → dieReach d die = true → (d.rolesOf b).owner = true →
      Leads (.regRead b (.cnt cn die) g ix 1 false) s
        ({ d with cnt := tput d.cnt (cntKey cn (cntUnit cn die ix)) 0 }.reply b (g * 256 + 0xF0) .ok 0 0 [64, cntRead d cn (cntUnit cn die ix)])) ∧
    (Runs s.dev (.regWrite b g ents) b (writeCmd s.dev g ents) = true → ents ≠ [] → ents.length ≤ 32 →
      batchVerdict g (d.rolesOf b) ents 0 d = none → smallerCache d ents = none → applyBatch g ents 0 d none = (e, none) →
      Leads (.regWrite b g ents) s (e.reply b (g * 256 + 0xF1) .ok)) ∧
    (Runs s.dev (.regWrite b g ents) b (writeCmd s.dev g ents) = true → ents ≠ [] → ents.length ≤ 32 → st ≠ .noFit →
      batchVerdict g (d.rolesOf b) ents 0 d = some (k, st, 0, 0) →
      Leads (.regWrite b g ents) s (d.reply b (g * 256 + 0xF1) st 0x03 k)) ∧
    (Runs s.dev (.kpPaceTgtWrite b p v) b (writeCmd s.dev 0x0A [devEnt .kpPaceTgt p v]) = true →
      entVerdict d 0x0A (devEnt .kpPaceTgt p v) (d.rolesOf b) = none → d.domOn p = true →
      Leads (.kpPaceTgtWrite b p v) s
        ((d.modPace p fun x => { x with tgtPend := some (mergeWord d .kpPaceTgt p v) }).reply b 0x0AF1 .ok)) ∧
    (Runs s.dev (.portEnable b p v) b (writeCmd s.dev 0x02 [portEnt p v]) = true → p < 1024 →
      entVerdict d 0x02 (portEnt p v) (d.rolesOf b) = none → dieReach d (p / 64) = true →
      e = d.setReg .ptPortCfg p (mergeWord d .ptPortCfg p v) → trayPort e p = none → d.enabled p = false → e.enabled p = true →
      Leads (.portEnable b p v) s ((linkEnable e p).reply b 0x02F1 .ok)) ∧
    (Runs s.dev (.portDisable b p v) b (writeCmd s.dev 0x02 [portEnt p v]) = true → p < 1024 →
      entVerdict d 0x02 (portEnt p v) (d.rolesOf b) = none → dieReach d (p / 64) = true →
      e = d.setReg .ptPortCfg p (mergeWord d .ptPortCfg p v) → trayPort e p = none → d.enabled p = true → e.enabled p = false →
      Leads (.portDisable b p v) s ((linkDisable e p).reply b 0x02F1 .ok)) ∧
    (Runs s.dev (.gateCommit b p v) b (writeCmd s.dev 0x08 [devEnt .schGateStart p v]) = true →
      entVerdict d 0x08 (devEnt .schGateStart p v) (d.rolesOf b) = none → dieReach d (p / 64) = true →
      gl.ents = (upTo (d.fld .schGateCtl p 22 16)).map (fun i => (d.fld .schGateEnt (64 * p + i) 31 24, d.fld .schGateEnt (64 * p + i) 23 0)) →
      gl.start = v →
      Leads (.gateCommit b p v) s (({ d with sched := { d.sched with pend := tput d.sched.pend p gl } } : Dev).reply b 0x08F1 .ok)) ∧
    (Runs s.dev (.gateCancel b p v) b (writeCmd s.dev 0x08 [devEnt .schGateCtl p v]) = true →
      entVerdict d 0x08 (devEnt .schGateCtl p v) (d.rolesOf b) = none → dieReach d (p / 64) = true → bit v 30 = true →
      e = d.setReg .schGateCtl p (mergeWord d .schGateCtl p v) →
      Leads (.gateCancel b p v) s (({ e with sched := { e.sched with pend := tdel e.sched.pend p } } : Dev).reply b 0x08F1 .ok)) ∧
    (Runs s.dev (.fltFabpolWrite b v) b (writeCmd s.dev 0x09 [devEnt .fltFabpol 0 v]) = true →
      entVerdict d 0x09 (devEnt .fltFabpol 0 v) (d.rolesOf b) = none →
      Leads (.fltFabpolWrite b v) s
        ((armed (d.setReg .fltFabpol 0 (mergeWord d .fltFabpol 0 v)) (d.reg .fltFabpol 0)).reply b 0x09F1 .ok)) ∧
    (Runs s.dev (.galleyCacheResize b v) b (writeCmd s.dev 0x03 [devEnt .impGalleyCfg 0 v]) = true →
      entVerdict d 0x03 (devEnt .impGalleyCfg 0 v) (d.rolesOf b) = none → d.fld .impGalleyCfg 0 31 26 ≤ bits v 31 26 →
      Leads (.galleyCacheResize b v) s ((d.setReg .impGalleyCfg 0 (mergeWord d .impGalleyCfg 0 v)).reply b 0x03F1 .ok)) ∧
    (Runs s.dev (.telemRead b die g k true) b { opc := 0x0D03, who := .a, i3c := true } = true → die < 24 → telemKeys die g k ≠ [] →
      dieReach d die = true →
      Leads (.telemRead b die g k true) s
        (d.reply b 0x0D03 .ok 0 0 (((telemKeys die g k).take 510).map fun x => cntRead d x.1 x.2)))

/-- Identity and authorities (R1, R119, R444, R447, R454, R504, R540, R541, R543–R546, R553, R558–R560, R562): who asks learns the device's identity
and his own roles; the owner sets the switch EID while no chase is bound, hands the device on and names observers; with OWNPRES, an ownerless
device takes its owner and an owned one with no chase bound is cleared; sessions set their notice mask and read the ring and the error log; the
standby points to the active keeper; a keeper answers for its addresses and gives its sensors' readings. -/
def Obligations.IdentityAndAuthorities : Prop :=
  ∀ (s : State) (b : Bas) (d : Dev) (n x se : Nat) (se' : Session) (l : List Nat) (bytes : List Byte), d = heard s.dev b →
    (Runs s.dev (.identGet b) b (readCmd 0x0101 .info true) = true → b.sess ≠ none → Leads (.identGet b) s (identFx b d)) ∧
    (b.sess = none → s.dev.mgmt.active = some n → s.dev.taken b.tr = true → b.bad = false → b.fault = false →
      Leads (.identGet b) s (identFx b s.dev)) ∧
    (Runs s.dev (.eidSet b x) b (devCmd 0x0102) = true → x < 2 ^ 20 → x ≠ eidFABRIC → eidReserved x = false → anyBound d = false →
      Leads (.eidSet b x) s ({ d with tfp := { d.tfp with eid := x } }.reply b 0x0102 .ok)) ∧
    (Runs s.dev (.eidSet b x) b (devCmd 0x0102) = true → x < 2 ^ 20 → x ≠ eidFABRIC → eidReserved x = false → anyBound d = true →
      Leads (.eidSet b x) s (d.reply b 0x0102 .busy)) ∧
    (Runs s.dev (.ownerSet b true) b (presCmd 0x0103) = true → d.mgmt.owner = none → b.tr ≠ .inBand → b.sess.bind d.session = some se' →
      Leads (.ownerSet b true) s ({ d with mgmt := { d.mgmt with owner := some se'.digest } }.reply b 0x0103 .ok)) ∧
    (Runs s.dev (.ownerChange b x) b (devCmd 0x0104) = true →
      Leads (.ownerChange b x) s ({ d with mgmt := { d.mgmt with owner := some x } }.reply b 0x0104 .ok)) ∧
    (Runs s.dev (.ownerClear b true) b (presCmd 0x0105) = true → anyBound d = false →
      Leads (.ownerClear b true) s ({ d with mgmt := { d.mgmt with owner := none, observers := [] } }.reply b 0x0105 .ok)) ∧
    (Runs s.dev (.observerSet b l) b (devCmd 0x0106) = true → l.length ≤ 16 →
      Leads (.observerSet b l) s ({ d with mgmt := { d.mgmt with observers := l } }.reply b 0x0106 .ok)) ∧
    (Runs s.dev (.sessionInfo b) b (readCmd 0x0107 .info true) = true →
      Leads (.sessionInfo b) s
        (d.reply b 0x0107 .ok 0 0 (b2n (d.rolesOf b).owner :: b2n (d.rolesOf b).observer :: (d.rolesOf b).chases))) ∧
    (Runs s.dev (.noticeSub b x) b { opc := 0x0D01, who := .a, i3c := true, dom := some .device } = true →
      Leads (.noticeSub b x) s ((d.modSession (b.sess.getD 0) fun se => { se with mask := x % 65536 }).reply b 0x0D01 .ok)) ∧
    (Runs s.dev (.noticeRead b x) b (readCmd 0x0D02 .a true) = true → Leads (.noticeRead b x) s (noticeReadFx b x d)) ∧
    (Runs s.dev (.errlogRead b n x) b (readCmd 0x0903 .a false) = true → 1 ≤ x → x ≤ 170 → n + x ≤ 4096 →
      Leads (.errlogRead b n x) s
        (d.reply b 0x0903 .ok 0 0 ((upTo x).map fun i => ((tfind d.flt.ring (n + i)).map ErrRec.word).getD 0))) ∧
    (Runs s.dev (.attestPolicy b l) b (devCmd 0x0902) = true → l ≠ [] → l.length ≤ 64 →
      Leads (.attestPolicy b l) s ({ d with mgmt := { d.mgmt with policy := l } }.reply b 0x0902 .ok)) ∧
    (Runs s.dev (.dbgRead b se n x) b (devCmd 0x0E01) = true → d.pwr.mode = .proof → anyBound d = false → x ≤ 4080 →
      Leads (.dbgRead b se n x) s
        ({ d with free := d.free + x }.reply b 0x0E01 .ok 0 0 ((upTo x).map fun i => Config.freeNat (d.free + i) % 256))) ∧
    (Runs s.dev (.hellReclaim b n l) b (devCmd 0x0901) = true → n < 16 → dieReach d (dPT n) = true →
      Leads (.hellReclaim b n l) s ((reclaim d n (((d.core.hell.filter fun e => e.1 / 98304 == n).map fun e => e.1 % 98304).filter fun i =>
        !l.contains i)).reply b 0x0901 .ok)) ∧
    (standby s.dev = some n → s.dev.taken b.tr = true → b.bad = false →
      Does (.basodAtStandby b) s ((s.dev.count .cCmdrefuse (dKP n)).emit
        (.reply none b.tr { cseq := b.cseq, status := .busy, dcode := 0x06, data := [s.dev.reg .kpMgmtAddr 0] }))) ∧
    (ownAddr s.dev n x = true → Does (.ipv6NeighbourDiscovery n x) s (s.dev.emit (.netAnswer 0 [n, x])) ∧
      Does (.icmpv6Echo n x bytes) s (s.dev.emit (.netAnswer 1 (n :: x :: bytes.map fun y => y.toNat)))) ∧
    (n < 2 → n ∉ s.dev.mgmt.romOnly → (s.dev.mgmt.keeper n).booted = true → x < 108 →
      Does (.pldmRequest n x) s (s.dev.emit (.pldm [n, 0, x, sensorValue s.dev n x]))) ∧
    (n < 2 → ∃ t, exec (.pldmSensorUpdate n l l x) s = .next t ∧ sensorValue t.dev n 104 = x ∧
      ∀ i, i < 40 → sensorValue t.dev n i = l.getD i 0)

/-- Routes, next hops, groups and fabric time (R149, R170, R171, R201, R203, R509): block entries, distinct exact-match entries, a set's sixteen slots
filled from its members in turn, a group's descriptor and members; a step by the master's offset, the time the next edge takes. -/
def Obligations.RoutesGroupsAndTime : Prop :=
  ∀ (s : State) (b : Bas) (d : Dev) (first n alt w tod : Nat) (ents : List (Nat × Nat)) (mem : List Nat) (grp : List (Nat × Nat)) (nh : NhSet),
    d = heard s.dev b →
    (Runs s.dev (.routeWrite b 0 first [(n, alt)]) b (devCmd 0x0205) = true → first < 65536 → alt < 4096 →
      ∃ e : Dev, Leads (.routeWrite b 0 first [(n, alt)]) s e ∧
        tfind e.core.routeB first = some alt ∧ (∀ k, k ≠ first → tfind e.core.routeB k = tfind d.core.routeB k) ∧ first ∉ e.core.badB) ∧
    (Runs s.dev (.routeWrite b 1 first ents) b (devCmd 0x0205) = true → ents ≠ [] → ents.length ≤ 256 → first + ents.length ≤ 16384 →
      (ents.all fun e => decide (e.2 < 4096) || e.2 == 0xFFFF) = true → doubled (putExact d.core.routeX first ents) first ents = none →
      ∃ core : Core, core = { d.core with
          routeX := putExact d.core.routeX first ents
          badX := d.core.badX.filter fun k => !decide (first ≤ k % 65536 ∧ k % 65536 < first + ents.length) } ∧
        Leads (.routeWrite b 1 first ents) s ({ d with core := core }.reply b 0x0205 .ok)) ∧
    (Runs s.dev (.nhsetWrite b n mem alt) b (devCmd 0x0206) = true → n < 4096 → mem ≠ [] → mem.length ≤ 16 → (∀ p ∈ mem, p < 1024) →
      alt < 4096 → nh = { slots := (upTo 16).map (fun i => mem[i % mem.length]?), members := mem, alt := some alt } →
      Leads (.nhsetWrite b n mem alt) s
        ({ d with core := { d.core with nhs := tput d.core.nhs n nh } }.reply b 0x0206 .ok)) ∧
    (Runs s.dev (.mcgrpWrite b n w grp) b (devCmd 0x0207) = true → n < 65536 → w < 2 ^ 64 → w % 2 ^ 19 = 0 → bits w 50 35 = grp.length →
      grp ≠ [] → grp.length ≤ 32768 → (∀ m ∈ grp, m.1 < 1024 ∧ m.2 < 2 ^ 20) → bit w 63 = true → (d.comp (bits w 62 51)).bound = true →
      bits w 34 19 = (upTo 16).foldl (fun m i => m + if grp.any fun x => portDie x.1 == i then 2 ^ i else 0) 0 → groupShort d n grp = 0 →
      ∃ e : Dev, Leads (.mcgrpWrite b n w grp) s (e.reply b 0x0207 .ok) ∧ e.reg .ptMcgrp n = w ∧
        tget [] e.core.mcMem n = (upTo 16).flatMap fun i => grp.filter fun m => portDie m.1 == i) ∧
    (Runs s.dev (.timeStep b) b (devCmd 0x0801) = true →
      ∃ e, e = stepTime d (-d.time.offset) ∧
        Leads (.timeStep b) s ({ e with time := { e.time with stepReq := false, offset := 0 } }.reply b 0x0801 .ok)) ∧
    (Runs s.dev (.timeSet b tod) b (devCmd 0x0802) = true →
      Leads (.timeSet b tod) s ({ d with time := { d.time with tod := some tod } }.reply b 0x0802 .ok))

/-- Firmware (R447, R485, R563–R565): pieces in order to the inactive slot of both keepers, verified there, selected or run by the standby, which
takes over 10 ms after the reply; a failed start falls back; the fused minimum only rises. -/
def Obligations.FirmwareUpdate : Prop :=
  ∀ (s : State) (b : Bas) (d e : Dev) (off len ver svn a : Nat) (last slot : Bool) (data : List Byte), d = heard s.dev b →
    (Runs s.dev (.fwWrite b 0 off last data) b (fwCmd 0x0C01) = true → data.length = 2048 → fwDiffer d = false →
      (off = 0 ∨ (off = (d.mgmt.keeper d.mgmt.lastActive).xfer ∧ d.mgmt.xferEnd = false)) → off + 2048 ≤ 60 * 2 ^ 20 →
      e = (d.modKeeper 0 fun k => k.piece (idleSlot d) off data) → ∃ e', e' = (e.modKeeper 1 fun k => k.piece (idleSlot e) off data) ∧
        Leads (.fwWrite b 0 off last data) s
          ({ e' with mgmt := { e'.mgmt with verified := false, xferEnd := last } }.reply b 0x0C01 .ok)) ∧
    (Runs s.dev (.fwVerify b 0 len true ver svn) b (fwCmd 0x0C02) = true → len = (d.mgmt.keeper d.mgmt.lastActive).xfer → d.mgmt.xferEnd = true →
      d.mgmt.fuseSvn ≤ svn →
      e = (d.modKeeper 0 fun k => k.staged (idleSlot d) ver svn) → ∃ e', e' = (e.modKeeper 1 fun k => k.staged (idleSlot d) ver svn) ∧
        Leads (.fwVerify b 0 len true ver svn) s
          ((({ e' with mgmt := { e'.mgmt with verified := true, verLen := len } } : Dev).notice 0x0C01
            ({ e' with mgmt := { e'.mgmt with verified := true, verLen := len } } : Dev).kpDie none 0 (b2n (idleSlot d)) ver).reply b 0x0C02 .ok)) ∧
    (Runs s.dev (.fwVerify b 0 len true ver svn) b (fwCmd 0x0C02) = true → svn < d.mgmt.fuseSvn →
      Leads (.fwVerify b 0 len true ver svn) s
        ((d.notice 0x0C03 d.kpDie none 0 (b2n (idleSlot d)) Status.sealed_.code).reply b 0x0C02 .sealed_)) ∧
    (Runs s.dev (.fwActivate b 0 0) b (fwCmd 0x0C03) = true → d.mgmt.verified = true →
      e = (d.modKeeper 0 fun k => { k with selB := idleSlot d }) → ∃ e', e' = (e.modKeeper 1 fun k => { k with selB := idleSlot d }) ∧
        Leads (.fwActivate b 0 0) s ({ e' with mgmt := { e'.mgmt with actPend := true } }.reply b 0x0C03 .ok)) ∧
    (Runs s.dev (.fwActivate b 0 1) b (fwCmd 0x0C03) = true → d.mgmt.verified = true → keeperReady d (1 - d.mgmt.lastActive) = true →
      e = (d.modKeeper (1 - d.mgmt.lastActive) fun k => { k with booted := false, restarting := true, bootTo := some (idleSlot d) }) →
      Leads (.fwActivate b 0 1) s
        ({ e with mgmt := { e.mgmt with activating := true, actSlot := some (idleSlot d) } }.defer b .firmware 0x0C03 0)) ∧
    (s.dev.mgmt.active = some a → s.dev.mgmt.actSlot = some slot → s.dev.mgmt.activating = true → s.dev.mgmt.handover = false →
      (s.dev.mgmt.keeper (1 - a)).restarting = true → e = restarted s.dev (1 - a) slot →
      Does (.standbyFwReady true) s ({ e with mgmt := { e.mgmt with handover := true } }.finish 0x0C03 0 .ok)) ∧
    (s.dev.mgmt.active = some a → s.dev.mgmt.actSlot = some slot → s.dev.mgmt.handover = true →
      Does .leaseHandoverTimer s
        ((giveUp s.dev 3).modKeeper a fun k => { k with booted := false, restarting := true, bootTo := some slot })) ∧
    (Runs s.dev (.fwSvnRaise b) b (fwCmd 0x0C04) = true →
      ∃ m : Mgmt, m = { d.mgmt with fuseSvn := max d.mgmt.fuseSvn (if (d.mgmt.keeper d.mgmt.lastActive).slotB
          then (d.mgmt.keeper d.mgmt.lastActive).bsvn else (d.mgmt.keeper d.mgmt.lastActive).asvn) } ∧
        Leads (.fwSvnRaise b) s ({ d with mgmt := m }.reply b 0x0C04 .ok)) ∧
    (Runs s.dev (.fwStatus b) b (readCmd 0x0C05 .a false) = true →
      Leads (.fwStatus b) s (d.reply b 0x0C05 .ok 0 0 (fwStatusOf d 0 ++ fwStatusOf d 1)))

/-! ### Power, reset and start-up (R29–R32, R567–R593, R601–R613) -/

/-- Pace, heat and supply (R29–R32, R574–R576, R605, R613): a window of a domain that reports writes its word, takes a pending target and lifts
nothing else while no keeper is active; with one, heat, the notice and one supply step follow; one step moves the supply by at most 2 mV and
toward the limits; a trip takes the domain and its die out and latches; two within 100 ms, THERMSHUT_N and SHUTDOWN shut the package down. -/
def Obligations.PaceHeatAndShutdown : Prop :=
  ∀ (s : State) (b : Bas) (p pace tj tgt : Nat) (ack : Bool) (x : Pace),
    (domainReports p = true → s.dev.domOn p = true → s.dev.mgmt.active = none → (s.dev.pace p).tgtPend = none →
      ∃ t, exec (.paceWindowEnd p pace tj ack) s = .next t ∧ (t.dev.pace p).valid = true ∧ (t.dev.pace p).pace = pace ∧
        (t.dev.pace p).tj = tj ∧ (t.dev.pace p).vcode = (s.dev.pace p).supply ∧ (t.dev.pace p).step = (s.dev.pace p).stepped ∧
        (∀ q, q ≠ p → t.dev.pace q = s.dev.pace q) ∧ t.dev.cfg = s.dev.cfg) ∧
    (domainReports p = true → s.dev.domOn p = true → s.dev.mgmt.active = none → (s.dev.pace p).tgtPend = some tgt →
      ∃ t, exec (.paceWindowEnd p pace tj ack) s = .next t ∧ t.dev.reg .kpPaceTgt p = tgt ∧ (t.dev.pace p).tgtPend = none) ∧
    (nextSupply x tgt ≤ x.supply + 1 ∧ x.supply ≤ nextSupply x tgt + 1) ∧
    (bits tgt 7 0 ≤ x.supply → x.supply ≤ bits tgt 15 8 → bits tgt 7 0 ≤ nextSupply x tgt ∧ nextSupply x tgt ≤ bits tgt 15 8) ∧
    (p < 61 → s.dev.domOn p = true → s.dev.pwr.lastTrip = none →
      ∃ d e : Dev, d = dieFails s.dev p 18 ∧
        e = { d with pwr := { d.pwr with on := setBits d.pwr.on p p 0, trip := setBits d.pwr.trip p p 1, lastTrip := some (d.clk, p) } } ∧
        Leads (.thermalTrip p) s (pollDomains (e.notice 0x0A04 (domainDie p) none p (domainDie p) 0))) ∧
    (s.dev.pwr.porst = false → s.dev.mgmt.active ≠ none →
      Leads .thermshutAssert s (shutDown { s.dev with pwr := { s.dev.pwr with thermShut := true } } 1 1)) ∧
    (Runs s.dev (.shutdown b) b (pwrCmd 0x0A0A) = true →
      Leads (.shutdown b) s (shutDown ((heard s.dev b).reply b 0x0A0A .ok) 4 0))

/-- Domains and self-tests (R567–R571, R590, R591, R605–R608): what a PWR_OFF names goes off, children first, once the switch-off table allows it and
no stack of it is in use; a PWR_ON puts domains in line; the keeper takes up to four at a time; PG decides; a die whose domains are up is tested,
and a die that passes joins, one that fails is held lost with a record of class 3; a die without its reference is lost. -/
def Obligations.DomainsAndSelfTests : Prop :=
  ∀ (s : State) (b : Bas) (d : Dev) (mask p die unit n : Nat) (sorts grans hot : List Nat), d = heard s.dev b →
    (Runs s.dev (.pwrOff b mask) b (pwrCmd 0x0A01) = true → mask < 2 ^ 61 → maskOk (without d.pwr.on mask) = true → d.pwr.level = 0 →
      ((maskDoms (mask &&& d.pwr.on)).all fun p => offOk d (without d.pwr.on mask) p) = true → stacksInUse d mask = false →
      maskDoms (mask &&& d.pwr.on) ≠ [] →
      Leads (.pwrOff b mask) s ((pwrNotice (switchOff d (maskDoms (mask &&& d.pwr.on)))).reply b 0x0A01 .ok)) ∧
    (Runs s.dev (.pwrOff b mask) b (pwrCmd 0x0A01) = true → mask < 2 ^ 61 → maskOk (without d.pwr.on mask) = false →
      Leads (.pwrOff b mask) s (d.reply b 0x0A01 .unsupported)) ∧
    (Runs s.dev (.pwrOn b mask hot) b (pwrCmd 0x0A02) = true → mask < 2 ^ 64 → maskOk (mask ||| d.pwr.on) = true → d.pwr.level = 0 →
      maskDoms (without mask d.pwr.on) ≠ [] → ((maskDoms (without mask d.pwr.on)).any fun p => bit d.pwr.trip p && hot.contains p) = false →
      ∃ w : Power, w = { d.pwr with
          toSeq := seqOrder.filter fun p => d.pwr.toSeq.contains p || (maskDoms (without mask d.pwr.on)).contains p } ∧
        Leads (.pwrOn b mask hot) s ({ d with pwr := w }.defer b .device 0x0A02 mask)) ∧
    (s.dev.mgmt.active = some n → ∃ t, exec .domainSequenceStep s = .next t ∧
      t.dev.pwr.waitPg = s.dev.pwr.waitPg ++ startable s.dev 4 s.dev.pwr.toSeq ∧
      t.dev.pwr.toSeq = s.dev.pwr.toSeq.filter (fun p => !(startable s.dev 4 s.dev.pwr.toSeq).contains p) ∧
      (startable s.dev 4 s.dev.pwr.toSeq).length ≤ 4) ∧
    (s.dev.pwr.waitPg.contains p = true → ∃ w : Power, w = { s.dev.pwr with
          waitPg := s.dev.pwr.waitPg.filter (· != p), on := setBits s.dev.pwr.on p p 1, trip := setBits s.dev.pwr.trip p p 0
          pace := tdel s.dev.pwr.pace p, firstWin := if domainReports p then s.dev.pwr.firstWin ++ [p] else s.dev.pwr.firstWin
          joining := if p = mainDomain (domainDie p) ∧ !s.dev.pwr.joining.contains (domainDie p)
            then s.dev.pwr.joining ++ [domainDie p] else s.dev.pwr.joining } ∧
        Leads (.pgRise p) s (pollDomains (beginTests { s.dev with pwr := w }))) ∧
    (s.dev.pwr.waitPg.contains p = true → Leads (.pgTimeout p) s (pollDomains (dieFails s.dev p 17))) ∧
    (s.dev.domOn p = true → p < 61 → Leads (.pgFall p) s (pollDomains (dieFails s.dev p 17))) ∧
    (Runs s.dev (.selftestRun b die) b (devCmd 0x0E12) = true → testable die = true → d.dieUp die = true → dieMayStop d die = true →
      Leads (.selftestRun b die) s ({ d with pwr := { d.pwr with stest := d.pwr.stest ++ [die] } }.defer b .device 0x0E12 die)) ∧
    (s.dev.pwr.stest.contains die = true → 16 ≤ die → die < 32 → s.dev.pwr.resetting.contains die = false →
      ∃ d e : Dev, d = { s.dev with pwr := { s.dev.pwr with stest := s.dev.pwr.stest.filter (· != die) } } ∧
        e = { d.notice 0x0A07 die none die unit 0 with pwr := { (d.notice 0x0A07 die none die unit 0).pwr with
          resetting := d.pwr.resetting.filter (· != die) } } ∧
        Leads (.selftestComplete die unit sorts grans) s
          (pollDomains (if unit = 0 then e.finish 0x0E12 die .ok else holdDieLost (e.record 3 die unit none 0) die))) ∧
    (16 ≤ die → die < 24 → s.dev.flt.refLost.contains die = false → ∃ f : Faults, f = { s.dev.flt with refLost := s.dev.flt.refLost ++ [die] } ∧
      Leads (.refclkLoss die) s (holdDieLost (({ s.dev with flt := f } : Dev).record 3 (dGS (die - 16)) 19 none 0) (dGS (die - 16))))

/-- Standby, sleep and the smaller resets (R111, R112, R577–R579, R581, R583, R584): TRICKLE and WAKE ask the partner; a standby entry with no port
awaiting its partner goes on at once and an exit at LEVEL 0 is answered at once; a port reset forgets the link, a tray's holds PERST#; the reply
of one comes with its outcome; a chase reset ends what the chase runs; a die reset cycles its domains, a keeper's its keeper. -/
def Obligations.StandbyAndSmallResets : Prop :=
  ∀ (s : State) (b : Bas) (d e : Dev) (p die n link chase level w : Nat) (ports hot : List Nat), d = heard s.dev b →
    (Runs s.dev (.trickle b p) b (devCmd 0x0203) = true → isPort d p = true → (d.link p).st = .up → d.flag .ptPortCfg p 29 = true →
      bit (d.link p).caps 1 = true → stands d p .trickle = true → Leads (.trickle b p) s ((askTrickle d p).defer b .device 0x0203 p)) ∧
    (Runs s.dev (.wake b p) b (devCmd 0x0204) = true → isPort d p = true → (d.link p).st = .trickle → stands d p .wake = true →
      Leads (.wake b p) s ((askWake d p).defer b .device 0x0204 p)) ∧
    (Runs s.dev (.standbyEnter b 1 die ports) b (pwrCmd 0x0A03) = true → idleComps d = true → d.pwr.level = 0 →
      e = { d with pwr := { d.pwr with
        asked := (d.links.filter fun e => e.2.st == .up).map Prod.fst
        saved := []
        exitPh := false } } →
      Leads (.standbyEnter b 1 die ports) s
        (pollEntry ((foldOver (((d.links.filter fun e => e.2.st == .up).map Prod.fst).filter (trickleOk e)) e fun p d => askTrickle d p).defer
          b .device 0x0A03 1 die))) ∧
    ((level = 1 ∨ level = 2) → d.mgmt.running = [] → d.pwr.asked = [] →
      pollEntry (d.defer b .device 0x0A03 level w) = (pwrNotice (standbyOff (d.defer b .device 0x0A03 level w) level w)).finish 0x0A03 level .ok 0 0
        (notTrickled (standbyOff (d.defer b .device 0x0A03 level w) level w))) ∧
    (Runs s.dev (.standbyExit b) b (pwrCmd 0x0A04) = true → d.pwr.level = 0 → Leads (.standbyExit b) s (d.reply b 0x0A04 .ok)) ∧
    (Runs s.dev (.standbyExit b) b (pwrCmd 0x0A04) = true → d.pwr.level ≠ 0 →
      e = { d with pwr := { d.pwr with
        toSeq := seqOrder.filter fun p => d.pwr.toSeq.contains p || (d.pwr.offByLevel.contains p && !d.domOn p)
        exitPh := false } } →
      Leads (.standbyExit b) s (pollExit (e.defer b .device 0x0A04 0))) ∧
    (Runs s.dev (.resetPort b p) b (pwrCmd 0x0A06) = true → p < 1024 → trayPort d p = none → isPort d p = true →
      d.domOn (mainDomain (portDie p)) = true → (resetLink d p).enabled p = true →
      Leads (.resetPort b p) s ((linkEnable (resetLink d p) p).defer b .device 0x0A06 p)) ∧
    (Runs s.dev (.resetPort b p) b (pwrCmd 0x0A06) = true → p < 1024 → trayPort d p = none → isPort d p = true →
      d.domOn (mainDomain (portDie p)) = true → (resetLink d p).enabled p = false →
      Leads (.resetPort b p) s (((resetLink d p).notice 0x0A06 (resetLink d p).kpDie none 2 p 0).reply b 0x0A06 .ok)) ∧
    (Runs s.dev (.resetPort b p) b (pwrCmd 0x0A06) = true → p < 1024 → trayPort d p = some link →
      d.domOn (mainDomain (portDie p)) = true → Leads (.resetPort b p) s ((resetTray d link).defer b .device 0x0A06 p)) ∧
    (s.dev.isRunning 0x0A06 p = true →
      Does (.resetPortReplyTimeout p) s ((s.dev.notice 0x0A06 s.dev.kpDie none 2 p 0).finish 0x0A06 p .ok)) ∧
    ((s.dev.tray link).perst = true →
      Does (.perstHoldEnd link) s (resetPortDone (s.dev.modTray link fun t => { t with perst := false }) (8 * trayOct link))) ∧
    (Runs s.dev (.resetChase b chase) b (pwrCmd 0x0A05) = true → (d.comp chase).bound = true →
      Leads (.resetChase b chase) s (pollChaseReset ((d.modComp chase fun x => { x with suspended := true }).defer b .device 0x0A05 chase))) ∧
    (Runs s.dev (.resetDie b die false hot) b (pwrCmd 0x0A07) = true → die < 29 →
      ((dieDomains die).any fun p => bit d.pwr.trip p && hot.contains p) = false → d.lost die = false → dieMayStop d die = true →
      Leads (.resetDie b die false hot) s ((cycleDie d die).defer b .device 0x0A07 die)) ∧
    (Runs s.dev (.resetDie b die false hot) b (pwrCmd 0x0A07) = true → die = 29 + n → n < 2 →
      ((dieDomains die).any fun p => bit d.pwr.trip p && hot.contains p) = false → d.mgmt.active = some (1 - n) →
      Leads (.resetDie b die false hot) s ((cycleKeeper d n).defer b .device 0x0A07 die))

/-- Package resets, boot and modes (R444–R447, R516, R565, R580, R582, R585–R589, R592, R601, R613): a reset command is answered first; a cold reset
leaves the meter, the fuses and the boot slots; a warm one keeps the error log, fabric time's rate and the ports in TRICKLE; a keeper boots from
the slot SEL names or the other, and stays in ROM with neither; the first to report becomes active and starts the device up; the start record is
saved and dropped; SERVICE and PROOF; the test port's instruction. -/
def Obligations.PackageResetsAndBoot : Prop :=
  ∀ (s : State) (b : Bas) (d : Dev) (n k : Nat) (slot power sel : Bool), d = heard s.dev b →
    (Runs s.dev (.resetWarm b) b (pwrCmd 0x0A08) = true → d.mgmt.activating = false →
      Leads (.resetWarm b) s { d.reply b 0x0A08 .ok with pwr := { (d.reply b 0x0A08 .ok).pwr with rstPend := some false } }) ∧
    (Runs s.dev (.resetCold b) b (pwrCmd 0x0A09) = true → d.mgmt.activating = false →
      Leads (.resetCold b) s { d.reply b 0x0A09 .ok with pwr := { (d.reply b 0x0A09 .ok).pwr with rstPend := some true } }) ∧
    (s.dev.pwr.rstPend = some true → Does .resetBegin s (coldReset s.dev 0x03 false)) ∧
    (s.dev.pwr.rstPend = some false → Does .resetBegin s (warmReset s.dev 0x04)) ∧
    (∃ t, exec (.coldResetAssert power) s = .next t ∧ t.dev.pwr.porst = true ∧ t.dev.pwr.mode = .booting ∧
      t.dev.pwr.lastRst = (if power then 0x01 else 0x02) ∧ t.dev.links = [] ∧ t.dev.pool = {} ∧ t.dev.imp = {} ∧ t.dev.marks = {} ∧
      t.dev.press = {} ∧ t.dev.core = {} ∧ t.dev.flt = {} ∧ t.dev.cnt = [] ∧ t.dev.meter = s.dev.meter ∧
      t.dev.mgmt.owner = s.dev.mgmt.owner ∧ t.dev.mgmt.sessions = [] ∧ t.dev.mgmt.active = none ∧ t.dev.mgmt.fuseSvn = s.dev.mgmt.fuseSvn) ∧
    (∃ t, exec .coldResetRelease s = .next t ∧ t.dev = { (s.put s.dev).dev with pwr := { s.dev.pwr with porst := false } }) ∧
    (s.dev.pwr.porst = false → s.dev.pwr.mode ≠ .booting →
      ∃ t, exec .warmResetInput s = .next t ∧ t.dev.pwr.mode = .booting ∧ t.dev.pwr.lastRst = 0x05 ∧ t.dev.pwr.warmCnt = s.dev.pwr.warmCnt + 1 ∧
        t.dev.flt.ring = s.dev.flt.ring ∧ t.dev.flt.fatal = s.dev.flt.fatal ∧ t.dev.pool = {} ∧ t.dev.imp = {} ∧
        t.dev.time.rate = s.dev.time.rate ∧ t.dev.mgmt.active = none) ∧
    (mayBoot s.dev n = true → s.dev.mgmt.udsLocked = true → (s.dev.mgmt.keeper n).bootTo = none →
      Leads (.keeperBoot n true sel true) s (keeperUp (runSlot s.dev n (s.dev.mgmt.keeper n).selB) n)) ∧
    (mayBoot s.dev n = true → s.dev.mgmt.udsLocked = true → Leads (.keeperBoot n false false true) s (stayInRom s.dev n)) ∧
    (s.dev.mgmt.active = none → s.dev.mgmt.takeover = none → s.dev.mgmt.actSlot = none → n < 2 → s.dev.pwr.mode = .booting →
      s.dev.meter.gens = [] → s.dev.flt.fatal = false → s.dev.pwr.thermShut = false →
      (keeperUp s.dev n).mgmt.active = some n ∧ ((keeperUp s.dev n).mgmt.keeper n).booted = true ∧ (keeperUp s.dev n).pwr.mode = .proof ∧
      (keeperUp s.dev n).pwr.seqRun = true) ∧
    (mayBoot s.dev n = true → ((s.dev.mgmt.keeper n).altBoot = true ∨ slot = false) →
      Leads (.bootReadyTimeout n slot) s (stayInRom s.dev n)) ∧
    (Runs s.dev (.bootSelect b slot) b (pwrCmd 0x0A0B) = true → slotValid d slot = true →
      ∃ e : Dev, Leads (.bootSelect b slot) s (e.reply b 0x0A0B .ok) ∧ e.mgmt.kp0.selB = slot ∧ e.mgmt.kp1.selB = slot ∧ e.mgmt.actPend = false) ∧
    (Runs s.dev (.startSave b slot) b (pwrCmd 0x0A0C) = true →
      Leads (.startSave b slot) s ({ d with pwr := { d.pwr with start := some (startRecord d slot) } }.reply b 0x0A0C .ok)) ∧
    (Runs s.dev (.startClear b) b (pwrCmd 0x0A0D) = true →
      Leads (.startClear b) s ({ d with pwr := { d.pwr with start := none } }.reply b 0x0A0D .ok)) ∧
    (Runs s.dev (.serviceEnter b) b (devCmd 0x0E10) = true → stest d = false → d.pwr.mode ≠ .shutdown →
      Leads (.serviceEnter b) s ((setMode { d with pwr := { d.pwr with autoDue := false } } .service).reply b 0x0E10 .ok)) ∧
    (Runs s.dev (.proofEnter b) b (devCmd 0x0E11) = true → d.pwr.mode ≠ .shutdown →
      Leads (.proofEnter b) s (setMode ({ d with pwr := { d.pwr with autoDue := false } }.reply b 0x0E11 .ok) .proof)) ∧
    (s.dev.pwr.autoDue = true → s.dev.mgmt.active ≠ none → s.dev.pwr.mode = .proof → s.dev.pwr.startApplied = true → stest s.dev = false →
      (s.dev.pwr.autoEnd = true → Does .autoService s (setMode { s.dev with pwr := { s.dev.pwr with autoDue := false } } .service)) ∧
      (∃ t, exec .autosvcTimeout s = .next t ∧ t.dev.pwr.mode = .service ∧ t.dev.pwr.autoEnd = true ∧ t.dev.pwr.autoDue = false)) ∧
    (∃ t, exec (.tapInstruction k) s = .next t ∧ t.dev = { (s.put s.dev).dev with pwr := { s.dev.pwr with tap := k } }) ∧
    (s.dev.pwr.mode = .service → 3 ≤ s.dev.pwr.tap → tapEffect s.dev = 0)
end

