-- ==== Sys2Proof/Laws/Word.lean ====
section
/-! SUPPORT. Laws of the sparse tables, of bit fields and of saturating counters. -/

namespace Sys2Proof

/-! ### Tables: what a write leaves to read -/

theorem tfind_tput_same {α : Type} (t : Tbl α) (k : Nat) (v : α) : tfind (tput t k v) k = some v := by
  induction t with
  | nil => simp [tput, tfind]
  | cons e r ih =>
    obtain ⟨k', v'⟩ := e
    simp only [tput]
    split
    · simp [tfind]
    · split
      · simp [tfind]
      · rename_i h; simp [tfind, h, ih]

theorem tfind_tput_other {α : Type} (t : Tbl α) (k j : Nat) (v : α) (h : j ≠ k) : tfind (tput t k v) j = tfind t j := by
  induction t with
  | nil => simp [tput, tfind, Ne.symm h]
  | cons e r ih =>
    obtain ⟨k', v'⟩ := e
    simp only [tput]
    split
    · simp [tfind, Ne.symm h]
    · split
      · rename_i hk; subst hk; simp [tfind, Ne.symm h]
      · simp [tfind, ih]

@[simp] theorem tget_tput_same {α : Type} (x : α) (t : Tbl α) (k : Nat) (v : α) : tget x (tput t k v) k = v := by
  simp [tget, tfind_tput_same]

theorem tget_tput_other {α : Type} (x : α) (t : Tbl α) (k j : Nat) (v : α) (h : j ≠ k) : tget x (tput t k v) j = tget x t j := by
  simp [tget, tfind_tput_other _ _ _ _ h]

@[simp] theorem tget_nil {α : Type} (x : α) (k : Nat) : tget x ([] : Tbl α) k = x := rfl

@[simp] theorem tget_tmod_same {α : Type} (x : α) (t : Tbl α) (k : Nat) (f : α → α) : tget x (tmod x t k f) k = f (tget x t k) := by
  simp [tmod]

theorem tget_tmod_other {α : Type} (x : α) (t : Tbl α) (k j : Nat) (f : α → α) (h : j ≠ k) :
    tget x (tmod x t k f) j = tget x t j := by
  simp [tmod, tget_tput_other _ _ _ _ _ h]

/-! ### Tables: the canonical form -/

theorem rising_cons (a : Nat) (l : List Nat) : rising (a :: l) = true ↔ (∀ b ∈ l, a < b) ∧ rising l = true := by
  induction l generalizing a with
  | nil => simp [rising]
  | cons b r ih =>
    simp only [rising, Bool.and_eq_true, decide_eq_true_eq, List.mem_cons, forall_eq_or_imp]
    constructor
    · rintro ⟨h, hr⟩
      exact ⟨⟨h, fun c hc => lt_trans h (((ih b).1 hr).1 c hc)⟩, hr⟩
    · rintro ⟨⟨h, _⟩, hr⟩
      exact ⟨h, hr⟩

theorem tput_keys {α : Type} (t : Tbl α) (k j : Nat) (v : α) (h : j ∈ (tput t k v).map Prod.fst) : j = k ∨ j ∈ t.map Prod.fst := by
  induction t with
  | nil => simp_all [tput]
  | cons e r ih =>
    obtain ⟨k', v'⟩ := e
    simp only [tput] at h
    split at h
    · simpa using h
    · split at h
      · rename_i hk; subst hk; simp at h ⊢; tauto
      · simp only [List.map_cons, List.mem_cons] at h ⊢
        rcases h with h | h
        · exact .inr (.inl h)
        · rcases ih h with h | h
          · exact .inl h
          · exact .inr (.inr h)

theorem tdel_keys {α : Type} (t : Tbl α) (k j : Nat) (h : j ∈ (tdel t k).map Prod.fst) : j ∈ t.map Prod.fst := by
  induction t with
  | nil => simp_all [tdel]
  | cons e r ih =>
    obtain ⟨k', v'⟩ := e
    simp only [tdel] at h
    split at h
    · exact List.mem_cons_of_mem _ h
    · simp only [List.map_cons, List.mem_cons] at h ⊢
      exact h.imp id ih

theorem twf_tput {α : Type} (t : Tbl α) (k : Nat) (v : α) (h : twf t = true) : twf (tput t k v) = true := by
  induction t with
  | nil => simp [tput, twf, rising]
  | cons e r ih =>
    obtain ⟨k', v'⟩ := e
    simp only [twf, List.map_cons] at h ih ⊢
    obtain ⟨hall, hr⟩ := (rising_cons _ _).1 h
    simp only [tput]
    split
    · rename_i hk
      refine (rising_cons _ _).2 ⟨fun b hb => ?_, h⟩
      simp only [List.map_cons, List.mem_cons] at hb
      rcases hb with rfl | hb
      · exact hk
      · exact hk.trans (hall b hb)
    · split
      · rename_i hk; subst hk; exact (rising_cons _ _).2 ⟨hall, hr⟩
      · rename_i h1 h2
        refine (rising_cons _ _).2 ⟨fun b hb => ?_, ih hr⟩
        rcases tput_keys r k b v hb with rfl | hb
        · omega
        · exact hall b hb

theorem twf_tdel {α : Type} (t : Tbl α) (k : Nat) (h : twf t = true) : twf (tdel t k) = true := by
  induction t with
  | nil => simp [tdel, twf, rising]
  | cons e r ih =>
    obtain ⟨k', v'⟩ := e
    simp only [twf, List.map_cons] at h ih ⊢
    obtain ⟨hall, hr⟩ := (rising_cons _ _).1 h
    simp only [tdel]
    split
    · exact hr
    · exact (rising_cons _ _).2 ⟨fun b hb => hall b (tdel_keys r k b hb), ih hr⟩

theorem tfind_none_of_lt {α : Type} (t : Tbl α) (k : Nat) (h : ∀ b ∈ t.map Prod.fst, k < b) : tfind t k = none := by
  induction t with
  | nil => rfl
  | cons e r ih =>
    obtain ⟨k', v'⟩ := e
    have hk : k < k' := h k' (by simp)
    simp only [tfind, Nat.ne_of_gt hk, if_false]
    exact ih fun b hb => h b (List.mem_cons_of_mem _ hb)

theorem tfind_tdel_same {α : Type} (t : Tbl α) (k : Nat) (h : twf t = true) : tfind (tdel t k) k = none := by
  induction t with
  | nil => rfl
  | cons e r ih =>
    obtain ⟨k', v'⟩ := e
    simp only [twf, List.map_cons] at h ih
    obtain ⟨hall, hr⟩ := (rising_cons _ _).1 h
    simp only [tdel]
    split
    · rename_i hk; subst hk; exact tfind_none_of_lt r _ hall
    · rename_i hk; simp [tfind, hk, ih hr]

theorem tfind_tdel_other {α : Type} (t : Tbl α) (k j : Nat) (h : j ≠ k) : tfind (tdel t k) j = tfind t j := by
  induction t with
  | nil => rfl
  | cons e r ih =>
    obtain ⟨k', v'⟩ := e
    simp only [tdel]
    split
    · rename_i hk; subst hk; simp [tfind, Ne.symm h]
    · simp [tfind, ih]

/-! ### Lists -/

theorem dropFirst_none {α : Type} (p : α → Bool) (l : List α) (h : ∀ x ∈ l, p x = false) : dropFirst p l = l := by
  induction l with
  | nil => rfl
  | cons a r ih => simp [dropFirst, h a (by simp), ih fun x hx => h x (List.mem_cons_of_mem _ hx)]

@[simp] theorem mapIf_length {α : Type} (p : α → Bool) (f : α → α) (l : List α) : (mapIf p f l).length = l.length := by
  simp [mapIf]

@[simp] theorem mapIf_nil {α : Type} (p : α → Bool) (f : α → α) : mapIf p f [] = [] := rfl

/-! ### Counters (R114) -/

theorem satAdd64_le (c : W64) (n : Nat) : c.toNat ≤ (satAdd64 c n).toNat := by
  have h := c.isLt
  unfold satAdd64
  split
  · rename_i hlt; rw [BitVec.toNat_ofNat, Nat.mod_eq_of_lt hlt]; omega
  · simp; omega

theorem satAdd64_exact (c : W64) (n : Nat) (h : c.toNat + n < 2 ^ 64) : (satAdd64 c n).toNat = c.toNat + n := by
  rw [satAdd64, if_pos h, BitVec.toNat_ofNat, Nat.mod_eq_of_lt h]

theorem satAdd64_top (c : W64) (n : Nat) (h : 2 ^ 64 ≤ c.toNat + n) : satAdd64 c n = BitVec.allOnes 64 := by
  rw [satAdd64, if_neg (Nat.not_lt.2 h)]

end Sys2Proof
end

