-- ==== Sys2Proof/Laws/State.lean ====
section
/-! SUPPORT. One lemma per field per update of the state: what an update leaves as it was, and what it writes. -/

namespace Sys2Proof.Machine
open Sys2Proof

variable (d : Dev) (s : State)

@[simp] theorem Dev.setReg_clk (r : RegName) (ix v : Nat) : (d.setReg r ix v).clk = d.clk := rfl
@[simp] theorem Dev.setReg_free (r : RegName) (ix v : Nat) : (d.setReg r ix v).free = d.free := rfl
@[simp] theorem Dev.setReg_cnt (r : RegName) (ix v : Nat) : (d.setReg r ix v).cnt = d.cnt := rfl
@[simp] theorem Dev.setReg_chk (r : RegName) (ix v : Nat) : (d.setReg r ix v).chk = d.chk := rfl
@[simp] theorem Dev.setReg_out (r : RegName) (ix v : Nat) : (d.setReg r ix v).out = d.out := rfl
@[simp] theorem Dev.setReg_links (r : RegName) (ix v : Nat) : (d.setReg r ix v).links = d.links := rfl
@[simp] theorem Dev.setReg_trays (r : RegName) (ix v : Nat) : (d.setReg r ix v).trays = d.trays := rfl
@[simp] theorem Dev.setReg_arrived (r : RegName) (ix v : Nat) : (d.setReg r ix v).arrived = d.arrived := rfl
@[simp] theorem Dev.setReg_tfp (r : RegName) (ix v : Nat) : (d.setReg r ix v).tfp = d.tfp := rfl
@[simp] theorem Dev.setReg_core (r : RegName) (ix v : Nat) : (d.setReg r ix v).core = d.core := rfl
@[simp] theorem Dev.setReg_sched (r : RegName) (ix v : Nat) : (d.setReg r ix v).sched = d.sched := rfl
@[simp] theorem Dev.setReg_time (r : RegName) (ix v : Nat) : (d.setReg r ix v).time = d.time := rfl
@[simp] theorem Dev.setReg_imp (r : RegName) (ix v : Nat) : (d.setReg r ix v).imp = d.imp := rfl
@[simp] theorem Dev.setReg_pool (r : RegName) (ix v : Nat) : (d.setReg r ix v).pool = d.pool := rfl
@[simp] theorem Dev.setReg_marks (r : RegName) (ix v : Nat) : (d.setReg r ix v).marks = d.marks := rfl
@[simp] theorem Dev.setReg_press (r : RegName) (ix v : Nat) : (d.setReg r ix v).press = d.press := rfl
@[simp] theorem Dev.setReg_flt (r : RegName) (ix v : Nat) : (d.setReg r ix v).flt = d.flt := rfl
@[simp] theorem Dev.setReg_mgmt (r : RegName) (ix v : Nat) : (d.setReg r ix v).mgmt = d.mgmt := rfl
@[simp] theorem Dev.setReg_pwr (r : RegName) (ix v : Nat) : (d.setReg r ix v).pwr = d.pwr := rfl
@[simp] theorem Dev.setReg_meter (r : RegName) (ix v : Nat) : (d.setReg r ix v).meter = d.meter := rfl
@[simp] theorem Dev.setReg_snap (r : RegName) (ix v : Nat) : (d.setReg r ix v).snap = d.snap := rfl
@[simp] theorem Dev.setReg_exp (r : RegName) (ix v : Nat) : (d.setReg r ix v).exp = d.exp := rfl
@[simp] theorem Dev.setReg_expPort (r : RegName) (ix v : Nat) : (d.setReg r ix v).expPort = d.expPort := rfl
@[simp] theorem Dev.setReg_link (r : RegName) (ix v : Nat) (q_ : Nat) : (d.setReg r ix v).link q_ = d.link q_ := rfl
@[simp] theorem Dev.setReg_comp (r : RegName) (ix v : Nat) (q_ : Nat) : (d.setReg r ix v).comp q_ = d.comp q_ := rfl
@[simp] theorem Dev.setReg_mark (r : RegName) (ix v : Nat) (q_ : Nat) : (d.setReg r ix v).mark q_ = d.mark q_ := rfl
@[simp] theorem Dev.setReg_counter (r : RegName) (ix v : Nat) (q_ : CntName) (x_ : Nat) : (d.setReg r ix v).counter q_ x_ = d.counter q_ x_ := rfl

@[simp] theorem Dev.countN_clk (c : CntName) (u n : Nat) : (d.countN c u n).clk = d.clk := rfl
@[simp] theorem Dev.countN_free (c : CntName) (u n : Nat) : (d.countN c u n).free = d.free := rfl
@[simp] theorem Dev.countN_cfg (c : CntName) (u n : Nat) : (d.countN c u n).cfg = d.cfg := rfl
@[simp] theorem Dev.countN_chk (c : CntName) (u n : Nat) : (d.countN c u n).chk = d.chk := rfl
@[simp] theorem Dev.countN_out (c : CntName) (u n : Nat) : (d.countN c u n).out = d.out := rfl
@[simp] theorem Dev.countN_links (c : CntName) (u n : Nat) : (d.countN c u n).links = d.links := rfl
@[simp] theorem Dev.countN_trays (c : CntName) (u n : Nat) : (d.countN c u n).trays = d.trays := rfl
@[simp] theorem Dev.countN_arrived (c : CntName) (u n : Nat) : (d.countN c u n).arrived = d.arrived := rfl
@[simp] theorem Dev.countN_tfp (c : CntName) (u n : Nat) : (d.countN c u n).tfp = d.tfp := rfl
@[simp] theorem Dev.countN_core (c : CntName) (u n : Nat) : (d.countN c u n).core = d.core := rfl
@[simp] theorem Dev.countN_sched (c : CntName) (u n : Nat) : (d.countN c u n).sched = d.sched := rfl
@[simp] theorem Dev.countN_time (c : CntName) (u n : Nat) : (d.countN c u n).time = d.time := rfl
@[simp] theorem Dev.countN_imp (c : CntName) (u n : Nat) : (d.countN c u n).imp = d.imp := rfl
@[simp] theorem Dev.countN_pool (c : CntName) (u n : Nat) : (d.countN c u n).pool = d.pool := rfl
@[simp] theorem Dev.countN_marks (c : CntName) (u n : Nat) : (d.countN c u n).marks = d.marks := rfl
@[simp] theorem Dev.countN_press (c : CntName) (u n : Nat) : (d.countN c u n).press = d.press := rfl
@[simp] theorem Dev.countN_flt (c : CntName) (u n : Nat) : (d.countN c u n).flt = d.flt := rfl
@[simp] theorem Dev.countN_mgmt (c : CntName) (u n : Nat) : (d.countN c u n).mgmt = d.mgmt := rfl
@[simp] theorem Dev.countN_pwr (c : CntName) (u n : Nat) : (d.countN c u n).pwr = d.pwr := rfl
@[simp] theorem Dev.countN_meter (c : CntName) (u n : Nat) : (d.countN c u n).meter = d.meter := rfl
@[simp] theorem Dev.countN_snap (c : CntName) (u n : Nat) : (d.countN c u n).snap = d.snap := rfl
@[simp] theorem Dev.countN_exp (c : CntName) (u n : Nat) : (d.countN c u n).exp = d.exp := rfl
@[simp] theorem Dev.countN_expPort (c : CntName) (u n : Nat) : (d.countN c u n).expPort = d.expPort := rfl
@[simp] theorem Dev.countN_link (c : CntName) (u n : Nat) (q_ : Nat) : (d.countN c u n).link q_ = d.link q_ := rfl
@[simp] theorem Dev.countN_comp (c : CntName) (u n : Nat) (q_ : Nat) : (d.countN c u n).comp q_ = d.comp q_ := rfl
@[simp] theorem Dev.countN_mark (c : CntName) (u n : Nat) (q_ : Nat) : (d.countN c u n).mark q_ = d.mark q_ := rfl
@[simp] theorem Dev.countN_fld (c : CntName) (u n : Nat) (q_ : RegName) (x_ y_ z_ : Nat) : (d.countN c u n).fld q_ x_ y_ z_ = d.fld q_ x_ y_ z_ := rfl
@[simp] theorem Dev.countN_flag (c : CntName) (u n : Nat) (q_ : RegName) (x_ y_ : Nat) : (d.countN c u n).flag q_ x_ y_ = d.flag q_ x_ y_ := rfl

@[simp] theorem Dev.count_clk (c : CntName) (u : Nat) : (d.count c u).clk = d.clk := rfl
@[simp] theorem Dev.count_free (c : CntName) (u : Nat) : (d.count c u).free = d.free := rfl
@[simp] theorem Dev.count_cfg (c : CntName) (u : Nat) : (d.count c u).cfg = d.cfg := rfl
@[simp] theorem Dev.count_chk (c : CntName) (u : Nat) : (d.count c u).chk = d.chk := rfl
@[simp] theorem Dev.count_out (c : CntName) (u : Nat) : (d.count c u).out = d.out := rfl
@[simp] theorem Dev.count_links (c : CntName) (u : Nat) : (d.count c u).links = d.links := rfl
@[simp] theorem Dev.count_trays (c : CntName) (u : Nat) : (d.count c u).trays = d.trays := rfl
@[simp] theorem Dev.count_arrived (c : CntName) (u : Nat) : (d.count c u).arrived = d.arrived := rfl
@[simp] theorem Dev.count_tfp (c : CntName) (u : Nat) : (d.count c u).tfp = d.tfp := rfl
@[simp] theorem Dev.count_core (c : CntName) (u : Nat) : (d.count c u).core = d.core := rfl
@[simp] theorem Dev.count_sched (c : CntName) (u : Nat) : (d.count c u).sched = d.sched := rfl
@[simp] theorem Dev.count_time (c : CntName) (u : Nat) : (d.count c u).time = d.time := rfl
@[simp] theorem Dev.count_imp (c : CntName) (u : Nat) : (d.count c u).imp = d.imp := rfl
@[simp] theorem Dev.count_pool (c : CntName) (u : Nat) : (d.count c u).pool = d.pool := rfl
@[simp] theorem Dev.count_marks (c : CntName) (u : Nat) : (d.count c u).marks = d.marks := rfl
@[simp] theorem Dev.count_press (c : CntName) (u : Nat) : (d.count c u).press = d.press := rfl
@[simp] theorem Dev.count_flt (c : CntName) (u : Nat) : (d.count c u).flt = d.flt := rfl
@[simp] theorem Dev.count_mgmt (c : CntName) (u : Nat) : (d.count c u).mgmt = d.mgmt := rfl
@[simp] theorem Dev.count_pwr (c : CntName) (u : Nat) : (d.count c u).pwr = d.pwr := rfl
@[simp] theorem Dev.count_meter (c : CntName) (u : Nat) : (d.count c u).meter = d.meter := rfl
@[simp] theorem Dev.count_snap (c : CntName) (u : Nat) : (d.count c u).snap = d.snap := rfl
@[simp] theorem Dev.count_exp (c : CntName) (u : Nat) : (d.count c u).exp = d.exp := rfl
@[simp] theorem Dev.count_expPort (c : CntName) (u : Nat) : (d.count c u).expPort = d.expPort := rfl
@[simp] theorem Dev.count_link (c : CntName) (u : Nat) (q_ : Nat) : (d.count c u).link q_ = d.link q_ := rfl
@[simp] theorem Dev.count_comp (c : CntName) (u : Nat) (q_ : Nat) : (d.count c u).comp q_ = d.comp q_ := rfl
@[simp] theorem Dev.count_mark (c : CntName) (u : Nat) (q_ : Nat) : (d.count c u).mark q_ = d.mark q_ := rfl
@[simp] theorem Dev.count_fld (c : CntName) (u : Nat) (q_ : RegName) (x_ y_ z_ : Nat) : (d.count c u).fld q_ x_ y_ z_ = d.fld q_ x_ y_ z_ := rfl
@[simp] theorem Dev.count_flag (c : CntName) (u : Nat) (q_ : RegName) (x_ y_ : Nat) : (d.count c u).flag q_ x_ y_ = d.flag q_ x_ y_ := rfl

@[simp] theorem Dev.emit_clk (e : Emit) : (d.emit e).clk = d.clk := rfl
@[simp] theorem Dev.emit_free (e : Emit) : (d.emit e).free = d.free := rfl
@[simp] theorem Dev.emit_cfg (e : Emit) : (d.emit e).cfg = d.cfg := rfl
@[simp] theorem Dev.emit_cnt (e : Emit) : (d.emit e).cnt = d.cnt := rfl
@[simp] theorem Dev.emit_chk (e : Emit) : (d.emit e).chk = d.chk := rfl
@[simp] theorem Dev.emit_links (e : Emit) : (d.emit e).links = d.links := rfl
@[simp] theorem Dev.emit_trays (e : Emit) : (d.emit e).trays = d.trays := rfl
@[simp] theorem Dev.emit_arrived (e : Emit) : (d.emit e).arrived = d.arrived := rfl
@[simp] theorem Dev.emit_tfp (e : Emit) : (d.emit e).tfp = d.tfp := rfl
@[simp] theorem Dev.emit_core (e : Emit) : (d.emit e).core = d.core := rfl
@[simp] theorem Dev.emit_sched (e : Emit) : (d.emit e).sched = d.sched := rfl
@[simp] theorem Dev.emit_time (e : Emit) : (d.emit e).time = d.time := rfl
@[simp] theorem Dev.emit_imp (e : Emit) : (d.emit e).imp = d.imp := rfl
@[simp] theorem Dev.emit_pool (e : Emit) : (d.emit e).pool = d.pool := rfl
@[simp] theorem Dev.emit_marks (e : Emit) : (d.emit e).marks = d.marks := rfl
@[simp] theorem Dev.emit_press (e : Emit) : (d.emit e).press = d.press := rfl
@[simp] theorem Dev.emit_flt (e : Emit) : (d.emit e).flt = d.flt := rfl
@[simp] theorem Dev.emit_mgmt (e : Emit) : (d.emit e).mgmt = d.mgmt := rfl
@[simp] theorem Dev.emit_pwr (e : Emit) : (d.emit e).pwr = d.pwr := rfl
@[simp] theorem Dev.emit_meter (e : Emit) : (d.emit e).meter = d.meter := rfl
@[simp] theorem Dev.emit_snap (e : Emit) : (d.emit e).snap = d.snap := rfl
@[simp] theorem Dev.emit_exp (e : Emit) : (d.emit e).exp = d.exp := rfl
@[simp] theorem Dev.emit_expPort (e : Emit) : (d.emit e).expPort = d.expPort := rfl
@[simp] theorem Dev.emit_link (e : Emit) (q_ : Nat) : (d.emit e).link q_ = d.link q_ := rfl
@[simp] theorem Dev.emit_comp (e : Emit) (q_ : Nat) : (d.emit e).comp q_ = d.comp q_ := rfl
@[simp] theorem Dev.emit_mark (e : Emit) (q_ : Nat) : (d.emit e).mark q_ = d.mark q_ := rfl
@[simp] theorem Dev.emit_fld (e : Emit) (q_ : RegName) (x_ y_ z_ : Nat) : (d.emit e).fld q_ x_ y_ z_ = d.fld q_ x_ y_ z_ := rfl
@[simp] theorem Dev.emit_flag (e : Emit) (q_ : RegName) (x_ y_ : Nat) : (d.emit e).flag q_ x_ y_ = d.flag q_ x_ y_ := rfl
@[simp] theorem Dev.emit_counter (e : Emit) (q_ : CntName) (x_ : Nat) : (d.emit e).counter q_ x_ = d.counter q_ x_ := rfl

@[simp] theorem Dev.tick_free : (d.tick).free = d.free := rfl
@[simp] theorem Dev.tick_cfg : (d.tick).cfg = d.cfg := rfl
@[simp] theorem Dev.tick_cnt : (d.tick).cnt = d.cnt := rfl
@[simp] theorem Dev.tick_chk : (d.tick).chk = d.chk := rfl
@[simp] theorem Dev.tick_out : (d.tick).out = d.out := rfl
@[simp] theorem Dev.tick_links : (d.tick).links = d.links := rfl
@[simp] theorem Dev.tick_trays : (d.tick).trays = d.trays := rfl
@[simp] theorem Dev.tick_arrived : (d.tick).arrived = d.arrived := rfl
@[simp] theorem Dev.tick_tfp : (d.tick).tfp = d.tfp := rfl
@[simp] theorem Dev.tick_core : (d.tick).core = d.core := rfl
@[simp] theorem Dev.tick_sched : (d.tick).sched = d.sched := rfl
@[simp] theorem Dev.tick_imp : (d.tick).imp = d.imp := rfl
@[simp] theorem Dev.tick_pool : (d.tick).pool = d.pool := rfl
@[simp] theorem Dev.tick_marks : (d.tick).marks = d.marks := rfl
@[simp] theorem Dev.tick_press : (d.tick).press = d.press := rfl
@[simp] theorem Dev.tick_flt : (d.tick).flt = d.flt := rfl
@[simp] theorem Dev.tick_mgmt : (d.tick).mgmt = d.mgmt := rfl
@[simp] theorem Dev.tick_pwr : (d.tick).pwr = d.pwr := rfl
@[simp] theorem Dev.tick_meter : (d.tick).meter = d.meter := rfl
@[simp] theorem Dev.tick_snap : (d.tick).snap = d.snap := rfl
@[simp] theorem Dev.tick_exp : (d.tick).exp = d.exp := rfl
@[simp] theorem Dev.tick_expPort : (d.tick).expPort = d.expPort := rfl
@[simp] theorem Dev.tick_link (q_ : Nat) : (d.tick).link q_ = d.link q_ := rfl
@[simp] theorem Dev.tick_comp (q_ : Nat) : (d.tick).comp q_ = d.comp q_ := rfl
@[simp] theorem Dev.tick_mark (q_ : Nat) : (d.tick).mark q_ = d.mark q_ := rfl
@[simp] theorem Dev.tick_fld (q_ : RegName) (x_ y_ z_ : Nat) : (d.tick).fld q_ x_ y_ z_ = d.fld q_ x_ y_ z_ := rfl
@[simp] theorem Dev.tick_flag (q_ : RegName) (x_ y_ : Nat) : (d.tick).flag q_ x_ y_ = d.flag q_ x_ y_ := rfl
@[simp] theorem Dev.tick_counter (q_ : CntName) (x_ : Nat) : (d.tick).counter q_ x_ = d.counter q_ x_ := rfl

@[simp] theorem Dev.account_clk (die c p q n : Nat) : (d.account die c p q n).clk = d.clk := rfl
@[simp] theorem Dev.account_free (die c p q n : Nat) : (d.account die c p q n).free = d.free := rfl
@[simp] theorem Dev.account_cfg (die c p q n : Nat) : (d.account die c p q n).cfg = d.cfg := rfl
@[simp] theorem Dev.account_cnt (die c p q n : Nat) : (d.account die c p q n).cnt = d.cnt := rfl
@[simp] theorem Dev.account_chk (die c p q n : Nat) : (d.account die c p q n).chk = d.chk := rfl
@[simp] theorem Dev.account_out (die c p q n : Nat) : (d.account die c p q n).out = d.out := rfl
@[simp] theorem Dev.account_links (die c p q n : Nat) : (d.account die c p q n).links = d.links := rfl
@[simp] theorem Dev.account_trays (die c p q n : Nat) : (d.account die c p q n).trays = d.trays := rfl
@[simp] theorem Dev.account_arrived (die c p q n : Nat) : (d.account die c p q n).arrived = d.arrived := rfl
@[simp] theorem Dev.account_tfp (die c p q n : Nat) : (d.account die c p q n).tfp = d.tfp := rfl
@[simp] theorem Dev.account_core (die c p q n : Nat) : (d.account die c p q n).core = d.core := rfl
@[simp] theorem Dev.account_sched (die c p q n : Nat) : (d.account die c p q n).sched = d.sched := rfl
@[simp] theorem Dev.account_time (die c p q n : Nat) : (d.account die c p q n).time = d.time := rfl
@[simp] theorem Dev.account_imp (die c p q n : Nat) : (d.account die c p q n).imp = d.imp := rfl
@[simp] theorem Dev.account_pool (die c p q n : Nat) : (d.account die c p q n).pool = d.pool := rfl
@[simp] theorem Dev.account_marks (die c p q n : Nat) : (d.account die c p q n).marks = d.marks := rfl
@[simp] theorem Dev.account_press (die c p q n : Nat) : (d.account die c p q n).press = d.press := rfl
@[simp] theorem Dev.account_flt (die c p q n : Nat) : (d.account die c p q n).flt = d.flt := rfl
@[simp] theorem Dev.account_mgmt (die c p q n : Nat) : (d.account die c p q n).mgmt = d.mgmt := rfl
@[simp] theorem Dev.account_pwr (die c p q n : Nat) : (d.account die c p q n).pwr = d.pwr := rfl
@[simp] theorem Dev.account_meter (die c p q n : Nat) : (d.account die c p q n).meter = d.meter := rfl
@[simp] theorem Dev.account_snap (die c p q n : Nat) : (d.account die c p q n).snap = d.snap := rfl
@[simp] theorem Dev.account_expPort (die c p q n : Nat) : (d.account die c p q n).expPort = d.expPort := rfl
@[simp] theorem Dev.account_link (die c p q n : Nat) (q_ : Nat) : (d.account die c p q n).link q_ = d.link q_ := rfl
@[simp] theorem Dev.account_comp (die c p q n : Nat) (q_ : Nat) : (d.account die c p q n).comp q_ = d.comp q_ := rfl
@[simp] theorem Dev.account_mark (die c p q n : Nat) (q_ : Nat) : (d.account die c p q n).mark q_ = d.mark q_ := rfl
@[simp] theorem Dev.account_fld (die c p q n : Nat) (q_ : RegName) (x_ y_ z_ : Nat) : (d.account die c p q n).fld q_ x_ y_ z_ = d.fld q_ x_ y_ z_ := rfl
@[simp] theorem Dev.account_flag (die c p q n : Nat) (q_ : RegName) (x_ y_ : Nat) : (d.account die c p q n).flag q_ x_ y_ = d.flag q_ x_ y_ := rfl
@[simp] theorem Dev.account_counter (die c p q n : Nat) (q_ : CntName) (x_ : Nat) : (d.account die c p q n).counter q_ x_ = d.counter q_ x_ := rfl

@[simp] theorem Dev.portBytes_clk (p a b : Nat) : (d.portBytes p a b).clk = d.clk := rfl
@[simp] theorem Dev.portBytes_free (p a b : Nat) : (d.portBytes p a b).free = d.free := rfl
@[simp] theorem Dev.portBytes_cfg (p a b : Nat) : (d.portBytes p a b).cfg = d.cfg := rfl
@[simp] theorem Dev.portBytes_cnt (p a b : Nat) : (d.portBytes p a b).cnt = d.cnt := rfl
@[simp] theorem Dev.portBytes_chk (p a b : Nat) : (d.portBytes p a b).chk = d.chk := rfl
@[simp] theorem Dev.portBytes_out (p a b : Nat) : (d.portBytes p a b).out = d.out := rfl
@[simp] theorem Dev.portBytes_links (p a b : Nat) : (d.portBytes p a b).links = d.links := rfl
@[simp] theorem Dev.portBytes_trays (p a b : Nat) : (d.portBytes p a b).trays = d.trays := rfl
@[simp] theorem Dev.portBytes_arrived (p a b : Nat) : (d.portBytes p a b).arrived = d.arrived := rfl
@[simp] theorem Dev.portBytes_tfp (p a b : Nat) : (d.portBytes p a b).tfp = d.tfp := rfl
@[simp] theorem Dev.portBytes_core (p a b : Nat) : (d.portBytes p a b).core = d.core := rfl
@[simp] theorem Dev.portBytes_sched (p a b : Nat) : (d.portBytes p a b).sched = d.sched := rfl
@[simp] theorem Dev.portBytes_time (p a b : Nat) : (d.portBytes p a b).time = d.time := rfl
@[simp] theorem Dev.portBytes_imp (p a b : Nat) : (d.portBytes p a b).imp = d.imp := rfl
@[simp] theorem Dev.portBytes_pool (p a b : Nat) : (d.portBytes p a b).pool = d.pool := rfl
@[simp] theorem Dev.portBytes_marks (p a b : Nat) : (d.portBytes p a b).marks = d.marks := rfl
@[simp] theorem Dev.portBytes_press (p a b : Nat) : (d.portBytes p a b).press = d.press := rfl
@[simp] theorem Dev.portBytes_flt (p a b : Nat) : (d.portBytes p a b).flt = d.flt := rfl
@[simp] theorem Dev.portBytes_mgmt (p a b : Nat) : (d.portBytes p a b).mgmt = d.mgmt := rfl
@[simp] theorem Dev.portBytes_pwr (p a b : Nat) : (d.portBytes p a b).pwr = d.pwr := rfl
@[simp] theorem Dev.portBytes_meter (p a b : Nat) : (d.portBytes p a b).meter = d.meter := rfl
@[simp] theorem Dev.portBytes_snap (p a b : Nat) : (d.portBytes p a b).snap = d.snap := rfl
@[simp] theorem Dev.portBytes_exp (p a b : Nat) : (d.portBytes p a b).exp = d.exp := rfl
@[simp] theorem Dev.portBytes_link (p a b : Nat) (q_ : Nat) : (d.portBytes p a b).link q_ = d.link q_ := rfl
@[simp] theorem Dev.portBytes_comp (p a b : Nat) (q_ : Nat) : (d.portBytes p a b).comp q_ = d.comp q_ := rfl
@[simp] theorem Dev.portBytes_mark (p a b : Nat) (q_ : Nat) : (d.portBytes p a b).mark q_ = d.mark q_ := rfl
@[simp] theorem Dev.portBytes_fld (p a b : Nat) (q_ : RegName) (x_ y_ z_ : Nat) : (d.portBytes p a b).fld q_ x_ y_ z_ = d.fld q_ x_ y_ z_ := rfl
@[simp] theorem Dev.portBytes_flag (p a b : Nat) (q_ : RegName) (x_ y_ : Nat) : (d.portBytes p a b).flag q_ x_ y_ = d.flag q_ x_ y_ := rfl
@[simp] theorem Dev.portBytes_counter (p a b : Nat) (q_ : CntName) (x_ : Nat) : (d.portBytes p a b).counter q_ x_ = d.counter q_ x_ := rfl

@[simp] theorem Dev.corrected_clk (die u n : Nat) : (d.corrected die u n).clk = d.clk := rfl
@[simp] theorem Dev.corrected_free (die u n : Nat) : (d.corrected die u n).free = d.free := rfl
@[simp] theorem Dev.corrected_cfg (die u n : Nat) : (d.corrected die u n).cfg = d.cfg := rfl
@[simp] theorem Dev.corrected_cnt (die u n : Nat) : (d.corrected die u n).cnt = d.cnt := rfl
@[simp] theorem Dev.corrected_chk (die u n : Nat) : (d.corrected die u n).chk = d.chk := rfl
@[simp] theorem Dev.corrected_out (die u n : Nat) : (d.corrected die u n).out = d.out := rfl
@[simp] theorem Dev.corrected_links (die u n : Nat) : (d.corrected die u n).links = d.links := rfl
@[simp] theorem Dev.corrected_trays (die u n : Nat) : (d.corrected die u n).trays = d.trays := rfl
@[simp] theorem Dev.corrected_arrived (die u n : Nat) : (d.corrected die u n).arrived = d.arrived := rfl
@[simp] theorem Dev.corrected_tfp (die u n : Nat) : (d.corrected die u n).tfp = d.tfp := rfl
@[simp] theorem Dev.corrected_core (die u n : Nat) : (d.corrected die u n).core = d.core := rfl
@[simp] theorem Dev.corrected_sched (die u n : Nat) : (d.corrected die u n).sched = d.sched := rfl
@[simp] theorem Dev.corrected_time (die u n : Nat) : (d.corrected die u n).time = d.time := rfl
@[simp] theorem Dev.corrected_imp (die u n : Nat) : (d.corrected die u n).imp = d.imp := rfl
@[simp] theorem Dev.corrected_pool (die u n : Nat) : (d.corrected die u n).pool = d.pool := rfl
@[simp] theorem Dev.corrected_marks (die u n : Nat) : (d.corrected die u n).marks = d.marks := rfl
@[simp] theorem Dev.corrected_press (die u n : Nat) : (d.corrected die u n).press = d.press := rfl
@[simp] theorem Dev.corrected_mgmt (die u n : Nat) : (d.corrected die u n).mgmt = d.mgmt := rfl
@[simp] theorem Dev.corrected_pwr (die u n : Nat) : (d.corrected die u n).pwr = d.pwr := rfl
@[simp] theorem Dev.corrected_meter (die u n : Nat) : (d.corrected die u n).meter = d.meter := rfl
@[simp] theorem Dev.corrected_snap (die u n : Nat) : (d.corrected die u n).snap = d.snap := rfl
@[simp] theorem Dev.corrected_exp (die u n : Nat) : (d.corrected die u n).exp = d.exp := rfl
@[simp] theorem Dev.corrected_expPort (die u n : Nat) : (d.corrected die u n).expPort = d.expPort := rfl
@[simp] theorem Dev.corrected_link (die u n : Nat) (q_ : Nat) : (d.corrected die u n).link q_ = d.link q_ := rfl
@[simp] theorem Dev.corrected_comp (die u n : Nat) (q_ : Nat) : (d.corrected die u n).comp q_ = d.comp q_ := rfl
@[simp] theorem Dev.corrected_mark (die u n : Nat) (q_ : Nat) : (d.corrected die u n).mark q_ = d.mark q_ := rfl
@[simp] theorem Dev.corrected_fld (die u n : Nat) (q_ : RegName) (x_ y_ z_ : Nat) : (d.corrected die u n).fld q_ x_ y_ z_ = d.fld q_ x_ y_ z_ := rfl
@[simp] theorem Dev.corrected_flag (die u n : Nat) (q_ : RegName) (x_ y_ : Nat) : (d.corrected die u n).flag q_ x_ y_ = d.flag q_ x_ y_ := rfl
@[simp] theorem Dev.corrected_counter (die u n : Nat) (q_ : CntName) (x_ : Nat) : (d.corrected die u n).counter q_ x_ = d.counter q_ x_ := rfl

@[simp] theorem Dev.modSession_clk (n : Nat) (f : Session → Session) : (d.modSession n f).clk = d.clk := rfl
@[simp] theorem Dev.modSession_free (n : Nat) (f : Session → Session) : (d.modSession n f).free = d.free := rfl
@[simp] theorem Dev.modSession_cfg (n : Nat) (f : Session → Session) : (d.modSession n f).cfg = d.cfg := rfl
@[simp] theorem Dev.modSession_cnt (n : Nat) (f : Session → Session) : (d.modSession n f).cnt = d.cnt := rfl
@[simp] theorem Dev.modSession_chk (n : Nat) (f : Session → Session) : (d.modSession n f).chk = d.chk := rfl
@[simp] theorem Dev.modSession_out (n : Nat) (f : Session → Session) : (d.modSession n f).out = d.out := rfl
@[simp] theorem Dev.modSession_links (n : Nat) (f : Session → Session) : (d.modSession n f).links = d.links := rfl
@[simp] theorem Dev.modSession_trays (n : Nat) (f : Session → Session) : (d.modSession n f).trays = d.trays := rfl
@[simp] theorem Dev.modSession_arrived (n : Nat) (f : Session → Session) : (d.modSession n f).arrived = d.arrived := rfl
@[simp] theorem Dev.modSession_tfp (n : Nat) (f : Session → Session) : (d.modSession n f).tfp = d.tfp := rfl
@[simp] theorem Dev.modSession_core (n : Nat) (f : Session → Session) : (d.modSession n f).core = d.core := rfl
@[simp] theorem Dev.modSession_sched (n : Nat) (f : Session → Session) : (d.modSession n f).sched = d.sched := rfl
@[simp] theorem Dev.modSession_time (n : Nat) (f : Session → Session) : (d.modSession n f).time = d.time := rfl
@[simp] theorem Dev.modSession_imp (n : Nat) (f : Session → Session) : (d.modSession n f).imp = d.imp := rfl
@[simp] theorem Dev.modSession_pool (n : Nat) (f : Session → Session) : (d.modSession n f).pool = d.pool := rfl
@[simp] theorem Dev.modSession_marks (n : Nat) (f : Session → Session) : (d.modSession n f).marks = d.marks := rfl
@[simp] theorem Dev.modSession_press (n : Nat) (f : Session → Session) : (d.modSession n f).press = d.press := rfl
@[simp] theorem Dev.modSession_flt (n : Nat) (f : Session → Session) : (d.modSession n f).flt = d.flt := rfl
@[simp] theorem Dev.modSession_pwr (n : Nat) (f : Session → Session) : (d.modSession n f).pwr = d.pwr := rfl
@[simp] theorem Dev.modSession_meter (n : Nat) (f : Session → Session) : (d.modSession n f).meter = d.meter := rfl
@[simp] theorem Dev.modSession_snap (n : Nat) (f : Session → Session) : (d.modSession n f).snap = d.snap := rfl
@[simp] theorem Dev.modSession_exp (n : Nat) (f : Session → Session) : (d.modSession n f).exp = d.exp := rfl
@[simp] theorem Dev.modSession_expPort (n : Nat) (f : Session → Session) : (d.modSession n f).expPort = d.expPort := rfl
@[simp] theorem Dev.modSession_link (n : Nat) (f : Session → Session) (q_ : Nat) : (d.modSession n f).link q_ = d.link q_ := rfl
@[simp] theorem Dev.modSession_comp (n : Nat) (f : Session → Session) (q_ : Nat) : (d.modSession n f).comp q_ = d.comp q_ := rfl
@[simp] theorem Dev.modSession_mark (n : Nat) (f : Session → Session) (q_ : Nat) : (d.modSession n f).mark q_ = d.mark q_ := rfl
@[simp] theorem Dev.modSession_fld (n : Nat) (f : Session → Session) (q_ : RegName) (x_ y_ z_ : Nat) : (d.modSession n f).fld q_ x_ y_ z_ = d.fld q_ x_ y_ z_ := rfl
@[simp] theorem Dev.modSession_flag (n : Nat) (f : Session → Session) (q_ : RegName) (x_ y_ : Nat) : (d.modSession n f).flag q_ x_ y_ = d.flag q_ x_ y_ := rfl
@[simp] theorem Dev.modSession_counter (n : Nat) (f : Session → Session) (q_ : CntName) (x_ : Nat) : (d.modSession n f).counter q_ x_ = d.counter q_ x_ := rfl

@[simp] theorem Dev.putNotice_clk (n : Notice) : (d.putNotice n).clk = d.clk := rfl
@[simp] theorem Dev.putNotice_free (n : Notice) : (d.putNotice n).free = d.free := rfl
@[simp] theorem Dev.putNotice_cfg (n : Notice) : (d.putNotice n).cfg = d.cfg := rfl
@[simp] theorem Dev.putNotice_cnt (n : Notice) : (d.putNotice n).cnt = d.cnt := rfl
@[simp] theorem Dev.putNotice_chk (n : Notice) : (d.putNotice n).chk = d.chk := rfl
@[simp] theorem Dev.putNotice_out (n : Notice) : (d.putNotice n).out = d.out := rfl
@[simp] theorem Dev.putNotice_links (n : Notice) : (d.putNotice n).links = d.links := rfl
@[simp] theorem Dev.putNotice_trays (n : Notice) : (d.putNotice n).trays = d.trays := rfl
@[simp] theorem Dev.putNotice_arrived (n : Notice) : (d.putNotice n).arrived = d.arrived := rfl
@[simp] theorem Dev.putNotice_tfp (n : Notice) : (d.putNotice n).tfp = d.tfp := rfl
@[simp] theorem Dev.putNotice_core (n : Notice) : (d.putNotice n).core = d.core := rfl
@[simp] theorem Dev.putNotice_sched (n : Notice) : (d.putNotice n).sched = d.sched := rfl
@[simp] theorem Dev.putNotice_time (n : Notice) : (d.putNotice n).time = d.time := rfl
@[simp] theorem Dev.putNotice_imp (n : Notice) : (d.putNotice n).imp = d.imp := rfl
@[simp] theorem Dev.putNotice_pool (n : Notice) : (d.putNotice n).pool = d.pool := rfl
@[simp] theorem Dev.putNotice_marks (n : Notice) : (d.putNotice n).marks = d.marks := rfl
@[simp] theorem Dev.putNotice_press (n : Notice) : (d.putNotice n).press = d.press := rfl
@[simp] theorem Dev.putNotice_flt (n : Notice) : (d.putNotice n).flt = d.flt := rfl
@[simp] theorem Dev.putNotice_pwr (n : Notice) : (d.putNotice n).pwr = d.pwr := rfl
@[simp] theorem Dev.putNotice_meter (n : Notice) : (d.putNotice n).meter = d.meter := rfl
@[simp] theorem Dev.putNotice_snap (n : Notice) : (d.putNotice n).snap = d.snap := rfl
@[simp] theorem Dev.putNotice_exp (n : Notice) : (d.putNotice n).exp = d.exp := rfl
@[simp] theorem Dev.putNotice_expPort (n : Notice) : (d.putNotice n).expPort = d.expPort := rfl
@[simp] theorem Dev.putNotice_link (n : Notice) (q_ : Nat) : (d.putNotice n).link q_ = d.link q_ := rfl
@[simp] theorem Dev.putNotice_comp (n : Notice) (q_ : Nat) : (d.putNotice n).comp q_ = d.comp q_ := rfl
@[simp] theorem Dev.putNotice_mark (n : Notice) (q_ : Nat) : (d.putNotice n).mark q_ = d.mark q_ := rfl
@[simp] theorem Dev.putNotice_fld (n : Notice) (q_ : RegName) (x_ y_ z_ : Nat) : (d.putNotice n).fld q_ x_ y_ z_ = d.fld q_ x_ y_ z_ := rfl
@[simp] theorem Dev.putNotice_flag (n : Notice) (q_ : RegName) (x_ y_ : Nat) : (d.putNotice n).flag q_ x_ y_ = d.flag q_ x_ y_ := rfl
@[simp] theorem Dev.putNotice_counter (n : Notice) (q_ : CntName) (x_ : Nat) : (d.putNotice n).counter q_ x_ = d.counter q_ x_ := rfl

@[simp] theorem Dev.defer_clk (b : Bas) (x : Dom) (o k a : Nat) : (d.defer b x o k a).clk = d.clk := rfl
@[simp] theorem Dev.defer_free (b : Bas) (x : Dom) (o k a : Nat) : (d.defer b x o k a).free = d.free := rfl
@[simp] theorem Dev.defer_cfg (b : Bas) (x : Dom) (o k a : Nat) : (d.defer b x o k a).cfg = d.cfg := rfl
@[simp] theorem Dev.defer_cnt (b : Bas) (x : Dom) (o k a : Nat) : (d.defer b x o k a).cnt = d.cnt := rfl
@[simp] theorem Dev.defer_chk (b : Bas) (x : Dom) (o k a : Nat) : (d.defer b x o k a).chk = d.chk := rfl
@[simp] theorem Dev.defer_out (b : Bas) (x : Dom) (o k a : Nat) : (d.defer b x o k a).out = d.out := rfl
@[simp] theorem Dev.defer_links (b : Bas) (x : Dom) (o k a : Nat) : (d.defer b x o k a).links = d.links := rfl
@[simp] theorem Dev.defer_trays (b : Bas) (x : Dom) (o k a : Nat) : (d.defer b x o k a).trays = d.trays := rfl
@[simp] theorem Dev.defer_arrived (b : Bas) (x : Dom) (o k a : Nat) : (d.defer b x o k a).arrived = d.arrived := rfl
@[simp] theorem Dev.defer_tfp (b : Bas) (x : Dom) (o k a : Nat) : (d.defer b x o k a).tfp = d.tfp := rfl
@[simp] theorem Dev.defer_core (b : Bas) (x : Dom) (o k a : Nat) : (d.defer b x o k a).core = d.core := rfl
@[simp] theorem Dev.defer_sched (b : Bas) (x : Dom) (o k a : Nat) : (d.defer b x o k a).sched = d.sched := rfl
@[simp] theorem Dev.defer_time (b : Bas) (x : Dom) (o k a : Nat) : (d.defer b x o k a).time = d.time := rfl
@[simp] theorem Dev.defer_imp (b : Bas) (x : Dom) (o k a : Nat) : (d.defer b x o k a).imp = d.imp := rfl
@[simp] theorem Dev.defer_pool (b : Bas) (x : Dom) (o k a : Nat) : (d.defer b x o k a).pool = d.pool := rfl
@[simp] theorem Dev.defer_marks (b : Bas) (x : Dom) (o k a : Nat) : (d.defer b x o k a).marks = d.marks := rfl
@[simp] theorem Dev.defer_press (b : Bas) (x : Dom) (o k a : Nat) : (d.defer b x o k a).press = d.press := rfl
@[simp] theorem Dev.defer_flt (b : Bas) (x : Dom) (o k a : Nat) : (d.defer b x o k a).flt = d.flt := rfl
@[simp] theorem Dev.defer_pwr (b : Bas) (x : Dom) (o k a : Nat) : (d.defer b x o k a).pwr = d.pwr := rfl
@[simp] theorem Dev.defer_meter (b : Bas) (x : Dom) (o k a : Nat) : (d.defer b x o k a).meter = d.meter := rfl
@[simp] theorem Dev.defer_snap (b : Bas) (x : Dom) (o k a : Nat) : (d.defer b x o k a).snap = d.snap := rfl
@[simp] theorem Dev.defer_exp (b : Bas) (x : Dom) (o k a : Nat) : (d.defer b x o k a).exp = d.exp := rfl
@[simp] theorem Dev.defer_expPort (b : Bas) (x : Dom) (o k a : Nat) : (d.defer b x o k a).expPort = d.expPort := rfl
@[simp] theorem Dev.defer_link (b : Bas) (x : Dom) (o k a : Nat) (q_ : Nat) : (d.defer b x o k a).link q_ = d.link q_ := rfl
@[simp] theorem Dev.defer_comp (b : Bas) (x : Dom) (o k a : Nat) (q_ : Nat) : (d.defer b x o k a).comp q_ = d.comp q_ := rfl
@[simp] theorem Dev.defer_mark (b : Bas) (x : Dom) (o k a : Nat) (q_ : Nat) : (d.defer b x o k a).mark q_ = d.mark q_ := rfl
@[simp] theorem Dev.defer_fld (b : Bas) (x : Dom) (o k a : Nat) (q_ : RegName) (x_ y_ z_ : Nat) : (d.defer b x o k a).fld q_ x_ y_ z_ = d.fld q_ x_ y_ z_ := rfl
@[simp] theorem Dev.defer_flag (b : Bas) (x : Dom) (o k a : Nat) (q_ : RegName) (x_ y_ : Nat) : (d.defer b x o k a).flag q_ x_ y_ = d.flag q_ x_ y_ := rfl
@[simp] theorem Dev.defer_counter (b : Bas) (x : Dom) (o k a : Nat) (q_ : CntName) (x_ : Nat) : (d.defer b x o k a).counter q_ x_ = d.counter q_ x_ := rfl

@[simp] theorem Dev.modLink_clk (p : Nat) (f : Link → Link) : (d.modLink p f).clk = d.clk := rfl
@[simp] theorem Dev.modLink_free (p : Nat) (f : Link → Link) : (d.modLink p f).free = d.free := rfl
@[simp] theorem Dev.modLink_cfg (p : Nat) (f : Link → Link) : (d.modLink p f).cfg = d.cfg := rfl
@[simp] theorem Dev.modLink_cnt (p : Nat) (f : Link → Link) : (d.modLink p f).cnt = d.cnt := rfl
@[simp] theorem Dev.modLink_chk (p : Nat) (f : Link → Link) : (d.modLink p f).chk = d.chk := rfl
@[simp] theorem Dev.modLink_out (p : Nat) (f : Link → Link) : (d.modLink p f).out = d.out := rfl
@[simp] theorem Dev.modLink_trays (p : Nat) (f : Link → Link) : (d.modLink p f).trays = d.trays := rfl
@[simp] theorem Dev.modLink_arrived (p : Nat) (f : Link → Link) : (d.modLink p f).arrived = d.arrived := rfl
@[simp] theorem Dev.modLink_tfp (p : Nat) (f : Link → Link) : (d.modLink p f).tfp = d.tfp := rfl
@[simp] theorem Dev.modLink_core (p : Nat) (f : Link → Link) : (d.modLink p f).core = d.core := rfl
@[simp] theorem Dev.modLink_sched (p : Nat) (f : Link → Link) : (d.modLink p f).sched = d.sched := rfl
@[simp] theorem Dev.modLink_time (p : Nat) (f : Link → Link) : (d.modLink p f).time = d.time := rfl
@[simp] theorem Dev.modLink_imp (p : Nat) (f : Link → Link) : (d.modLink p f).imp = d.imp := rfl
@[simp] theorem Dev.modLink_pool (p : Nat) (f : Link → Link) : (d.modLink p f).pool = d.pool := rfl
@[simp] theorem Dev.modLink_marks (p : Nat) (f : Link → Link) : (d.modLink p f).marks = d.marks := rfl
@[simp] theorem Dev.modLink_press (p : Nat) (f : Link → Link) : (d.modLink p f).press = d.press := rfl
@[simp] theorem Dev.modLink_flt (p : Nat) (f : Link → Link) : (d.modLink p f).flt = d.flt := rfl
@[simp] theorem Dev.modLink_mgmt (p : Nat) (f : Link → Link) : (d.modLink p f).mgmt = d.mgmt := rfl
@[simp] theorem Dev.modLink_pwr (p : Nat) (f : Link → Link) : (d.modLink p f).pwr = d.pwr := rfl
@[simp] theorem Dev.modLink_meter (p : Nat) (f : Link → Link) : (d.modLink p f).meter = d.meter := rfl
@[simp] theorem Dev.modLink_snap (p : Nat) (f : Link → Link) : (d.modLink p f).snap = d.snap := rfl
@[simp] theorem Dev.modLink_exp (p : Nat) (f : Link → Link) : (d.modLink p f).exp = d.exp := rfl
@[simp] theorem Dev.modLink_expPort (p : Nat) (f : Link → Link) : (d.modLink p f).expPort = d.expPort := rfl
@[simp] theorem Dev.modLink_comp (p : Nat) (f : Link → Link) (q_ : Nat) : (d.modLink p f).comp q_ = d.comp q_ := rfl
@[simp] theorem Dev.modLink_mark (p : Nat) (f : Link → Link) (q_ : Nat) : (d.modLink p f).mark q_ = d.mark q_ := rfl
@[simp] theorem Dev.modLink_fld (p : Nat) (f : Link → Link) (q_ : RegName) (x_ y_ z_ : Nat) : (d.modLink p f).fld q_ x_ y_ z_ = d.fld q_ x_ y_ z_ := rfl
@[simp] theorem Dev.modLink_flag (p : Nat) (f : Link → Link) (q_ : RegName) (x_ y_ : Nat) : (d.modLink p f).flag q_ x_ y_ = d.flag q_ x_ y_ := rfl
@[simp] theorem Dev.modLink_counter (p : Nat) (f : Link → Link) (q_ : CntName) (x_ : Nat) : (d.modLink p f).counter q_ x_ = d.counter q_ x_ := rfl

@[simp] theorem Dev.modTray_clk (l : Nat) (f : TrayLink → TrayLink) : (d.modTray l f).clk = d.clk := rfl
@[simp] theorem Dev.modTray_free (l : Nat) (f : TrayLink → TrayLink) : (d.modTray l f).free = d.free := rfl
@[simp] theorem Dev.modTray_cfg (l : Nat) (f : TrayLink → TrayLink) : (d.modTray l f).cfg = d.cfg := rfl
@[simp] theorem Dev.modTray_cnt (l : Nat) (f : TrayLink → TrayLink) : (d.modTray l f).cnt = d.cnt := rfl
@[simp] theorem Dev.modTray_chk (l : Nat) (f : TrayLink → TrayLink) : (d.modTray l f).chk = d.chk := rfl
@[simp] theorem Dev.modTray_out (l : Nat) (f : TrayLink → TrayLink) : (d.modTray l f).out = d.out := rfl
@[simp] theorem Dev.modTray_links (l : Nat) (f : TrayLink → TrayLink) : (d.modTray l f).links = d.links := rfl
@[simp] theorem Dev.modTray_arrived (l : Nat) (f : TrayLink → TrayLink) : (d.modTray l f).arrived = d.arrived := rfl
@[simp] theorem Dev.modTray_tfp (l : Nat) (f : TrayLink → TrayLink) : (d.modTray l f).tfp = d.tfp := rfl
@[simp] theorem Dev.modTray_core (l : Nat) (f : TrayLink → TrayLink) : (d.modTray l f).core = d.core := rfl
@[simp] theorem Dev.modTray_sched (l : Nat) (f : TrayLink → TrayLink) : (d.modTray l f).sched = d.sched := rfl
@[simp] theorem Dev.modTray_time (l : Nat) (f : TrayLink → TrayLink) : (d.modTray l f).time = d.time := rfl
@[simp] theorem Dev.modTray_imp (l : Nat) (f : TrayLink → TrayLink) : (d.modTray l f).imp = d.imp := rfl
@[simp] theorem Dev.modTray_pool (l : Nat) (f : TrayLink → TrayLink) : (d.modTray l f).pool = d.pool := rfl
@[simp] theorem Dev.modTray_marks (l : Nat) (f : TrayLink → TrayLink) : (d.modTray l f).marks = d.marks := rfl
@[simp] theorem Dev.modTray_press (l : Nat) (f : TrayLink → TrayLink) : (d.modTray l f).press = d.press := rfl
@[simp] theorem Dev.modTray_flt (l : Nat) (f : TrayLink → TrayLink) : (d.modTray l f).flt = d.flt := rfl
@[simp] theorem Dev.modTray_mgmt (l : Nat) (f : TrayLink → TrayLink) : (d.modTray l f).mgmt = d.mgmt := rfl
@[simp] theorem Dev.modTray_pwr (l : Nat) (f : TrayLink → TrayLink) : (d.modTray l f).pwr = d.pwr := rfl
@[simp] theorem Dev.modTray_meter (l : Nat) (f : TrayLink → TrayLink) : (d.modTray l f).meter = d.meter := rfl
@[simp] theorem Dev.modTray_snap (l : Nat) (f : TrayLink → TrayLink) : (d.modTray l f).snap = d.snap := rfl
@[simp] theorem Dev.modTray_exp (l : Nat) (f : TrayLink → TrayLink) : (d.modTray l f).exp = d.exp := rfl
@[simp] theorem Dev.modTray_expPort (l : Nat) (f : TrayLink → TrayLink) : (d.modTray l f).expPort = d.expPort := rfl
@[simp] theorem Dev.modTray_link (l : Nat) (f : TrayLink → TrayLink) (q_ : Nat) : (d.modTray l f).link q_ = d.link q_ := rfl
@[simp] theorem Dev.modTray_comp (l : Nat) (f : TrayLink → TrayLink) (q_ : Nat) : (d.modTray l f).comp q_ = d.comp q_ := rfl
@[simp] theorem Dev.modTray_mark (l : Nat) (f : TrayLink → TrayLink) (q_ : Nat) : (d.modTray l f).mark q_ = d.mark q_ := rfl
@[simp] theorem Dev.modTray_fld (l : Nat) (f : TrayLink → TrayLink) (q_ : RegName) (x_ y_ z_ : Nat) : (d.modTray l f).fld q_ x_ y_ z_ = d.fld q_ x_ y_ z_ := rfl
@[simp] theorem Dev.modTray_flag (l : Nat) (f : TrayLink → TrayLink) (q_ : RegName) (x_ y_ : Nat) : (d.modTray l f).flag q_ x_ y_ = d.flag q_ x_ y_ := rfl
@[simp] theorem Dev.modTray_counter (l : Nat) (f : TrayLink → TrayLink) (q_ : CntName) (x_ : Nat) : (d.modTray l f).counter q_ x_ = d.counter q_ x_ := rfl

@[simp] theorem Dev.modPace_clk (p : Nat) (f : Pace → Pace) : (d.modPace p f).clk = d.clk := rfl
@[simp] theorem Dev.modPace_free (p : Nat) (f : Pace → Pace) : (d.modPace p f).free = d.free := rfl
@[simp] theorem Dev.modPace_cfg (p : Nat) (f : Pace → Pace) : (d.modPace p f).cfg = d.cfg := rfl
@[simp] theorem Dev.modPace_cnt (p : Nat) (f : Pace → Pace) : (d.modPace p f).cnt = d.cnt := rfl
@[simp] theorem Dev.modPace_chk (p : Nat) (f : Pace → Pace) : (d.modPace p f).chk = d.chk := rfl
@[simp] theorem Dev.modPace_out (p : Nat) (f : Pace → Pace) : (d.modPace p f).out = d.out := rfl
@[simp] theorem Dev.modPace_links (p : Nat) (f : Pace → Pace) : (d.modPace p f).links = d.links := rfl
@[simp] theorem Dev.modPace_trays (p : Nat) (f : Pace → Pace) : (d.modPace p f).trays = d.trays := rfl
@[simp] theorem Dev.modPace_arrived (p : Nat) (f : Pace → Pace) : (d.modPace p f).arrived = d.arrived := rfl
@[simp] theorem Dev.modPace_tfp (p : Nat) (f : Pace → Pace) : (d.modPace p f).tfp = d.tfp := rfl
@[simp] theorem Dev.modPace_core (p : Nat) (f : Pace → Pace) : (d.modPace p f).core = d.core := rfl
@[simp] theorem Dev.modPace_sched (p : Nat) (f : Pace → Pace) : (d.modPace p f).sched = d.sched := rfl
@[simp] theorem Dev.modPace_time (p : Nat) (f : Pace → Pace) : (d.modPace p f).time = d.time := rfl
@[simp] theorem Dev.modPace_imp (p : Nat) (f : Pace → Pace) : (d.modPace p f).imp = d.imp := rfl
@[simp] theorem Dev.modPace_pool (p : Nat) (f : Pace → Pace) : (d.modPace p f).pool = d.pool := rfl
@[simp] theorem Dev.modPace_marks (p : Nat) (f : Pace → Pace) : (d.modPace p f).marks = d.marks := rfl
@[simp] theorem Dev.modPace_press (p : Nat) (f : Pace → Pace) : (d.modPace p f).press = d.press := rfl
@[simp] theorem Dev.modPace_flt (p : Nat) (f : Pace → Pace) : (d.modPace p f).flt = d.flt := rfl
@[simp] theorem Dev.modPace_mgmt (p : Nat) (f : Pace → Pace) : (d.modPace p f).mgmt = d.mgmt := rfl
@[simp] theorem Dev.modPace_meter (p : Nat) (f : Pace → Pace) : (d.modPace p f).meter = d.meter := rfl
@[simp] theorem Dev.modPace_snap (p : Nat) (f : Pace → Pace) : (d.modPace p f).snap = d.snap := rfl
@[simp] theorem Dev.modPace_exp (p : Nat) (f : Pace → Pace) : (d.modPace p f).exp = d.exp := rfl
@[simp] theorem Dev.modPace_expPort (p : Nat) (f : Pace → Pace) : (d.modPace p f).expPort = d.expPort := rfl
@[simp] theorem Dev.modPace_link (p : Nat) (f : Pace → Pace) (q_ : Nat) : (d.modPace p f).link q_ = d.link q_ := rfl
@[simp] theorem Dev.modPace_comp (p : Nat) (f : Pace → Pace) (q_ : Nat) : (d.modPace p f).comp q_ = d.comp q_ := rfl
@[simp] theorem Dev.modPace_mark (p : Nat) (f : Pace → Pace) (q_ : Nat) : (d.modPace p f).mark q_ = d.mark q_ := rfl
@[simp] theorem Dev.modPace_fld (p : Nat) (f : Pace → Pace) (q_ : RegName) (x_ y_ z_ : Nat) : (d.modPace p f).fld q_ x_ y_ z_ = d.fld q_ x_ y_ z_ := rfl
@[simp] theorem Dev.modPace_flag (p : Nat) (f : Pace → Pace) (q_ : RegName) (x_ y_ : Nat) : (d.modPace p f).flag q_ x_ y_ = d.flag q_ x_ y_ := rfl
@[simp] theorem Dev.modPace_counter (p : Nat) (f : Pace → Pace) (q_ : CntName) (x_ : Nat) : (d.modPace p f).counter q_ x_ = d.counter q_ x_ := rfl

@[simp] theorem Dev.modComp_clk (c : Nat) (f : Comp → Comp) : (d.modComp c f).clk = d.clk := rfl
@[simp] theorem Dev.modComp_free (c : Nat) (f : Comp → Comp) : (d.modComp c f).free = d.free := rfl
@[simp] theorem Dev.modComp_cfg (c : Nat) (f : Comp → Comp) : (d.modComp c f).cfg = d.cfg := rfl
@[simp] theorem Dev.modComp_cnt (c : Nat) (f : Comp → Comp) : (d.modComp c f).cnt = d.cnt := rfl
@[simp] theorem Dev.modComp_chk (c : Nat) (f : Comp → Comp) : (d.modComp c f).chk = d.chk := rfl
@[simp] theorem Dev.modComp_out (c : Nat) (f : Comp → Comp) : (d.modComp c f).out = d.out := rfl
@[simp] theorem Dev.modComp_links (c : Nat) (f : Comp → Comp) : (d.modComp c f).links = d.links := rfl
@[simp] theorem Dev.modComp_trays (c : Nat) (f : Comp → Comp) : (d.modComp c f).trays = d.trays := rfl
@[simp] theorem Dev.modComp_arrived (c : Nat) (f : Comp → Comp) : (d.modComp c f).arrived = d.arrived := rfl
@[simp] theorem Dev.modComp_tfp (c : Nat) (f : Comp → Comp) : (d.modComp c f).tfp = d.tfp := rfl
@[simp] theorem Dev.modComp_core (c : Nat) (f : Comp → Comp) : (d.modComp c f).core = d.core := rfl
@[simp] theorem Dev.modComp_sched (c : Nat) (f : Comp → Comp) : (d.modComp c f).sched = d.sched := rfl
@[simp] theorem Dev.modComp_time (c : Nat) (f : Comp → Comp) : (d.modComp c f).time = d.time := rfl
@[simp] theorem Dev.modComp_pool (c : Nat) (f : Comp → Comp) : (d.modComp c f).pool = d.pool := rfl
@[simp] theorem Dev.modComp_marks (c : Nat) (f : Comp → Comp) : (d.modComp c f).marks = d.marks := rfl
@[simp] theorem Dev.modComp_press (c : Nat) (f : Comp → Comp) : (d.modComp c f).press = d.press := rfl
@[simp] theorem Dev.modComp_flt (c : Nat) (f : Comp → Comp) : (d.modComp c f).flt = d.flt := rfl
@[simp] theorem Dev.modComp_mgmt (c : Nat) (f : Comp → Comp) : (d.modComp c f).mgmt = d.mgmt := rfl
@[simp] theorem Dev.modComp_pwr (c : Nat) (f : Comp → Comp) : (d.modComp c f).pwr = d.pwr := rfl
@[simp] theorem Dev.modComp_meter (c : Nat) (f : Comp → Comp) : (d.modComp c f).meter = d.meter := rfl
@[simp] theorem Dev.modComp_snap (c : Nat) (f : Comp → Comp) : (d.modComp c f).snap = d.snap := rfl
@[simp] theorem Dev.modComp_exp (c : Nat) (f : Comp → Comp) : (d.modComp c f).exp = d.exp := rfl
@[simp] theorem Dev.modComp_expPort (c : Nat) (f : Comp → Comp) : (d.modComp c f).expPort = d.expPort := rfl
@[simp] theorem Dev.modComp_link (c : Nat) (f : Comp → Comp) (q_ : Nat) : (d.modComp c f).link q_ = d.link q_ := rfl
@[simp] theorem Dev.modComp_mark (c : Nat) (f : Comp → Comp) (q_ : Nat) : (d.modComp c f).mark q_ = d.mark q_ := rfl
@[simp] theorem Dev.modComp_fld (c : Nat) (f : Comp → Comp) (q_ : RegName) (x_ y_ z_ : Nat) : (d.modComp c f).fld q_ x_ y_ z_ = d.fld q_ x_ y_ z_ := rfl
@[simp] theorem Dev.modComp_flag (c : Nat) (f : Comp → Comp) (q_ : RegName) (x_ y_ : Nat) : (d.modComp c f).flag q_ x_ y_ = d.flag q_ x_ y_ := rfl
@[simp] theorem Dev.modComp_counter (c : Nat) (f : Comp → Comp) (q_ : CntName) (x_ : Nat) : (d.modComp c f).counter q_ x_ = d.counter q_ x_ := rfl

@[simp] theorem Dev.modRed_clk (c r : Nat) (f : Red → Red) : (d.modRed c r f).clk = d.clk := rfl
@[simp] theorem Dev.modRed_free (c r : Nat) (f : Red → Red) : (d.modRed c r f).free = d.free := rfl
@[simp] theorem Dev.modRed_cfg (c r : Nat) (f : Red → Red) : (d.modRed c r f).cfg = d.cfg := rfl
@[simp] theorem Dev.modRed_cnt (c r : Nat) (f : Red → Red) : (d.modRed c r f).cnt = d.cnt := rfl
@[simp] theorem Dev.modRed_chk (c r : Nat) (f : Red → Red) : (d.modRed c r f).chk = d.chk := rfl
@[simp] theorem Dev.modRed_out (c r : Nat) (f : Red → Red) : (d.modRed c r f).out = d.out := rfl
@[simp] theorem Dev.modRed_links (c r : Nat) (f : Red → Red) : (d.modRed c r f).links = d.links := rfl
@[simp] theorem Dev.modRed_trays (c r : Nat) (f : Red → Red) : (d.modRed c r f).trays = d.trays := rfl
@[simp] theorem Dev.modRed_arrived (c r : Nat) (f : Red → Red) : (d.modRed c r f).arrived = d.arrived := rfl
@[simp] theorem Dev.modRed_tfp (c r : Nat) (f : Red → Red) : (d.modRed c r f).tfp = d.tfp := rfl
@[simp] theorem Dev.modRed_core (c r : Nat) (f : Red → Red) : (d.modRed c r f).core = d.core := rfl
@[simp] theorem Dev.modRed_sched (c r : Nat) (f : Red → Red) : (d.modRed c r f).sched = d.sched := rfl
@[simp] theorem Dev.modRed_time (c r : Nat) (f : Red → Red) : (d.modRed c r f).time = d.time := rfl
@[simp] theorem Dev.modRed_imp (c r : Nat) (f : Red → Red) : (d.modRed c r f).imp = d.imp := rfl
@[simp] theorem Dev.modRed_pool (c r : Nat) (f : Red → Red) : (d.modRed c r f).pool = d.pool := rfl
@[simp] theorem Dev.modRed_marks (c r : Nat) (f : Red → Red) : (d.modRed c r f).marks = d.marks := rfl
@[simp] theorem Dev.modRed_flt (c r : Nat) (f : Red → Red) : (d.modRed c r f).flt = d.flt := rfl
@[simp] theorem Dev.modRed_mgmt (c r : Nat) (f : Red → Red) : (d.modRed c r f).mgmt = d.mgmt := rfl
@[simp] theorem Dev.modRed_pwr (c r : Nat) (f : Red → Red) : (d.modRed c r f).pwr = d.pwr := rfl
@[simp] theorem Dev.modRed_meter (c r : Nat) (f : Red → Red) : (d.modRed c r f).meter = d.meter := rfl
@[simp] theorem Dev.modRed_snap (c r : Nat) (f : Red → Red) : (d.modRed c r f).snap = d.snap := rfl
@[simp] theorem Dev.modRed_exp (c r : Nat) (f : Red → Red) : (d.modRed c r f).exp = d.exp := rfl
@[simp] theorem Dev.modRed_expPort (c r : Nat) (f : Red → Red) : (d.modRed c r f).expPort = d.expPort := rfl
@[simp] theorem Dev.modRed_link (c r : Nat) (f : Red → Red) (q_ : Nat) : (d.modRed c r f).link q_ = d.link q_ := rfl
@[simp] theorem Dev.modRed_comp (c r : Nat) (f : Red → Red) (q_ : Nat) : (d.modRed c r f).comp q_ = d.comp q_ := rfl
@[simp] theorem Dev.modRed_mark (c r : Nat) (f : Red → Red) (q_ : Nat) : (d.modRed c r f).mark q_ = d.mark q_ := rfl
@[simp] theorem Dev.modRed_fld (c r : Nat) (f : Red → Red) (q_ : RegName) (x_ y_ z_ : Nat) : (d.modRed c r f).fld q_ x_ y_ z_ = d.fld q_ x_ y_ z_ := rfl
@[simp] theorem Dev.modRed_flag (c r : Nat) (f : Red → Red) (q_ : RegName) (x_ y_ : Nat) : (d.modRed c r f).flag q_ x_ y_ = d.flag q_ x_ y_ := rfl
@[simp] theorem Dev.modRed_counter (c r : Nat) (f : Red → Red) (q_ : CntName) (x_ : Nat) : (d.modRed c r f).counter q_ x_ = d.counter q_ x_ := rfl

@[simp] theorem Dev.modMoe_clk (c m : Nat) (f : Moe → Moe) : (d.modMoe c m f).clk = d.clk := rfl
@[simp] theorem Dev.modMoe_free (c m : Nat) (f : Moe → Moe) : (d.modMoe c m f).free = d.free := rfl
@[simp] theorem Dev.modMoe_cfg (c m : Nat) (f : Moe → Moe) : (d.modMoe c m f).cfg = d.cfg := rfl
@[simp] theorem Dev.modMoe_cnt (c m : Nat) (f : Moe → Moe) : (d.modMoe c m f).cnt = d.cnt := rfl
@[simp] theorem Dev.modMoe_chk (c m : Nat) (f : Moe → Moe) : (d.modMoe c m f).chk = d.chk := rfl
@[simp] theorem Dev.modMoe_out (c m : Nat) (f : Moe → Moe) : (d.modMoe c m f).out = d.out := rfl
@[simp] theorem Dev.modMoe_links (c m : Nat) (f : Moe → Moe) : (d.modMoe c m f).links = d.links := rfl
@[simp] theorem Dev.modMoe_trays (c m : Nat) (f : Moe → Moe) : (d.modMoe c m f).trays = d.trays := rfl
@[simp] theorem Dev.modMoe_arrived (c m : Nat) (f : Moe → Moe) : (d.modMoe c m f).arrived = d.arrived := rfl
@[simp] theorem Dev.modMoe_tfp (c m : Nat) (f : Moe → Moe) : (d.modMoe c m f).tfp = d.tfp := rfl
@[simp] theorem Dev.modMoe_core (c m : Nat) (f : Moe → Moe) : (d.modMoe c m f).core = d.core := rfl
@[simp] theorem Dev.modMoe_sched (c m : Nat) (f : Moe → Moe) : (d.modMoe c m f).sched = d.sched := rfl
@[simp] theorem Dev.modMoe_time (c m : Nat) (f : Moe → Moe) : (d.modMoe c m f).time = d.time := rfl
@[simp] theorem Dev.modMoe_imp (c m : Nat) (f : Moe → Moe) : (d.modMoe c m f).imp = d.imp := rfl
@[simp] theorem Dev.modMoe_pool (c m : Nat) (f : Moe → Moe) : (d.modMoe c m f).pool = d.pool := rfl
@[simp] theorem Dev.modMoe_marks (c m : Nat) (f : Moe → Moe) : (d.modMoe c m f).marks = d.marks := rfl
@[simp] theorem Dev.modMoe_flt (c m : Nat) (f : Moe → Moe) : (d.modMoe c m f).flt = d.flt := rfl
@[simp] theorem Dev.modMoe_mgmt (c m : Nat) (f : Moe → Moe) : (d.modMoe c m f).mgmt = d.mgmt := rfl
@[simp] theorem Dev.modMoe_pwr (c m : Nat) (f : Moe → Moe) : (d.modMoe c m f).pwr = d.pwr := rfl
@[simp] theorem Dev.modMoe_meter (c m : Nat) (f : Moe → Moe) : (d.modMoe c m f).meter = d.meter := rfl
@[simp] theorem Dev.modMoe_snap (c m : Nat) (f : Moe → Moe) : (d.modMoe c m f).snap = d.snap := rfl
@[simp] theorem Dev.modMoe_exp (c m : Nat) (f : Moe → Moe) : (d.modMoe c m f).exp = d.exp := rfl
@[simp] theorem Dev.modMoe_expPort (c m : Nat) (f : Moe → Moe) : (d.modMoe c m f).expPort = d.expPort := rfl
@[simp] theorem Dev.modMoe_link (c m : Nat) (f : Moe → Moe) (q_ : Nat) : (d.modMoe c m f).link q_ = d.link q_ := rfl
@[simp] theorem Dev.modMoe_comp (c m : Nat) (f : Moe → Moe) (q_ : Nat) : (d.modMoe c m f).comp q_ = d.comp q_ := rfl
@[simp] theorem Dev.modMoe_mark (c m : Nat) (f : Moe → Moe) (q_ : Nat) : (d.modMoe c m f).mark q_ = d.mark q_ := rfl
@[simp] theorem Dev.modMoe_fld (c m : Nat) (f : Moe → Moe) (q_ : RegName) (x_ y_ z_ : Nat) : (d.modMoe c m f).fld q_ x_ y_ z_ = d.fld q_ x_ y_ z_ := rfl
@[simp] theorem Dev.modMoe_flag (c m : Nat) (f : Moe → Moe) (q_ : RegName) (x_ y_ : Nat) : (d.modMoe c m f).flag q_ x_ y_ = d.flag q_ x_ y_ := rfl
@[simp] theorem Dev.modMoe_counter (c m : Nat) (f : Moe → Moe) (q_ : CntName) (x_ : Nat) : (d.modMoe c m f).counter q_ x_ = d.counter q_ x_ := rfl

@[simp] theorem Dev.modEmb_clk (c t : Nat) (f : Emb → Emb) : (d.modEmb c t f).clk = d.clk := rfl
@[simp] theorem Dev.modEmb_free (c t : Nat) (f : Emb → Emb) : (d.modEmb c t f).free = d.free := rfl
@[simp] theorem Dev.modEmb_cfg (c t : Nat) (f : Emb → Emb) : (d.modEmb c t f).cfg = d.cfg := rfl
@[simp] theorem Dev.modEmb_cnt (c t : Nat) (f : Emb → Emb) : (d.modEmb c t f).cnt = d.cnt := rfl
@[simp] theorem Dev.modEmb_chk (c t : Nat) (f : Emb → Emb) : (d.modEmb c t f).chk = d.chk := rfl
@[simp] theorem Dev.modEmb_out (c t : Nat) (f : Emb → Emb) : (d.modEmb c t f).out = d.out := rfl
@[simp] theorem Dev.modEmb_links (c t : Nat) (f : Emb → Emb) : (d.modEmb c t f).links = d.links := rfl
@[simp] theorem Dev.modEmb_trays (c t : Nat) (f : Emb → Emb) : (d.modEmb c t f).trays = d.trays := rfl
@[simp] theorem Dev.modEmb_arrived (c t : Nat) (f : Emb → Emb) : (d.modEmb c t f).arrived = d.arrived := rfl
@[simp] theorem Dev.modEmb_tfp (c t : Nat) (f : Emb → Emb) : (d.modEmb c t f).tfp = d.tfp := rfl
@[simp] theorem Dev.modEmb_core (c t : Nat) (f : Emb → Emb) : (d.modEmb c t f).core = d.core := rfl
@[simp] theorem Dev.modEmb_sched (c t : Nat) (f : Emb → Emb) : (d.modEmb c t f).sched = d.sched := rfl
@[simp] theorem Dev.modEmb_time (c t : Nat) (f : Emb → Emb) : (d.modEmb c t f).time = d.time := rfl
@[simp] theorem Dev.modEmb_imp (c t : Nat) (f : Emb → Emb) : (d.modEmb c t f).imp = d.imp := rfl
@[simp] theorem Dev.modEmb_pool (c t : Nat) (f : Emb → Emb) : (d.modEmb c t f).pool = d.pool := rfl
@[simp] theorem Dev.modEmb_marks (c t : Nat) (f : Emb → Emb) : (d.modEmb c t f).marks = d.marks := rfl
@[simp] theorem Dev.modEmb_flt (c t : Nat) (f : Emb → Emb) : (d.modEmb c t f).flt = d.flt := rfl
@[simp] theorem Dev.modEmb_mgmt (c t : Nat) (f : Emb → Emb) : (d.modEmb c t f).mgmt = d.mgmt := rfl
@[simp] theorem Dev.modEmb_pwr (c t : Nat) (f : Emb → Emb) : (d.modEmb c t f).pwr = d.pwr := rfl
@[simp] theorem Dev.modEmb_meter (c t : Nat) (f : Emb → Emb) : (d.modEmb c t f).meter = d.meter := rfl
@[simp] theorem Dev.modEmb_snap (c t : Nat) (f : Emb → Emb) : (d.modEmb c t f).snap = d.snap := rfl
@[simp] theorem Dev.modEmb_exp (c t : Nat) (f : Emb → Emb) : (d.modEmb c t f).exp = d.exp := rfl
@[simp] theorem Dev.modEmb_expPort (c t : Nat) (f : Emb → Emb) : (d.modEmb c t f).expPort = d.expPort := rfl
@[simp] theorem Dev.modEmb_link (c t : Nat) (f : Emb → Emb) (q_ : Nat) : (d.modEmb c t f).link q_ = d.link q_ := rfl
@[simp] theorem Dev.modEmb_comp (c t : Nat) (f : Emb → Emb) (q_ : Nat) : (d.modEmb c t f).comp q_ = d.comp q_ := rfl
@[simp] theorem Dev.modEmb_mark (c t : Nat) (f : Emb → Emb) (q_ : Nat) : (d.modEmb c t f).mark q_ = d.mark q_ := rfl
@[simp] theorem Dev.modEmb_fld (c t : Nat) (f : Emb → Emb) (q_ : RegName) (x_ y_ z_ : Nat) : (d.modEmb c t f).fld q_ x_ y_ z_ = d.fld q_ x_ y_ z_ := rfl
@[simp] theorem Dev.modEmb_flag (c t : Nat) (f : Emb → Emb) (q_ : RegName) (x_ y_ : Nat) : (d.modEmb c t f).flag q_ x_ y_ = d.flag q_ x_ y_ := rfl
@[simp] theorem Dev.modEmb_counter (c t : Nat) (f : Emb → Emb) (q_ : CntName) (x_ : Nat) : (d.modEmb c t f).counter q_ x_ = d.counter q_ x_ := rfl

@[simp] theorem Dev.modSvc_clk (i : Nat) (f : Svc → Svc) : (d.modSvc i f).clk = d.clk := rfl
@[simp] theorem Dev.modSvc_free (i : Nat) (f : Svc → Svc) : (d.modSvc i f).free = d.free := rfl
@[simp] theorem Dev.modSvc_cfg (i : Nat) (f : Svc → Svc) : (d.modSvc i f).cfg = d.cfg := rfl
@[simp] theorem Dev.modSvc_cnt (i : Nat) (f : Svc → Svc) : (d.modSvc i f).cnt = d.cnt := rfl
@[simp] theorem Dev.modSvc_chk (i : Nat) (f : Svc → Svc) : (d.modSvc i f).chk = d.chk := rfl
@[simp] theorem Dev.modSvc_out (i : Nat) (f : Svc → Svc) : (d.modSvc i f).out = d.out := rfl
@[simp] theorem Dev.modSvc_links (i : Nat) (f : Svc → Svc) : (d.modSvc i f).links = d.links := rfl
@[simp] theorem Dev.modSvc_trays (i : Nat) (f : Svc → Svc) : (d.modSvc i f).trays = d.trays := rfl
@[simp] theorem Dev.modSvc_arrived (i : Nat) (f : Svc → Svc) : (d.modSvc i f).arrived = d.arrived := rfl
@[simp] theorem Dev.modSvc_tfp (i : Nat) (f : Svc → Svc) : (d.modSvc i f).tfp = d.tfp := rfl
@[simp] theorem Dev.modSvc_core (i : Nat) (f : Svc → Svc) : (d.modSvc i f).core = d.core := rfl
@[simp] theorem Dev.modSvc_sched (i : Nat) (f : Svc → Svc) : (d.modSvc i f).sched = d.sched := rfl
@[simp] theorem Dev.modSvc_time (i : Nat) (f : Svc → Svc) : (d.modSvc i f).time = d.time := rfl
@[simp] theorem Dev.modSvc_imp (i : Nat) (f : Svc → Svc) : (d.modSvc i f).imp = d.imp := rfl
@[simp] theorem Dev.modSvc_pool (i : Nat) (f : Svc → Svc) : (d.modSvc i f).pool = d.pool := rfl
@[simp] theorem Dev.modSvc_marks (i : Nat) (f : Svc → Svc) : (d.modSvc i f).marks = d.marks := rfl
@[simp] theorem Dev.modSvc_flt (i : Nat) (f : Svc → Svc) : (d.modSvc i f).flt = d.flt := rfl
@[simp] theorem Dev.modSvc_mgmt (i : Nat) (f : Svc → Svc) : (d.modSvc i f).mgmt = d.mgmt := rfl
@[simp] theorem Dev.modSvc_pwr (i : Nat) (f : Svc → Svc) : (d.modSvc i f).pwr = d.pwr := rfl
@[simp] theorem Dev.modSvc_meter (i : Nat) (f : Svc → Svc) : (d.modSvc i f).meter = d.meter := rfl
@[simp] theorem Dev.modSvc_snap (i : Nat) (f : Svc → Svc) : (d.modSvc i f).snap = d.snap := rfl
@[simp] theorem Dev.modSvc_exp (i : Nat) (f : Svc → Svc) : (d.modSvc i f).exp = d.exp := rfl
@[simp] theorem Dev.modSvc_expPort (i : Nat) (f : Svc → Svc) : (d.modSvc i f).expPort = d.expPort := rfl
@[simp] theorem Dev.modSvc_link (i : Nat) (f : Svc → Svc) (q_ : Nat) : (d.modSvc i f).link q_ = d.link q_ := rfl
@[simp] theorem Dev.modSvc_comp (i : Nat) (f : Svc → Svc) (q_ : Nat) : (d.modSvc i f).comp q_ = d.comp q_ := rfl
@[simp] theorem Dev.modSvc_mark (i : Nat) (f : Svc → Svc) (q_ : Nat) : (d.modSvc i f).mark q_ = d.mark q_ := rfl
@[simp] theorem Dev.modSvc_fld (i : Nat) (f : Svc → Svc) (q_ : RegName) (x_ y_ z_ : Nat) : (d.modSvc i f).fld q_ x_ y_ z_ = d.fld q_ x_ y_ z_ := rfl
@[simp] theorem Dev.modSvc_flag (i : Nat) (f : Svc → Svc) (q_ : RegName) (x_ y_ : Nat) : (d.modSvc i f).flag q_ x_ y_ = d.flag q_ x_ y_ := rfl
@[simp] theorem Dev.modSvc_counter (i : Nat) (f : Svc → Svc) (q_ : CntName) (x_ : Nat) : (d.modSvc i f).counter q_ x_ = d.counter q_ x_ := rfl

@[simp] theorem Dev.modInst_clk (c s : Nat) (f : PInst → PInst) : (d.modInst c s f).clk = d.clk := rfl
@[simp] theorem Dev.modInst_free (c s : Nat) (f : PInst → PInst) : (d.modInst c s f).free = d.free := rfl
@[simp] theorem Dev.modInst_cfg (c s : Nat) (f : PInst → PInst) : (d.modInst c s f).cfg = d.cfg := rfl
@[simp] theorem Dev.modInst_cnt (c s : Nat) (f : PInst → PInst) : (d.modInst c s f).cnt = d.cnt := rfl
@[simp] theorem Dev.modInst_chk (c s : Nat) (f : PInst → PInst) : (d.modInst c s f).chk = d.chk := rfl
@[simp] theorem Dev.modInst_out (c s : Nat) (f : PInst → PInst) : (d.modInst c s f).out = d.out := rfl
@[simp] theorem Dev.modInst_links (c s : Nat) (f : PInst → PInst) : (d.modInst c s f).links = d.links := rfl
@[simp] theorem Dev.modInst_trays (c s : Nat) (f : PInst → PInst) : (d.modInst c s f).trays = d.trays := rfl
@[simp] theorem Dev.modInst_arrived (c s : Nat) (f : PInst → PInst) : (d.modInst c s f).arrived = d.arrived := rfl
@[simp] theorem Dev.modInst_tfp (c s : Nat) (f : PInst → PInst) : (d.modInst c s f).tfp = d.tfp := rfl
@[simp] theorem Dev.modInst_core (c s : Nat) (f : PInst → PInst) : (d.modInst c s f).core = d.core := rfl
@[simp] theorem Dev.modInst_sched (c s : Nat) (f : PInst → PInst) : (d.modInst c s f).sched = d.sched := rfl
@[simp] theorem Dev.modInst_time (c s : Nat) (f : PInst → PInst) : (d.modInst c s f).time = d.time := rfl
@[simp] theorem Dev.modInst_imp (c s : Nat) (f : PInst → PInst) : (d.modInst c s f).imp = d.imp := rfl
@[simp] theorem Dev.modInst_pool (c s : Nat) (f : PInst → PInst) : (d.modInst c s f).pool = d.pool := rfl
@[simp] theorem Dev.modInst_marks (c s : Nat) (f : PInst → PInst) : (d.modInst c s f).marks = d.marks := rfl
@[simp] theorem Dev.modInst_flt (c s : Nat) (f : PInst → PInst) : (d.modInst c s f).flt = d.flt := rfl
@[simp] theorem Dev.modInst_mgmt (c s : Nat) (f : PInst → PInst) : (d.modInst c s f).mgmt = d.mgmt := rfl
@[simp] theorem Dev.modInst_pwr (c s : Nat) (f : PInst → PInst) : (d.modInst c s f).pwr = d.pwr := rfl
@[simp] theorem Dev.modInst_meter (c s : Nat) (f : PInst → PInst) : (d.modInst c s f).meter = d.meter := rfl
@[simp] theorem Dev.modInst_snap (c s : Nat) (f : PInst → PInst) : (d.modInst c s f).snap = d.snap := rfl
@[simp] theorem Dev.modInst_exp (c s : Nat) (f : PInst → PInst) : (d.modInst c s f).exp = d.exp := rfl
@[simp] theorem Dev.modInst_expPort (c s : Nat) (f : PInst → PInst) : (d.modInst c s f).expPort = d.expPort := rfl
@[simp] theorem Dev.modInst_link (c s : Nat) (f : PInst → PInst) (q_ : Nat) : (d.modInst c s f).link q_ = d.link q_ := rfl
@[simp] theorem Dev.modInst_comp (c s : Nat) (f : PInst → PInst) (q_ : Nat) : (d.modInst c s f).comp q_ = d.comp q_ := rfl
@[simp] theorem Dev.modInst_mark (c s : Nat) (f : PInst → PInst) (q_ : Nat) : (d.modInst c s f).mark q_ = d.mark q_ := rfl
@[simp] theorem Dev.modInst_fld (c s : Nat) (f : PInst → PInst) (q_ : RegName) (x_ y_ z_ : Nat) : (d.modInst c s f).fld q_ x_ y_ z_ = d.fld q_ x_ y_ z_ := rfl
@[simp] theorem Dev.modInst_flag (c s : Nat) (f : PInst → PInst) (q_ : RegName) (x_ y_ : Nat) : (d.modInst c s f).flag q_ x_ y_ = d.flag q_ x_ y_ := rfl
@[simp] theorem Dev.modInst_counter (c s : Nat) (f : PInst → PInst) (q_ : CntName) (x_ : Nat) : (d.modInst c s f).counter q_ x_ = d.counter q_ x_ := rfl

@[simp] theorem Dev.modMark_clk (i : Nat) (f : Mark → Mark) : (d.modMark i f).clk = d.clk := rfl
@[simp] theorem Dev.modMark_free (i : Nat) (f : Mark → Mark) : (d.modMark i f).free = d.free := rfl
@[simp] theorem Dev.modMark_cfg (i : Nat) (f : Mark → Mark) : (d.modMark i f).cfg = d.cfg := rfl
@[simp] theorem Dev.modMark_cnt (i : Nat) (f : Mark → Mark) : (d.modMark i f).cnt = d.cnt := rfl
@[simp] theorem Dev.modMark_chk (i : Nat) (f : Mark → Mark) : (d.modMark i f).chk = d.chk := rfl
@[simp] theorem Dev.modMark_out (i : Nat) (f : Mark → Mark) : (d.modMark i f).out = d.out := rfl
@[simp] theorem Dev.modMark_links (i : Nat) (f : Mark → Mark) : (d.modMark i f).links = d.links := rfl
@[simp] theorem Dev.modMark_trays (i : Nat) (f : Mark → Mark) : (d.modMark i f).trays = d.trays := rfl
@[simp] theorem Dev.modMark_arrived (i : Nat) (f : Mark → Mark) : (d.modMark i f).arrived = d.arrived := rfl
@[simp] theorem Dev.modMark_tfp (i : Nat) (f : Mark → Mark) : (d.modMark i f).tfp = d.tfp := rfl
@[simp] theorem Dev.modMark_core (i : Nat) (f : Mark → Mark) : (d.modMark i f).core = d.core := rfl
@[simp] theorem Dev.modMark_sched (i : Nat) (f : Mark → Mark) : (d.modMark i f).sched = d.sched := rfl
@[simp] theorem Dev.modMark_time (i : Nat) (f : Mark → Mark) : (d.modMark i f).time = d.time := rfl
@[simp] theorem Dev.modMark_imp (i : Nat) (f : Mark → Mark) : (d.modMark i f).imp = d.imp := rfl
@[simp] theorem Dev.modMark_pool (i : Nat) (f : Mark → Mark) : (d.modMark i f).pool = d.pool := rfl
@[simp] theorem Dev.modMark_press (i : Nat) (f : Mark → Mark) : (d.modMark i f).press = d.press := rfl
@[simp] theorem Dev.modMark_flt (i : Nat) (f : Mark → Mark) : (d.modMark i f).flt = d.flt := rfl
@[simp] theorem Dev.modMark_mgmt (i : Nat) (f : Mark → Mark) : (d.modMark i f).mgmt = d.mgmt := rfl
@[simp] theorem Dev.modMark_pwr (i : Nat) (f : Mark → Mark) : (d.modMark i f).pwr = d.pwr := rfl
@[simp] theorem Dev.modMark_meter (i : Nat) (f : Mark → Mark) : (d.modMark i f).meter = d.meter := rfl
@[simp] theorem Dev.modMark_snap (i : Nat) (f : Mark → Mark) : (d.modMark i f).snap = d.snap := rfl
@[simp] theorem Dev.modMark_exp (i : Nat) (f : Mark → Mark) : (d.modMark i f).exp = d.exp := rfl
@[simp] theorem Dev.modMark_expPort (i : Nat) (f : Mark → Mark) : (d.modMark i f).expPort = d.expPort := rfl
@[simp] theorem Dev.modMark_link (i : Nat) (f : Mark → Mark) (q_ : Nat) : (d.modMark i f).link q_ = d.link q_ := rfl
@[simp] theorem Dev.modMark_comp (i : Nat) (f : Mark → Mark) (q_ : Nat) : (d.modMark i f).comp q_ = d.comp q_ := rfl
@[simp] theorem Dev.modMark_fld (i : Nat) (f : Mark → Mark) (q_ : RegName) (x_ y_ z_ : Nat) : (d.modMark i f).fld q_ x_ y_ z_ = d.fld q_ x_ y_ z_ := rfl
@[simp] theorem Dev.modMark_flag (i : Nat) (f : Mark → Mark) (q_ : RegName) (x_ y_ : Nat) : (d.modMark i f).flag q_ x_ y_ = d.flag q_ x_ y_ := rfl
@[simp] theorem Dev.modMark_counter (i : Nat) (f : Mark → Mark) (q_ : CntName) (x_ : Nat) : (d.modMark i f).counter q_ x_ = d.counter q_ x_ := rfl

@[simp] theorem Dev.modMeter_clk (f : Meter → Meter) : (d.modMeter f).clk = d.clk := rfl
@[simp] theorem Dev.modMeter_free (f : Meter → Meter) : (d.modMeter f).free = d.free := rfl
@[simp] theorem Dev.modMeter_cfg (f : Meter → Meter) : (d.modMeter f).cfg = d.cfg := rfl
@[simp] theorem Dev.modMeter_cnt (f : Meter → Meter) : (d.modMeter f).cnt = d.cnt := rfl
@[simp] theorem Dev.modMeter_chk (f : Meter → Meter) : (d.modMeter f).chk = d.chk := rfl
@[simp] theorem Dev.modMeter_out (f : Meter → Meter) : (d.modMeter f).out = d.out := rfl
@[simp] theorem Dev.modMeter_links (f : Meter → Meter) : (d.modMeter f).links = d.links := rfl
@[simp] theorem Dev.modMeter_trays (f : Meter → Meter) : (d.modMeter f).trays = d.trays := rfl
@[simp] theorem Dev.modMeter_arrived (f : Meter → Meter) : (d.modMeter f).arrived = d.arrived := rfl
@[simp] theorem Dev.modMeter_tfp (f : Meter → Meter) : (d.modMeter f).tfp = d.tfp := rfl
@[simp] theorem Dev.modMeter_core (f : Meter → Meter) : (d.modMeter f).core = d.core := rfl
@[simp] theorem Dev.modMeter_sched (f : Meter → Meter) : (d.modMeter f).sched = d.sched := rfl
@[simp] theorem Dev.modMeter_time (f : Meter → Meter) : (d.modMeter f).time = d.time := rfl
@[simp] theorem Dev.modMeter_imp (f : Meter → Meter) : (d.modMeter f).imp = d.imp := rfl
@[simp] theorem Dev.modMeter_pool (f : Meter → Meter) : (d.modMeter f).pool = d.pool := rfl
@[simp] theorem Dev.modMeter_marks (f : Meter → Meter) : (d.modMeter f).marks = d.marks := rfl
@[simp] theorem Dev.modMeter_press (f : Meter → Meter) : (d.modMeter f).press = d.press := rfl
@[simp] theorem Dev.modMeter_flt (f : Meter → Meter) : (d.modMeter f).flt = d.flt := rfl
@[simp] theorem Dev.modMeter_mgmt (f : Meter → Meter) : (d.modMeter f).mgmt = d.mgmt := rfl
@[simp] theorem Dev.modMeter_pwr (f : Meter → Meter) : (d.modMeter f).pwr = d.pwr := rfl
@[simp] theorem Dev.modMeter_snap (f : Meter → Meter) : (d.modMeter f).snap = d.snap := rfl
@[simp] theorem Dev.modMeter_exp (f : Meter → Meter) : (d.modMeter f).exp = d.exp := rfl
@[simp] theorem Dev.modMeter_expPort (f : Meter → Meter) : (d.modMeter f).expPort = d.expPort := rfl
@[simp] theorem Dev.modMeter_link (f : Meter → Meter) (q_ : Nat) : (d.modMeter f).link q_ = d.link q_ := rfl
@[simp] theorem Dev.modMeter_comp (f : Meter → Meter) (q_ : Nat) : (d.modMeter f).comp q_ = d.comp q_ := rfl
@[simp] theorem Dev.modMeter_mark (f : Meter → Meter) (q_ : Nat) : (d.modMeter f).mark q_ = d.mark q_ := rfl
@[simp] theorem Dev.modMeter_fld (f : Meter → Meter) (q_ : RegName) (x_ y_ z_ : Nat) : (d.modMeter f).fld q_ x_ y_ z_ = d.fld q_ x_ y_ z_ := rfl
@[simp] theorem Dev.modMeter_flag (f : Meter → Meter) (q_ : RegName) (x_ y_ : Nat) : (d.modMeter f).flag q_ x_ y_ = d.flag q_ x_ y_ := rfl
@[simp] theorem Dev.modMeter_counter (f : Meter → Meter) (q_ : CntName) (x_ : Nat) : (d.modMeter f).counter q_ x_ = d.counter q_ x_ := rfl

@[simp] theorem Dev.modRing_clk (c r : Nat) (f : Ring → Ring) : (d.modRing c r f).clk = d.clk := rfl
@[simp] theorem Dev.modRing_free (c r : Nat) (f : Ring → Ring) : (d.modRing c r f).free = d.free := rfl
@[simp] theorem Dev.modRing_cfg (c r : Nat) (f : Ring → Ring) : (d.modRing c r f).cfg = d.cfg := rfl
@[simp] theorem Dev.modRing_cnt (c r : Nat) (f : Ring → Ring) : (d.modRing c r f).cnt = d.cnt := rfl
@[simp] theorem Dev.modRing_chk (c r : Nat) (f : Ring → Ring) : (d.modRing c r f).chk = d.chk := rfl
@[simp] theorem Dev.modRing_out (c r : Nat) (f : Ring → Ring) : (d.modRing c r f).out = d.out := rfl
@[simp] theorem Dev.modRing_links (c r : Nat) (f : Ring → Ring) : (d.modRing c r f).links = d.links := rfl
@[simp] theorem Dev.modRing_trays (c r : Nat) (f : Ring → Ring) : (d.modRing c r f).trays = d.trays := rfl
@[simp] theorem Dev.modRing_arrived (c r : Nat) (f : Ring → Ring) : (d.modRing c r f).arrived = d.arrived := rfl
@[simp] theorem Dev.modRing_tfp (c r : Nat) (f : Ring → Ring) : (d.modRing c r f).tfp = d.tfp := rfl
@[simp] theorem Dev.modRing_core (c r : Nat) (f : Ring → Ring) : (d.modRing c r f).core = d.core := rfl
@[simp] theorem Dev.modRing_sched (c r : Nat) (f : Ring → Ring) : (d.modRing c r f).sched = d.sched := rfl
@[simp] theorem Dev.modRing_time (c r : Nat) (f : Ring → Ring) : (d.modRing c r f).time = d.time := rfl
@[simp] theorem Dev.modRing_imp (c r : Nat) (f : Ring → Ring) : (d.modRing c r f).imp = d.imp := rfl
@[simp] theorem Dev.modRing_marks (c r : Nat) (f : Ring → Ring) : (d.modRing c r f).marks = d.marks := rfl
@[simp] theorem Dev.modRing_press (c r : Nat) (f : Ring → Ring) : (d.modRing c r f).press = d.press := rfl
@[simp] theorem Dev.modRing_flt (c r : Nat) (f : Ring → Ring) : (d.modRing c r f).flt = d.flt := rfl
@[simp] theorem Dev.modRing_mgmt (c r : Nat) (f : Ring → Ring) : (d.modRing c r f).mgmt = d.mgmt := rfl
@[simp] theorem Dev.modRing_pwr (c r : Nat) (f : Ring → Ring) : (d.modRing c r f).pwr = d.pwr := rfl
@[simp] theorem Dev.modRing_meter (c r : Nat) (f : Ring → Ring) : (d.modRing c r f).meter = d.meter := rfl
@[simp] theorem Dev.modRing_snap (c r : Nat) (f : Ring → Ring) : (d.modRing c r f).snap = d.snap := rfl
@[simp] theorem Dev.modRing_exp (c r : Nat) (f : Ring → Ring) : (d.modRing c r f).exp = d.exp := rfl
@[simp] theorem Dev.modRing_expPort (c r : Nat) (f : Ring → Ring) : (d.modRing c r f).expPort = d.expPort := rfl
@[simp] theorem Dev.modRing_link (c r : Nat) (f : Ring → Ring) (q_ : Nat) : (d.modRing c r f).link q_ = d.link q_ := rfl
@[simp] theorem Dev.modRing_comp (c r : Nat) (f : Ring → Ring) (q_ : Nat) : (d.modRing c r f).comp q_ = d.comp q_ := rfl
@[simp] theorem Dev.modRing_mark (c r : Nat) (f : Ring → Ring) (q_ : Nat) : (d.modRing c r f).mark q_ = d.mark q_ := rfl
@[simp] theorem Dev.modRing_fld (c r : Nat) (f : Ring → Ring) (q_ : RegName) (x_ y_ z_ : Nat) : (d.modRing c r f).fld q_ x_ y_ z_ = d.fld q_ x_ y_ z_ := rfl
@[simp] theorem Dev.modRing_flag (c r : Nat) (f : Ring → Ring) (q_ : RegName) (x_ y_ : Nat) : (d.modRing c r f).flag q_ x_ y_ = d.flag q_ x_ y_ := rfl
@[simp] theorem Dev.modRing_counter (c r : Nat) (f : Ring → Ring) (q_ : CntName) (x_ : Nat) : (d.modRing c r f).counter q_ x_ = d.counter q_ x_ := rfl

@[simp] theorem Dev.modLayer_clk (c l : Nat) (f : Layer → Layer) : (d.modLayer c l f).clk = d.clk := rfl
@[simp] theorem Dev.modLayer_free (c l : Nat) (f : Layer → Layer) : (d.modLayer c l f).free = d.free := rfl
@[simp] theorem Dev.modLayer_cfg (c l : Nat) (f : Layer → Layer) : (d.modLayer c l f).cfg = d.cfg := rfl
@[simp] theorem Dev.modLayer_cnt (c l : Nat) (f : Layer → Layer) : (d.modLayer c l f).cnt = d.cnt := rfl
@[simp] theorem Dev.modLayer_chk (c l : Nat) (f : Layer → Layer) : (d.modLayer c l f).chk = d.chk := rfl
@[simp] theorem Dev.modLayer_out (c l : Nat) (f : Layer → Layer) : (d.modLayer c l f).out = d.out := rfl
@[simp] theorem Dev.modLayer_links (c l : Nat) (f : Layer → Layer) : (d.modLayer c l f).links = d.links := rfl
@[simp] theorem Dev.modLayer_trays (c l : Nat) (f : Layer → Layer) : (d.modLayer c l f).trays = d.trays := rfl
@[simp] theorem Dev.modLayer_arrived (c l : Nat) (f : Layer → Layer) : (d.modLayer c l f).arrived = d.arrived := rfl
@[simp] theorem Dev.modLayer_tfp (c l : Nat) (f : Layer → Layer) : (d.modLayer c l f).tfp = d.tfp := rfl
@[simp] theorem Dev.modLayer_core (c l : Nat) (f : Layer → Layer) : (d.modLayer c l f).core = d.core := rfl
@[simp] theorem Dev.modLayer_sched (c l : Nat) (f : Layer → Layer) : (d.modLayer c l f).sched = d.sched := rfl
@[simp] theorem Dev.modLayer_time (c l : Nat) (f : Layer → Layer) : (d.modLayer c l f).time = d.time := rfl
@[simp] theorem Dev.modLayer_imp (c l : Nat) (f : Layer → Layer) : (d.modLayer c l f).imp = d.imp := rfl
@[simp] theorem Dev.modLayer_marks (c l : Nat) (f : Layer → Layer) : (d.modLayer c l f).marks = d.marks := rfl
@[simp] theorem Dev.modLayer_press (c l : Nat) (f : Layer → Layer) : (d.modLayer c l f).press = d.press := rfl
@[simp] theorem Dev.modLayer_flt (c l : Nat) (f : Layer → Layer) : (d.modLayer c l f).flt = d.flt := rfl
@[simp] theorem Dev.modLayer_mgmt (c l : Nat) (f : Layer → Layer) : (d.modLayer c l f).mgmt = d.mgmt := rfl
@[simp] theorem Dev.modLayer_pwr (c l : Nat) (f : Layer → Layer) : (d.modLayer c l f).pwr = d.pwr := rfl
@[simp] theorem Dev.modLayer_meter (c l : Nat) (f : Layer → Layer) : (d.modLayer c l f).meter = d.meter := rfl
@[simp] theorem Dev.modLayer_snap (c l : Nat) (f : Layer → Layer) : (d.modLayer c l f).snap = d.snap := rfl
@[simp] theorem Dev.modLayer_exp (c l : Nat) (f : Layer → Layer) : (d.modLayer c l f).exp = d.exp := rfl
@[simp] theorem Dev.modLayer_expPort (c l : Nat) (f : Layer → Layer) : (d.modLayer c l f).expPort = d.expPort := rfl
@[simp] theorem Dev.modLayer_link (c l : Nat) (f : Layer → Layer) (q_ : Nat) : (d.modLayer c l f).link q_ = d.link q_ := rfl
@[simp] theorem Dev.modLayer_comp (c l : Nat) (f : Layer → Layer) (q_ : Nat) : (d.modLayer c l f).comp q_ = d.comp q_ := rfl
@[simp] theorem Dev.modLayer_mark (c l : Nat) (f : Layer → Layer) (q_ : Nat) : (d.modLayer c l f).mark q_ = d.mark q_ := rfl
@[simp] theorem Dev.modLayer_fld (c l : Nat) (f : Layer → Layer) (q_ : RegName) (x_ y_ z_ : Nat) : (d.modLayer c l f).fld q_ x_ y_ z_ = d.fld q_ x_ y_ z_ := rfl
@[simp] theorem Dev.modLayer_flag (c l : Nat) (f : Layer → Layer) (q_ : RegName) (x_ y_ : Nat) : (d.modLayer c l f).flag q_ x_ y_ = d.flag q_ x_ y_ := rfl
@[simp] theorem Dev.modLayer_counter (c l : Nat) (f : Layer → Layer) (q_ : CntName) (x_ : Nat) : (d.modLayer c l f).counter q_ x_ = d.counter q_ x_ := rfl

@[simp] theorem Dev.modGrp_clk (i : Nat) (f : Grp → Grp) : (d.modGrp i f).clk = d.clk := rfl
@[simp] theorem Dev.modGrp_free (i : Nat) (f : Grp → Grp) : (d.modGrp i f).free = d.free := rfl
@[simp] theorem Dev.modGrp_cfg (i : Nat) (f : Grp → Grp) : (d.modGrp i f).cfg = d.cfg := rfl
@[simp] theorem Dev.modGrp_cnt (i : Nat) (f : Grp → Grp) : (d.modGrp i f).cnt = d.cnt := rfl
@[simp] theorem Dev.modGrp_chk (i : Nat) (f : Grp → Grp) : (d.modGrp i f).chk = d.chk := rfl
@[simp] theorem Dev.modGrp_out (i : Nat) (f : Grp → Grp) : (d.modGrp i f).out = d.out := rfl
@[simp] theorem Dev.modGrp_links (i : Nat) (f : Grp → Grp) : (d.modGrp i f).links = d.links := rfl
@[simp] theorem Dev.modGrp_trays (i : Nat) (f : Grp → Grp) : (d.modGrp i f).trays = d.trays := rfl
@[simp] theorem Dev.modGrp_arrived (i : Nat) (f : Grp → Grp) : (d.modGrp i f).arrived = d.arrived := rfl
@[simp] theorem Dev.modGrp_tfp (i : Nat) (f : Grp → Grp) : (d.modGrp i f).tfp = d.tfp := rfl
@[simp] theorem Dev.modGrp_core (i : Nat) (f : Grp → Grp) : (d.modGrp i f).core = d.core := rfl
@[simp] theorem Dev.modGrp_sched (i : Nat) (f : Grp → Grp) : (d.modGrp i f).sched = d.sched := rfl
@[simp] theorem Dev.modGrp_time (i : Nat) (f : Grp → Grp) : (d.modGrp i f).time = d.time := rfl
@[simp] theorem Dev.modGrp_imp (i : Nat) (f : Grp → Grp) : (d.modGrp i f).imp = d.imp := rfl
@[simp] theorem Dev.modGrp_marks (i : Nat) (f : Grp → Grp) : (d.modGrp i f).marks = d.marks := rfl
@[simp] theorem Dev.modGrp_press (i : Nat) (f : Grp → Grp) : (d.modGrp i f).press = d.press := rfl
@[simp] theorem Dev.modGrp_flt (i : Nat) (f : Grp → Grp) : (d.modGrp i f).flt = d.flt := rfl
@[simp] theorem Dev.modGrp_mgmt (i : Nat) (f : Grp → Grp) : (d.modGrp i f).mgmt = d.mgmt := rfl
@[simp] theorem Dev.modGrp_pwr (i : Nat) (f : Grp → Grp) : (d.modGrp i f).pwr = d.pwr := rfl
@[simp] theorem Dev.modGrp_meter (i : Nat) (f : Grp → Grp) : (d.modGrp i f).meter = d.meter := rfl
@[simp] theorem Dev.modGrp_snap (i : Nat) (f : Grp → Grp) : (d.modGrp i f).snap = d.snap := rfl
@[simp] theorem Dev.modGrp_exp (i : Nat) (f : Grp → Grp) : (d.modGrp i f).exp = d.exp := rfl
@[simp] theorem Dev.modGrp_expPort (i : Nat) (f : Grp → Grp) : (d.modGrp i f).expPort = d.expPort := rfl
@[simp] theorem Dev.modGrp_link (i : Nat) (f : Grp → Grp) (q_ : Nat) : (d.modGrp i f).link q_ = d.link q_ := rfl
@[simp] theorem Dev.modGrp_comp (i : Nat) (f : Grp → Grp) (q_ : Nat) : (d.modGrp i f).comp q_ = d.comp q_ := rfl
@[simp] theorem Dev.modGrp_mark (i : Nat) (f : Grp → Grp) (q_ : Nat) : (d.modGrp i f).mark q_ = d.mark q_ := rfl
@[simp] theorem Dev.modGrp_fld (i : Nat) (f : Grp → Grp) (q_ : RegName) (x_ y_ z_ : Nat) : (d.modGrp i f).fld q_ x_ y_ z_ = d.fld q_ x_ y_ z_ := rfl
@[simp] theorem Dev.modGrp_flag (i : Nat) (f : Grp → Grp) (q_ : RegName) (x_ y_ : Nat) : (d.modGrp i f).flag q_ x_ y_ = d.flag q_ x_ y_ := rfl
@[simp] theorem Dev.modGrp_counter (i : Nat) (f : Grp → Grp) (q_ : CntName) (x_ : Nat) : (d.modGrp i f).counter q_ x_ = d.counter q_ x_ := rfl

@[simp] theorem Dev.modJob_clk (i : Nat) (f : PJob → PJob) : (d.modJob i f).clk = d.clk := rfl
@[simp] theorem Dev.modJob_free (i : Nat) (f : PJob → PJob) : (d.modJob i f).free = d.free := rfl
@[simp] theorem Dev.modJob_cfg (i : Nat) (f : PJob → PJob) : (d.modJob i f).cfg = d.cfg := rfl
@[simp] theorem Dev.modJob_cnt (i : Nat) (f : PJob → PJob) : (d.modJob i f).cnt = d.cnt := rfl
@[simp] theorem Dev.modJob_chk (i : Nat) (f : PJob → PJob) : (d.modJob i f).chk = d.chk := rfl
@[simp] theorem Dev.modJob_out (i : Nat) (f : PJob → PJob) : (d.modJob i f).out = d.out := rfl
@[simp] theorem Dev.modJob_links (i : Nat) (f : PJob → PJob) : (d.modJob i f).links = d.links := rfl
@[simp] theorem Dev.modJob_trays (i : Nat) (f : PJob → PJob) : (d.modJob i f).trays = d.trays := rfl
@[simp] theorem Dev.modJob_arrived (i : Nat) (f : PJob → PJob) : (d.modJob i f).arrived = d.arrived := rfl
@[simp] theorem Dev.modJob_tfp (i : Nat) (f : PJob → PJob) : (d.modJob i f).tfp = d.tfp := rfl
@[simp] theorem Dev.modJob_core (i : Nat) (f : PJob → PJob) : (d.modJob i f).core = d.core := rfl
@[simp] theorem Dev.modJob_sched (i : Nat) (f : PJob → PJob) : (d.modJob i f).sched = d.sched := rfl
@[simp] theorem Dev.modJob_time (i : Nat) (f : PJob → PJob) : (d.modJob i f).time = d.time := rfl
@[simp] theorem Dev.modJob_imp (i : Nat) (f : PJob → PJob) : (d.modJob i f).imp = d.imp := rfl
@[simp] theorem Dev.modJob_marks (i : Nat) (f : PJob → PJob) : (d.modJob i f).marks = d.marks := rfl
@[simp] theorem Dev.modJob_press (i : Nat) (f : PJob → PJob) : (d.modJob i f).press = d.press := rfl
@[simp] theorem Dev.modJob_flt (i : Nat) (f : PJob → PJob) : (d.modJob i f).flt = d.flt := rfl
@[simp] theorem Dev.modJob_mgmt (i : Nat) (f : PJob → PJob) : (d.modJob i f).mgmt = d.mgmt := rfl
@[simp] theorem Dev.modJob_pwr (i : Nat) (f : PJob → PJob) : (d.modJob i f).pwr = d.pwr := rfl
@[simp] theorem Dev.modJob_meter (i : Nat) (f : PJob → PJob) : (d.modJob i f).meter = d.meter := rfl
@[simp] theorem Dev.modJob_snap (i : Nat) (f : PJob → PJob) : (d.modJob i f).snap = d.snap := rfl
@[simp] theorem Dev.modJob_exp (i : Nat) (f : PJob → PJob) : (d.modJob i f).exp = d.exp := rfl
@[simp] theorem Dev.modJob_expPort (i : Nat) (f : PJob → PJob) : (d.modJob i f).expPort = d.expPort := rfl
@[simp] theorem Dev.modJob_link (i : Nat) (f : PJob → PJob) (q_ : Nat) : (d.modJob i f).link q_ = d.link q_ := rfl
@[simp] theorem Dev.modJob_comp (i : Nat) (f : PJob → PJob) (q_ : Nat) : (d.modJob i f).comp q_ = d.comp q_ := rfl
@[simp] theorem Dev.modJob_mark (i : Nat) (f : PJob → PJob) (q_ : Nat) : (d.modJob i f).mark q_ = d.mark q_ := rfl
@[simp] theorem Dev.modJob_fld (i : Nat) (f : PJob → PJob) (q_ : RegName) (x_ y_ z_ : Nat) : (d.modJob i f).fld q_ x_ y_ z_ = d.fld q_ x_ y_ z_ := rfl
@[simp] theorem Dev.modJob_flag (i : Nat) (f : PJob → PJob) (q_ : RegName) (x_ y_ : Nat) : (d.modJob i f).flag q_ x_ y_ = d.flag q_ x_ y_ := rfl
@[simp] theorem Dev.modJob_counter (i : Nat) (f : PJob → PJob) (q_ : CntName) (x_ : Nat) : (d.modJob i f).counter q_ x_ = d.counter q_ x_ := rfl

@[simp] theorem Dev.modPtp_clk (p : Nat) (f : PtpPort → PtpPort) : (d.modPtp p f).clk = d.clk := rfl
@[simp] theorem Dev.modPtp_free (p : Nat) (f : PtpPort → PtpPort) : (d.modPtp p f).free = d.free := rfl
@[simp] theorem Dev.modPtp_cfg (p : Nat) (f : PtpPort → PtpPort) : (d.modPtp p f).cfg = d.cfg := rfl
@[simp] theorem Dev.modPtp_cnt (p : Nat) (f : PtpPort → PtpPort) : (d.modPtp p f).cnt = d.cnt := rfl
@[simp] theorem Dev.modPtp_chk (p : Nat) (f : PtpPort → PtpPort) : (d.modPtp p f).chk = d.chk := rfl
@[simp] theorem Dev.modPtp_out (p : Nat) (f : PtpPort → PtpPort) : (d.modPtp p f).out = d.out := rfl
@[simp] theorem Dev.modPtp_links (p : Nat) (f : PtpPort → PtpPort) : (d.modPtp p f).links = d.links := rfl
@[simp] theorem Dev.modPtp_trays (p : Nat) (f : PtpPort → PtpPort) : (d.modPtp p f).trays = d.trays := rfl
@[simp] theorem Dev.modPtp_arrived (p : Nat) (f : PtpPort → PtpPort) : (d.modPtp p f).arrived = d.arrived := rfl
@[simp] theorem Dev.modPtp_tfp (p : Nat) (f : PtpPort → PtpPort) : (d.modPtp p f).tfp = d.tfp := rfl
@[simp] theorem Dev.modPtp_core (p : Nat) (f : PtpPort → PtpPort) : (d.modPtp p f).core = d.core := rfl
@[simp] theorem Dev.modPtp_sched (p : Nat) (f : PtpPort → PtpPort) : (d.modPtp p f).sched = d.sched := rfl
@[simp] theorem Dev.modPtp_imp (p : Nat) (f : PtpPort → PtpPort) : (d.modPtp p f).imp = d.imp := rfl
@[simp] theorem Dev.modPtp_pool (p : Nat) (f : PtpPort → PtpPort) : (d.modPtp p f).pool = d.pool := rfl
@[simp] theorem Dev.modPtp_marks (p : Nat) (f : PtpPort → PtpPort) : (d.modPtp p f).marks = d.marks := rfl
@[simp] theorem Dev.modPtp_press (p : Nat) (f : PtpPort → PtpPort) : (d.modPtp p f).press = d.press := rfl
@[simp] theorem Dev.modPtp_flt (p : Nat) (f : PtpPort → PtpPort) : (d.modPtp p f).flt = d.flt := rfl
@[simp] theorem Dev.modPtp_mgmt (p : Nat) (f : PtpPort → PtpPort) : (d.modPtp p f).mgmt = d.mgmt := rfl
@[simp] theorem Dev.modPtp_pwr (p : Nat) (f : PtpPort → PtpPort) : (d.modPtp p f).pwr = d.pwr := rfl
@[simp] theorem Dev.modPtp_meter (p : Nat) (f : PtpPort → PtpPort) : (d.modPtp p f).meter = d.meter := rfl
@[simp] theorem Dev.modPtp_snap (p : Nat) (f : PtpPort → PtpPort) : (d.modPtp p f).snap = d.snap := rfl
@[simp] theorem Dev.modPtp_exp (p : Nat) (f : PtpPort → PtpPort) : (d.modPtp p f).exp = d.exp := rfl
@[simp] theorem Dev.modPtp_expPort (p : Nat) (f : PtpPort → PtpPort) : (d.modPtp p f).expPort = d.expPort := rfl
@[simp] theorem Dev.modPtp_link (p : Nat) (f : PtpPort → PtpPort) (q_ : Nat) : (d.modPtp p f).link q_ = d.link q_ := rfl
@[simp] theorem Dev.modPtp_comp (p : Nat) (f : PtpPort → PtpPort) (q_ : Nat) : (d.modPtp p f).comp q_ = d.comp q_ := rfl
@[simp] theorem Dev.modPtp_mark (p : Nat) (f : PtpPort → PtpPort) (q_ : Nat) : (d.modPtp p f).mark q_ = d.mark q_ := rfl
@[simp] theorem Dev.modPtp_fld (p : Nat) (f : PtpPort → PtpPort) (q_ : RegName) (x_ y_ z_ : Nat) : (d.modPtp p f).fld q_ x_ y_ z_ = d.fld q_ x_ y_ z_ := rfl
@[simp] theorem Dev.modPtp_flag (p : Nat) (f : PtpPort → PtpPort) (q_ : RegName) (x_ y_ : Nat) : (d.modPtp p f).flag q_ x_ y_ = d.flag q_ x_ y_ := rfl
@[simp] theorem Dev.modPtp_counter (p : Nat) (f : PtpPort → PtpPort) (q_ : CntName) (x_ : Nat) : (d.modPtp p f).counter q_ x_ = d.counter q_ x_ := rfl

@[simp] theorem Dev.modSnap_clk (f : Snap → Snap) : (d.modSnap f).clk = d.clk := rfl
@[simp] theorem Dev.modSnap_free (f : Snap → Snap) : (d.modSnap f).free = d.free := rfl
@[simp] theorem Dev.modSnap_cfg (f : Snap → Snap) : (d.modSnap f).cfg = d.cfg := rfl
@[simp] theorem Dev.modSnap_cnt (f : Snap → Snap) : (d.modSnap f).cnt = d.cnt := rfl
@[simp] theorem Dev.modSnap_chk (f : Snap → Snap) : (d.modSnap f).chk = d.chk := rfl
@[simp] theorem Dev.modSnap_out (f : Snap → Snap) : (d.modSnap f).out = d.out := rfl
@[simp] theorem Dev.modSnap_links (f : Snap → Snap) : (d.modSnap f).links = d.links := rfl
@[simp] theorem Dev.modSnap_trays (f : Snap → Snap) : (d.modSnap f).trays = d.trays := rfl
@[simp] theorem Dev.modSnap_arrived (f : Snap → Snap) : (d.modSnap f).arrived = d.arrived := rfl
@[simp] theorem Dev.modSnap_tfp (f : Snap → Snap) : (d.modSnap f).tfp = d.tfp := rfl
@[simp] theorem Dev.modSnap_core (f : Snap → Snap) : (d.modSnap f).core = d.core := rfl
@[simp] theorem Dev.modSnap_sched (f : Snap → Snap) : (d.modSnap f).sched = d.sched := rfl
@[simp] theorem Dev.modSnap_time (f : Snap → Snap) : (d.modSnap f).time = d.time := rfl
@[simp] theorem Dev.modSnap_imp (f : Snap → Snap) : (d.modSnap f).imp = d.imp := rfl
@[simp] theorem Dev.modSnap_pool (f : Snap → Snap) : (d.modSnap f).pool = d.pool := rfl
@[simp] theorem Dev.modSnap_marks (f : Snap → Snap) : (d.modSnap f).marks = d.marks := rfl
@[simp] theorem Dev.modSnap_press (f : Snap → Snap) : (d.modSnap f).press = d.press := rfl
@[simp] theorem Dev.modSnap_flt (f : Snap → Snap) : (d.modSnap f).flt = d.flt := rfl
@[simp] theorem Dev.modSnap_mgmt (f : Snap → Snap) : (d.modSnap f).mgmt = d.mgmt := rfl
@[simp] theorem Dev.modSnap_pwr (f : Snap → Snap) : (d.modSnap f).pwr = d.pwr := rfl
@[simp] theorem Dev.modSnap_meter (f : Snap → Snap) : (d.modSnap f).meter = d.meter := rfl
@[simp] theorem Dev.modSnap_exp (f : Snap → Snap) : (d.modSnap f).exp = d.exp := rfl
@[simp] theorem Dev.modSnap_expPort (f : Snap → Snap) : (d.modSnap f).expPort = d.expPort := rfl
@[simp] theorem Dev.modSnap_link (f : Snap → Snap) (q_ : Nat) : (d.modSnap f).link q_ = d.link q_ := rfl
@[simp] theorem Dev.modSnap_comp (f : Snap → Snap) (q_ : Nat) : (d.modSnap f).comp q_ = d.comp q_ := rfl
@[simp] theorem Dev.modSnap_mark (f : Snap → Snap) (q_ : Nat) : (d.modSnap f).mark q_ = d.mark q_ := rfl
@[simp] theorem Dev.modSnap_fld (f : Snap → Snap) (q_ : RegName) (x_ y_ z_ : Nat) : (d.modSnap f).fld q_ x_ y_ z_ = d.fld q_ x_ y_ z_ := rfl
@[simp] theorem Dev.modSnap_flag (f : Snap → Snap) (q_ : RegName) (x_ y_ : Nat) : (d.modSnap f).flag q_ x_ y_ = d.flag q_ x_ y_ := rfl
@[simp] theorem Dev.modSnap_counter (f : Snap → Snap) (q_ : CntName) (x_ : Nat) : (d.modSnap f).counter q_ x_ = d.counter q_ x_ := rfl

@[simp] theorem Dev.setConn_clk (t : Transport) (p n : Nat) : (d.setConn t p n).clk = d.clk := rfl
@[simp] theorem Dev.setConn_free (t : Transport) (p n : Nat) : (d.setConn t p n).free = d.free := rfl
@[simp] theorem Dev.setConn_cfg (t : Transport) (p n : Nat) : (d.setConn t p n).cfg = d.cfg := rfl
@[simp] theorem Dev.setConn_cnt (t : Transport) (p n : Nat) : (d.setConn t p n).cnt = d.cnt := rfl
@[simp] theorem Dev.setConn_chk (t : Transport) (p n : Nat) : (d.setConn t p n).chk = d.chk := rfl
@[simp] theorem Dev.setConn_out (t : Transport) (p n : Nat) : (d.setConn t p n).out = d.out := rfl
@[simp] theorem Dev.setConn_links (t : Transport) (p n : Nat) : (d.setConn t p n).links = d.links := rfl
@[simp] theorem Dev.setConn_trays (t : Transport) (p n : Nat) : (d.setConn t p n).trays = d.trays := rfl
@[simp] theorem Dev.setConn_arrived (t : Transport) (p n : Nat) : (d.setConn t p n).arrived = d.arrived := rfl
@[simp] theorem Dev.setConn_tfp (t : Transport) (p n : Nat) : (d.setConn t p n).tfp = d.tfp := rfl
@[simp] theorem Dev.setConn_core (t : Transport) (p n : Nat) : (d.setConn t p n).core = d.core := rfl
@[simp] theorem Dev.setConn_sched (t : Transport) (p n : Nat) : (d.setConn t p n).sched = d.sched := rfl
@[simp] theorem Dev.setConn_time (t : Transport) (p n : Nat) : (d.setConn t p n).time = d.time := rfl
@[simp] theorem Dev.setConn_imp (t : Transport) (p n : Nat) : (d.setConn t p n).imp = d.imp := rfl
@[simp] theorem Dev.setConn_pool (t : Transport) (p n : Nat) : (d.setConn t p n).pool = d.pool := rfl
@[simp] theorem Dev.setConn_marks (t : Transport) (p n : Nat) : (d.setConn t p n).marks = d.marks := rfl
@[simp] theorem Dev.setConn_press (t : Transport) (p n : Nat) : (d.setConn t p n).press = d.press := rfl
@[simp] theorem Dev.setConn_flt (t : Transport) (p n : Nat) : (d.setConn t p n).flt = d.flt := rfl
@[simp] theorem Dev.setConn_pwr (t : Transport) (p n : Nat) : (d.setConn t p n).pwr = d.pwr := rfl
@[simp] theorem Dev.setConn_meter (t : Transport) (p n : Nat) : (d.setConn t p n).meter = d.meter := rfl
@[simp] theorem Dev.setConn_snap (t : Transport) (p n : Nat) : (d.setConn t p n).snap = d.snap := rfl
@[simp] theorem Dev.setConn_exp (t : Transport) (p n : Nat) : (d.setConn t p n).exp = d.exp := rfl
@[simp] theorem Dev.setConn_expPort (t : Transport) (p n : Nat) : (d.setConn t p n).expPort = d.expPort := rfl
@[simp] theorem Dev.setConn_link (t : Transport) (p n : Nat) (q_ : Nat) : (d.setConn t p n).link q_ = d.link q_ := rfl
@[simp] theorem Dev.setConn_comp (t : Transport) (p n : Nat) (q_ : Nat) : (d.setConn t p n).comp q_ = d.comp q_ := rfl
@[simp] theorem Dev.setConn_mark (t : Transport) (p n : Nat) (q_ : Nat) : (d.setConn t p n).mark q_ = d.mark q_ := rfl
@[simp] theorem Dev.setConn_fld (t : Transport) (p n : Nat) (q_ : RegName) (x_ y_ z_ : Nat) : (d.setConn t p n).fld q_ x_ y_ z_ = d.fld q_ x_ y_ z_ := rfl
@[simp] theorem Dev.setConn_flag (t : Transport) (p n : Nat) (q_ : RegName) (x_ y_ : Nat) : (d.setConn t p n).flag q_ x_ y_ = d.flag q_ x_ y_ := rfl
@[simp] theorem Dev.setConn_counter (t : Transport) (p n : Nat) (q_ : CntName) (x_ : Nat) : (d.setConn t p n).counter q_ x_ = d.counter q_ x_ := rfl

theorem State.put_dev : (s.put d).dev = { d with out := [] } := rfl
@[simp] theorem State.put_pending : (s.put d).pending = s.pending := rfl
@[simp] theorem State.put_sent : (s.put d).sent = s.sent ++ d.out := rfl
@[simp] theorem State.put_out : (s.put d).dev.out = [] := rfl
@[simp] theorem State.put_clk : (s.put d).dev.clk = d.clk := rfl
@[simp] theorem State.put_free : (s.put d).dev.free = d.free := rfl
@[simp] theorem State.put_cfg : (s.put d).dev.cfg = d.cfg := rfl
@[simp] theorem State.put_cnt : (s.put d).dev.cnt = d.cnt := rfl
@[simp] theorem State.put_chk : (s.put d).dev.chk = d.chk := rfl
@[simp] theorem State.put_links : (s.put d).dev.links = d.links := rfl
@[simp] theorem State.put_trays : (s.put d).dev.trays = d.trays := rfl
@[simp] theorem State.put_arrived : (s.put d).dev.arrived = d.arrived := rfl
@[simp] theorem State.put_tfp : (s.put d).dev.tfp = d.tfp := rfl
@[simp] theorem State.put_core : (s.put d).dev.core = d.core := rfl
@[simp] theorem State.put_sched : (s.put d).dev.sched = d.sched := rfl
@[simp] theorem State.put_time : (s.put d).dev.time = d.time := rfl
@[simp] theorem State.put_imp : (s.put d).dev.imp = d.imp := rfl
@[simp] theorem State.put_pool : (s.put d).dev.pool = d.pool := rfl
@[simp] theorem State.put_marks : (s.put d).dev.marks = d.marks := rfl
@[simp] theorem State.put_press : (s.put d).dev.press = d.press := rfl
@[simp] theorem State.put_flt : (s.put d).dev.flt = d.flt := rfl
@[simp] theorem State.put_mgmt : (s.put d).dev.mgmt = d.mgmt := rfl
@[simp] theorem State.put_pwr : (s.put d).dev.pwr = d.pwr := rfl
@[simp] theorem State.put_meter : (s.put d).dev.meter = d.meter := rfl
@[simp] theorem State.put_snap : (s.put d).dev.snap = d.snap := rfl
@[simp] theorem State.put_exp : (s.put d).dev.exp = d.exp := rfl
@[simp] theorem State.put_expPort : (s.put d).dev.expPort = d.expPort := rfl

/-! ### What an update writes -/

@[simp] theorem Dev.setReg_reg (r : RegName) (ix v : Nat) : (d.setReg r ix v).reg r ix = v := by simp [Dev.reg, Dev.setReg]

@[simp] theorem Dev.emit_out (e : Emit) : (d.emit e).out = d.out ++ [e] := rfl

@[simp] theorem Dev.countN_counter (c : CntName) (u n : Nat) : (d.countN c u n).counter c u = satAdd64 (d.counter c u) n := by
  simp [Dev.counter, Dev.countN]

@[simp] theorem Dev.count_counter (c : CntName) (u : Nat) : (d.count c u).counter c u = satAdd64 (d.counter c u) 1 := by
  simp [Dev.count]

@[simp] theorem Dev.modLink_link (p : Nat) (f : Link → Link) : (d.modLink p f).link p = f (d.link p) := by
  simp [Dev.link, Dev.modLink]

theorem Dev.modLink_link_other (p q : Nat) (f : Link → Link) (h : q ≠ p) : (d.modLink p f).link q = d.link q := by
  simp [Dev.link, Dev.modLink, tget_tmod_other _ _ _ _ _ h]

@[simp] theorem Dev.modTray_tray (l : Nat) (f : TrayLink → TrayLink) : (d.modTray l f).tray l = f (d.tray l) := by
  simp [Dev.tray, Dev.modTray]

@[simp] theorem Dev.modComp_comp (c : Nat) (f : Comp → Comp) : (d.modComp c f).comp c = f (d.comp c) := by
  simp [Dev.comp, Dev.modComp]

theorem Dev.modComp_comp_other (c e : Nat) (f : Comp → Comp) (h : e ≠ c) : (d.modComp c f).comp e = d.comp e := by
  simp [Dev.comp, Dev.modComp, tget_tmod_other _ _ _ _ _ h]

@[simp] theorem Dev.modMark_mark (i : Nat) (f : Mark → Mark) : (d.modMark i f).mark i = f (d.mark i) := by
  simp [Dev.mark, Dev.modMark]

theorem Dev.modMark_mark_other (i j : Nat) (f : Mark → Mark) (h : j ≠ i) : (d.modMark i f).mark j = d.mark j := by
  simp [Dev.mark, Dev.modMark, tget_tmod_other _ _ _ _ _ h]

@[simp] theorem Dev.modMeter_meter (f : Meter → Meter) : (d.modMeter f).meter = f d.meter := rfl

@[simp] theorem Dev.modSnap_snap (f : Snap → Snap) : (d.modSnap f).snap = f d.snap := rfl

/-! ### A meaning over the device -/

@[simp] theorem onDev_next (f : Dev → Dev) : onDev f s = .next (s.put (f s.dev)) := rfl

end Sys2Proof.Machine
end

