-- ==== Sys2Proof/Laws/Ops.lean ====
section
/-! SUPPORT. What the shared operations can do: a notice changes the keeper's state alone, a record the log and the keeper's state, a reply
the keeper's state, the counters, what is sent and register words that waited; a command that runs is its own effect. -/

namespace Sys2Proof.Machine
open Sys2Proof

variable (d : Dev)

/-! ### Notices (R558–R560) -/

/-- A notice changes the keeper's state alone: numbers, ring, rates, delivery queues. -/
theorem Dev.notice_eq (co di : Nat) (ch : Option Nat) (a b c : Nat) (l : List Nat) :
    ∃ m, d.notice co di ch a b c l = { d with mgmt := m } := by
  unfold Dev.notice
  split
  · exact ⟨d.mgmt, rfl⟩
  · lift_lets
    intro key last blocked
    split
    · exact ⟨_, rfl⟩
    · exact ⟨_, rfl⟩

@[simp] theorem Dev.notice_link (co di : Nat) (ch : Option Nat) (a b c : Nat) (l : List Nat) (q_ : Nat) : (d.notice co di ch a b c l).link q_ = d.link q_ := by
  obtain ⟨_, h⟩ := d.notice_eq co di ch a b c l; rw [h]; rfl
@[simp] theorem Dev.notice_comp (co di : Nat) (ch : Option Nat) (a b c : Nat) (l : List Nat) (q_ : Nat) : (d.notice co di ch a b c l).comp q_ = d.comp q_ := by
  obtain ⟨_, h⟩ := d.notice_eq co di ch a b c l; rw [h]; rfl
@[simp] theorem Dev.notice_mark (co di : Nat) (ch : Option Nat) (a b c : Nat) (l : List Nat) (q_ : Nat) : (d.notice co di ch a b c l).mark q_ = d.mark q_ := by
  obtain ⟨_, h⟩ := d.notice_eq co di ch a b c l; rw [h]; rfl
@[simp] theorem Dev.notice_fld (co di : Nat) (ch : Option Nat) (a b c : Nat) (l : List Nat) (q_ : RegName) (x_ y_ z_ : Nat) : (d.notice co di ch a b c l).fld q_ x_ y_ z_ = d.fld q_ x_ y_ z_ := by
  obtain ⟨_, h⟩ := d.notice_eq co di ch a b c l; rw [h]; rfl
@[simp] theorem Dev.notice_flag (co di : Nat) (ch : Option Nat) (a b c : Nat) (l : List Nat) (q_ : RegName) (x_ y_ : Nat) : (d.notice co di ch a b c l).flag q_ x_ y_ = d.flag q_ x_ y_ := by
  obtain ⟨_, h⟩ := d.notice_eq co di ch a b c l; rw [h]; rfl
@[simp] theorem Dev.notice_counter (co di : Nat) (ch : Option Nat) (a b c : Nat) (l : List Nat) (q_ : CntName) (x_ : Nat) : (d.notice co di ch a b c l).counter q_ x_ = d.counter q_ x_ := by
  obtain ⟨_, h⟩ := d.notice_eq co di ch a b c l; rw [h]; rfl
@[simp] theorem Dev.notice_clk (co di : Nat) (ch : Option Nat) (a b c : Nat) (l : List Nat) : (d.notice co di ch a b c l).clk = d.clk := by
  obtain ⟨_, h⟩ := d.notice_eq co di ch a b c l; rw [h]
@[simp] theorem Dev.notice_free (co di : Nat) (ch : Option Nat) (a b c : Nat) (l : List Nat) : (d.notice co di ch a b c l).free = d.free := by
  obtain ⟨_, h⟩ := d.notice_eq co di ch a b c l; rw [h]
@[simp] theorem Dev.notice_cfg (co di : Nat) (ch : Option Nat) (a b c : Nat) (l : List Nat) : (d.notice co di ch a b c l).cfg = d.cfg := by
  obtain ⟨_, h⟩ := d.notice_eq co di ch a b c l; rw [h]
@[simp] theorem Dev.notice_cnt (co di : Nat) (ch : Option Nat) (a b c : Nat) (l : List Nat) : (d.notice co di ch a b c l).cnt = d.cnt := by
  obtain ⟨_, h⟩ := d.notice_eq co di ch a b c l; rw [h]
@[simp] theorem Dev.notice_chk (co di : Nat) (ch : Option Nat) (a b c : Nat) (l : List Nat) : (d.notice co di ch a b c l).chk = d.chk := by
  obtain ⟨_, h⟩ := d.notice_eq co di ch a b c l; rw [h]
@[simp] theorem Dev.notice_out (co di : Nat) (ch : Option Nat) (a b c : Nat) (l : List Nat) : (d.notice co di ch a b c l).out = d.out := by
  obtain ⟨_, h⟩ := d.notice_eq co di ch a b c l; rw [h]
@[simp] theorem Dev.notice_links (co di : Nat) (ch : Option Nat) (a b c : Nat) (l : List Nat) : (d.notice co di ch a b c l).links = d.links := by
  obtain ⟨_, h⟩ := d.notice_eq co di ch a b c l; rw [h]
@[simp] theorem Dev.notice_trays (co di : Nat) (ch : Option Nat) (a b c : Nat) (l : List Nat) : (d.notice co di ch a b c l).trays = d.trays := by
  obtain ⟨_, h⟩ := d.notice_eq co di ch a b c l; rw [h]
@[simp] theorem Dev.notice_arrived (co di : Nat) (ch : Option Nat) (a b c : Nat) (l : List Nat) : (d.notice co di ch a b c l).arrived = d.arrived := by
  obtain ⟨_, h⟩ := d.notice_eq co di ch a b c l; rw [h]
@[simp] theorem Dev.notice_tfp (co di : Nat) (ch : Option Nat) (a b c : Nat) (l : List Nat) : (d.notice co di ch a b c l).tfp = d.tfp := by
  obtain ⟨_, h⟩ := d.notice_eq co di ch a b c l; rw [h]
@[simp] theorem Dev.notice_core (co di : Nat) (ch : Option Nat) (a b c : Nat) (l : List Nat) : (d.notice co di ch a b c l).core = d.core := by
  obtain ⟨_, h⟩ := d.notice_eq co di ch a b c l; rw [h]
@[simp] theorem Dev.notice_sched (co di : Nat) (ch : Option Nat) (a b c : Nat) (l : List Nat) : (d.notice co di ch a b c l).sched = d.sched := by
  obtain ⟨_, h⟩ := d.notice_eq co di ch a b c l; rw [h]
@[simp] theorem Dev.notice_time (co di : Nat) (ch : Option Nat) (a b c : Nat) (l : List Nat) : (d.notice co di ch a b c l).time = d.time := by
  obtain ⟨_, h⟩ := d.notice_eq co di ch a b c l; rw [h]
@[simp] theorem Dev.notice_imp (co di : Nat) (ch : Option Nat) (a b c : Nat) (l : List Nat) : (d.notice co di ch a b c l).imp = d.imp := by
  obtain ⟨_, h⟩ := d.notice_eq co di ch a b c l; rw [h]
@[simp] theorem Dev.notice_pool (co di : Nat) (ch : Option Nat) (a b c : Nat) (l : List Nat) : (d.notice co di ch a b c l).pool = d.pool := by
  obtain ⟨_, h⟩ := d.notice_eq co di ch a b c l; rw [h]
@[simp] theorem Dev.notice_marks (co di : Nat) (ch : Option Nat) (a b c : Nat) (l : List Nat) : (d.notice co di ch a b c l).marks = d.marks := by
  obtain ⟨_, h⟩ := d.notice_eq co di ch a b c l; rw [h]
@[simp] theorem Dev.notice_press (co di : Nat) (ch : Option Nat) (a b c : Nat) (l : List Nat) : (d.notice co di ch a b c l).press = d.press := by
  obtain ⟨_, h⟩ := d.notice_eq co di ch a b c l; rw [h]
@[simp] theorem Dev.notice_flt (co di : Nat) (ch : Option Nat) (a b c : Nat) (l : List Nat) : (d.notice co di ch a b c l).flt = d.flt := by
  obtain ⟨_, h⟩ := d.notice_eq co di ch a b c l; rw [h]
@[simp] theorem Dev.notice_pwr (co di : Nat) (ch : Option Nat) (a b c : Nat) (l : List Nat) : (d.notice co di ch a b c l).pwr = d.pwr := by
  obtain ⟨_, h⟩ := d.notice_eq co di ch a b c l; rw [h]
@[simp] theorem Dev.notice_meter (co di : Nat) (ch : Option Nat) (a b c : Nat) (l : List Nat) : (d.notice co di ch a b c l).meter = d.meter := by
  obtain ⟨_, h⟩ := d.notice_eq co di ch a b c l; rw [h]
@[simp] theorem Dev.notice_snap (co di : Nat) (ch : Option Nat) (a b c : Nat) (l : List Nat) : (d.notice co di ch a b c l).snap = d.snap := by
  obtain ⟨_, h⟩ := d.notice_eq co di ch a b c l; rw [h]
@[simp] theorem Dev.notice_exp (co di : Nat) (ch : Option Nat) (a b c : Nat) (l : List Nat) : (d.notice co di ch a b c l).exp = d.exp := by
  obtain ⟨_, h⟩ := d.notice_eq co di ch a b c l; rw [h]
@[simp] theorem Dev.notice_expPort (co di : Nat) (ch : Option Nat) (a b c : Nat) (l : List Nat) : (d.notice co di ch a b c l).expPort = d.expPort := by
  obtain ⟨_, h⟩ := d.notice_eq co di ch a b c l; rw [h]

/-- While no keeper is active nothing is sent. -/
theorem Dev.notice_inactive (co di : Nat) (ch : Option Nat) (a b c : Nat) (l : List Nat) (h : d.mgmt.active = none) :
    d.notice co di ch a b c l = d := by simp [Dev.notice, h]

/-! ### Records (R504, R505) -/

theorem Dev.pushRec_eq (r : ErrRec) : ∃ x : Faults × Mgmt, d.pushRec r = { d with flt := x.1, mgmt := x.2 } := by
  unfold Dev.pushRec
  dsimp only
  split
  · exact ⟨(_, d.mgmt), rfl⟩
  · obtain ⟨m, h⟩ := Dev.notice_eq
      { d with flt := { d.flt with ring := tput d.flt.ring d.flt.head r, head := (d.flt.head + 1) % 4096 } } 0x0901 r.die r.chase
      (bits r.word 63 0) (bits r.word 127 64) (bits r.word 191 128) []
    exact ⟨(_, m), h⟩

/-- A record changes the log and, where it sends a notice, the keeper's state. -/
theorem Dev.record_eq (a b c : Nat) (x : Option Nat) (l : Nat) :
    ∃ y : Faults × Mgmt, d.record a b c x l = { d with flt := y.1, mgmt := y.2 } := by
  unfold Dev.record
  dsimp only
  split
  · split
    · exact ⟨(_, d.mgmt), rfl⟩
    · exact Dev.pushRec_eq d _
  · split
    · exact ⟨(_, d.mgmt), rfl⟩
    · split
      · exact ⟨(_, d.mgmt), rfl⟩
      · split
        · exact ⟨(_, d.mgmt), rfl⟩
        · exact ⟨(d.flt, d.mgmt), rfl⟩

@[simp] theorem Dev.record_link (a b c : Nat) (x : Option Nat) (l : Nat) (q_ : Nat) : (d.record a b c x l).link q_ = d.link q_ := by
  obtain ⟨_, h⟩ := d.record_eq a b c x l; rw [h]; rfl
@[simp] theorem Dev.record_comp (a b c : Nat) (x : Option Nat) (l : Nat) (q_ : Nat) : (d.record a b c x l).comp q_ = d.comp q_ := by
  obtain ⟨_, h⟩ := d.record_eq a b c x l; rw [h]; rfl
@[simp] theorem Dev.record_mark (a b c : Nat) (x : Option Nat) (l : Nat) (q_ : Nat) : (d.record a b c x l).mark q_ = d.mark q_ := by
  obtain ⟨_, h⟩ := d.record_eq a b c x l; rw [h]; rfl
@[simp] theorem Dev.record_fld (a b c : Nat) (x : Option Nat) (l : Nat) (q_ : RegName) (x_ y_ z_ : Nat) : (d.record a b c x l).fld q_ x_ y_ z_ = d.fld q_ x_ y_ z_ := by
  obtain ⟨_, h⟩ := d.record_eq a b c x l; rw [h]; rfl
@[simp] theorem Dev.record_flag (a b c : Nat) (x : Option Nat) (l : Nat) (q_ : RegName) (x_ y_ : Nat) : (d.record a b c x l).flag q_ x_ y_ = d.flag q_ x_ y_ := by
  obtain ⟨_, h⟩ := d.record_eq a b c x l; rw [h]; rfl
@[simp] theorem Dev.record_counter (a b c : Nat) (x : Option Nat) (l : Nat) (q_ : CntName) (x_ : Nat) : (d.record a b c x l).counter q_ x_ = d.counter q_ x_ := by
  obtain ⟨_, h⟩ := d.record_eq a b c x l; rw [h]; rfl
@[simp] theorem Dev.record_clk (a b c : Nat) (x : Option Nat) (l : Nat) : (d.record a b c x l).clk = d.clk := by
  obtain ⟨_, h⟩ := d.record_eq a b c x l; rw [h]
@[simp] theorem Dev.record_free (a b c : Nat) (x : Option Nat) (l : Nat) : (d.record a b c x l).free = d.free := by
  obtain ⟨_, h⟩ := d.record_eq a b c x l; rw [h]
@[simp] theorem Dev.record_cfg (a b c : Nat) (x : Option Nat) (l : Nat) : (d.record a b c x l).cfg = d.cfg := by
  obtain ⟨_, h⟩ := d.record_eq a b c x l; rw [h]
@[simp] theorem Dev.record_cnt (a b c : Nat) (x : Option Nat) (l : Nat) : (d.record a b c x l).cnt = d.cnt := by
  obtain ⟨_, h⟩ := d.record_eq a b c x l; rw [h]
@[simp] theorem Dev.record_chk (a b c : Nat) (x : Option Nat) (l : Nat) : (d.record a b c x l).chk = d.chk := by
  obtain ⟨_, h⟩ := d.record_eq a b c x l; rw [h]
@[simp] theorem Dev.record_out (a b c : Nat) (x : Option Nat) (l : Nat) : (d.record a b c x l).out = d.out := by
  obtain ⟨_, h⟩ := d.record_eq a b c x l; rw [h]
@[simp] theorem Dev.record_links (a b c : Nat) (x : Option Nat) (l : Nat) : (d.record a b c x l).links = d.links := by
  obtain ⟨_, h⟩ := d.record_eq a b c x l; rw [h]
@[simp] theorem Dev.record_trays (a b c : Nat) (x : Option Nat) (l : Nat) : (d.record a b c x l).trays = d.trays := by
  obtain ⟨_, h⟩ := d.record_eq a b c x l; rw [h]
@[simp] theorem Dev.record_arrived (a b c : Nat) (x : Option Nat) (l : Nat) : (d.record a b c x l).arrived = d.arrived := by
  obtain ⟨_, h⟩ := d.record_eq a b c x l; rw [h]
@[simp] theorem Dev.record_tfp (a b c : Nat) (x : Option Nat) (l : Nat) : (d.record a b c x l).tfp = d.tfp := by
  obtain ⟨_, h⟩ := d.record_eq a b c x l; rw [h]
@[simp] theorem Dev.record_core (a b c : Nat) (x : Option Nat) (l : Nat) : (d.record a b c x l).core = d.core := by
  obtain ⟨_, h⟩ := d.record_eq a b c x l; rw [h]
@[simp] theorem Dev.record_sched (a b c : Nat) (x : Option Nat) (l : Nat) : (d.record a b c x l).sched = d.sched := by
  obtain ⟨_, h⟩ := d.record_eq a b c x l; rw [h]
@[simp] theorem Dev.record_time (a b c : Nat) (x : Option Nat) (l : Nat) : (d.record a b c x l).time = d.time := by
  obtain ⟨_, h⟩ := d.record_eq a b c x l; rw [h]
@[simp] theorem Dev.record_imp (a b c : Nat) (x : Option Nat) (l : Nat) : (d.record a b c x l).imp = d.imp := by
  obtain ⟨_, h⟩ := d.record_eq a b c x l; rw [h]
@[simp] theorem Dev.record_pool (a b c : Nat) (x : Option Nat) (l : Nat) : (d.record a b c x l).pool = d.pool := by
  obtain ⟨_, h⟩ := d.record_eq a b c x l; rw [h]
@[simp] theorem Dev.record_marks (a b c : Nat) (x : Option Nat) (l : Nat) : (d.record a b c x l).marks = d.marks := by
  obtain ⟨_, h⟩ := d.record_eq a b c x l; rw [h]
@[simp] theorem Dev.record_press (a b c : Nat) (x : Option Nat) (l : Nat) : (d.record a b c x l).press = d.press := by
  obtain ⟨_, h⟩ := d.record_eq a b c x l; rw [h]
@[simp] theorem Dev.record_pwr (a b c : Nat) (x : Option Nat) (l : Nat) : (d.record a b c x l).pwr = d.pwr := by
  obtain ⟨_, h⟩ := d.record_eq a b c x l; rw [h]
@[simp] theorem Dev.record_meter (a b c : Nat) (x : Option Nat) (l : Nat) : (d.record a b c x l).meter = d.meter := by
  obtain ⟨_, h⟩ := d.record_eq a b c x l; rw [h]
@[simp] theorem Dev.record_snap (a b c : Nat) (x : Option Nat) (l : Nat) : (d.record a b c x l).snap = d.snap := by
  obtain ⟨_, h⟩ := d.record_eq a b c x l; rw [h]
@[simp] theorem Dev.record_exp (a b c : Nat) (x : Option Nat) (l : Nat) : (d.record a b c x l).exp = d.exp := by
  obtain ⟨_, h⟩ := d.record_eq a b c x l; rw [h]
@[simp] theorem Dev.record_expPort (a b c : Nat) (x : Option Nat) (l : Nat) : (d.record a b c x l).expPort = d.expPort := by
  obtain ⟨_, h⟩ := d.record_eq a b c x l; rw [h]

/-! ### Replies (R541, R543, R549) -/

/-- A reply changes the keeper's state, one counter, what is sent, and register words that waited for it. -/
theorem Dev.sendReply_eq (s : Option Nat) (t : Transport) (r : Reply) :
    ∃ x : Mgmt × Tbl W64 × List Emit × Tbl Nat,
      d.sendReply s t r = { d with mgmt := x.1, cnt := x.2.1, out := x.2.2.1, cfg := x.2.2.2 } := by
  unfold Dev.sendReply
  dsimp only
  split <;> split <;> exact ⟨(_, _, _, _), rfl⟩

/-- A reply is sent: it is the last thing the step has sent so far. -/
@[simp] theorem Dev.sendReply_out (s : Option Nat) (t : Transport) (r : Reply) : (d.sendReply s t r).out = d.out ++ [.reply s t r] := by
  unfold Dev.sendReply
  dsimp only
  split <;> split <;> rfl

@[simp] theorem Dev.sendReply_link (s : Option Nat) (t : Transport) (r : Reply) (q_ : Nat) : (d.sendReply s t r).link q_ = d.link q_ := by
  obtain ⟨_, h⟩ := d.sendReply_eq s t r; rw [h]; rfl
@[simp] theorem Dev.sendReply_comp (s : Option Nat) (t : Transport) (r : Reply) (q_ : Nat) : (d.sendReply s t r).comp q_ = d.comp q_ := by
  obtain ⟨_, h⟩ := d.sendReply_eq s t r; rw [h]; rfl
@[simp] theorem Dev.sendReply_mark (s : Option Nat) (t : Transport) (r : Reply) (q_ : Nat) : (d.sendReply s t r).mark q_ = d.mark q_ := by
  obtain ⟨_, h⟩ := d.sendReply_eq s t r; rw [h]; rfl
@[simp] theorem Dev.sendReply_clk (s : Option Nat) (t : Transport) (r : Reply) : (d.sendReply s t r).clk = d.clk := by
  obtain ⟨_, h⟩ := d.sendReply_eq s t r; rw [h]
@[simp] theorem Dev.sendReply_free (s : Option Nat) (t : Transport) (r : Reply) : (d.sendReply s t r).free = d.free := by
  obtain ⟨_, h⟩ := d.sendReply_eq s t r; rw [h]
@[simp] theorem Dev.sendReply_chk (s : Option Nat) (t : Transport) (r : Reply) : (d.sendReply s t r).chk = d.chk := by
  obtain ⟨_, h⟩ := d.sendReply_eq s t r; rw [h]
@[simp] theorem Dev.sendReply_links (s : Option Nat) (t : Transport) (r : Reply) : (d.sendReply s t r).links = d.links := by
  obtain ⟨_, h⟩ := d.sendReply_eq s t r; rw [h]
@[simp] theorem Dev.sendReply_trays (s : Option Nat) (t : Transport) (r : Reply) : (d.sendReply s t r).trays = d.trays := by
  obtain ⟨_, h⟩ := d.sendReply_eq s t r; rw [h]
@[simp] theorem Dev.sendReply_arrived (s : Option Nat) (t : Transport) (r : Reply) : (d.sendReply s t r).arrived = d.arrived := by
  obtain ⟨_, h⟩ := d.sendReply_eq s t r; rw [h]
@[simp] theorem Dev.sendReply_tfp (s : Option Nat) (t : Transport) (r : Reply) : (d.sendReply s t r).tfp = d.tfp := by
  obtain ⟨_, h⟩ := d.sendReply_eq s t r; rw [h]
@[simp] theorem Dev.sendReply_core (s : Option Nat) (t : Transport) (r : Reply) : (d.sendReply s t r).core = d.core := by
  obtain ⟨_, h⟩ := d.sendReply_eq s t r; rw [h]
@[simp] theorem Dev.sendReply_sched (s : Option Nat) (t : Transport) (r : Reply) : (d.sendReply s t r).sched = d.sched := by
  obtain ⟨_, h⟩ := d.sendReply_eq s t r; rw [h]
@[simp] theorem Dev.sendReply_time (s : Option Nat) (t : Transport) (r : Reply) : (d.sendReply s t r).time = d.time := by
  obtain ⟨_, h⟩ := d.sendReply_eq s t r; rw [h]
@[simp] theorem Dev.sendReply_imp (s : Option Nat) (t : Transport) (r : Reply) : (d.sendReply s t r).imp = d.imp := by
  obtain ⟨_, h⟩ := d.sendReply_eq s t r; rw [h]
@[simp] theorem Dev.sendReply_pool (s : Option Nat) (t : Transport) (r : Reply) : (d.sendReply s t r).pool = d.pool := by
  obtain ⟨_, h⟩ := d.sendReply_eq s t r; rw [h]
@[simp] theorem Dev.sendReply_marks (s : Option Nat) (t : Transport) (r : Reply) : (d.sendReply s t r).marks = d.marks := by
  obtain ⟨_, h⟩ := d.sendReply_eq s t r; rw [h]
@[simp] theorem Dev.sendReply_press (s : Option Nat) (t : Transport) (r : Reply) : (d.sendReply s t r).press = d.press := by
  obtain ⟨_, h⟩ := d.sendReply_eq s t r; rw [h]
@[simp] theorem Dev.sendReply_flt (s : Option Nat) (t : Transport) (r : Reply) : (d.sendReply s t r).flt = d.flt := by
  obtain ⟨_, h⟩ := d.sendReply_eq s t r; rw [h]
@[simp] theorem Dev.sendReply_pwr (s : Option Nat) (t : Transport) (r : Reply) : (d.sendReply s t r).pwr = d.pwr := by
  obtain ⟨_, h⟩ := d.sendReply_eq s t r; rw [h]
@[simp] theorem Dev.sendReply_meter (s : Option Nat) (t : Transport) (r : Reply) : (d.sendReply s t r).meter = d.meter := by
  obtain ⟨_, h⟩ := d.sendReply_eq s t r; rw [h]
@[simp] theorem Dev.sendReply_snap (s : Option Nat) (t : Transport) (r : Reply) : (d.sendReply s t r).snap = d.snap := by
  obtain ⟨_, h⟩ := d.sendReply_eq s t r; rw [h]
@[simp] theorem Dev.sendReply_exp (s : Option Nat) (t : Transport) (r : Reply) : (d.sendReply s t r).exp = d.exp := by
  obtain ⟨_, h⟩ := d.sendReply_eq s t r; rw [h]
@[simp] theorem Dev.sendReply_expPort (s : Option Nat) (t : Transport) (r : Reply) : (d.sendReply s t r).expPort = d.expPort := by
  obtain ⟨_, h⟩ := d.sendReply_eq s t r; rw [h]

@[simp] theorem Dev.reply_link (b : Bas) (o : Nat) (st : Status) (x y : Nat) (l : List Nat) (q_ : Nat) : (d.reply b o st x y l).link q_ = d.link q_ := by
  obtain ⟨_, h⟩ := d.sendReply_eq b.sess b.tr { opc := o, cseq := b.cseq, status := st, dcode := x, dval := y, data := l }; rw [Dev.reply, h]; rfl
@[simp] theorem Dev.reply_comp (b : Bas) (o : Nat) (st : Status) (x y : Nat) (l : List Nat) (q_ : Nat) : (d.reply b o st x y l).comp q_ = d.comp q_ := by
  obtain ⟨_, h⟩ := d.sendReply_eq b.sess b.tr { opc := o, cseq := b.cseq, status := st, dcode := x, dval := y, data := l }; rw [Dev.reply, h]; rfl
@[simp] theorem Dev.reply_mark (b : Bas) (o : Nat) (st : Status) (x y : Nat) (l : List Nat) (q_ : Nat) : (d.reply b o st x y l).mark q_ = d.mark q_ := by
  obtain ⟨_, h⟩ := d.sendReply_eq b.sess b.tr { opc := o, cseq := b.cseq, status := st, dcode := x, dval := y, data := l }; rw [Dev.reply, h]; rfl
@[simp] theorem Dev.reply_clk (b : Bas) (o : Nat) (st : Status) (x y : Nat) (l : List Nat) : (d.reply b o st x y l).clk = d.clk := by
  obtain ⟨_, h⟩ := d.sendReply_eq b.sess b.tr { opc := o, cseq := b.cseq, status := st, dcode := x, dval := y, data := l }; rw [Dev.reply, h]
@[simp] theorem Dev.reply_free (b : Bas) (o : Nat) (st : Status) (x y : Nat) (l : List Nat) : (d.reply b o st x y l).free = d.free := by
  obtain ⟨_, h⟩ := d.sendReply_eq b.sess b.tr { opc := o, cseq := b.cseq, status := st, dcode := x, dval := y, data := l }; rw [Dev.reply, h]
@[simp] theorem Dev.reply_chk (b : Bas) (o : Nat) (st : Status) (x y : Nat) (l : List Nat) : (d.reply b o st x y l).chk = d.chk := by
  obtain ⟨_, h⟩ := d.sendReply_eq b.sess b.tr { opc := o, cseq := b.cseq, status := st, dcode := x, dval := y, data := l }; rw [Dev.reply, h]
@[simp] theorem Dev.reply_links (b : Bas) (o : Nat) (st : Status) (x y : Nat) (l : List Nat) : (d.reply b o st x y l).links = d.links := by
  obtain ⟨_, h⟩ := d.sendReply_eq b.sess b.tr { opc := o, cseq := b.cseq, status := st, dcode := x, dval := y, data := l }; rw [Dev.reply, h]
@[simp] theorem Dev.reply_trays (b : Bas) (o : Nat) (st : Status) (x y : Nat) (l : List Nat) : (d.reply b o st x y l).trays = d.trays := by
  obtain ⟨_, h⟩ := d.sendReply_eq b.sess b.tr { opc := o, cseq := b.cseq, status := st, dcode := x, dval := y, data := l }; rw [Dev.reply, h]
@[simp] theorem Dev.reply_arrived (b : Bas) (o : Nat) (st : Status) (x y : Nat) (l : List Nat) : (d.reply b o st x y l).arrived = d.arrived := by
  obtain ⟨_, h⟩ := d.sendReply_eq b.sess b.tr { opc := o, cseq := b.cseq, status := st, dcode := x, dval := y, data := l }; rw [Dev.reply, h]
@[simp] theorem Dev.reply_tfp (b : Bas) (o : Nat) (st : Status) (x y : Nat) (l : List Nat) : (d.reply b o st x y l).tfp = d.tfp := by
  obtain ⟨_, h⟩ := d.sendReply_eq b.sess b.tr { opc := o, cseq := b.cseq, status := st, dcode := x, dval := y, data := l }; rw [Dev.reply, h]
@[simp] theorem Dev.reply_core (b : Bas) (o : Nat) (st : Status) (x y : Nat) (l : List Nat) : (d.reply b o st x y l).core = d.core := by
  obtain ⟨_, h⟩ := d.sendReply_eq b.sess b.tr { opc := o, cseq := b.cseq, status := st, dcode := x, dval := y, data := l }; rw [Dev.reply, h]
@[simp] theorem Dev.reply_sched (b : Bas) (o : Nat) (st : Status) (x y : Nat) (l : List Nat) : (d.reply b o st x y l).sched = d.sched := by
  obtain ⟨_, h⟩ := d.sendReply_eq b.sess b.tr { opc := o, cseq := b.cseq, status := st, dcode := x, dval := y, data := l }; rw [Dev.reply, h]
@[simp] theorem Dev.reply_time (b : Bas) (o : Nat) (st : Status) (x y : Nat) (l : List Nat) : (d.reply b o st x y l).time = d.time := by
  obtain ⟨_, h⟩ := d.sendReply_eq b.sess b.tr { opc := o, cseq := b.cseq, status := st, dcode := x, dval := y, data := l }; rw [Dev.reply, h]
@[simp] theorem Dev.reply_imp (b : Bas) (o : Nat) (st : Status) (x y : Nat) (l : List Nat) : (d.reply b o st x y l).imp = d.imp := by
  obtain ⟨_, h⟩ := d.sendReply_eq b.sess b.tr { opc := o, cseq := b.cseq, status := st, dcode := x, dval := y, data := l }; rw [Dev.reply, h]
@[simp] theorem Dev.reply_pool (b : Bas) (o : Nat) (st : Status) (x y : Nat) (l : List Nat) : (d.reply b o st x y l).pool = d.pool := by
  obtain ⟨_, h⟩ := d.sendReply_eq b.sess b.tr { opc := o, cseq := b.cseq, status := st, dcode := x, dval := y, data := l }; rw [Dev.reply, h]
@[simp] theorem Dev.reply_marks (b : Bas) (o : Nat) (st : Status) (x y : Nat) (l : List Nat) : (d.reply b o st x y l).marks = d.marks := by
  obtain ⟨_, h⟩ := d.sendReply_eq b.sess b.tr { opc := o, cseq := b.cseq, status := st, dcode := x, dval := y, data := l }; rw [Dev.reply, h]
@[simp] theorem Dev.reply_press (b : Bas) (o : Nat) (st : Status) (x y : Nat) (l : List Nat) : (d.reply b o st x y l).press = d.press := by
  obtain ⟨_, h⟩ := d.sendReply_eq b.sess b.tr { opc := o, cseq := b.cseq, status := st, dcode := x, dval := y, data := l }; rw [Dev.reply, h]
@[simp] theorem Dev.reply_flt (b : Bas) (o : Nat) (st : Status) (x y : Nat) (l : List Nat) : (d.reply b o st x y l).flt = d.flt := by
  obtain ⟨_, h⟩ := d.sendReply_eq b.sess b.tr { opc := o, cseq := b.cseq, status := st, dcode := x, dval := y, data := l }; rw [Dev.reply, h]
@[simp] theorem Dev.reply_pwr (b : Bas) (o : Nat) (st : Status) (x y : Nat) (l : List Nat) : (d.reply b o st x y l).pwr = d.pwr := by
  obtain ⟨_, h⟩ := d.sendReply_eq b.sess b.tr { opc := o, cseq := b.cseq, status := st, dcode := x, dval := y, data := l }; rw [Dev.reply, h]
@[simp] theorem Dev.reply_meter (b : Bas) (o : Nat) (st : Status) (x y : Nat) (l : List Nat) : (d.reply b o st x y l).meter = d.meter := by
  obtain ⟨_, h⟩ := d.sendReply_eq b.sess b.tr { opc := o, cseq := b.cseq, status := st, dcode := x, dval := y, data := l }; rw [Dev.reply, h]
@[simp] theorem Dev.reply_snap (b : Bas) (o : Nat) (st : Status) (x y : Nat) (l : List Nat) : (d.reply b o st x y l).snap = d.snap := by
  obtain ⟨_, h⟩ := d.sendReply_eq b.sess b.tr { opc := o, cseq := b.cseq, status := st, dcode := x, dval := y, data := l }; rw [Dev.reply, h]
@[simp] theorem Dev.reply_exp (b : Bas) (o : Nat) (st : Status) (x y : Nat) (l : List Nat) : (d.reply b o st x y l).exp = d.exp := by
  obtain ⟨_, h⟩ := d.sendReply_eq b.sess b.tr { opc := o, cseq := b.cseq, status := st, dcode := x, dval := y, data := l }; rw [Dev.reply, h]
@[simp] theorem Dev.reply_expPort (b : Bas) (o : Nat) (st : Status) (x y : Nat) (l : List Nat) : (d.reply b o st x y l).expPort = d.expPort := by
  obtain ⟨_, h⟩ := d.sendReply_eq b.sess b.tr { opc := o, cseq := b.cseq, status := st, dcode := x, dval := y, data := l }; rw [Dev.reply, h]

@[simp] theorem Dev.reply_out (b : Bas) (o : Nat) (st : Status) (x y : Nat) (l : List Nat) :
    (d.reply b o st x y l).out = d.out ++ [.reply b.sess b.tr { opc := o, cseq := b.cseq, status := st, dcode := x, dval := y, data := l }] := by
  simp [Dev.reply]

theorem Dev.finish_eq (o k : Nat) (st : Status) (x y : Nat) (l : List Nat) :
    ∃ x' : Mgmt × Tbl W64 × List Emit × Tbl Nat,
      d.finish o k st x y l = { d with mgmt := x'.1, cnt := x'.2.1, out := x'.2.2.1, cfg := x'.2.2.2 } := by
  unfold Dev.finish
  split
  · exact ⟨(d.mgmt, d.cnt, d.out, d.cfg), rfl⟩
  · rename_i r hr
    obtain ⟨z, h⟩ := Dev.sendReply_eq
      { d with mgmt := { d.mgmt with running := dropFirst (fun r => r.opc == o && r.key == k) d.mgmt.running } } r.sess r.tr
      { opc := o, cseq := r.cseq, status := st, dcode := x, dval := y, data := l }
    exact ⟨z, h⟩

@[simp] theorem Dev.finish_link (o k : Nat) (st : Status) (x y : Nat) (l : List Nat) (q_ : Nat) : (d.finish o k st x y l).link q_ = d.link q_ := by
  obtain ⟨_, h⟩ := d.finish_eq o k st x y l; rw [h]; rfl
@[simp] theorem Dev.finish_comp (o k : Nat) (st : Status) (x y : Nat) (l : List Nat) (q_ : Nat) : (d.finish o k st x y l).comp q_ = d.comp q_ := by
  obtain ⟨_, h⟩ := d.finish_eq o k st x y l; rw [h]; rfl
@[simp] theorem Dev.finish_mark (o k : Nat) (st : Status) (x y : Nat) (l : List Nat) (q_ : Nat) : (d.finish o k st x y l).mark q_ = d.mark q_ := by
  obtain ⟨_, h⟩ := d.finish_eq o k st x y l; rw [h]; rfl
@[simp] theorem Dev.finish_clk (o k : Nat) (st : Status) (x y : Nat) (l : List Nat) : (d.finish o k st x y l).clk = d.clk := by
  obtain ⟨_, h⟩ := d.finish_eq o k st x y l; rw [h]
@[simp] theorem Dev.finish_free (o k : Nat) (st : Status) (x y : Nat) (l : List Nat) : (d.finish o k st x y l).free = d.free := by
  obtain ⟨_, h⟩ := d.finish_eq o k st x y l; rw [h]
@[simp] theorem Dev.finish_chk (o k : Nat) (st : Status) (x y : Nat) (l : List Nat) : (d.finish o k st x y l).chk = d.chk := by
  obtain ⟨_, h⟩ := d.finish_eq o k st x y l; rw [h]
@[simp] theorem Dev.finish_links (o k : Nat) (st : Status) (x y : Nat) (l : List Nat) : (d.finish o k st x y l).links = d.links := by
  obtain ⟨_, h⟩ := d.finish_eq o k st x y l; rw [h]
@[simp] theorem Dev.finish_trays (o k : Nat) (st : Status) (x y : Nat) (l : List Nat) : (d.finish o k st x y l).trays = d.trays := by
  obtain ⟨_, h⟩ := d.finish_eq o k st x y l; rw [h]
@[simp] theorem Dev.finish_arrived (o k : Nat) (st : Status) (x y : Nat) (l : List Nat) : (d.finish o k st x y l).arrived = d.arrived := by
  obtain ⟨_, h⟩ := d.finish_eq o k st x y l; rw [h]
@[simp] theorem Dev.finish_tfp (o k : Nat) (st : Status) (x y : Nat) (l : List Nat) : (d.finish o k st x y l).tfp = d.tfp := by
  obtain ⟨_, h⟩ := d.finish_eq o k st x y l; rw [h]
@[simp] theorem Dev.finish_core (o k : Nat) (st : Status) (x y : Nat) (l : List Nat) : (d.finish o k st x y l).core = d.core := by
  obtain ⟨_, h⟩ := d.finish_eq o k st x y l; rw [h]
@[simp] theorem Dev.finish_sched (o k : Nat) (st : Status) (x y : Nat) (l : List Nat) : (d.finish o k st x y l).sched = d.sched := by
  obtain ⟨_, h⟩ := d.finish_eq o k st x y l; rw [h]
@[simp] theorem Dev.finish_time (o k : Nat) (st : Status) (x y : Nat) (l : List Nat) : (d.finish o k st x y l).time = d.time := by
  obtain ⟨_, h⟩ := d.finish_eq o k st x y l; rw [h]
@[simp] theorem Dev.finish_imp (o k : Nat) (st : Status) (x y : Nat) (l : List Nat) : (d.finish o k st x y l).imp = d.imp := by
  obtain ⟨_, h⟩ := d.finish_eq o k st x y l; rw [h]
@[simp] theorem Dev.finish_pool (o k : Nat) (st : Status) (x y : Nat) (l : List Nat) : (d.finish o k st x y l).pool = d.pool := by
  obtain ⟨_, h⟩ := d.finish_eq o k st x y l; rw [h]
@[simp] theorem Dev.finish_marks (o k : Nat) (st : Status) (x y : Nat) (l : List Nat) : (d.finish o k st x y l).marks = d.marks := by
  obtain ⟨_, h⟩ := d.finish_eq o k st x y l; rw [h]
@[simp] theorem Dev.finish_press (o k : Nat) (st : Status) (x y : Nat) (l : List Nat) : (d.finish o k st x y l).press = d.press := by
  obtain ⟨_, h⟩ := d.finish_eq o k st x y l; rw [h]
@[simp] theorem Dev.finish_flt (o k : Nat) (st : Status) (x y : Nat) (l : List Nat) : (d.finish o k st x y l).flt = d.flt := by
  obtain ⟨_, h⟩ := d.finish_eq o k st x y l; rw [h]
@[simp] theorem Dev.finish_pwr (o k : Nat) (st : Status) (x y : Nat) (l : List Nat) : (d.finish o k st x y l).pwr = d.pwr := by
  obtain ⟨_, h⟩ := d.finish_eq o k st x y l; rw [h]
@[simp] theorem Dev.finish_meter (o k : Nat) (st : Status) (x y : Nat) (l : List Nat) : (d.finish o k st x y l).meter = d.meter := by
  obtain ⟨_, h⟩ := d.finish_eq o k st x y l; rw [h]
@[simp] theorem Dev.finish_snap (o k : Nat) (st : Status) (x y : Nat) (l : List Nat) : (d.finish o k st x y l).snap = d.snap := by
  obtain ⟨_, h⟩ := d.finish_eq o k st x y l; rw [h]
@[simp] theorem Dev.finish_exp (o k : Nat) (st : Status) (x y : Nat) (l : List Nat) : (d.finish o k st x y l).exp = d.exp := by
  obtain ⟨_, h⟩ := d.finish_eq o k st x y l; rw [h]
@[simp] theorem Dev.finish_expPort (o k : Nat) (st : Status) (x y : Nat) (l : List Nat) : (d.finish o k st x y l).expPort = d.expPort := by
  obtain ⟨_, h⟩ := d.finish_eq o k st x y l; rw [h]

/-! ### Commands (R547–R551) -/

/-- A command whose checks of form, transport and role pass, on a chase that is bound and not being reset, is its own effect. -/
theorem Dev.startCmd_runs (b : Bas) (i : CmdInfo) (body : Dev → Dev) (he : (d.early b i).isNone = true)
    (hc : (match i.chase with | none => true | some c => (d.comp c).bound && !(d.comp c).suspended) = true) :
    d.startCmd b i body = body d := by
  unfold Dev.startCmd
  rw [Option.isNone_iff_eq_none.1 he]
  unfold Dev.runBody
  cases h : i.chase with
  | none => rfl
  | some c => simp [h] at hc; simp [hc.1, hc.2]

/-- What noting a sequence number leaves as it was: everything but the session's own record of numbers. -/
theorem heard_eq (b : Bas) : ∃ ss, heard d b = { d with mgmt := { d.mgmt with sessions := ss } } := by
  unfold heard
  split
  · exact ⟨_, rfl⟩
  · exact ⟨d.mgmt.sessions, rfl⟩

/-- A command that arrives new and runs is its own effect on the device that has noted its sequence number. -/
theorem Dev.command_runs (self : Instr) (b : Bas) (i : CmdInfo) (body : Dev → Dev) (h : Runs d self b i = true) :
    d.command self b i body = body (heard d b) := by
  unfold Runs Arrives at h
  simp only [Bool.and_eq_true] at h
  obtain ⟨⟨⟨⟨⟨⟨⟨⟨⟨hact, hst⟩, htk⟩, hbad⟩, hseq⟩, hcache⟩, hprog⟩, hout⟩, hdom⟩, he⟩ := h.1
  have hrun := Dev.startCmd_runs (heard d b) b i body he h.2
  obtain ⟨k, hk⟩ := Option.isSome_iff_exists.1 hact
  have hrec : ∀ g : Dev → Dev, d.received b g = g (heard d b) := by
    intro g
    unfold Dev.received heard
    simp only [htk, Bool.not_true, Bool.false_eq_true, if_false]
    simp only [Bool.not_eq_true'] at hbad
    simp only [hbad, Bool.false_eq_true, if_false]
    cases h1 : b.seq with
    | none => rfl
    | some n =>
      cases h2 : b.sess.bind d.session with
      | none => rfl
      | some se => simp only [h1, h2] at hseq; simp [hseq]
  unfold Dev.command
  have hne : d.mgmt.starting ≠ some self := by simpa using hst
  simp only [hk, hne, if_false, hrec]
  rw [Option.isNone_iff_eq_none.1 hcache]
  have ho : ¬ 16 ≤ (heard d b).outstanding b := by simpa using hout
  have hp : (heard d b).inProgress b = false := by simpa using hprog
  simp only [hp, Bool.false_eq_true, if_false]
  cases hx : i.dom with
  | none => simp [ho, hrun]
  | some x =>
    rw [hx] at hdom
    simp only [Bool.and_eq_true, decide_eq_true_eq, Bool.not_eq_true'] at hdom
    simp [ho, Nat.not_le.2 hdom.1, hdom.2, hrun]

end Sys2Proof.Machine
end

