-- ==== Sys2Proof/Laws/Leads.lean ====
section
/-! SUPPORT. What a command that runs leads to: one lemma for every meaning of the forms `onDev`, `onPool` and `onCmd`. -/

namespace Sys2Proof
open Machine

variable {c : Instr} {s : State} {d d' : Dev}

theorem Leads.of_eq (h : Leads c s d) (e : d = d') : Leads c s d' := e ▸ h
theorem Does.of_eq (h : Does c s d) (e : d = d') : Does c s d' := e ▸ h

/-- A meaning over the device alone. -/
theorem does_onDev {f : Dev → Dev} (he : exec c s = onDev f s) : Does c s (f s.dev) := he

/-- A meaning whose effect sets accesses or services going. -/
theorem leads_onPool {f : Dev → Dev} (he : exec c s = onPool f s) : Leads c s (f s.dev) := he

/-- A Basod command that runs has its body's effect on the device that heard it. -/
theorem leads_onCmd {self : Instr} {b : Bas} {i : CmdInfo} {body : Dev → Dev} (he : exec c s = onCmd self b i body s)
    (h : Runs s.dev self b i = true) : Leads c s (body (heard s.dev b)) := by
  unfold Leads
  rw [he]
  show Host.Outcome.next (s.put (settle (s.dev.command self b i body))) = _
  rw [Machine.Dev.command_runs s.dev self b i body h]

/-- What a secured message of a session does. -/
theorem inSession_secured {d : Dev} {b : Bas} {n : Nat} {se : Session} (h : Secured d b n se) (f : Nat → Session → Dev → Dev) :
    inSession b f d = f n se (heard d b) := by
  obtain ⟨h1, h2, h3, h4, h5, h6⟩ := h
  obtain ⟨k, hk⟩ := Option.isSome_iff_exists.1 h1
  unfold inSession Dev.received
  simp only [hk, h2, h3, Bool.not_true, Bool.false_eq_true, if_false]
  have hb : b.sess.bind (heard d b).session = some se := by rw [h5]; exact h6
  cases hq : b.seq with
  | none =>
    have : heard d b = d := by simp [heard, hq]
    rw [this] at hb ⊢
    simp [h5]
    rw [h5] at hb
    simp at hb
    rw [hb]
  | some q =>
    cases hs : b.sess.bind d.session with
    | none =>
      have : heard d b = d := by simp [heard, hq, hs]
      rw [this, hs] at hb
      cases hb
    | some x =>
      simp only [hq, hs] at h4
      have : heard d b = d.modSession (b.sess.getD 0) fun se => se.note q := by simp [heard, hq, hs]
      simp only [h4, if_true]
      rw [← this, h5]
      simp only [Option.bind_some, h6]

/-- What a request of a party's own agent does. -/
theorem partyIn_agent {d : Dev} {b : Bas} {n chase party : Nat} {se : Session} (h : Secured d b n se) (ha : AgentOf (heard d b) se chase party)
    (f : Dev → Dev) : partyIn b chase party f d = f (heard d b) := by
  obtain ⟨h1, h2, h3, h4, h5⟩ := ha
  unfold partyIn
  rw [inSession_secured h]
  simp [h1, h2, h3, h4, h5]

/-- What a definition that finds a stage, a place and room does. -/
theorem joinStage_stages {d d1 d2 : Dev} {b : Bas} {chase opc : Nat} {place : Dev → Except (Nat × Nat) Dev} (h : Stages d chase d1)
    (hp : place d1 = .ok d2) (hr : Roomy d2 chase) : joinStage d b chase opc false place = joined d2 b chase opc := by
  obtain ⟨⟨st, r, n⟩, h1, h2, h3⟩ := h
  obtain ⟨m, hm⟩ := hr
  unfold joinStage
  rw [h1]
  simp only at h2 h3
  split
  · rename_i he; simp at he; exact absurd he.1.1 h2
  · rename_i he; simp at he; exact absurd he.1.1 h3
  · rename_i he
    simp at he
    rw [← he.2, hp]
    simp [hm, joined]

/-- What a definition that lacks a resource does. -/
theorem joinStage_error {d d1 : Dev} {b : Bas} {chase opc r n : Nat} {busy : Bool} {place : Dev → Except (Nat × Nat) Dev}
    (h : Stages d chase d1) (hp : place d1 = .error (r, n)) : joinStage d b chase opc busy place = d.reply b opc .noFit 0x01 r [n] := by
  obtain ⟨⟨st, r', n'⟩, h1, h2, h3⟩ := h
  unfold joinStage
  rw [h1]
  simp only at h2 h3
  split
  · rename_i he; simp at he; exact absurd he.1.1 h2
  · rename_i he; simp at he; exact absurd he.1.1 h3
  · rename_i he
    simp at he
    rw [← he.2, hp]
    simp [refuseStage]

/-- What a definition already there does, once it found a stage, a place and room. -/
theorem joinStage_busy {d d1 d2 : Dev} {b : Bas} {chase opc : Nat} {place : Dev → Except (Nat × Nat) Dev} (h : Stages d chase d1)
    (hp : place d1 = .ok d2) (hr : Roomy d2 chase) : joinStage d b chase opc true place = d.reply b opc .busy := by
  obtain ⟨⟨st, r, n⟩, h1, h2, h3⟩ := h
  obtain ⟨m, hm⟩ := hr
  unfold joinStage
  rw [h1]
  simp only at h2 h3
  split
  · rename_i he; simp at he; exact absurd he.1.1 h2
  · rename_i he; simp at he; exact absurd he.1.1 h3
  · rename_i he
    simp at he
    rw [← he.2, hp]
    simp [hm]

end Sys2Proof
end

