-- ==== Sys2Proof/Laws/Memory.lean ====
section
/-! SUPPORT. Laws of galley memory: every operation keeps the canonical form; a read after a write. -/

namespace Sys2Proof.Machine
open Sys2Proof

theorem tput_all {α : Type} (t : Tbl α) (k : Nat) (v : α) (q : Nat × α → Bool) (h : t.all q = true) (hv : q (k, v) = true) :
    (tput t k v).all q = true := by
  induction t with
  | nil => simp [tput, hv]
  | cons e r ih =>
    obtain ⟨k', v'⟩ := e
    simp only [List.all_cons, Bool.and_eq_true] at h
    simp only [tput]
    split
    · simp [hv, h.1, h.2]
    · split
      · simp [hv, h.2]
      · simp [h.1, ih h.2]

theorem tdel_all {α : Type} (t : Tbl α) (k : Nat) (q : Nat × α → Bool) (h : t.all q = true) : (tdel t k).all q = true := by
  induction t with
  | nil => rfl
  | cons e r ih =>
    obtain ⟨k', v'⟩ := e
    simp only [List.all_cons, Bool.and_eq_true] at h
    simp only [tdel]
    split
    · exact h.2
    · simp [h.1, ih h.2]

theorem memPut_wf (m : List Host.Cell) (a : Nat) (b : Byte) (h : Memory.wf m = true) : Memory.wf (memPut m a b) = true := by
  simp only [Memory.wf, Bool.and_eq_true] at h ⊢
  unfold memPut
  split
  · exact ⟨twf_tdel m a h.1, tdel_all m a _ h.2⟩
  · rename_i hb; exact ⟨twf_tput m a b h.1, tput_all m a b _ h.2 (by simpa using hb)⟩

theorem memWrite_wf (m : List Host.Cell) (a : Nat) (l : List Byte) (h : Memory.wf m = true) : Memory.wf (memWrite m a l) = true := by
  induction l generalizing m a with
  | nil => exact h
  | cons b r ih => exact ih _ _ (memPut_wf m a b h)

theorem memGet_memPut_same (m : List Host.Cell) (a : Nat) (b : Byte) (h : Memory.wf m = true) : memGet (memPut m a b) a = b := by
  simp only [Memory.wf, Bool.and_eq_true] at h
  unfold memGet memPut
  split
  · rename_i hb; simp [tget, tfind_tdel_same m a h.1, hb]
  · simp

theorem memGet_memPut_other (m : List Host.Cell) (a j : Nat) (b : Byte) (hj : j ≠ a) : memGet (memPut m a b) j = memGet m j := by
  unfold memGet memPut
  split
  · simp [tget, tfind_tdel_other m a j hj]
  · exact tget_tput_other _ _ _ _ _ hj

/-- A byte outside the bytes written keeps its value. -/
theorem memGet_memWrite_below (m : List Host.Cell) (a j : Nat) (l : List Byte) (hj : j < a) : memGet (memWrite m a l) j = memGet m j := by
  induction l generalizing m a with
  | nil => rfl
  | cons b r ih => rw [memWrite, ih _ _ (by omega), memGet_memPut_other _ _ _ _ (by omega)]

theorem reset_memory_wf : Memory.wf State.reset.dev.pool.mem = true := by decide

end Sys2Proof.Machine
end

