-- ==== Sys2Proof/WellFormed.lean ====
section
/-! DEFINITION. Well-formed commands: every operand lies in the range its field or its unit has. The device refuses by status what a field can
hold and its rule does not allow; that is no matter of form. -/

namespace Sys2Proof

def chaseOk (c : Nat) : Bool := decide (c < 4096)
def partyOk (p : Nat) : Bool := decide (p < 64)
def eidOk (e : Nat) : Bool := decide (e < 2 ^ 20)
def portOk (p : Nat) : Bool := decide (p < 1024)
/-- A die code of FLT_ERRLOG (R504). -/
def dieOk (n : Nat) : Bool := decide (n < 40)
/-- A die with a crossbar interface: a port die or a press die. -/
def xdieOk (n : Nat) : Bool := decide (n < 24)
def keeperOk (n : Nat) : Bool := decide (n < 2)
def pwdOk (p : Nat) : Bool := decide (p < 64)
def pxOk (n : Nat) : Bool := decide (n < 8)
def markOk (i : Nat) : Bool := decide (i < 2 ^ 18)
def octetOk (o : Nat) : Bool := decide (o < 128)
def planeOk (k : Nat) : Bool := decide (k < 5)
def vlOk (v : Nat) : Bool := decide (v < 18)
def layerOk (l : Nat) : Bool := decide (l < 4096)
/-- A tray link. -/
def linkOk (l : Nat) : Bool := decide (l < 32)

/-- The carrier of a Basod command: CSEQ has 16 bits (R542). -/
def basOk (b : Bas) : Bool := decide (b.cseq < 65536)

/-- The fields of a TFP base header have their widths, and the packet arrives on a port and a lane (R118). -/
def rxOk (x : Rx) : Bool :=
  let k := x.pkt
  portOk x.port && vlOk x.vl && decide (k.opc < 256 ∧ k.tc < 8 ∧ k.colour < 4 ∧ k.hext < 32 ∧ k.len < 8192 ∧ k.epoch < 16 ∧ k.pidx < 64)
    && chaseOk k.chase && partyOk k.party && eidOk k.dst && eidOk k.src && decide (k.tag < 65536 ∧ k.status < 256)

/-- Is a command well formed? -/
def Instr.wf : Instr → Bool
  | .kpPaceTgtWrite b _ _ => basOk b
  | .portEnable b _ _ => basOk b
  | .portDisable b _ _ => basOk b
  | .load x => rxOk x
  | .store x => rxOk x
  | .atomic x => rxOk x
  | .fence x => rxOk x
  | .resp x => rxOk x
  | .reduceContrib x => rxOk x
  | .reduceResult x => rxOk x
  | .carry x => rxOk x
  | .gather x => rxOk x
  | .scatterAdd x => rxOk x
  | .dispatch x => rxOk x
  | .combine x => rxOk x
  | .scan x => rxOk x
  | .push x => rxOk x
  | .mcast x => rxOk x
  | .mgmt x => rxOk x
  | .snap x => rxOk x
  | .gateCommit b _ _ => basOk b
  | .gateCancel b _ _ => basOk b
  | .read x => rxOk x
  | .add x => rxOk x
  | .sub x => rxOk x
  | .set x => rxOk x
  | .take x => rxOk x
  | .waitge x => rxOk x
  | .arrive x => rxOk x
  | .arrivewait x => rxOk x
  | .waitrnd x => rxOk x
  | .acquire x => rxOk x
  | .tryacq x => rxOk x
  | .release x => rxOk x
  | .renew x => rxOk x
  | .ticket x => rxOk x
  | .serve x => rxOk x
  | .waitturn x => rxOk x
  | .fltFabpolWrite b _ => basOk b
  | .finish b _ _ => basOk b
  | .heartbeat b => basOk b
  | .keyUpdate b _ => basOk b
  | .endSession b => basOk b
  | .keyInstall b chase party _ _ => basOk b && chaseOk chase && partyOk party
  | .keyRevoke b chase party _ _ => basOk b && chaseOk chase && partyOk party
  | .colmaskSet b chase _ _ _ _ _ => basOk b && chaseOk chase
  | .chaseQuote b chase _ => basOk b && chaseOk chase
  | .basodAtStandby b => basOk b
  | .identGet b => basOk b
  | .eidSet b eid => basOk b && eidOk eid
  | .ownerSet b _ => basOk b
  | .ownerChange b _ => basOk b
  | .ownerClear b _ => basOk b
  | .observerSet b _ => basOk b
  | .sessionInfo b => basOk b
  | .portKeyset b _ _ _ _ _ _ => basOk b
  | .linkDerive b _ _ _ => basOk b
  | .trickle b _ => basOk b
  | .wake b _ => basOk b
  | .routeWrite b _ _ _ => basOk b
  | .nhsetWrite b _ _ _ => basOk b
  | .mcgrpWrite b _ _ _ => basOk b
  | .compCreate b chase _ _ _ => basOk b && chaseOk chase
  | .compDestroy b chase => basOk b && chaseOk chase
  | .formeStage b chase _ _ => basOk b && chaseOk chase
  | .formeCommit b chase _ => basOk b && chaseOk chase
  | .partyBind b chase party _ => basOk b && chaseOk chase && partyOk party
  | .trunkBind b _ chase _ => basOk b && chaseOk chase
  | .compOwner b chase _ => basOk b && chaseOk chase
  | .capAccept b _ _ _ => basOk b
  | .regionFreeze b chase _ _ => basOk b && chaseOk chase
  | .regionShare b chase _ _ _ => basOk b && chaseOk chase
  | .trayOffline b _ _ => basOk b
  | .trayOnline b _ _ => basOk b
  | .spareAdd b _ _ _ _ => basOk b
  | .spareRemove b _ _ _ => basOk b
  | .stripeDefine b _ _ _ => basOk b
  | .stripeDelete b _ => basOk b
  | .moverBind b chase party _ => basOk b && chaseOk chase && partyOk party
  | .moverUnbind b chase _ => basOk b && chaseOk chase
  | .layerDef b chase _ => basOk b && chaseOk chase
  | .dirRead b chase _ _ => basOk b && chaseOk chase
  | .noticeBind b chase _ _ _ => basOk b && chaseOk chase
  | .noticeUnbind b chase _ => basOk b && chaseOk chase
  | .fmtdescWrite b _ _ => basOk b
  | .redDefine b chase _ => basOk b && chaseOk chase
  | .redDelete b chase _ => basOk b && chaseOk chase
  | .embDefine b chase _ => basOk b && chaseOk chase
  | .embDelete b chase _ => basOk b && chaseOk chase
  | .embVersion b chase _ _ => basOk b && chaseOk chase
  | .embSetopt b chase _ _ _ => basOk b && chaseOk chase
  | .embReshard b chase _ _ => basOk b && chaseOk chase
  | .moeDefine b chase _ => basOk b && chaseOk chase
  | .moeDelete b chase _ => basOk b && chaseOk chase
  | .plateLoad b chase _ _ => basOk b && chaseOk chase
  | .plateUnload b chase _ => basOk b && chaseOk chase
  | .plateBind b chase party _ _ => basOk b && chaseOk chase && partyOk party
  | .plateUnbind b chase _ _ => basOk b && chaseOk chase
  | .markSet b chase _ _ _ party _ _ => basOk b && chaseOk chase && partyOk party
  | .markClear b _ => basOk b
  | .markEplost b eid => basOk b && eidOk eid
  | .timeStep b => basOk b
  | .timeSet b _ => basOk b
  | .snapArm b _ _ _ _ _ => basOk b
  | .snapRead b _ _ => basOk b
  | .snapRelease b _ => basOk b
  | .hellReclaim b _ _ => basOk b
  | .attestPolicy b _ => basOk b
  | .errlogRead b _ _ => basOk b
  | .mtRead b _ _ => basOk b
  | .mtAck b _ => basOk b
  | .mtEnrol b _ _ _ => basOk b
  | .mtAuthkey b _ _ => basOk b
  | .mtSetint b _ _ => basOk b
  | .mtFwlr b _ _ _ _ _ => basOk b
  | .mtCorr b _ _ => basOk b
  | .fwWrite b _ _ _ _ => basOk b
  | .fwVerify b _ _ _ _ _ => basOk b
  | .fwActivate b _ _ => basOk b
  | .fwSvnRaise b => basOk b
  | .fwStatus b => basOk b
  | .noticeSub b _ => basOk b
  | .noticeRead b _ => basOk b
  | .telemRead b _ _ _ _ => basOk b
  | .dbgRead b _ _ _ => basOk b
  | .regRead b _ _ _ _ _ => basOk b
  | .regWrite b _ _ => basOk b
  | .galleyCacheResize b _ => basOk b
  | .pwrOff b _ => basOk b
  | .pwrOn b _ _ => basOk b
  | .standbyEnter b _ _ _ => basOk b
  | .standbyExit b => basOk b
  | .resetChase b chase => basOk b && chaseOk chase
  | .resetPort b _ => basOk b
  | .resetDie b _ _ _ => basOk b
  | .resetWarm b => basOk b
  | .resetCold b => basOk b
  | .shutdown b => basOk b
  | .bootSelect b _ => basOk b
  | .startSave b _ => basOk b
  | .startClear b => basOk b
  | .serviceEnter b => basOk b
  | .proofEnter b => basOk b
  | .selftestRun b _ => basOk b
  | .reservedOpcodePacket x => rxOk x
  | .paceWindowEnd pwd _ _ _ => pwdOk pwd
  | .keeperLeaseRenew => true
  | .keeperLeaseLapse => true
  | .keeperFatalReport => true
  | .keeperTakeover => true
  | .commitPressAcks chase => chaseOk chase
  | .chaseUpdateApply chase die => chaseOk chase && dieOk die
  | .commitSwitchComplete chase => chaseOk chase
  | .drainholdExpiry chase _ => chaseOk chase
  | .drainCloseApply chase die => chaseOk chase && dieOk die
  | .drainPoll chase _ => chaseOk chase
  | .drainboundExpiry chase _ => chaseOk chase
  | .epochReleaseApply chase die => chaseOk chase && dieOk die
  | .vacatedFrameFenced _ _ _ => true
  | .fastpathFillDone die chase _ _ _ => dieOk die && chaseOk chase
  | .rebalStage chase _ => chaseOk chase
  | .migCopyStart chase _ => chaseOk chase
  | .migCopyComplete chase _ => chaseOk chase
  | .chaseFree chase => chaseOk chase
  | .fecLock port => portOk port
  | .helloRepeat port => portOk port
  | .helloTimeout port => portOk port
  | .hello port _ eid _ _ _ _ => portOk port && eidOk eid
  | .creditInit port _ _ => portOk port
  | .credit port _ _ => portOk port
  | .dataFlitRx port _ => portOk port
  | .idleFlitRx port _ => portOk port
  | .ackTimeout port => portOk port
  | .nakResendTimeout port => portOk port
  | .ackSendDeadline port => portOk port
  | .creditReturnTimeout port => portOk port
  | .laneLockLoss port _ => portOk port
  | .laneWindowEnd port _ _ _ => portOk port
  | .spareReq port _ _ _ => portOk port
  | .spareAck port _ _ _ _ => portOk port
  | .spareAckTimeout port => portOk port
  | .spareHelloTimer octet _ => octetOk octet
  | .narrowReq port _ _ => portOk port
  | .narrowAck port _ _ _ => portOk port
  | .narrowAckTimeout port => portOk port
  | .keySwitch port _ _ _ => portOk port
  | .txKeyExhausted port => portOk port
  | .trickleReq port _ => portOk port
  | .trickleAck port _ _ => portOk port
  | .wakeReq port _ => portOk port
  | .wakeLanesReady port _ => portOk port
  | .wakeReady port _ => portOk port
  | .wakeTrainingFail port _ => portOk port
  | .trickleLaneLoss port => portOk port
  | .linkdown port _ _ => portOk port
  | .trayLinkTrained link _ _ => linkOk link
  | .trayLinkDown link => linkOk link
  | .cxlCompletion link _ _ _ => linkOk link
  | .trayReqTimeout link _ => linkOk link
  | .trayDcAdd link _ => linkOk link
  | .trayDcForcedRemoval link _ _ => linkOk link
  | .fenceAnswer _ => true
  | .trainTimeout src chase _ _ => eidOk src && chaseOk chase
  | .completionTimeout _ => true
  | .filterEntryExpiry _ src chase _ => eidOk src && chaseOk chase
  | .xbarSchedule die _ => dieOk die
  | .sliceRx _ => true
  | .rebuildTimeout src dst _ => xdieOk src && xdieOk dst
  | .rack src dst _ => xdieOk src && xdieOk dst
  | .rnak src dst _ => xdieOk src && xdieOk dst
  | .rackTimeout src dst _ => xdieOk src && xdieOk dst
  | .xbarCreditRx src port _ => eidOk src && portOk port
  | .gateChangeRx die port => dieOk die && portOk port
  | .rsqGapTimeout src dst => xdieOk src && xdieOk dst
  | .planeWindowEnd plane => planeOk plane
  | .egressSelect port => portOk port
  | .mcOutcomeRx _ die => dieOk die
  | .mcwaitExpiry _ _ => true
  | .mcRetryTimer _ => true
  | .hellboxAudit die _ _ => dieOk die
  | .sortSramError die _ chase _ port _ _ => dieOk die && chaseOk chase && portOk port
  | .creditStall port vl => portOk port && vlOk vl
  | .refillBoundary port => portOk port
  | .gateEntryChange port => portOk port
  | .gateListTakeover port => portOk port
  | .agePromotion _ die port _ => dieOk die && portOk port
  | .sync _ => true
  | .followUp _ => true
  | .announce _ => true
  | .pdelayReq _ => true
  | .pdelayResp _ => true
  | .pdelayRespFollowUp _ => true
  | .ptpUnsupportedMessage _ => true
  | .ptpSyncInterval port _ => portOk port
  | .ptpPdelayInterval port _ => portOk port
  | .timeSourceLoss _ => true
  | .timeSourceRegain _ _ => true
  | .ppsEdge => true
  | .ppsOutSecond keeper => keeperOk keeper
  | .galleyReadReturn _ _ _ => true
  | .mirrorWriteDone _ => true
  | .stripeMemberAnswer _ _ => true
  | .rebuildStart _ => true
  | .rebuildSlot _ => true
  | .moverDescriptorTake chase _ => chaseOk chase
  | .moverPieceDone chase _ => chaseOk chase
  | .moverStatusWritten chase _ => chaseOk chase
  | .layerPieceDone chase layer => chaseOk chase && layerOk layer
  | .layerNeedReached chase layer => chaseOk chase && layerOk layer
  | .pushEarlyAnswer chase layer => chaseOk chase && layerOk layer
  | .patrolScrub stack _ _ => pxOk stack
  | .gets chase party _ _ => chaseOk chase && partyOk party
  | .getm chase party _ _ => chaseOk chase && partyOk party
  | .upgr chase party _ _ => chaseOk chase && partyOk party
  | .puts chase party _ _ => chaseOk chase && partyOk party
  | .pute chase party _ _ => chaseOk chase && partyOk party
  | .putm chase party _ _ => chaseOk chase && partyOk party
  | .puto chase party _ _ => chaseOk chase && partyOk party
  | .fwds chase party _ _ => chaseOk chase && partyOk party
  | .fwdm chase party _ _ => chaseOk chase && partyOk party
  | .inv chase party _ _ => chaseOk chase && partyOk party
  | .srcs chase party _ _ => chaseOk chase && partyOk party
  | .data chase party _ _ => chaseOk chase && partyOk party
  | .grant chase party _ _ => chaseOk chase && partyOk party
  | .iack chase party _ _ => chaseOk chase && partyOk party
  | .pack chase party _ _ => chaseOk chase && partyOk party
  | .done chase party _ _ => chaseOk chase && partyOk party
  | .snak chase party _ _ => chaseOk chase && partyOk party
  | .invalNoticeFlush chase _ => chaseOk chase
  | .roundTimeout chase _ => chaseOk chase
  | .updateStepTimeout chase _ => chaseOk chase
  | .versionSwitch chase _ => chaseOk chase
  | .shardLoadWindow chase _ => chaseOk chase
  | .moeBatchTimer chase _ _ _ _ => chaseOk chase
  | .combineDeadline chase _ _ => chaseOk chase
  | .scanEarlyAnswer _ => true
  | .scanDone _ => true
  | .stationFire _ _ _ => true
  | .platePieceDone _ _ => true
  | .deadlineExpiry _ _ _ _ => true
  | .ingestWaitTimeout px x => pxOk px && rxOk x
  | .plateInstanceFault _ _ => true
  | .heldOpTimeout _ => true
  | .quoinLeaseExpiry mark => markOk mark
  | .barrierParentAnswer mark _ => markOk mark
  | .barrierUpResend mark => markOk mark
  | .livenessSend die => dieOk die
  | .dieSilence die => dieOk die
  | .fatalSliceRx die => dieOk die
  | .nexthopFailover _ port => portOk port
  | .galleyStackLoss stack => pxOk stack
  | .ceWindowEnd die _ => dieOk die
  | .portTableError die _ _ => dieOk die
  | .formeStoreError chase _ _ => chaseOk chase
  | .markRecordError mark => markOk mark
  | .directoryError _ => true
  | .fatalPackage _ => true
  | .snapCutTime => true
  | .snapSweepDone => true
  | .snapTimeout => true
  | .meterOpenNotice chase => chaseOk chase
  | .meterCloseNotice chase => chaseOk chase
  | .meterSampleTick _ _ => true
  | .keeperTimeTick => true
  | .exportRecordDue die => dieOk die
  | .meterExportRecord die => dieOk die
  | .censusCopyRx chase die _ => chaseOk chase && dieOk die
  | .censusTimeout chase => chaseOk chase
  | .colophonBoundary => true
  | .colophonCommitDone _ => true
  | .senseLineFault pwd => pwdOk pwd
  | .meterSupplyFail _ => true
  | .meterPowerReturn => true
  | .getVersion _ _ _ => true
  | .getCapabilities _ _ => true
  | .negotiateAlgorithms _ _ _ => true
  | .getDigests _ _ => true
  | .getCertificate _ _ _ _ _ => true
  | .challenge _ _ _ _ => true
  | .getMeasurements _ _ _ _ => true
  | .keyExchange _ _ _ _ => true
  | .keeperBoot keeper _ _ _ => keeperOk keeper
  | .bootReadyTimeout keeper _ => keeperOk keeper
  | .ipv6NeighbourDiscovery keeper _ => keeperOk keeper
  | .icmpv6Echo keeper _ _ => keeperOk keeper
  | .pldmRequest keeper _ => keeperOk keeper
  | .pldmSensorUpdate keeper _ _ _ => keeperOk keeper
  | .standbyFwReady _ => true
  | .leaseHandoverTimer => true
  | .resetBegin => true
  | .thermalTrip pwd => pwdOk pwd
  | .thermshutAssert => true
  | .coldResetAssert _ => true
  | .coldResetRelease => true
  | .warmResetInput => true
  | .domainSequenceStep => true
  | .pgRise pwd => pwdOk pwd
  | .pgTimeout pwd => pwdOk pwd
  | .pgFall pwd => pwdOk pwd
  | .selftestComplete die _ _ _ => dieOk die
  | .autoService => true
  | .autosvcTimeout => true
  | .refclkLoss die => dieOk die
  | .deliveryTimeout _ => true
  | .standbyKeeperLoss => true
  | .reservedCtypeFlit port _ _ => portOk port
  | .perstHoldEnd link => linkOk link
  | .resetPortReplyTimeout port => portOk port
  | .ptpAnnounceInterval port => portOk port
  | .tapInstruction _ => true

end Sys2Proof
end

