-- ==== Sys2Proof/Tests/Slice0.lean ====
section
/-! SUPPORT. The model's own tests: ill-formed commands are refused; values and worked examples the spec gives; for each obligation with
hypotheses, states and operands that meet them. -/

open Sys2Proof Sys2Proof.Machine

namespace Sys2Proof.Tests

/-! ### Well-formed commands -/

theorem test_wf_bas : (Instr.sessionInfo { cseq := 65535 }).wf = true ∧ (Instr.sessionInfo { cseq := 65536 }).wf = false := by decide
theorem test_wf_chase : (Instr.resetChase {} 4095).wf = true ∧ (Instr.resetChase {} 4096).wf = false := by decide
theorem test_wf_party : (Instr.partyBind {} 0 63 0).wf = true ∧ (Instr.partyBind {} 0 64 0).wf = false := by decide
theorem test_wf_eid : (Instr.eidSet {} (2 ^ 20 - 1)).wf = true ∧ (Instr.eidSet {} (2 ^ 20)).wf = false := by decide
theorem test_wf_port : (Instr.fecLock 1023).wf = true ∧ (Instr.fecLock 1024).wf = false := by decide
theorem test_wf_die : (Instr.planeWindowEnd 4).wf = true ∧ (Instr.mcOutcomeRx 0 39).wf = true ∧ (Instr.mcOutcomeRx 0 40).wf = false := by decide
theorem test_wf_xdie : (Instr.rack 23 0 0).wf = true ∧ (Instr.rack 24 0 0).wf = false := by decide
theorem test_wf_keeper : (Instr.pldmRequest 1 0).wf = true ∧ (Instr.pldmRequest 2 0).wf = false := by decide
theorem test_wf_pwd : (Instr.pgRise 63).wf = true ∧ (Instr.pgRise 64).wf = false := by decide
theorem test_wf_px : (Instr.patrolScrub 7 [] []).wf = true ∧ (Instr.patrolScrub 8 [] []).wf = false := by decide
theorem test_wf_mark : (Instr.barrierUpResend (2 ^ 18 - 1)).wf = true ∧ (Instr.barrierUpResend (2 ^ 18)).wf = false := by decide
theorem test_wf_octet : (Instr.spareHelloTimer 127 []).wf = true ∧ (Instr.spareHelloTimer 128 []).wf = false := by decide
theorem test_wf_plane : (Instr.planeWindowEnd 4).wf = true ∧ (Instr.planeWindowEnd 5).wf = false := by decide
theorem test_wf_lane : (Instr.creditStall 0 17).wf = true ∧ (Instr.creditStall 0 18).wf = false := by decide
theorem test_wf_layer : (Instr.layerNeedReached 0 4095).wf = true ∧ (Instr.layerNeedReached 0 4096).wf = false := by decide
theorem test_wf_link : (Instr.trayLinkDown 31).wf = true ∧ (Instr.trayLinkDown 32).wf = false := by decide
theorem test_wf_packet :
    (Instr.load { port := 0, vl := 0, pkt := { tc := 7 } }).wf = true ∧ (Instr.load { port := 0, vl := 0, pkt := { tc := 8 } }).wf = false ∧
    (Instr.load { port := 0, vl := 18, pkt := {} }).wf = false ∧ (Instr.load { port := 0, vl := 0, pkt := { epoch := 16 } }).wf = false := by decide

/-! ### Values the spec gives -/

/-- R90: the CRC-64 of the nine ASCII bytes 123456789. -/
theorem test_crc_check_value : crc64 [0x31, 0x32, 0x33, 0x34, 0x35, 0x36, 0x37, 0x38, 0x39] = 0x995DC9BBDF1939FA := by decide +kernel

/-- The table gives no row any bits. -/
theorem test_no_word_spells_a_command : decodeTableWord 64 0 = none := rfl

/-- R82: tray link number = 8 × (die − 12) + octet. -/
theorem test_tray_link_die : trayDie 9 = 13 ∧ trayDie 31 = 15 := by decide

/-- R114: a counter saturates without wrapping. -/
theorem test_counter_saturates : satAdd64 (BitVec.allOnes 64) 1 = BitVec.allOnes 64 ∧ satAdd64 0 3 = 3 := by decide

/-- R289, floating-point range table: the largest finite FP16, E4M3 and E2M1 and the smallest subnormal FP32, in units of 2^-149. -/
theorem test_float_ranges :
    decodeElem 2 0x7BFF none = .fin (65504 * 2 ^ 149) ∧ decodeElem 3 0x7E none = .fin (448 * 2 ^ 149) ∧
    decodeElem 7 7 none = .fin (6 * 2 ^ 149) ∧ decodeElem 0 1 none = .fin 1 ∧ decodeElem 3 0x7F none = .nan ∧
    decodeElem 4 0x7C none = .inf false := by decide +kernel

/-- R302: opposite infinities make a NaN. -/
theorem test_infinities_cancel : (accAdd false (accAdd false {} (.inf false)) (.inf true)).cls = 3 := by decide

/-- R303: ADDCNT saturates at 2^41 − 1; a group above 2^40 is saturated. -/
theorem test_addcnt : addCnt (2 ^ 41 - 1) 1 = 2 ^ 41 - 1 ∧ cntSat (2 ^ 40) = false ∧ cntSat (2 ^ 40 + 1) = true := by decide

/-- KP_MGMT_CFG map: a reset UDPPORT of 47,120. -/
theorem test_udp_port : State.reset.dev.fld .kpMgmtCfg 0 15 0 = 47120 := by decide

/-- R140: an unmapped galley byte reads as what memory lists, or 0 (log 6); writing 0 takes the entry away. -/
theorem test_memory_canonical : memWrite (memWrite [] 5 [1, 2]) 5 [0] = [(6, 2)] := by decide

/-- One step takes one command from the front. -/
theorem test_step_front : (match step { pending := [.ppsEdge, .autoService] } with | .next t => t.pending | _ => []) = [.autoService] := by
  decide +kernel

/-! ### States the witnesses use -/

/-- A device past its start-up: both keepers booted, KP0 active, an owner with session 1, chase 1 bound and owned, port 0 UP. -/
def up : Dev :=
  { mgmt := { active := some 0, kp0 := { booted := true }, kp1 := { booted := true }, owner := some 7, sessions := [(1, { digest := 7 })] }
    pwr := { toSeq := [], mode := .service }
    imp := { comps := [(1, { bound := true, cowner := 7 })] }
    links := [(0, { st := .up, peer := 5, width := 3, rate := 1, credits := [(0, 64)] })] }

def upS : State := { dev := up }

/-- The same with port 0 as given. -/
def withLink (l : Link) : Dev := { up with links := [(0, l)] }

/-- A command of the owner's session. -/
def own : Bas := { sess := some 1 }

/-- A header the port takes. -/
def h0 : FlitHdr := { crcOk := true, ackseq := 4095 }

/-! ### Transactions -/

/-- The device with endpoint 9 bound in chase 1 at port 0, and its switch EID 100. -/
def bound : Dev := { up with imp := { up.imp with members := [{ port := 0, chase := 1, eid := 9 }] }, tfp := { eid := 100 } }
def boundS : State := { dev := bound }

/-- A request of endpoint 9 to the device. -/
def reqPkt (opc : Nat) : Pkt := { opc := opc, dst := eidFABRIC, src := 9, chase := 1, tag := 3 }
def rx (vl : Nat) (k : Pkt) : Rx := { port := 0, vl := vl, pkt := k }
def fencePkt : Pkt := { reqPkt opFENCE with w2 := 1 }

theorem witness_RequestAdmission :
    laneOk fencePkt 0 = true ∧ fieldsOk fencePkt 0 = true ∧ fieldsOk { fencePkt with len := 1 } 0 = false ∧ isRequest fencePkt = true ∧
    (bound.comp 1).suspended = false ∧ memberOf bound 0 { fencePkt with src := 8 } = none ∧
    (∃ m, memberOf bound 0 { fencePkt with party := 1 } = some m ∧ m.trunk = false ∧ m.party ≠ 1) ∧
    (∃ m, memberOf bound 0 fencePkt = some m ∧ m.party = 0) ∧
    (bound.comp 1).bound = true ∧ (bound.comp 1).destroying = false ∧ 1 ≠ (epochView (bound.comp 1) 0).1 ∧
    (epochView (bound.comp 1) 0).2.1 ≠ some 1 := by
  refine ⟨?_, ?_, ?_, ?_, ?_, ?_, ⟨_, rfl, ?_, ?_⟩, ⟨_, rfl, ?_⟩, ?_, ?_, ?_, ?_⟩ <;> decide

theorem witness_FencesAndAnswers_fence :
    ∃ d id k, ingress bound (asOp opFENCE (rx 0 fencePkt)) false = .ok (d, id, k) ∧ isLocal d k = true ∧ wbits k.w2 63 8 = 0 ∧
      wbits k.w2 7 0 ≠ 0 ∧ k.w3 = 0 := by
  refine ⟨_, _, _, rfl, ?_, ?_, ?_, ?_⟩ <;> decide

def respTo : Outst := { id := 1, pkt := { reqPkt opLOAD with src := 7, dst := 9 }, home := .remote 9, counted := false }
def dResp : Dev := { bound with tfp := { bound.tfp with outst := [respTo] } }
def respPkt : Pkt := { reqPkt opRESP with dst := 7 }

theorem witness_FencesAndAnswers_resp :
    ∃ d e, hdrCheck dResp (asOp opRESP (rx 1 respPkt)) = .ok d ∧ memberCheck d (asOp opRESP (rx 1 respPkt)) = .ok d ∧
      respStep (admittedPkt d (asOp opRESP (rx 1 respPkt))) (asOp opRESP (rx 1 respPkt)) = some e ∧
      Status.ofCode 0 = some .ok ∧ 7 ≠ e.tfp.eid ∧ respMatch e (asOp opRESP (rx 1 respPkt)).pkt = some respTo ∧
      respHold e respTo (asOp opRESP (rx 1 respPkt)).pkt = none := by
  refine ⟨_, _, rfl, rfl, rfl, ?_, ?_, ?_, ?_⟩ <;> decide

def mgmtPkt : Pkt := { opc := opMGMT, dst := 5, src := 9, len := 16, data := List.replicate 16 0 }
def dTrn : Dev :=
  { bound with tfp := { bound.tfp with outst := [{ id := 1, pkt := reqPkt opGATHER }], trains := [{ first := reqPkt opGATHER }] } }
def dFence : Dev :=
  { bound with tfp := { bound.tfp with fences := [{ id := 1 }], dlv := [{ tag := 4, kind := .coh }] } }

theorem witness_FencesAndAnswers_rest :
    (∃ d, hdrCheck bound (asOp opMGMT (rx 16 mgmtPkt)) = .ok d ∧ mgmtPkt.dst ≠ d.tfp.eid) ∧
    (∃ t o, (dTrn.tfp.trains.find? fun t => t.resp == false && t.first.src == 9 && t.first.chase == 1 && t.first.tag == 3) = some t ∧
      t.dead = false ∧ t.resp = false ∧ outstOf ((dropTrain dTrn t.first).count .cTrainerr t.die) t.first = some o) ∧
    (∃ o, dTrn.outst 1 = some o ∧ o.answered = false) ∧
    (∃ f, (dFence.tfp.fences.find? fun f => f.id == 1) = some f ∧ fenceDone dFence f = true) ∧
    (∃ v, (dFence.tfp.dlv.find? fun v => v.tag == 4) = some v) ∧ opcodes.contains 0x40 = false := by
  refine ⟨⟨_, rfl, ?_⟩, ⟨_, _, rfl, ?_, ?_, rfl⟩, ⟨_, rfl, ?_⟩, ⟨_, rfl, ?_⟩, ⟨_, rfl⟩, ?_⟩ <;> decide

def filterOf (o : Outst) : FilterEnt :=
  { home := .galley 0, src := o.pkt.src, chase := o.pkt.chase, tag := o.pkt.tag, opc := o.pkt.opc, w2 := o.pkt.w2, w3 := o.pkt.w3 }
def again : Outst := { id := 1, pkt := { reqPkt opSTORE with rtry := true } }
def dAgain (e : FilterEnt) : Dev := { bound with tfp := { bound.tfp with outst := [again], filters := [e] } }

theorem witness_DuplicateFilter :
    dTrn.outst 1 = some { id := 1, pkt := reqPkt opGATHER } ∧ (dTrn.tfp.filters.find? fun e => e.home == .galley 0 && e.src == 9) = none ∧
    (dTrn.tfp.filters.filter fun e => e.home == .galley 0).length < filterCap (.galley 0) ∧
    filterCap (.ingress 0) ≤ (dTrn.tfp.filters.filter fun e => e.home == .ingress 0).length ∧
    (dAgain (filterOf again)).outst 1 = some again ∧
    ((dAgain (filterOf again)).tfp.filters.find? fun e => e.home == .galley 0 && e.src == 9 && e.chase == 1 && e.tag == 3)
      = some (filterOf again) ∧
    again.pkt.rtry = true ∧ (filterOf again).done = false ∧ ({ filterOf again with done := true, resp := some {} } : FilterEnt).done = true ∧
    ({ filterOf again with opc := opLOAD } : FilterEnt).opc ≠ again.pkt.opc := by
  refine ⟨?_, ?_, ?_, ?_, ?_, ?_, ?_, ?_, ?_, ?_⟩ <;> decide

/-- The device with no chase bound, and the same with no owner. -/
def unbound : Dev := { up with imp := {} }
def ownerless : Dev := { unbound with mgmt := { unbound.mgmt with owner := none } }
def inProof : Dev := { unbound with pwr := { unbound.pwr with mode := .proof } }

theorem witness_IdentityAndAuthorities_owner :
    Runs up (.identGet own) own (readCmd 0x0101 .info true) = true ∧ own.sess ≠ none ∧ up.taken own.tr = true ∧ up.mgmt.active = some 0 ∧
    Runs unbound (.eidSet own 77) own (devCmd 0x0102) = true ∧ 77 ≠ eidFABRIC ∧ eidReserved 77 = false ∧ anyBound unbound = false ∧
    Runs up (.eidSet own 77) own (devCmd 0x0102) = true ∧ anyBound up = true ∧
    Runs ownerless (.ownerSet own true) own (presCmd 0x0103) = true ∧ ownerless.mgmt.owner = none ∧ own.tr ≠ .inBand ∧
    own.sess.bind ownerless.session = some { digest := 7 } ∧
    Runs up (.ownerChange own 8) own (devCmd 0x0104) = true ∧ Runs unbound (.ownerClear own true) own (presCmd 0x0105) = true ∧
    Runs up (.observerSet own [1, 2]) own (devCmd 0x0106) = true ∧ Runs up (.sessionInfo own) own (readCmd 0x0107 .info true) = true := by
  refine ⟨?_, ?_, ?_, ?_, ?_, ?_, ?_, ?_, ?_, ?_, ?_, ?_, ?_, ?_, ?_, ?_, ?_, ?_⟩ <;> decide

theorem witness_IdentityAndAuthorities_rest :
    Runs up (.noticeSub own 3) own { opc := 0x0D01, who := .a, i3c := true, dom := some .device } = true ∧
    Runs up (.noticeRead own 1) own (readCmd 0x0D02 .a true) = true ∧ Runs up (.errlogRead own 0 1) own (readCmd 0x0903 .a false) = true ∧
    Runs up (.attestPolicy own [5]) own (devCmd 0x0902) = true ∧ Runs inProof (.dbgRead own 0 0 8) own (devCmd 0x0E01) = true ∧
    inProof.pwr.mode = .proof ∧ anyBound inProof = false ∧ Runs up (.hellReclaim own 0 []) own (devCmd 0x0901) = true ∧
    dieReach up (dPT 0) = true ∧ standby up = some 1 ∧ ownAddr up 0 (Config.linkLocal 0) = true ∧ 0 ∉ up.mgmt.romOnly ∧
    (up.mgmt.keeper 0).booted = true := by
  refine ⟨?_, ?_, ?_, ?_, ?_, ?_, ?_, ?_, ?_, ?_, by simp [ownAddr, up, Mgmt.keeper], ?_, ?_⟩ <;> decide

/-! ### Compositions -/

/-- A request for one STATE folio in the galley, plain or of class 1; chase 1 bound with it; the same staged again. -/
def q0 (cls : Nat) : CompReq := { members := [(9, 0)], regions := [{ use := 1, cls := cls }], stateF := 1 }
def adm (d : Dev) (q : CompReq) : Admission × Dev := admitReq (setAttested d []) 1 (asAsked q) none (asAsked q).tightmax false []
def made (cls : Nat) : Dev := compBind (adm unbound (q0 cls)).2 1 7 (q0 cls) (adm unbound (q0 cls)).1
def compDev (c : Comp) : Dev := { up with imp := { comps := [(1, c)] } }
def chase1 (c : Comp) : Comp := { c with bound := true, cowner := 7 }

theorem witness_Compositions_create :
    Runs unbound (.compCreate own 1 7 (q0 0) []) own { opc := 0x0301, who := .f, dom := some (.chase 1) } = true ∧
    reqOk (asAsked (q0 0)) = true ∧ (unbound.comp 1).bound = false ∧ (adm unbound (q0 0)).1.st = .ok ∧
    (adm unbound { q0 0 with regions := [{}] }).1.st = .noFit ∧ reqOk (asAsked { q0 0 with regions := [{}] }) = true := by
  refine ⟨?_, ?_, ?_, ?_, ?_, ?_⟩ <;> decide +kernel

theorem witness_Compositions_stage :
    Runs (made 0) (.compDestroy own 1) own (chaseCmd 0x0302 1) = true ∧ Runs (made 0) (.formeStage own 1 (q0 0) []) own (chaseCmd 0x0303 1) = true ∧
    (stageComp (setAttested (made 0) []) 1 (asAsked (q0 0)) false false {}).1 = (.ok, 0, 0) ∧
    (stageComp (setAttested (made 0) []) 1 (asAsked { q0 0 with regions := [{}] }) false false {}).1.1 = .noFit ∧
    Runs (made 1) (.regionFreeze own 1 0 []) own (chaseCmd 0x0402 1) = true ∧
    ((((made 1).comp 1).curF.req.regions.find? fun r => r.base == 0).map fun r => (r.cls, r.frozen)) = some (1, false) ∧
    ((made 1).comp 1).drnLive = false ∧
    (stageComp (setAttested (made 1) []) 1 { ((made 1).comp 1).curF.req with
      regions := mapIf (fun x => x.base == 0) (fun x => { x with frozen := true }) ((made 1).comp 1).curF.req.regions } false true {}).1 = (.ok, 0, 0) := by
  refine ⟨?_, ?_, ?_, ?_, ?_, ?_, ?_, ?_⟩ <;> decide +kernel

def staged (drn : Bool) : Dev := compDev (chase1 { staged := some {}, drnLive := drn })

theorem witness_Compositions_commit :
    Runs (staged false) (.formeCommit own 1 false) own (chaseCmd 0x0304 1) = true ∧ ((staged false).comp 1).staged = some {} ∧
    ({} : Staged).adm ≠ .noFit ∧ ({} : Staged).moving = [] ∧ ((staged false).comp 1).drnLive = false ∧
    Runs (staged true) (.formeCommit own 1 false) own (chaseCmd 0x0304 1) = true ∧ ((staged true).comp 1).drnLive = true ∧
    Runs up (.compOwner own 1 8) own { chaseCmd 0x0307 1 with who := .f } = true := by
  refine ⟨?_, ?_, ?_, ?_, ?_, ?_, ?_, ?_⟩ <;> decide

/-- Chase 1 with a frozen region, chase 2 with a stage that is ready. -/
def sharing : Dev :=
  { up with imp := { comps := [(1, { bound := true, cowner := 7, curF := { req := { regions := [{ cls := 1, frozen := true }] } } }),
    (2, { bound := true, cowner := 7, staged := some {} })] } }

theorem witness_Compositions_share :
    Runs sharing (.regionShare own 1 0 2 []) own { chaseCmd 0x0403 1 with dom := some (.chase 2) } = true ∧
    ((sharing.comp 1).curF.req.regions.find? fun r => r.base == 0) = some { cls := 1, frozen := true } ∧
    (sharing.comp 2).bound = true ∧ (sharing.comp 2).destroying = false ∧ (sharing.comp 2).suspended = false ∧
    (ensureStage (setAttested sharing []) 2).1 = (.ok, 0, 0) ∧
    ({ cls := 1, frozen := true } : Region).party < ((ensureStage (setAttested sharing []) 2).2.stagedF 2).req.parties ∧
    ((ensureStage (setAttested sharing []) 2).2.stagedF 2).req.regions.any (regionMeets { cls := 1, frozen := true }) = false ∧
    storeUsed (ensureStage (setAttested sharing []) 2).2 + 256 * (pagesBeyond { (ensureStage (setAttested sharing []) 2).2.stagedF 2 with
        req := { ((ensureStage (setAttested sharing []) 2).2.stagedF 2).req with regions := [{ cls := 1, frozen := true }] } }
          (some (sharing.comp 2).curF) - pagesBeyond ((ensureStage (setAttested sharing []) 2).2.stagedF 2) (some (sharing.comp 2).curF))
      ≤ storeEntries := by
  refine ⟨?_, ?_, ?_, ?_, ?_, ?_, ?_, ?_, ?_⟩ <;> decide +kernel

def fast0 : FastEnt := { die := 0, chase := 1, epoch := 0, kind := 0, key := 0 }

theorem witness_CommitAndDrain :
    ((compDev (chase1 { phase := .press, late := [0] })).comp 1).phase = .press ∧
    ((([0, 16] : List Nat).any fun x => decide (16 ≤ x)) = true ∧ (([0] : List Nat).any fun x => decide (16 ≤ x)) = false) ∧
    ((compDev (chase1 { phase := .press, late := [16] })).comp 1).late.contains 16 = true ∧
    ((compDev (chase1 { phase := .ports, late := [3] })).comp 1).late.contains 3 = true ∧
    ((compDev (chase1 { phase := .ports })).comp 1).phase = .ports ∧ ((compDev (chase1 { phase := .ports })).comp 1).late = [] ∧
    ((compDev (chase1 { drnLive := true, drn := 3 })).comp 1).drn = 3 ∧ ((compDev (chase1 { drnLive := true, drn := 3 })).comp 1).phase = .idle ∧
    countOf_ ((compDev (chase1 { drnLive := true, drn := 3, drnClosed := true })).comp 1) 3 = 0 ∧
    0 < countOf_ ((compDev (chase1 { drnLive := true, drn := 3, count := [(3, 2)] })).comp 1) 3 ∧
    ((compDev (chase1 { lateRel := [5] })).comp 1).lateRel.contains 5 = true ∧
    ({ up with imp := { vacated := [(1, 0, 7)] } } : Dev).imp.vacated.contains (1, 0, 7) = true ∧
    ((up.pool.lines.any fun c => c.loc == ({ kind := 1, target := 0, frame := 7 } : Loc)) = false) ∧
    (({ up with imp := { waitFill := [(rx 0 fencePkt, fast0)] } } : Dev).imp.waitFill.filter fun w => w.2 == fast0) ≠ [] := by
  refine ⟨?_, ⟨?_, ?_⟩, ?_, ?_, ?_, ?_, ?_, ?_, ?_, ?_, ?_, ?_, ?_, ?_⟩ <;> decide

def rebal (d : Dev) : Dev := d.setReg .fltComppol 1 0x80000000
def mover : Comp := chase1 { curF := { folios := [(0, { kind := 1, mig := true, mkind := 1, mtarget := 1 })] } }

theorem witness_MovesAndEnd :
    ((rebal (made 0)).comp 1).bound = true ∧ (rebal (made 0)).flag .fltComppol 1 31 = true ∧ (rebal (made 0)).domBusy (.chase 1) = false ∧
    ((rebal (made 0)).comp 1).staged = none ∧
    (stageComp (rebal (made 0)) 1 ((rebal (made 0)).comp 1).curF.req true false {}).1 = (.ok, 0, 0) ∧
    (((stageComp (rebal (made 0)) 1 ((rebal (made 0)).comp 1).curF.req true false {}).2.comp 1).staged.map fun g => g.moving) = some [] ∧
    ((compDev (chase1 { staged := some { byImposer := true } })).comp 1).staged = some { byImposer := true } ∧
    (∃ f, tfind mover.curF.folios 0 = some f ∧ f.mig = true) ∧ mover.migs = [] ∧ mover.phase = .idle ∧
    ((mover.curF.folios.filter fun e => e.2.mig).map Prod.fst).all (fun n => ([(0, 8192)] : List (Nat × Nat)).any fun m => m.1 == n && m.2 == 8192) = true ∧
    ((compDev (chase1 { destroying := true, curDead := true })).comp 1).curDead = true := by
  refine ⟨?_, ?_, ?_, ?_, ?_, ?_, ?_, ⟨_, rfl, ?_⟩, ?_, ?_, ?_, ?_⟩ <;> decide +kernel

/-! ### Ports and links -/

def dTrain : Dev := withLink { st := .training, fecLock := true }
def dTrain2 : Dev := withLink { st := .training, fecLock := true, hello := true, crSent := true }
def dataFlit : Flit := sealFlit { ftype := 1, fill := 30, payload := List.replicate 240 0 }
def badFlit : Flit := sealFlit { ftype := 1, fill := 0, payload := List.replicate 240 0 }

theorem witness_LinkBringUp :
    ((withLink { st := .training }).link 0).st = .training ∧ ((withLink { st := .training }).link 0).fecLock = false ∧
    (dTrain.link 0).st = .training ∧ (dTrain.link 0).fecLock = true ∧ (dTrain.link 0).hello = false ∧
    (∃ d, took dTrain 0 h0 = some d ∧ (d.link 0).st = .training ∧ (d.link 0).hello = false) ∧
    (∀ v < 18, 17 ≤ ((List.replicate 18 17)[v]?).getD 0) := by
  refine ⟨?_, ?_, ?_, ?_, ?_, ⟨_, rfl, ?_, ?_⟩, ?_⟩ <;> decide

theorem witness_LinkUpOrFault :
    (∃ d, took dTrain2 0 h0 = some d ∧ (d.link 0).st = .training ∧ (d.link 0).crSent = true) ∧
    (∃ v < 18, ((List.replicate 18 16)[v]?).getD 0 < 17) := by
  refine ⟨⟨_, rfl, ?_, ?_⟩, ?_⟩ <;> decide

theorem witness_FlitsAndAcks_good :
    (recvSeq up 0 dataFlit.fseq true true).1 = true ∧ dataFlit.enc = false ∧
    flitReserved ((headerRx (recvSeq up 0 0 true true).2 0 4095 false 0 0).link 0) dataFlit = false := by
  refine ⟨?_, ?_, ?_⟩ <;> decide

theorem witness_FlitsAndAcks_reserved :
    flitReserved ((headerRx (recvSeq up 0 0 true true).2 0 4095 false 0 0).link 0) badFlit = true := by decide

theorem witness_FlitsAndAcks_owed :
    (∃ l, (withLink l |>.link 0).replay ≠ []) ∧ (∃ l, (withLink l |>.link 0).nakPend = true) ∧
    (∃ l, (withLink l |>.link 0).sinceAck ≠ 0) ∧ (∃ l, ∃ e ∈ (withLink l |>.link 0).ret, 0 < e.2) := by
  refine ⟨⟨{ replay := [{}] }, ?_⟩, ⟨{ nakPend := true }, ?_⟩, ⟨{ sinceAck := 1 }, ?_⟩, ⟨{ ret := [(0, 1)] }, ?_⟩⟩ <;> decide

theorem witness_SequencedReceive :
    (up.link 0).st ≠ .down ∧ (up.link 0).st ≠ .fault ∧ 0 = (up.link 0).rxExp ∧ 1 ≠ (up.link 0).rxExp ∧
    up.flag .fltPortpol 0 31 = true ∧ (up.setReg .fltPortpol 0 0).flag .fltPortpol 0 31 = false := by
  refine ⟨?_, ?_, ?_, ?_, ?_, ?_⟩ <;> decide

/-- Octet 0 with one-lane ports and lane 7 held as a spare. -/
def dSpare : Dev := up.setReg .ptOctetCfg 0 0x01000000

theorem witness_LaneRepair_swap :
    laneInPort up 0 0 = true ∧ 2 ^ up.fld .ptPortCfg 0 7 0 < 65537 ∧ 65536 ≤ 2 ^ up.fld .ptPortCfg 0 7 0 ∧
    (∃ d, took dSpare 0 h0 = some d ∧ stands d 0 .spare = true ∧ (octSpares d 0).contains 7 = true ∧ (d.link 0).spareBad.contains 7 = false) ∧
    (∃ d, took (withLink { st := .up, proc := some { kind := .spare, a := 0, b := 7 } }) 0 h0 = some d ∧
      (d.link 0).proc = some { kind := .spare, a := 0, b := 7 } ∧ ((swapLane d 0 0 7).link 0).replay = []) ∧
    (∃ r, ((withLink { proc := some { kind := .spare } }).link 0).proc = some r ∧ r.kind = .spare ∧ r.mine = true) := by
  refine ⟨?_, ?_, ?_, ⟨_, rfl, ?_, ?_, ?_⟩, ⟨_, rfl, ?_, ?_⟩, ⟨_, rfl, ?_, ?_⟩⟩ <;> decide

theorem witness_LaneRepair_narrow :
    (∃ d, took up 0 h0 = some d ∧ stands d 0 .narrow = true ∧ 2 ≤ octLanes d 0 ∧ (d.link 0).narrowed = false ∧ (d.link 0).failed = [] ∧
      ((narrowTo (sendCtl (preempt d 0) 0 (.narrowAck 1 false)) 0 1).link 0).replay ≠ []) ∧
    (∃ d, took (withLink { st := .up, proc := some { kind := .narrow, a := 1 } }) 0 h0 = some d ∧
      (d.link 0).proc = some { kind := .narrow, a := 1 } ∧ ((narrowTo d 0 1).link 0).replay = []) ∧
    (∃ r, ((withLink { proc := some { kind := .narrow } }).link 0).proc = some r ∧ r.kind = .narrow ∧ r.mine = true) := by
  refine ⟨⟨_, rfl, ?_, ?_, ?_, ?_, ?_⟩, ⟨_, rfl, ?_, ?_⟩, ⟨_, rfl, ?_, ?_⟩⟩ <;> decide

theorem witness_KeysTrickleWake :
    (∃ d, took up 0 h0 = some d ∧ stands d 0 .key = true ∧ (d.link 0).st = .up ∧ d.flag .ptPortCfg 0 29 = true ∧ stands d 0 .trickle = true ∧
      (d.link 0).st.carries = true) ∧
    ((withLink { encact := true }).link 0).encact = true ∧
    (∃ d, took (withLink { st := .up, proc := some { kind := .trickle } }) 0 h0 = some d ∧ (d.link 0).proc = some { kind := .trickle }) ∧
    (∃ d, took (withLink { st := .trickle }) 0 h0 = some d ∧ (d.link 0).st = .trickle ∧ stands d 0 .wake = true) ∧
    (∃ d, took (withLink { st := .waking }) 0 h0 = some d ∧ (d.link 0).st = .waking) := by
  refine ⟨⟨_, rfl, ?_, ?_, ?_, ?_, ?_⟩, ?_, ⟨_, rfl, ?_⟩, ⟨_, rfl, ?_, ?_⟩, ⟨_, rfl, ?_⟩⟩ <;> decide

/-! ### The switch core -/

def crossing : Flight := { src := 0, dst := 1, q := { pkt := fencePkt, port := 64 } }
def dCross (f : Flight) : Dev := { bound with core := { flights := [f], xRun := [(1, ({ pkt := fencePkt, port := 64 }, 0))] } }

theorem witness_CrossingPlanes :
    (∃ e, ((dCross crossing).core.xRun.find? fun e => e.1 / 24 == 0 && xCredOk (dCross crossing) 0 e.2.1.port) = some e) ∧
    (∃ f, findFlight (dCross { crossing with good := [0, 1, 2] }) 0 1 0 = some f ∧ f.rebuilt = false ∧ f.void = false ∧
      f.good.contains 3 = false ∧ f.good.length = 3) ∧
    (∃ f, findFlight (dCross { crossing with rebuilt := true }) 0 1 0 = some f ∧ f.acked = false ∧ f.void = false ∧ f.rebuilt = true ∧ f.out = false) ∧
    (∃ f, findFlight (dCross crossing) 0 1 0 = some f ∧ f.acked = false ∧ f.void = false ∧ f.rebuilt = false ∧ f.fails < 2) ∧
    ((dCross { crossing with pseq := 1, rebuilt := true }).core.flights.any fun f => f.src == 0 && f.dst == 1 && f.rebuilt && !f.out && f.pseq != 0) = true ∧
    findFlight (dCross { crossing with pseq := 1, rebuilt := true }) 0 1 0 = none := by
  refine ⟨⟨_, rfl⟩, ⟨_, rfl, ?_, ?_, ?_, ?_⟩, ⟨_, rfl, ?_, ?_, ?_, ?_⟩, ⟨_, rfl, ?_, ?_, ?_, ?_⟩, ?_, ?_⟩ <;> decide

/-- Group 0 of chase 1 with endpoint 9 at port 0 as its member. -/
def dGroup : Dev :=
  { bound.setReg .ptMcgrp 0 (2 ^ 63 + 1 <<< 51 + 1 <<< 35 + 1 <<< 19) with core := { bound.core with mcMem := [(0, [(0, 9)])] } }
def mcastPkt : Pkt := { reqPkt opMCAST with len := 8, data := List.replicate 8 1 }

theorem witness_MulticastAndTypeCase_admitted :
    ∃ d id q e, ingress dGroup (asOp opMCAST (rx 0 mcastPkt)) false = .ok (d, id, q) ∧ wbits q.w2 47 0 = 0 ∧ q.dst = eidFABRIC ∧
      d.flag .ptMcgrp 0 63 = true ∧ d.fld .ptMcgrp 0 62 51 = q.chase ∧ d.core.badGroups.contains 0 = false ∧
      filterCheck d id (.repl 0) = .ok e ∧ groupMembers e 0 ≠ [] := by
  refine ⟨_, _, _, _, rfl, ?_, ?_, ?_, ?_, ?_, rfl, ?_⟩ <;> decide

def dMc (o : McOut) (rest : Bool) : Dev :=
  { bound with core := { mc := [{ id := 1, pkt := mcastPkt, members := [(0, 9)], outs := [o], resting := rest }], planeErr := [(0, 64)] } }

theorem witness_MulticastAndTypeCase_rest :
    tget 0 bound.core.planeErr 0 < bound.fld .fltThr 0 31 16 ∧ bound.fld .fltThr 0 31 16 ≤ tget 0 (dMc .missing true).core.planeErr 0 ∧
    ((dMc .missing true).setReg .fltFabpol 0 0x40000000).flag .fltFabpol 0 30 = true ∧
    (∃ r, (dMc .waiting false).mcRun 1 = some r ∧ r.outs[0]? = some .waiting ∧ r.lossless = true) ∧
    (∃ r, (dMc .missing true).mcRun 1 = some r ∧ r.resting = true) ∧
    16384 ≤ sharedPool bound 0 ∧ bound.flag .fltFabpol 0 29 = false ∧ tget [] bound.core.voq (voqKey 0 0 0) = [] := by
  refine ⟨?_, ?_, ?_, ⟨_, rfl, ?_, ?_⟩, ⟨_, rfl, ?_⟩, ?_, ?_, ?_⟩ <;> decide

/-! ### Scheduling and fabric time -/

def queued : QPkt := { pkt := fencePkt, port := 0, got := 1 }
def dEg (q : QPkt) : Dev := { bound with core := { egq := [(egqKey 0 0, [q])], stallNoted := [(0, 0)] } }
def gates : GateList := { ents := [(255, 10), (1, 20)], start := 0 }
def dGate : Dev := { bound with sched := { oper := [(0, gates)], pend := [(0, gates)] } }

theorem full_replay : ∃ n, replayRoom (withLink { st := .up, replay := List.replicate n {} }) 0 = false :=
  ⟨128 * portLanes up 0, decide_eq_false (by
    show ¬ (List.replicate (128 * portLanes up 0) ({} : Flit)).length < 128 * portLanes up 0
    simp)⟩

theorem witness_EgressAndGates :
    bound.portUp 0 = true ∧ replayRoom bound 0 = true ∧ (bound.link 0).psn = false ∧ (bound.link 0).ctlQ = [] ∧
    ((withLink { st := .up, ctlQ := [.wakeReq] }).link 0).ctlQ = [.wakeReq] ∧
    ((upTo 8).findSome? fun tc => (egHead (dEg { queued with sent := 16 }) 0 tc).bind fun q =>
      if q.sent ≠ 0 ∧ q.ready ≠ 0 then some (tc, q) else none) = some (0, { queued with sent := 16 }) ∧
    (∃ n, replayRoom (withLink { st := .up, replay := List.replicate n {} }) 0 = false) ∧
    tfind dGate.sched.oper 0 = some gates ∧ tfind dGate.sched.pend 0 = some gates ∧ gates.start ≤ dGate.now ∧
    tget [] (dEg queued).core.egq (egqKey 0 0) = [queued] ∧ bound.fld .schClassCfg 0 15 0 ≠ 0 ∧ queued.pkt.opc ≠ opMGMT ∧
    ((upTo 8).any fun tc => ((egHead (dEg queued) 0 tc).map fun q => q.lane == 0 && q.sent == 0).getD false) = true ∧
    (0, 0) ∈ (dEg queued).core.stallNoted := by
  refine ⟨?_, ?_, ?_, ?_, ?_, ?_, full_replay, ?_, ?_, ?_, ?_, ?_, ?_, ?_, ?_⟩ <;> decide

theorem witness_ShaperRefill : bit 0x80400010 31 = true ∧ bit ({} : Bucket).word 31 = false ∧ bit ({ word := 0x80400010 } : Bucket).word 31 = true := by
  decide

/-- The device with PTP on at port 0, its role given by the register (`role` in bits 29:28 of SCH_PORT_CFG). -/
def dPtp (role : Nat) : Dev :=
  { (bound.setReg .schPtpCfg 0 0xA0000080).setReg .schPortCfg 0 (0x40010000 + role <<< 28) with
      time := { ports := [(0, { syncRx := some (0, 5), pdTx := some (0, 1), pdRx := some (0, 2, 3) })] } }
def dPtpAnn : Dev := bound.setReg .schPtpCfg 0 0x80000080 |>.setReg .schPortCfg 0 0x40010000

theorem witness_PtpMessages :
    ptpOn (dPtp 2) 0 = true ∧ (0 : Nat) = (dPtp 2).fld .schPtpCfg 0 23 16 ∧ (dPtp 2).portUp 0 = true ∧ ptpState (dPtp 2) 0 = 2 ∧
    ptpState (dPtp 1) 0 = 1 ∧ ((dPtp 2).ptpPort 0).syncRx = some (0, 5) ∧ ((dPtp 2).ptpPort 0).pdTx = some (0, 1) ∧
    ((dPtp 2).ptpPort 0).pdRx = some (0, 2, 3) ∧ ptpOn dPtpAnn 0 = true ∧ (dPtpAnn.ptpPort 0).best = none ∧
    dPtpAnn.flag .schPtpCfg 0 29 = false := by
  refine ⟨?_, ?_, ?_, ?_, ?_, ?_, ?_, ?_, ?_, ?_, ?_⟩ <;> decide

theorem witness_TimeSources :
    bound.flag .schPtpCfg 0 30 = false ∧ (bound.setReg .schPtpCfg 0 0x40000000).flag .schPtpCfg 0 30 = true ∧ bound.time.tod = none ∧
    ({ bound with time := { tod := some 5 } } : Dev).time.tod = some 5 := by
  refine ⟨?_, ?_, ?_, ?_⟩ <;> decide

def keyed : Dev := { up with pool := { up.pool with keys := [(64, { psk0 := some 1 })] } }
def trunked1 : Dev := { up with imp := { up.imp with members := [{ port := 0, chase := 1, trunk := true }] } }
def trayUp : Dev := { up with trays := [(3, { trained := true })] }
def trayLost : Dev := { up with flt := { up.flt with lostTgt := [(2, 3)] } }
def plainF : Forme := { req := { regions := [{ base := 0, size := 1, cls := 3 }] }, folios := [(0, { kind := 1 })] }
def plainD : Dev := { up with imp := { comps := [(1, { bound := true, cowner := 7, curF := plainF })] } }
def notice1 : NoticeBind := { chase := 1, base := 0, size := 1 }
def inGroup (n : List NoticeBind) : Dev :=
  { plainD.setReg .ptMcgrp 5 (2 ^ 63 + 2 ^ 51) with pool := { plainD.pool with notices := n } }
def dirty (e : DirEnt) : Dev := { plainD with pool := { plainD.pool with dir := [e] } }

theorem many_entries (n : Nat) : n ≤ ((List.replicate n ({} : MemberEnt)).filter fun m => m.die == portDie 0).length ∧
    ((List.replicate n ({} : MemberEnt)).any fun m => m.trunk && m.port == 0 && m.chase == 1) = false := by
  rw [List.filter_replicate_of_pos (by decide)]; simp

theorem witness_AgentsAndCapacity :
    Runs up (.partyBind own 1 0 3) own (chaseCmd 0x0305 1) = true ∧ 0 < (up.comp 1).curF.req.parties ∧ (up.partyKeys 1 0).holds = false ∧
    Runs keyed (.partyBind own 1 0 3) own (chaseCmd 0x0305 1) = true ∧ (keyed.partyKeys 1 0).holds = true ∧
    Runs up (.trunkBind own 0 1 true) own { chaseCmd 0x0306 1 2 with who := .f } = true ∧
    (up.imp.members.any fun m => m.trunk && m.port == 0 && m.chase == 1) = false ∧
    (∃ l : List MemberEnt, 16384 ≤ (l.filter fun m => m.die == portDie 0).length ∧ (l.any fun m => m.trunk && m.port == 0 && m.chase == 1) = false) ∧
    Runs trunked1 (.trunkBind own 0 1 false) own { chaseCmd 0x0306 1 2 with who := .f } = true ∧
    (trunked1.imp.members.any fun m => m.trunk && m.port == 0 && m.chase == 1) = true ∧
    Runs up (.capAccept own 2 3 281474976710656) own (devCmd 0x0401) = true ∧ expander 2 3 = true ∧ expander 3 0xFFFEF = true ∧
    sumNat ((up.imp.cap.filter fun e => e.1 != trayKey 2 3).map Prod.snd) + 281474976710656 ≤ 281474976710656 ∧
    281474976710656 < sumNat ((up.imp.cap.filter fun e => e.1 != trayKey 2 3).map Prod.snd) + 281474976710657 ∧
    Runs up (.trayOffline own 2 31) own (devCmd 0x0404) = true ∧ trayNamed 2 31 = true ∧
    Runs trayUp (.trayOnline own 2 3) own (devCmd 0x0405) = true ∧ (trayUp.tray 3).trained = true ∧
    Runs trayLost (.trayOnline own 2 3) own (devCmd 0x0405) = true ∧ (trayLost.tray 3).trained = false ∧ trayLost.heldLost 2 3 = true := by
  refine ⟨?_, ?_, ?_, ?_, ?_, ?_, ?_, ⟨_, many_entries 16384⟩, ?_, ?_, ?_, ?_, ?_, ?_, ?_, ?_, ?_, ?_, ?_, ?_, ?_, ?_⟩
  · decide
  · decide
  · decide
  · decide
  · decide
  · decide
  · decide
  all_goals decide

theorem witness_AgentsAndCapacity_lines :
    Runs plainD (.dirRead own 1 0 15) own { opc := 0x0502, who := .a, chase := some 1, chaseAt := 9 } = true ∧
    folioAt plainD 1 (plainD.comp 1).cur (0 + 256 * 15) = some { kind := 1 } ∧
    plainD.dirEnt (locLine ({ kind := 1 } : Folio).loc ((0 + 256 * 15) % folioB)) = none ∧
    (∃ e, (dirty { key := locLine ({ kind := 1 } : Folio).loc 3840 }).dirEnt (locLine ({ kind := 1 } : Folio).loc 3840) = some e) ∧
    Runs (inGroup []) (.noticeBind own 1 0 5 7) own (chaseCmd 0x0503 1 8) = true ∧
    (((inGroup []).comp 1).curF.req.regions.find? fun r => r.base == 0 && r.cls == 3) = some { base := 0, size := 1, cls := 3 } ∧
    bit ((inGroup []).reg .ptMcgrp 5) 63 = true ∧ bits ((inGroup []).reg .ptMcgrp 5) 62 51 = 1 ∧ bit ((inGroup []).reg .ptMcgrp 6) 63 = false ∧
    ((inGroup []).pool.notices.any fun x => x.chase == 1 && x.base == 0) = false ∧
    ((inGroup [notice1]).pool.notices.any fun x => x.chase == 1 && x.base == 0) = true ∧
    Runs (inGroup [notice1]) (.noticeBind own 1 0 5 7) own (chaseCmd 0x0503 1 8) = true ∧
    Runs (inGroup [notice1]) (.noticeUnbind own 1 0) own (chaseCmd 0x0504 1 8) = true ∧
    ((inGroup [notice1]).pool.notices.find? fun x => x.chase == 1 && x.base == 0) = some notice1 := by
  refine ⟨?_, ?_, ?_, Option.isSome_iff_exists.1 ?_, ?_, ?_, ?_, ?_, ?_, ?_, ?_, ?_, ?_, ?_⟩ <;> decide +kernel

/-! ### Spares, stripe sets, rings, layers -/

/-- Chase 1 with a staged forme that definitions can join: two cores, a mark, two regions, all services, 8 KiB of window and shadow. -/
def stagedF (req : CompReq) : Forme :=
  { cores := [3, 40], marks := (upTo 16), windowB := 8192, shadowB := 8192
    req := { req with regions := [{ use := 0 }, { base := folioB, use := 3 }, { base := 2 * folioB, use := 5 }], layers := [{}, {}]
                      services := 127, stateF := 1 } }
def joining (curF : Forme) : Dev := { up with imp := { comps := [(1, { bound := true, cowner := 7, curF := curF, staged := some { forme := stagedF {} } })] } }
def ring1 : RingDef := { ring := 15, mark := 3 }
def ringed : Dev :=
  { joining {} with pool := { rings := [{ chase := 1, ring := 15 }] } }
def layer1 : LayerDef := { layer := 1, lpages := 2, lmark := 3, arm := 1, shpva := 8192, shpages := 2 }

def coreless : Dev :=
  { up with imp := { comps := [(1, { bound := true, cowner := 7, staged := some { forme := { stagedF {} with cores := [] } } })] } }

theorem stages_joining (f : Forme) : Stages (joining f) 1 (joining f) := ⟨(.ok, 0, 0), rfl, by decide, by decide⟩

theorem witness_RingsAndLayers :
    Runs (joining {}) (.moverBind own 1 0 ring1) own (chaseCmd 0x040A 1) = true ∧ ringOk ring1 = true ∧ ringOk { ring1 with ring := 16 } = false ∧
    0 < (nextReq (joining {}) 1).parties ∧ ringDenied (joining {}) 1 0 64 ring1 = false ∧ ringDenied (joining {}) 1 0 64 { ring1 with mark := 16 } = true ∧
    (∃ c, leastCore (joining {}) 1 ((joining {}).stagedF 1) [0x28] { sram := 1024 } (fun _ => true) = some c) ∧
    (Runs coreless (.moverBind own 1 0 ring1) own (chaseCmd 0x040A 1) = true ∧ ringDenied coreless 1 0 64 ring1 = false ∧ Stages coreless 1 coreless ∧
      leastCore coreless 1 (coreless.stagedF 1) [0x28] { sram := 1024 } (fun _ => true) = none) ∧
    Roomy (joining {}) 1 ∧ ringTaken (joining {}) 1 15 = false ∧ ringTaken ringed 1 15 = true ∧
    Runs ringed (.moverBind own 1 0 ring1) own (chaseCmd 0x040A 1) = true ∧ Runs ringed (.moverUnbind own 1 15) own (chaseCmd 0x040B 1) = true ∧
    (ringed.pool.rings.find? fun r => r.chase == 1 && r.ring == 15 && !r.leaving && !r.gone) = some { chase := 1, ring := 15 } ∧
    ((joining {}).pool.rings.find? fun r => r.chase == 1 && r.ring == 15 && !r.leaving && !r.gone) = none ∧
    Runs (joining {}) (.layerDef own 1 layer1) own (chaseCmd 0x0501 1) = true ∧ layerUnsupported (joining {}) 1 layer1 = false ∧
    layerUnsupported (joining {}) 1 { layer1 with layer := 2 } = true ∧ layerDenied (joining {}) 1 layer1 = false ∧
    layerDenied (joining {}) 1 { layer1 with lmark := 16 } = true ∧ 4096 * layer1.lpages ≤ ((joining {}).stagedF 1).windowB ∧
    ((joining {}).stagedF 1).windowB < 4096 * ({ layer1 with lpages := 3 } : LayerDef).lpages ∧
    shadowTaken (layersBeside (joining {}) 1 1) + 4096 * layer1.shpages ≤ ((joining {}).stagedF 1).shadowB := by
  refine ⟨?_, ?_, ?_, ?_, ?_, ?_, Option.isSome_iff_exists.1 ?_, ⟨?_, ?_, ⟨(.ok, 0, 0), rfl, ?_, ?_⟩, ?_⟩, ⟨_, rfl⟩, ?_, ?_, ?_, ?_, ?_, ?_, ?_, ?_, ?_, ?_, ?_, ?_, ?_, ?_⟩ <;> decide +kernel

/-- Ten trays with 1 GiB accepted each; the same with a spare, with a set that rebuilds onto it, with the set in use. -/
def tenTrays : List (Nat × Nat × Nat) := (upTo 10).map fun n => (2, n, 0)
def accepted : Dev := { up with imp := { up.imp with cap := (upTo 11).map fun n => (trayKey 2 n, 2 ^ 30) } }
def spare1 : Spare := { kind := 2, target := 10, extent := 1 }
def spared (st : Tbl Stripe) : Dev := { accepted with pool := { spares := [spare1], stripes := st } }
def rebuilding : Stripe := { rb := some (0, { mkind := 2, target := 10 }) }
def striped : Dev := { accepted with pool := { stripes := [(7, newStripe accepted 1 tenTrays)] } }
def stripeUsed : Dev :=
  { striped with imp := { striped.imp with comps := [(1, { bound := true, curF := { folios := [(0, { kind := 5, target := 7 })] } })] } }

theorem witness_SparesAndStripeSets :
    Runs accepted (.spareAdd own 2 10 0 1) own (devCmd 0x0406) = true ∧ expander 2 10 = true ∧ extentLack accepted 2 10 0 1 = 0 ∧
    extentLack accepted 2 10 0 2 ≠ 0 ∧ Runs (spared []) (.spareRemove own 2 10 0) own (devCmd 0x0407) = true ∧
    ((spared []).pool.spares.find? fun x => x.kind == 2 && x.target == 10 && x.base == 0) = some spare1 ∧
    (spared []).pool.stripes = [] ∧ Runs (spared [(7, rebuilding)]) (.spareRemove own 2 10 0) own (devCmd 0x0407) = true ∧
    (∃ e ∈ (spared [(7, rebuilding)]).pool.stripes, ∃ n y, e.2.rb = some (n, y) ∧ y.mkind = 2 ∧ y.target = 10 ∧ y.base = 0) ∧
    Runs accepted (.stripeDefine own 1023 1 tenTrays) own (devCmd 0x0408) = true ∧ stripeUnsupported accepted 1023 1 tenTrays = false ∧
    ((([] : List (Nat × Nat × Nat)).map fun m => (m.1, m.2.1)).eraseDups.length ≠ 10) ∧ stripeLack accepted 1 tenTrays = 0 ∧
    stripeLack accepted 2 tenTrays ≠ 0 ∧ stripeUnsupported accepted 1023 2 tenTrays = false ∧ tfind accepted.pool.stripes 1023 = none ∧
    stripeUnsupported striped 7 1 ((upTo 10).map fun n => (2, n + 1, 0)) = false ∧ tfind striped.pool.stripes 7 ≠ none ∧
    stripeLack { striped with pool := { stripes := [(7, {})] } } 1 tenTrays = 0 ∧
    Runs striped (.stripeDelete own 7) own (devCmd 0x0409) = true ∧ tfind striped.pool.stripes 7 = some (newStripe accepted 1 tenTrays) ∧
    (framesUsed (liveFormes striped)).any (fun x => x.1 == 5 && x.2.1 == 7) = false ∧
    Runs stripeUsed (.stripeDelete own 7) own (devCmd 0x0409) = true ∧
    (framesUsed (liveFormes stripeUsed)).any (fun x => x.1 == 5 && x.2.1 == 7) = true := by
  refine ⟨?_, ?_, ?_, ?_, ?_, ?_, ?_, ?_, ⟨_, List.mem_singleton.2 rfl, _, _, rfl, rfl, rfl, rfl⟩, ?_, ?_, ?_, ?_, ?_, ?_, ?_, ?_, ?_, ?_, ?_, ?_, ?_, ?_, ?_⟩ <;> decide +kernel

/-! ### Pool requests -/

/-- Chase 1 with one folio; endpoint 9 bound at port 0; the entry in the fast-path cache. -/
def poolOf (f : Folio) (fast : Bool) : Dev :=
  { bound with imp := { bound.imp with
      comps := [(1, { bound := true, cowner := 7, curF := { folios := [(0, f)], req := { regions := [{}] } } })]
      fast := if fast then [{ die := 0, chase := 1, epoch := 0, kind := 0, key := 0 }] else [] } }
def plainFo : Folio := { kind := 1, use := 1 }
def loadPkt (len : Nat) : Pkt := { reqPkt opLOAD with w3 := BitVec.ofNat 64 len }
def storePkt : Pkt := { reqPkt opSTORE with len := 8, data := List.replicate 8 7 }
def atomPkt : Pkt := { reqPkt opATOMIC with len := 8, data := List.replicate 8 7 }

/-- What a test says of a packet once it is in. -/
def served (d : Dev) (y : Rx) (t : Dev → Nat → Pkt → Bool) : Bool := match ingress d y false with
  | .ok (e, id, k) => t e id k
  | .error _ => false

theorem served_ok {d : Dev} {y : Rx} {t : Dev → Nat → Pkt → Bool} (h : served d y t = true) :
    ∃ e id k, ingress d y false = .ok (e, id, k) ∧ t e id k = true := by
  unfold served at h
  split at h
  · rename_i e id k hi; exact ⟨e, id, k, hi, h⟩
  · cases h

/-- A request that reaches its home: entry found, access allowed, operands within limits, place there, no layer. -/
def reaches (e : Dev) (id : Nat) (k : Pkt) : Bool :=
  let pva := wbits k.w2 63 8
  match folioAt e k.chase k.epoch pva with
  | none => false
  | some f => isLocal e k && !e.imp.badEnt.contains (k.chase, 1, pva / folioB) && accessOk e f k.party (k.opc != opLOAD) && f.kind == 1 && operandsOk k
      && !placeLost e f && (layerOf e k.chase pva).isNone && (k.opc == opLOAD || (filterCheck e id (homeOf e f)).isOk)

def preOk (d : Dev) (y : Rx) : Bool := (preChecks d y false).isOk

theorem witness_PoolRequests :
    (∃ e, preChecks (poolOf plainFo false) (asOp opLOAD { rx 0 (loadPkt 64) with vl := 1 }) false = .error e) ∧
    preOk (poolOf plainFo false) (asOp opLOAD (rx 0 (loadPkt 64))) = true ∧ isLocal (poolOf plainFo false) (loadPkt 64) = true ∧
    fastHas (poolOf plainFo false) { die := 0, chase := 1, epoch := 0, kind := 0, key := 0 } = false ∧
    fastHas (poolOf plainFo true) { die := 0, chase := 1, epoch := 0, kind := 0, key := 0 } = true ∧
    served (poolOf plainFo true) (asOp opLOAD (rx 0 (loadPkt 64))) reaches = true ∧
    served (poolOf plainFo true) (asOp opSTORE (rx 0 storePkt)) reaches = true ∧ storePkt.dst ≠ (poolOf plainFo true).tfp.eid ∧
    served (poolOf plainFo true) (asOp opATOMIC (rx 0 atomPkt)) reaches = true ∧
    served (poolOf plainFo true) (asOp opLOAD (rx 0 { loadPkt 64 with dst := 77 })) (fun e _ k => !isLocal e k) = true ∧
    served { poolOf plainFo true with imp := { (poolOf plainFo true).imp with badEnt := [(1, 1, 0)] } } (asOp opLOAD (rx 0 (loadPkt 64)))
      (fun e _ k => isLocal e k && e.imp.badEnt.contains (k.chase, 1, wbits k.w2 63 8 / folioB)) = true ∧
    served (poolOf { plainFo with kind := 0 } true) (asOp opLOAD (rx 0 (loadPkt 64)))
      (fun e _ k => isLocal e k && (folioAt e k.chase k.epoch (wbits k.w2 63 8)).isNone) = true ∧
    served (poolOf { plainFo with party := 1 } true) (asOp opLOAD (rx 0 (loadPkt 64)))
      (fun e _ k => ((folioAt e k.chase k.epoch (wbits k.w2 63 8)).map fun f => !accessOk e f k.party (k.opc != opLOAD)).getD false) = true ∧
    served (poolOf { plainFo with kind := 2 } true) (asOp opLOAD (rx 0 (loadPkt 64)))
      (fun e _ k => ((folioAt e k.chase k.epoch (wbits k.w2 63 8)).map fun f => accessOk e f k.party (k.opc != opLOAD) && f.kind == 2 &&
        (e.pdk (keyOf e k.chase (wbits k.w2 63 8) f)).isNone).getD false) = true ∧
    served (poolOf plainFo true) (asOp opLOAD (rx 0 (loadPkt 0))) (fun _ _ k => !operandsOk k) = true ∧
    served { poolOf plainFo true with flt := { bound.flt with lostDies := [dGS 0, dGS 4] } } (asOp opLOAD (rx 0 (loadPkt 64)))
      (fun e _ k => ((folioAt e k.chase k.epoch (wbits k.w2 63 8)).map fun f => placeLost e f && !f.gcache).getD false) = true := by
  refine ⟨⟨_, rfl⟩, ?_, ?_, ?_, ?_, ?_, ?_, ?_, ?_, ?_, ?_, ?_, ?_, ?_, ?_, ?_⟩ <;> decide +kernel

/-- A coherence domain: this switch is member 0 with EID 100, member 3 has EID 9; port 0 is a switch link. -/
def domainD (d : Dev) : Dev :=
  (((d.setReg .gsCohCfg 0 (2 ^ 31)).setReg .gsCohMember 0 (2 ^ 31 + 100)).setReg .gsCohMember 3 (2 ^ 31 + 9))
def cohPkt (m : CohMsg) : Pkt :=
  { reqPkt opSTORE with dst := 100, len := 8, data := leBytes 8 (cohHeader m 0) }
def cohReaches (e : Dev) (id : Nat) (k : Pkt) : Bool :=
  let pva := wbits k.w2 63 8 / 4096 * 4096 + 256 * bits (leNat (k.data.take 8)) 38 35
  match folioAt e k.chase k.epoch pva with
  | none => false
  | some f => (e.link 0).ptype == 0 && (memberOfEid e k.src).isSome && f.kind != 4
      && (match filterCheck e id (.coh ((e.stackServer f.cstack).getD f.cstack)) with
          | .ok d => ((cohOf k (selfM d) (locLine { kind := f.kind, target := f.target, frame := f.frame } (pva % folioB))).map fun m =>
              cohTc d m.msg == k.tc).getD false && decide (homeQueued d ((d.stackServer f.cstack).getD f.cstack) < 8192)
          | .error _ => false)

theorem witness_PoolRequests_coh :
    (cohPkt { msg := .gets, srcm := 3 }).dst = (domainD (poolOf { plainFo with gcache := true } true)).tfp.eid ∧
    served (domainD (poolOf { plainFo with gcache := true } true)) (asOp opSTORE (rx 0 (cohPkt { msg := .gets, srcm := 3 }))) cohReaches = true := by
  refine ⟨?_, ?_⟩ <;> decide +kernel

/-! ### Galley and trays -/

def jobOn (j : PJob) : Dev := { up with pool := { up.pool with jobs := [j], grps := [{ id := 0, cont := .request 1, pva := 0, len := 64, data := zeros 64 }] } }
def galleyJob : PJob := { loc := { kind := 1 }, len := 64, st := .galley }
def trayJob (k t : Nat) : PJob := { loc := { kind := k, target := t }, len := 64, st := .tray, reqs := [{ cid := 5 }] }
def cachedJob : Dev :=
  { jobOn { galleyJob with cached := some 2 } with pool := { (jobOn { galleyJob with cached := some 2 }).pool with
      lines := [{ key := locLine { kind := 1 } 0, st := .s, data := zeros 256 }] } }
def twoDown : Dev := { jobOn galleyJob with flt := { up.flt with lostDies := [dGS 0, dGS 4] } }
def oneStripe : Dev :=
  { jobOn (trayJob 5 7) with pool := { (jobOn (trayJob 5 7)).pool with stripes := [(7, { mem := [{ target := 4 }] })] } }
def trayMode : Dev := (up.setReg .ptOctetCfg 99 (2 ^ 31)).setReg .ptPortCfg 792 (2 ^ 31)
def noted : Dev := { up with pool := { up.pool with notices := [{ chase := 1, base := 0, lines := [0] }], dir := [{ key := 77 }] } }

theorem witness_GalleyAndTrays :
    (jobOn galleyJob).job 0 = some galleyJob ∧ galleyJob.st = .galley ∧ galleyJob.cached = none ∧ (jobOn galleyJob).stackServer 0 = some 0 ∧
    twoDown.job 0 = some galleyJob ∧ twoDown.stackServer 0 = none ∧
    cachedJob.job 0 = some { galleyJob with cached := some 2 } ∧ cachedJob.stackServer 2 = some 2 ∧
    (cachedJob.line (locLine galleyJob.loc galleyJob.off)).isSome = true ∧
    (jobOn { galleyJob with st := .mirror }).job 0 = some { galleyJob with st := .mirror } ∧ up.stackUp 7 = true ∧
    isTray trayMode 3 = true ∧ (trayMode.tray 3).perst = false ∧ trayMode.enabled (8 * trayOct 3) = true ∧
    trayMode.dieUp (dPT (trayDie 3)) = true ∧ trayWidth trayMode 3 = 8 ∧ (trayUp.tray 3).trained = true ∧ trayUp.pool.jobs = [] ∧
    jobOfReq (jobOn (trayJob 2 3)) 5 = some (trayJob 2 3, { cid := 5 }) ∧ (trayJob 2 3).loc.target = 3 ∧
    jobOfReq oneStripe 5 = some (trayJob 5 7, { cid := 5 }) ∧ (trayJob 5 7).loc.kind = 5 ∧ (stripeReqAt oneStripe (trayJob 5 7) { cid := 5 }).1 = 4 ∧
    noted.dirEnt 77 = some { key := 77 } ∧
    (noted.pool.notices.find? fun b => b.chase == 1 && b.base == 0) = some { chase := 1, base := 0, lines := [0] } := by
  refine ⟨?_, ?_, ?_, ?_, ?_, ?_, ?_, ?_, ?_, ?_, ?_, ?_, ?_, ?_, ?_, ?_, ?_, ?_, ?_, ?_, ?_, ?_, ?_, ?_, ?_⟩ <;> decide +kernel

/-! ### Stripe engines, movers, layer pushes -/

def withMem (l : List Member) : Dev := jobOn { trayJob 5 7 with mem := l }
def answeredM : Member := { m := 4, here := true }
def rebuildD (rb : Option (Nat × StripeMem)) (sp : List Spare) (pol prog : Nat) : Dev :=
  { up.setReg .fltFabpol 0 pol with pool := { stripes := [(7, { extent := 1, lost := [2], mem := List.replicate 10 {}, rb := rb, prog := prog })], spares := sp } }
def toSpare : StripeMem := { mkind := 2, target := 10 }

theorem witness_StripesAndRebuild :
    (withMem [answeredM, {}]).job 0 = some { trayJob 5 7 with mem := [answeredM, {}] } ∧
    ((({ trayJob 5 7 with mem := [answeredM, {}] } : PJob).mem.find? fun m => m.m == 4 && m.here && !m.taken) = some answeredM) ∧
    ((mapFirst (fun m => m.m == 4 && m.here && !m.taken) (fun m => { m with taken := true }) [answeredM, {}]).all fun m : Member => m.taken) = false ∧
    ((mapFirst (fun m => m.m == 4 && m.here && !m.taken) (fun m => { m with taken := true }) [answeredM]).all fun m : Member => m.taken) = true ∧
    tfind (rebuildD none [spare1] (2 ^ 27) 0).pool.stripes 7 ≠ none ∧ (rebuildD none [spare1] (2 ^ 27) 0).flag .fltFabpol 0 27 = true ∧
    (rebuildD none [spare1] (2 ^ 27) 0).mgmt.active ≠ none ∧ ((rebuildD none [spare1] (2 ^ 27) 0).stripe 7).lost.length < 3 ∧
    ((rebuildD none [spare1] (2 ^ 27) 0).stripe 7).rb = none ∧ ((rebuildD none [spare1] (2 ^ 27) 0).stripe 7).lost.head? = some 2 ∧
    pickSpare (rebuildD none [spare1] (2 ^ 27) 0) ((rebuildD none [spare1] (2 ^ 27) 0).stripe 7) 2 = some spare1 ∧
    pickSpare (rebuildD none [] (2 ^ 27) 0) ((rebuildD none [] (2 ^ 27) 0).stripe 7) 2 = none ∧ ((rebuildD none [] (2 ^ 27) 0).stripe 7).waited = false ∧
    ((rebuildD (some (2, toSpare)) [] 0 0).stripe 7).rb = some (2, toSpare) ∧ (rebuildD (some (2, toSpare)) [] 0 0).flag .fltFabpol 0 27 = false ∧
    ((rebuildD (some (2, toSpare)) [] (2 ^ 27) 0).stripe 7).stopped = false ∧ (rebuildD (some (2, toSpare)) [] (2 ^ 27) 0).pool.jobs = [] ∧
    stripeDie (rebuildD (some (2, toSpare)) [] (2 ^ 27) 0) 7 = some 7 ∧
    ((rebuildD (some (2, toSpare)) [] (2 ^ 27) 0).stripe 7).prog + 1 < 4096 * 1 ∧ 4096 * 1 ≤ ((rebuildD (some (2, toSpare)) [] (2 ^ 27) 4095).stripe 7).prog + 1 := by
  refine ⟨?_, ?_, ?_, ?_, ?_, ?_, ?_, ?_, ?_, ?_, ?_, ?_, ?_, ?_, ?_, ?_, ?_, ?_, ?_, ?_⟩ <;> decide +kernel

/-- Chase 1 with a plain STATE folio of party 0 and a ring in it, its doorbell mark 3 a counter at `n`; `ev` is a group that has ended. -/
def moverD (n : Nat) (g : Option Grp) (r : Ring) : Dev :=
  { poolOf { plainFo with rclass := 0 } true with
    marks := { tbl := [(3, { chase := 1, type := 1, word := n })] }
    imp := { (poolOf plainFo true).imp with comps := [(1, { bound := true, cowner := 7, curF :=
      { folios := [(0, plainFo)], marks := [3, 4], req := { regions := [{}], services := 127 }, depth := 2, windowB := 16384 } })] }
    pool := { rings := [r], grps := g.toList, ev := g.toList.map fun x => .ended x.id } }
def ringIdle : Ring := { chase := 1, ring := 2, mark := 3, core := 5 }
def grpOf (c : Cont) : Grp := { id := 9, cont := c, pva := 0, len := 64, data := zeros 64 }
def ringStat : Ring := { ringIdle with job := true, ending := true, desc := leBytes 64 (2 ^ 52 + 4 * 2 ^ 34) }

/-- What a test says of a mark operation of the device. -/
def signalled (d : Dev) (ok : Bool) : Bool :=
  let x := markSignal d 1 3 0x04 1 0
  x.2.1 == .ok && x.2.2 == ok

/-- The descriptor's read finds its folio. -/
def descOpens (d : Dev) : Bool :=
  let d := (markSignal d 1 3 0x04 1 0).1
  let d := d.modRing 1 2 fun r => { r with taking := true, desc := [], movout := d.fld .impPoolCfg 0 19 12, pos := 0, pieces := []
                                           failN := 0, dstat := .ok, failOff := 0, ending := false }
  (ownAccess d (.moverDesc 1 2) (coreDie 5) 1 (d.comp 1).cur 0 (0 + 64 * (0 % 16)) 64 .load [] []).isOk

theorem witness_Movers :
    (0 < ({ mop := 1, len := 8192, dst := 4095 } : MoverDesc).len) ∧
    (moverD 1 none ringIdle).ring 1 2 = some ringIdle ∧ coreServes (moverD 1 none ringIdle) 5 [0x28] = true ∧
    signalled (moverD 1 none ringIdle) true = true ∧ descOpens (moverD 1 none ringIdle) = true ∧ signalled (moverD 0 none ringIdle) false = true ∧
    ((takeEnded (moverD 1 (some (grpOf (.moverRead 1 2 0))) ringIdle) (Cont.ofPiece 1 2)).map fun x => (x.1.cont, x.2.ring 1 2))
      = some (.moverRead 1 2 0, some ringIdle) ∧
    ((takeEnded (moverD 1 (some (grpOf (.moverWrite 1 2 0))) ringIdle) (Cont.ofPiece 1 2)).map fun x => (x.1.cont, x.2.ring 1 2))
      = some (.moverWrite 1 2 0, some ringIdle) ∧
    ((takeEnded (moverD 1 (some (grpOf (.moverStat 1 2))) ringIdle) (Cont.ofStatus 1 2)).isSome = true) ∧
    (readMoverDesc ringIdle.desc).cmen = false ∧ (readMoverDesc ringStat.desc).cmen = true ∧ (readMoverDesc ringStat.desc).cmark = 4 ∧
    ((takeEnded (moverD 1 (some (grpOf (.moverStat 1 2))) ringStat) (Cont.ofStatus 1 2)).map fun x => markOfChase x.2 1 4) = some true := by
  refine ⟨?_, ?_, ?_, ?_, ?_, ?_, ?_, ?_, ?_, ?_, ?_, ?_, ?_⟩ <;> decide +kernel

def layerD (l : Layer) (g : Option Grp) : Dev :=
  { moverD 0 g ringIdle with pool := { layers := [{ l with chase := 1, layer := 5 }], grps := g.toList, ev := g.toList.map fun x => .ended x.id } }
def pushPkt : Pkt := { reqPkt opPUSH with w2 := BitVec.ofNat 64 (5 * 2 ^ 48) }
def layerRun (ps : Nat) : Layer := { st := .pushing, grps := [0], lpages := ps, pos := 1 }
def pieceG (bad : Bool) : Grp := { grpOf (.layer 1 5 0) with outs := if bad then [(0, .timeout)] else [] }

/-- What a test says of a piece of layer 5 that has ended. -/
def pieceIn (d : Dev) (t : Grp → Layer → Bool) : Bool :=
  ((takeEnded d (Cont.ofLayer 1 5)).map fun x => ((x.2.layer 1 5).map fun l => l.grps.contains ((x.1.pva - l.pva) / 4096) && t x.1 l).getD false).getD false

theorem witness_LayerPushes :
    served (layerD { lpages := 1 } none) (asOp opPUSH (rx 0 pushPkt)) (fun e _ k => isLocal e k && wbits k.w2 47 0 == 0 && wbits k.w2 63 48 == 5
      && ((e.layer k.chase 5).map fun l => l.st != .pushing && l.st != .missed && (retireList (e.comp k.chase).curF.depth (e.comp k.chase).curF.windowB
        (4096 * l.lpages) 1 (layersHeld e k.chase 5)).isSome).getD false && bit (e.comp k.chase).curF.req.services 5) = true ∧
    served (layerD { lpages := 5 } none) (asOp opPUSH (rx 0 pushPkt)) (fun e _ k => ((e.layer k.chase 5).map fun l =>
      (retireList (e.comp k.chase).curF.depth (e.comp k.chase).curF.windowB (4096 * l.lpages) 1 (layersHeld e k.chase 5)).isNone).getD false) = true ∧
    served (layerD {} none) (asOp opPUSH (rx 0 { pushPkt with dst := 77 })) (fun e _ k => !isLocal e k) = true ∧
    served (layerD {} none) (asOp opPUSH (rx 0 { pushPkt with w2 := 0 })) (fun e _ k => (e.layer k.chase 0).isNone) = true ∧
    served (layerD { st := .missed } none) (asOp opPUSH (rx 0 pushPkt)) (fun e _ k => ((e.layer k.chase 5).map fun l => l.st == .missed).getD false) = true ∧
    served { poolOf plainFo true with pool := { layers := [{ chase := 1, layer := 5 }] } } (asOp opPUSH (rx 0 pushPkt))
      (fun e _ k => (e.layer k.chase 5).isSome && !bit (e.comp k.chase).curF.req.services 5) = true ∧
    (layerD { req := some 3 } none).layer 1 5 = some { chase := 1, layer := 5, req := some 3 } ∧
    (layerD { st := .pushing } none).layer 1 5 = some { chase := 1, layer := 5, st := .pushing } ∧ 0 ≤ (layerD { st := .pushing } none).now ∧
    (layerD { st := .pushing, need := 2 ^ 60 } none).now < 2 ^ 60 ∧
    pieceIn (layerD (layerRun 1) (some (pieceG true))) (fun g l => l.st == .pushing && g.worst != .ok) = true ∧
    pieceIn (layerD (layerRun 1) (some (pieceG false))) (fun g l => l.st == .pushing && g.worst == .ok && l.lpages ≤ l.pos && l.grps == [0]) = true ∧
    pieceIn (layerD (layerRun 2) (some (pieceG false))) (fun g l => l.st == .pushing && g.worst == .ok && l.pos < l.lpages) = true := by
  refine ⟨?_, ?_, ?_, ?_, ?_, ?_, ?_, ?_, ?_, ?_, ?_, ?_, ?_⟩ <;> decide +kernel

/-! ### Coherence -/

def dirHeld (e : DirEnt) : Dev := { domainD (poolOf plainFo true) with pool := { dir := [{ e with key := 77 }] } }
def inB (n : DState) : DirEnt := { busy := some (3, n) }

theorem witness_Coherence :
    folioAt (domainD (poolOf plainFo true)) 1 ((domainD (poolOf plainFo true)).comp 1).cur 0 = some plainFo ∧
    selfM (domainD (poolOf plainFo true)) = 0 ∧ memberValid (domainD (poolOf plainFo true)) 3 = true ∧
    memberValid (domainD (poolOf plainFo true)) 5 = false ∧ (inB .x).taken = true ∧
    (dirHeld (inB .x)).dirEnt 77 = some { inB .x with key := 77 } ∧ (dirHeld (inB .s)).dirEnt 77 = some { inB .s with key := 77 } ∧
    ({ acks := 2, need := some 3 } : CLine).need = some (({ acks := 2 } : CLine).acks + 1) ∧
    invList (domainD up) { ovf := true } 0 = [3] ∧ invList (domainD up) { ptrs := [some 3, none, some 5] } 5 = [3] := by
  refine ⟨?_, ?_, ?_, ?_, ?_, ?_, ?_, ?_, ?_, ?_⟩ <;> decide +kernel

/-! ### Format rows, reductions, mixtures -/

/-- A forme whose definitions take a core, all services, marks 0 to 15, regions for weights, tables and rings, one STATE folio. -/
def formed (n : Nat) : Forme :=
  { cores := [3], marks := upTo 16
    req := { members := [(9, 0)], services := 127, stateF := n
             regions := [{ use := 0 }, { base := folioB, use := 3 }, { base := 2 * folioB, use := 5 }] } }
def row16 : Nat := 2 ^ 31 + 2 ^ 27 + 1
def pressD (p : Press) : Dev :=
  { up.setReg .pxFmtdesc 16 row16 with
    press := p, imp := { comps := [(1, { bound := true, cowner := 7, curF := formed 1, staged := some { forme := formed 1 } })] } }
def plainRow : Nat := 2 ^ 31 + 1
def notMine : Dev :=
  { up.setReg .pxFmtdesc 17 (2 ^ 31 + 2) with mgmt := { up.mgmt with owner := some 9 } }
def red1 : RedDef := { rid := 16, cmark := 4, dmark := 8 }
def redHeld (r : List RedRound) : Red := { chase := 1, d := red1, rounds := r }
def moe1 : MoeDef := { moe := 5, experts := [{ eid := 9 }] }

/-- A placement that comes off and leaves room. -/
def placed (x : Except (Nat × Nat) Dev) (c : Nat) : Bool := match x with
  | .ok d => (match stateRoom d c (d.stagedF c) with | .ok _ => true | .error _ => false)
  | .error _ => false

theorem placed_roomy {x : Except (Nat × Nat) Dev} {c : Nat} (h : placed x c = true) : ∃ d2, x = .ok d2 ∧ Roomy d2 c := by
  unfold placed at h
  split at h
  · rename_i d; refine ⟨d, rfl, ?_⟩
    cases e : stateRoom d c (d.stagedF c) with
    | ok n => exact ⟨n, e⟩
    | error n => rw [e] at h; cases h
  · cases h

theorem stages_pressD (p : Press) : Stages (pressD p) 1 (pressD p) := ⟨(.ok, 0, 0), rfl, by decide, by decide⟩

theorem witness_RowsReductionsMixtures :
    Runs up (.fmtdescWrite own 15 plainRow) own { opc := 0x0601, who := .c (bits plainRow 11 0), dom := some (.chase (bits plainRow 11 0)) } = true ∧
    plainRow &&& regRsv .pxFmtdesc = 0 ∧ fmtValueOk plainRow = true ∧ (up.rolesOf own).owner = true ∧ rowLoaded up 1023 = false ∧
    Runs notMine (.fmtdescWrite own 17 plainRow) own { opc := 0x0601, who := .c (bits plainRow 11 0), dom := some (.chase (bits plainRow 11 0)) } = true ∧
    (notMine.rolesOf own).owner = false ∧ (fmtWriters notMine 17 plainRow).all (notMine.rolesOf own).chases.contains = false ∧
    (fmtWriters notMine 18 plainRow).all (notMine.rolesOf own).chases.contains = true ∧
    Runs (pressD {}) (.redDefine own 1 red1) own (chaseCmd 0x0602 1) = true ∧ redUnsupported (pressD {}) 1 red1 = false ∧
    redUnsupported (pressD {}) 1 { red1 with rid := 1 } = true ∧ redDenied (pressD {}) 1 red1 = false ∧
    redUnsupported (pressD {}) 1 { red1 with dmark := 16 } = false ∧ redDenied (pressD {}) 1 { red1 with dmark := 16 } = true ∧
    (∃ d2, redPlace 1 red1 (pressD {}) = .ok d2 ∧ Roomy d2 1) ∧ redBusy (pressD {}) 1 red1 = false ∧
    redBusy (pressD { reds := [redHeld []] }) 1 red1 = true ∧ (∃ d2, redPlace 1 red1 (pressD { reds := [redHeld []] }) = .ok d2 ∧ Roomy d2 1) ∧
    Runs (pressD { reds := [redHeld [{}]] }) (.redDelete own 1 17) own (chaseCmd 0x0603 1) = true ∧
    ((pressD { reds := [redHeld [{}]] }).press.reds.find? fun r => r.chase == 1 && r.d.rid / 16 == 17 / 16 && !r.leaving) = some (redHeld [{}]) ∧
    ((pressD { reds := [redHeld []] }).press.reds.find? fun r => r.chase == 1 && r.d.rid / 16 == 17 / 16 && !r.leaving) = some (redHeld []) ∧
    ((pressD {}).press.reds.find? fun r => r.chase == 1 && r.d.rid / 16 == 17 / 16 && !r.leaving) = none ∧
    Roomy (pressD { reds := [redHeld []] }) 1 := by
  refine ⟨?_, ?_, ?_, ?_, ?_, ?_, ?_, ?_, ?_, ?_, ?_, ?_, ?_, ?_, ?_, placed_roomy ?_, ?_, ?_, placed_roomy ?_, ?_, ?_, ?_, ?_, ⟨_, rfl⟩⟩
  all_goals decide +kernel

def moeD (q : List MoeReq) : Moe := { chase := 1, d := moe1, reqs := q }

theorem witness_RowsReductionsMixtures_moe :
    Runs (pressD {}) (.moeDefine own 1 moe1) own (chaseCmd 0x0609 1) = true ∧ moeUnsupported (pressD {}) moe1 = false ∧
    moeUnsupported (pressD {}) { moe1 with ndisp := 33 } = true ∧ moeDenied (pressD {}) 1 moe1 = false ∧
    moeUnsupported (pressD {}) { moe1 with experts := [{ eid := 8 }] } = false ∧ moeDenied (pressD {}) 1 { moe1 with experts := [{ eid := 8 }] } = true ∧
    (pickDisp (pressD {}) 1 ((pressD {}).stagedF 1) 2 []).length < ({ moe1 with ndisp := 2 } : MoeDef).ndisp ∧
    moeUnsupported (pressD {}) { moe1 with ndisp := 2 } = false ∧ moeDenied (pressD {}) 1 { moe1 with ndisp := 2 } = false ∧
    (∃ d2, moePlace 1 moe1 (pressD {}) = .ok d2 ∧ Roomy d2 1) ∧ (pressD {}).press.moes.any (fun m => m.chase == 1 && m.d.moe == 5) = false ∧
    (∃ d2, moePlace 1 moe1 (pressD { moes := [moeD []] }) = .ok d2 ∧ Roomy d2 1) ∧
    (pressD { moes := [moeD []] }).press.moes.any (fun m => m.chase == 1 && m.d.moe == 5) = true ∧
    moeDenied (pressD { moes := [moeD []] }) 1 moe1 = false ∧
    Runs (pressD { moes := [moeD [{}]] }) (.moeDelete own 1 5) own (chaseCmd 0x060A 1) = true ∧
    ((pressD {}).press.moes.find? fun m => m.chase == 1 && m.d.moe == 5 && !m.leaving) = none ∧
    ((pressD { moes := [moeD [{}]] }).press.moes.find? fun m => m.chase == 1 && m.d.moe == 5 && !m.leaving) = some (moeD [{}]) ∧
    ((pressD { moes := [moeD []] }).press.moes.find? fun m => m.chase == 1 && m.d.moe == 5 && !m.leaving) = some (moeD []) ∧
    Roomy (pressD { moes := [moeD []] }) 1 := by
  refine ⟨?_, ?_, ?_, ?_, ?_, ?_, ?_, ?_, ?_, placed_roomy ?_, ?_, placed_roomy ?_, ?_, ?_, ?_, ?_, ?_, ?_, ⟨_, rfl⟩⟩
  all_goals decide +kernel

/-- A format row names a loaded plate whose SEQ has it, on a chip whose stations' parameters say so: that layout is free (log 36). -/
theorem witness_RowsReductionsMixtures_busy (h : Config.stationParam 2 [] = { row := 17 }) :
    rowLoaded { up with press := { plates := { images := [{ nodes := [{ type := 2 }] }] } } } 17 = true := by
  simp [rowLoaded, PImage.param, h]

/-! ### Tables -/

def emb1 : EmbDef := { table := 6, base := folioB, dim := 32, nrows := 4, umark := 1, udone := 2 }
def embHeld (u : UState) (drn : Bool) : Emb := { chase := 1, d := emb1, ust := u, drnLive := drn, curBase := folioB }
def tabled (u : UState) (drn : Bool) : Dev := pressD { embs := [embHeld u drn] }

theorem witness_Tables :
    Runs (pressD {}) (.embDefine own 1 emb1) own (chaseCmd 0x0604 1) = true ∧ embUnsupported (pressD {}) 1 emb1 = false ∧
    embUnsupported (pressD {}) 1 { emb1 with base := 0 } = true ∧ embDenied (pressD {}) 1 emb1 = false ∧
    embUnsupported (pressD {}) 1 { emb1 with umark := 16 } = false ∧ embDenied (pressD {}) 1 { emb1 with umark := 16 } = true ∧
    (∃ d2, embPlace 1 emb1 (pressD {}) = .ok d2 ∧ Roomy d2 1) ∧ (pressD {}).press.embs.any (fun e => e.chase == 1 && e.d.table == 6) = false ∧
    (∃ d2, embPlace 1 emb1 (tabled .idle false) = .ok d2 ∧ Roomy d2 1) ∧
    (tabled .idle false).press.embs.any (fun e => e.chase == 1 && e.d.table == 6) = true ∧
    Runs (tabled .idle true) (.embDelete own 1 6) own (chaseCmd 0x0605 1) = true ∧
    ((tabled .idle true).press.embs.find? fun e => e.chase == 1 && e.d.table == 6 && !e.leaving) = some (embHeld .idle true) ∧
    Runs (tabled .idle false) (.embDelete own 1 6) own (chaseCmd 0x0605 1) = true ∧
    ((tabled .idle false).press.embs.find? fun e => e.chase == 1 && e.d.table == 6 && !e.leaving) = some (embHeld .idle false) ∧
    Roomy (tabled .idle false) 1 ∧ Runs (tabled .idle true) (.embVersion own 1 6 folioB) own (chaseCmd 0x0606 1) = true ∧
    (tabled .idle true).emb 1 7 = none ∧ (tabled .idle true).emb 1 6 = some (embHeld .idle true) ∧
    covered ((tabled .idle true).comp 1).curF.req isTable folioB (emb1.nrows * emb1.stride (fmtRow (tabled .idle true) 16)) = true ∧
    covered ((tabled .idle true).comp 1).curF.req isTable 0 (emb1.nrows * emb1.stride (fmtRow (tabled .idle true) 16)) = false ∧
    (tabled .idle false).emb 1 6 = some (embHeld .idle false) ∧ Runs (tabled .idle false) (.embSetopt own 1 6 0xFFFFFFFF 0) own (chaseCmd 0x0607 1) = true ∧
    Runs (tabled .idle false) (.embReshard own 1 6 [0]) own (chaseCmd 0x0608 1) = true ∧ ([0] : List Nat).length = emb1.nshard ∧
    rising [0] = true ∧ ([0] : List Nat).any (fun x => decide (emb1.nrows ≤ x)) = false ∧ ([] : List Nat).head? ≠ some 0 := by
  refine ⟨?_, ?_, ?_, ?_, ?_, ?_, placed_roomy ?_, ?_, placed_roomy ?_, ?_, ?_, ?_, ?_, ?_, ⟨_, rfl⟩, ?_, ?_, ?_, ?_, ?_, ?_, ?_, ?_, ?_, ?_, ?_, ?_⟩
  all_goals decide +kernel

/-! ### Plates and marks -/

/-- An image of a SEQ that feeds a MARK: header, two nodes, one queue of depth 2, its CRC. -/
def image1 : List Byte :=
  leBytes 16 1510978985774858568272838892896701258 ++ leBytes 8 1152921504606846976 ++ leBytes 8 13258597302978740224 ++ leBytes 8 1126174784749568
def plateOf : PImage := { chase := 1, id := 0x123, nodes := [{ type := 2 }, { type := 0x17 }], queues := [{ cnode := 1, depth := 2 }] }
def platesD (p : Plates) : Dev := pressD { plates := p }
def bind1 : PBind := { chase := 1, plate := 0x123, rings := [{ ring := 3 }] }
def ringP : RingDef := { ring := 3, pva := 0, mark := 5 }

/-- A plate that loads and binds, on a chip whose stations' parameters are these: that layout is free (log 36). -/
theorem witness_PlatesAndMarks_free (h : Config.stationParam = fun t _ => if t = 0x17 then { mark := some 3 } else {}) :
    loadCheck (platesD {}) false 1 image1 = none ∧ plateOf.seqSize = some 64 ∧ imageRowsOk (platesD {}) plateOf = true := by
  unfold loadCheck PImage.seqSize imageRowsOk paramOk PImage.par PImage.param
  revert h
  generalize Config.stationParam = f
  intro h
  subst h
  refine ⟨?_, ?_, ?_⟩ <;> decide +kernel

theorem ok_exists {ε α : Type} {x : Except ε α} (h : x.isOk = true) : ∃ a, x = .ok a := by
  cases x with
  | ok a => exact ⟨a, rfl⟩
  | error e => cases h

def markOf : Dev := { pressD {} with marks := { tbl := [(4, { chase := 1, type := 1 })] } }

theorem witness_PlatesAndMarks :
    Runs (platesD {}) (.plateLoad own 1 0 image1) own (chaseCmd 0x060B 1) = true ∧ image1.length = 40 ∧
    Runs (platesD { loads := [{ chase := 1, data := image1.take 8 }] }) (.plateLoad own 1 8 (image1.drop 8)) own (chaseCmd 0x060B 1) = true ∧
    bits 8 30 0 ≠ 0 ∧ bits 8 30 0 ≠ ([] : List Byte).length ∧
    Runs (platesD { loads := [{ chase := 1, data := image1.take 8 }] }) (.plateLoad own 1 (2 ^ 31 + 8) (image1.drop 8)) own (chaseCmd 0x060B 1) = true ∧
    loadCheck (platesD {}) false 1 (image1.take 39) = some (1, 0xFF) ∧
    Runs (platesD { images := [plateOf] }) (.plateUnload own 1 0x123) own (chaseCmd 0x060C 1) = true ∧ (platesD {}).image 1 0x123 = none ∧
    (platesD { images := [plateOf] }).image 1 0x123 = some plateOf ∧
    ((platesD { images := [plateOf] }).press.plates.binds.any fun x => x.chase == 1 && x.plate == 0x123) = false ∧
    ((platesD { images := [plateOf] }).press.plates.insts.any fun x => x.chase == 1 && x.plate == 0x123) = false ∧
    ((platesD { images := [plateOf], binds := [bind1] }).press.plates.binds.any fun x => x.chase == 1 && x.plate == 0x123) = true ∧
    Runs (platesD { images := [plateOf] }) (.plateBind own 1 0 0x123 [ringP]) own (chaseCmd 0x060D 1) = true ∧ [ringP].all ringOk = true ∧
    0 < (nextReq (platesD {}) 1).parties ∧ [ringP].any (ringDenied (platesD {}) 1 0 64) = false ∧
    [ringP].any (ringDenied up 1 0 64) = true ∧ (∃ d2, platePlace 1 0 0x123 plateOf [ringP] (platesD { images := [plateOf] }) = .ok d2 ∧ Roomy d2 1) ∧
    ([ringP].any fun r => ringTaken (platesD {}) 1 r.ring) = false ∧ ([ringP].any fun r => ringTaken (platesD { binds := [bind1] }) 1 r.ring) = true ∧
    Runs (platesD { binds := [bind1] }) (.plateUnbind own 1 0x123 3) own (chaseCmd 0x060E 1) = true ∧
    ((platesD { binds := [bind1] }).press.plates.binds.any fun x => x.chase == 1 && x.plate == 0x123 && !x.leaving && x.rings.any fun r => r.ring == 3) = true ∧
    Roomy (platesD { binds := [bind1] }) 1 ∧ Runs (pressD {}) (.markSet own 1 4 1 false 0 0 0) own (chaseCmd 0x0701 1 4) = true ∧
    Runs markOf (.markSet own 1 4 1 false 0 0 0) own (chaseCmd 0x0701 1 4) = true ∧ (∃ e, setMark markOf 1 4 1 false 0 0 0 = .ok e) ∧ setMark (pressD {}) 1 16 1 false 0 0 0 = .error (.denied, 0) ∧
    Runs markOf (.markClear own 4) own { chaseCmd 0x0702 (markOf.mark 4).chase with chase := none } = true ∧
    allocated markOf (markOf.mark 4).chase 4 = true ∧ Runs (pressD {}) (.markClear own 16) own { chaseCmd 0x0702 ((pressD {}).mark 16).chase with
      chase := none } = true ∧ allocated (pressD {}) ((pressD {}).mark 16).chase 16 = false ∧
    Runs (pressD {}) (.markEplost own 9) own (devCmd 0x0703) = true := by
  refine ⟨?_, ?_, ?_, ?_, ?_, ?_, ?_, ?_, ?_, ?_, ?_, ?_, ?_, ?_, ?_, ?_, ?_, ?_, placed_roomy ?_, ?_, ?_, ?_, ?_, ⟨_, rfl⟩, ?_, ?_, ok_exists ?_, ?_, ?_, ?_, ?_, ?_, ?_⟩
  all_goals decide +kernel

/-! ### Reductions and tables at work -/

/-- A device past its start-up with chase 1, endpoint 9 at port 0, chunk 0 of reduction 16 and shard 0 of table 6 on core 3. -/
def pressF : Forme := { formed 1 with chunks := [{ rid := 16, core := 3 }], shards := [{ table := 6, core := 3 }], experts := [{ moe := 5, eid := 9, core := 3, cap := 8 }] }
def workD (kind key : Nat) (p : Press) : Dev :=
  { pressD p with
    tfp := { eid := 100 }
    imp := { comps := [(1, { bound := true, cowner := 7, curF := pressF })], members := [{ port := 0, chase := 1, eid := 9 }]
             fast := [{ die := 0, chase := 1, epoch := 0, kind := kind, key := key }] } }
def redW : RedDef := { red1 with lranks := [(0, 9)], mode := 0 }
def redD (r : Red) : Dev := workD 1 (2 ^ 24) { reds := [r] }
def heldRed : Red := { chase := 1, d := redW }
def contribPkt : Pkt := { reqPkt opREDUCE_CONTRIB with len := 4, w2 := 16 * 2 ^ 32, data := zeros 4 }
def carryPkt : Pkt := { contribPkt with opc := opCARRY }
def reaches10 (e : Dev) (_id : Nat) (k : Pkt) : Bool :=
  isLocal e k && !e.imp.badEnt.contains (k.chase, 2, 2 ^ 24) && wbits k.w2 3 0 == 0 && wbits k.w3 43 32 == 0 && wbits k.w3 63 44 == 0
    && (chunkEnt e k.chase k.epoch 16 0).isSome
/-- A whole train at its core, which serves, and the filter takes it. -/
def trained (e : Dev) (x : Rx) (k : Pkt) (core id : Nat) (pl : List Nat) : Bool := match trainStep e { x with pkt := k } with
  | .ok (e, some _) => coreServes e core pl && (filterCheck e id (.core core)).isOk
  | _ => false
def partly (e : Dev) (x : Rx) (k : Pkt) : Bool := match trainStep e { x with pkt := k } with
  | .ok (_, none) => true
  | _ => false
def refusedAt (e : Dev) (x : Rx) (k : Pkt) (core : Nat) (pl : List Nat) : Bool := match trainStep e { x with pkt := k } with
  | .ok (e, some _) => !coreServes e core pl
  | _ => false
def faulted (d : Dev) (plate : Nat) : Dev := { d with press := { d.press with plates := { std := [{ core := 3, chase := 1, plate := plate, fault := true }] } } }
def contribRx (k : Pkt) : Rx := asOp opREDUCE_CONTRIB (rx 0 k)

theorem witness_ReductionRounds :
    preOk (redD heldRed) { contribRx contribPkt with vl := 1 } = false ∧ preOk (redD heldRed) (contribRx contribPkt) = true ∧
    fastHas (redD heldRed) { die := 0, chase := 1, epoch := 0, kind := 1, key := 2 ^ 24 } = true ∧
    fastHas (workD 0 0 {}) { die := 0, chase := 1, epoch := 0, kind := 1, key := 2 ^ 24 } = false ∧
    isLocal (workD 0 0 {}) contribPkt = true ∧ preOk (workD 0 0 {}) (contribRx contribPkt) = true ∧
    (roundOpen (redD heldRed) contribPkt || continues (redD heldRed) contribPkt) = false ∧
    served (redD heldRed) (contribRx { contribPkt with dst := 77 }) (fun e _ k => !isLocal e k) = true ∧
    served { redD heldRed with imp := { (redD heldRed).imp with badEnt := [(1, 2, 2 ^ 24)] } } (contribRx contribPkt)
      (fun e _ k => isLocal e k && e.imp.badEnt.contains (k.chase, 2, 2 ^ 24)) = true ∧
    served (redD heldRed) (contribRx { contribPkt with w2 := 16 * 2 ^ 32 + 1 }) (fun _ _ k => wbits k.w2 3 0 != 0) = true ∧
    served (workD 1 (2 ^ 25) {}) (contribRx { contribPkt with w2 := 32 * 2 ^ 32 })
      (fun e _ k => isLocal e k && wbits k.w2 3 0 == 0 && wbits k.w3 43 32 == 0 && (chunkEnt e k.chase k.epoch 32 0).isNone) = true ∧
    served (redD heldRed) (contribRx contribPkt) reaches10 = true ∧
    served (redD heldRed) (asOp opCARRY (rx 0 carryPkt)) reaches10 = true ∧
    served (redD heldRed) (contribRx { contribPkt with last := false }) (fun e _ k => partly e (rx 0 k) k) = true ∧
    served (redD heldRed) (contribRx contribPkt) (fun e id k => trained e (rx 0 k) k 3 id [1] && decide (e.red 1 16 = some heldRed)) = true ∧
    served (faulted (redD heldRed) 1) (contribRx contribPkt) (fun e _ k => refusedAt e (rx 0 k) k 3 [1]) = true := by
  refine ⟨?_, ?_, ?_, ?_, ?_, ?_, ?_, ?_, ?_, ?_, ?_, ?_, ?_, ?_, ?_, ?_⟩ <;> decide +kernel

/-- What a test says of a delivery once it is in. -/
def delivered (d : Dev) (y : Rx) (t : Dev → Option Nat → Bool) : Bool := match takeDelivery d y with
  | .ok (e, id) => t e id
  | .error _ => false
def resultRx (k : Pkt) : Rx := asOp opREDUCE_RESULT (rx 1 k)
def resultIn : Pkt := { reqPkt opREDUCE_RESULT with len := 8, w2 := 16 * 2 ^ 32, data := zeros 8, dlv := true }
/-- The member ports of a child switch take deliveries of their parent. -/
def childD (r : Red) : Dev := { redD r with links := [(0, { st := .up, peer := 5, width := 3, rate := 1 })] }

theorem witness_ReductionRounds_result :
    delivered (childD heldRed) (resultRx resultIn) (fun e id => id.isSome && trained e (resultRx resultIn) resultIn 3 (id.getD 0) []) = true ∧
    delivered (childD heldRed) (resultRx { resultIn with last := false }) (fun e id => id.isSome &&
      partly e (resultRx { resultIn with last := false }) { resultIn with last := false }) = true ∧
    delivered (childD heldRed) (resultRx { resultIn with dst := 77 }) (fun _ id => id.isNone) = true ∧
    delivered (childD heldRed) { resultRx resultIn with vl := 0 } (fun _ _ => true) = false ∧
    (redD { heldRed with rounds := [{}] }).red 1 16 = some { heldRed with rounds := [{}] } ∧
    ({ heldRed with rounds := [{}] } : Red).round (16 % 16) = some {} ∧
    ((redD { heldRed with rounds := [{}] }).mark (redW.countMark 0)).count < redW.t2 ∧
    ({ heldRed with rounds := [{ drain := true }] } : Red).round (16 % 16) = some { drain := true } := by
  refine ⟨?_, ?_, ?_, ?_, ?_, ?_, ?_, ?_⟩ <;> decide +kernel

theorem witness_ContributionChecks :
    (redD heldRed).red 1 16 = some heldRed ∧ (redD heldRed).red 1 32 = none ∧
    wbits ({ contribPkt with w2 := 16 * 2 ^ 32 + 16 } : Pkt).w2 7 4 ≠ (fmtRow (redD heldRed) redW.ifmt).code ∧
    wbits contribPkt.w2 7 4 = (fmtRow (redD heldRed) redW.ifmt).code ∧
    (redW.lranks.any fun l => l == (wbits ({ contribPkt with w3 := 2 ^ 44 } : Pkt).w3 63 44, 9)) = false ∧
    (redW.lranks.any fun l => l == (wbits contribPkt.w3 63 44, contribPkt.src)) = true ∧ redW.op ≠ 1 ∧ redW.sealv ≠ 1 ∧
    1 ≠ ({ redW with op := 1 } : RedDef).owner 0 ∧
    readInput (redD heldRed) redW 0 false [(0, zeros 3)] = none ∧
    (readInput (redD heldRed) redW 0 false [(wbits contribPkt.w3 31 0, contribPkt.data)]).isSome = true ∧
    wbits ({ contribPkt with w2 := 17 * 2 ^ 32 } : Pkt).w2 63 32 % 16 ≠ heldRed.cur ∧ redW.bufs ≠ 2 ∧
    wbits ({ contribPkt with w2 := 17 * 2 ^ 32 } : Pkt).w2 63 32 % 16 = (heldRed.cur + 1) % 16 ∧
    wbits ({ contribPkt with w2 := 18 * 2 ^ 32 } : Pkt).w2 63 32 % 16 ≠ (heldRed.cur + 1) % 16 := by
  refine ⟨?_, ?_, ?_, ?_, ?_, ?_, ?_, ?_, ?_, ?_, ?_, ?_, ?_, ?_, ?_⟩
  all_goals decide +kernel

def embW : EmbDef := { emb1 with orow := 16, readmask := 1, updmask := 1 }
def embHere (u : UState) : Emb := { chase := 1, d := embW, ust := u, curBase := folioB }
def embD (e : Emb) : Dev := workD 2 6 { embs := [e] }
def gatherPkt : Pkt := { reqPkt opGATHER with len := 16, w2 := 6 * 2 ^ 48 + 2 ^ 40, data := zeros 16 }
def scatterPkt : Pkt := { gatherPkt with opc := opSCATTER_ADD }
def gatherRx (k : Pkt) : Rx := asOp opGATHER (rx 0 k)
def clean10 (e : Dev) (k : Pkt) : Bool :=
  isLocal e k && !e.imp.badEnt.contains (k.chase, 3, 6) && decide (wbits k.w2 43 40 ≤ 11) && wbits k.w2 35 32 == 0 && wbits k.w3 7 0 == 0
def passes (e : Dev) (id : Nat) (k : Pkt) (ok : Bool) : Bool := match e.emb k.chase 6 with
  | some m => m.d.home != 1 && ((match embChecks e id m k false with | .ok _ => true | .error _ => false) == ok)
  | none => false

theorem witness_TablesAtWork :
    preOk (embD (embHere .idle)) { gatherRx gatherPkt with vl := 1 } = false ∧ continues (embD (embHere .idle)) gatherPkt = false ∧
    preOk (workD 0 0 {}) (gatherRx gatherPkt) = true ∧
    fastHas (workD 0 0 {}) { die := 0, chase := 1, epoch := 0, kind := 2, key := 6 } = false ∧
    served (embD (embHere .idle)) (gatherRx { gatherPkt with dst := 77 }) (fun e _ k => !isLocal e k) = true ∧
    served { embD (embHere .idle) with imp := { (embD (embHere .idle)).imp with badEnt := [(1, 3, 6)] } } (gatherRx gatherPkt)
      (fun e _ k => isLocal e k && e.imp.badEnt.contains (k.chase, 3, 6)) = true ∧
    served (embD (embHere .idle)) (gatherRx { gatherPkt with w3 := 1 }) (fun e _ k => isLocal e k && wbits k.w3 7 0 != 0) = true ∧
    served (workD 2 6 {}) (gatherRx gatherPkt) (fun e _ k => clean10 e k && (e.emb k.chase 6).isNone) = true ∧
    served (embD { embHere .idle with d := { embW with home := 1 } }) (gatherRx gatherPkt) (fun e _ k => clean10 e k &&
      ((e.emb k.chase 6).map fun m => m.d.home == 1).getD false) = true ∧
    served (embD { embHere .idle with d := { embW with readmask := 2 } }) (gatherRx gatherPkt) (fun e id k => clean10 e k && passes e id k false) = true ∧
    served (embD (embHere .idle)) (gatherRx { gatherPkt with last := false }) (fun e id k => clean10 e k && passes e id k true && partly e (rx 0 k) k)
      = true ∧
    served (embD (embHere .idle)) (gatherRx gatherPkt) (fun e id k => clean10 e k && passes e id k true && trained e (rx 0 k) k 3 id [0x10]) = true ∧
    served (embD (embHere .idle)) (asOp opSCATTER_ADD (rx 0 scatterPkt)) (fun e id k => clean10 e k && passes e id k true && k.opc != opGATHER
      && wbits k.w2 39 36 == 0 && k.w3 == 0 && (pickBy [3] (Config.leadHash k.src k.tag)).getD 0 == 3
      && distinct ((shardsOf e k.chase k.epoch 6).map fun e => e.core) == [3] && trained e (rx 0 k) k 3 id [0x11]) = true ∧
    served (faulted (embD (embHere .idle)) 0x11) (asOp opSCATTER_ADD (rx 0 scatterPkt))
      (fun e id k => clean10 e k && passes e id k true && refusedAt e (rx 0 k) k 3 [0x11]) = true := by
  refine ⟨?_, ?_, ?_, ?_, ?_, ?_, ?_, ?_, ?_, ?_, ?_, ?_, ?_, ?_⟩ <;> decide +kernel

theorem witness_TablesAtWork_time :
    (embD (embHere .open_)).emb 1 6 = some (embHere .open_) ∧
    (∃ m, (stepFail (embD (embHere .open_)) 1 6 1).emb 1 6 = some m ∧ m.ust = .failed) ∧
    ((embD (embHere .open_)).mark embW.umark).count < embW.uexpect ∧
    (∃ m, (stepFail (embD { embHere .open_ with d := { embW with uexpect := 0 } }) 1 6 1).emb 1 6 = some m ∧ m.ust ≠ .failed) ∧
    (embD (embHere .failed)).emb 1 6 = some (embHere .failed) ∧ (embD (embHere .closing)).emb 1 6 = some (embHere .closing) ∧
    (embD { embHere .idle with newBase := some folioB }).emb 1 6 = some { embHere .idle with newBase := some folioB } ∧
    (embHere .idle).newBase = none := by
  refine ⟨?_, ⟨_, rfl, ?_⟩, ?_, ⟨_, rfl, ?_⟩, ?_, ?_, ?_, ?_⟩
  all_goals decide +kernel

/-! ### Mixtures and scans at work -/

def moeW : MoeDef := { moe1 with trow := 16, topkmax := 1, tokelem := 1, cmbslots := 4 }
def moeHere : Moe := { chase := 1, d := moeW, disp := [3] }
def moeW5 (m : Moe) : Dev := workD 2 (2 ^ 16 + 5) { moes := [m] }
def dispatchPkt : Pkt := { reqPkt opDISPATCH with len := 8, w2 := 5 * 2 ^ 48 + 2 ^ 36, data := zeros 8 }
def combinePkt : Pkt := { dispatchPkt with opc := opCOMBINE, data := leBytes 8 (3 * 2 ^ 56) }
def dispatchRx (k : Pkt) : Rx := asOp opDISPATCH (rx 0 k)
def clean11 (e : Dev) (k : Pkt) : Bool :=
  isLocal e k && !e.imp.badEnt.contains (k.chase, 4, 5) && decide (wbits k.w2 39 36 ≤ 11) && wbits k.w2 35 32 == 0 && wbits k.w3 31 16 == 0
def typed (e : Dev) (k : Pkt) : Bool := ((e.moe k.chase 5).map fun m => m.disp == [3] && (fmtRow e m.d.trow).code == wbits k.w2 39 36).getD false

theorem witness_MixturesAtWork :
    preOk (moeW5 moeHere) { dispatchRx dispatchPkt with vl := 1 } = false ∧ dispatchPkt.dlv = false ∧
    (continues (moeW5 moeHere) dispatchPkt || (opDISPATCH == opCOMBINE && combines (moeW5 moeHere) dispatchPkt)) = false ∧
    preOk (workD 0 0 {}) (dispatchRx dispatchPkt) = true ∧
    fastHas (workD 0 0 {}) { die := 0, chase := 1, epoch := 0, kind := 2, key := 2 ^ 16 + 5 } = false ∧
    preOk (moeW5 moeHere) (dispatchRx dispatchPkt) = true ∧
    fastHas (moeW5 moeHere) { die := 0, chase := 1, epoch := 0, kind := 2, key := 2 ^ 16 + 5 } = true ∧
    served (moeW5 moeHere) (dispatchRx { dispatchPkt with dst := 77 }) (fun e _ k => !isLocal e k) = true ∧
    served { moeW5 moeHere with imp := { (moeW5 moeHere).imp with badEnt := [(1, 4, 5)] } } (dispatchRx dispatchPkt)
      (fun e _ k => isLocal e k && e.imp.badEnt.contains (k.chase, 4, 5)) = true ∧
    served (moeW5 moeHere) (dispatchRx { dispatchPkt with w2 := 5 * 2 ^ 48 + 2 ^ 32 }) (fun e _ k => isLocal e k && wbits k.w2 35 32 != 0) = true ∧
    served (workD 2 (2 ^ 16 + 5) {}) (dispatchRx dispatchPkt) (fun e _ k => clean11 e k && (e.moe k.chase 5).isNone) = true ∧
    served (moeW5 moeHere) (dispatchRx { dispatchPkt with w2 := 5 * 2 ^ 48 }) (fun e _ k => clean11 e k && !typed e k) = true ∧
    served (moeW5 moeHere) (dispatchRx { dispatchPkt with last := false }) (fun e _ k => clean11 e k && typed e k && partly e (rx 0 k) k) = true ∧
    served (moeW5 { moeHere with disp := [] }) (dispatchRx dispatchPkt) (fun e _ k => clean11 e k && ((e.moe k.chase 5).map fun m =>
      !m.disp.contains ((pickBy m.disp (Config.leadHash k.src k.tag)).getD 0)).getD false) = true ∧
    served (moeW5 moeHere) (dispatchRx dispatchPkt) (fun e id k => clean11 e k && typed e k && k.opc == opDISPATCH &&
      (pickBy [3] (Config.leadHash k.src k.tag)).getD 0 == 3 && trained e (rx 0 k) k 3 id [0x18]) = true ∧
    served (faulted (moeW5 moeHere) 0x18) (dispatchRx dispatchPkt) (fun e _ k => clean11 e k && typed e k && refusedAt e (rx 0 k) k 3 [0x18]) = true ∧
    served (moeW5 moeHere) (asOp opCOMBINE (rx 0 combinePkt)) (fun e id k => clean11 e k && typed e k && k.opc != opDISPATCH &&
      bits (leNat (k.data.take 8)) 63 56 == 3 && trained e (rx 0 k) k 3 id [0x18]) = true := by
  refine ⟨?_, ?_, ?_, ?_, ?_, ?_, ?_, ?_, ?_, ?_, ?_, ?_, ?_, ?_, ?_, ?_, ?_⟩ <;> decide +kernel

def reqW (c : Choice) : MoeReq := { id := 4, core := 3, toks := [{ choices := [c] }] }
def expertsW : MoeDef := { moeW with dlpol := 1, experts := [{ eid := 9, fbexp := 1 }, { eid := 9 }] }

theorem witness_MixturesAtWork_time :
    delivered (moeW5 moeHere) (dispatchRx { dispatchPkt with dlv := true, dst := 77 }) (fun _ id => id.isNone) = true ∧
    delivered (moeW5 moeHere) { dispatchRx { dispatchPkt with dlv := true } with vl := 1 } (fun _ _ => true) = false ∧
    delivered (childD heldRed) (dispatchRx { dispatchPkt with dlv := true }) (fun e id => id.isSome && (match trainStep e (dispatchRx dispatchPkt) with
      | .ok (_, some _) => true
      | _ => false)) = true ∧
    (moeW5 { moeHere with batches := [{ expert := 0, core := 3 }] }).moe 1 5 = some { moeHere with batches := [{ expert := 0, core := 3 }] } ∧
    (({ moeHere with batches := [{ expert := 0, core := 3 }] } : Moe).batches.find? fun b => b.step == 0 && b.expert == 0 && b.core == 3) =
      some { expert := 0, core := 3 } ∧
    (moeHere.batches.find? fun b => b.step == 0 && b.expert == 0 && b.core == 3) = none ∧
    (moeHere.reqs.find? fun r => r.id == 4) = none ∧ (({ moeHere with reqs := [reqW {}] } : Moe).reqs.find? fun r => r.id == 4) = some (reqW {}) ∧
    ({ st := .used } : Choice).open_ = false ∧ ({} : Choice).open_ = true ∧ moeW.dlpol ≠ 1 ∧ (reqW {}).extra = false ∧ expertsW.dlpol = 1 ∧
    ((expertsW.experts[0]?).map fun e => e.fbexp).getD 0xFFF ≠ 0xFFF ∧ ((expertsW.experts[1]?).map fun e => e.fbexp).getD 0xFFF = 0xFFF := by
  refine ⟨?_, ?_, ?_, ?_, ?_, ?_, ?_, ?_, ?_, ?_, ?_, ?_, ?_, ?_, ?_⟩ <;> decide +kernel

/-! #### Scans -/

/-- Records in folio 1, private output in folio 2; the key of the tracked request is that of folio 1. -/
def scanF (use srv : Nat) (cores : List Nat) : Forme :=
  { cores := cores, req := { services := srv }, folios := [(1, { kind := 1, use := use }), (2, { kind := 1, use := 1 })] }
def scanD (f : Forme) : Dev :=
  { workD 0 1 {} with
    imp := { comps := [(1, { bound := true, cowner := 7, curF := f })], members := [{ port := 0, chase := 1, eid := 9 }]
             fast := [{ die := 0, chase := 1, epoch := 0, kind := 0, key := 1 }] } }
/-- One record of 8 bytes, one term: its word equals 0. -/
def scanPkt : Pkt :=
  { reqPkt opSCAN with
    hext := 1, len := 32, w2 := BitVec.ofNat 64 (folioB * 256), w3 := BitVec.ofNat 64 (2 * folioB * 256), ext := [BitVec.ofNat 64 (2 ^ 32 + 8 * 2 ^ 16)]
    data := leBytes 16 (2 ^ 24) ++ leBytes 16 (2 ^ 56) }
def scanRx (k : Pkt) : Rx := asOp opSCAN (rx 0 k)
def inOk (e : Dev) (k : Pkt) : Bool :=
  let o := scanOps k
  isLocal e k && scanOk k && rangeAll e k.chase k.epoch o.inp (o.nrec * o.recsz) (fun f => f.use == 4)
def scanReady (e : Dev) (k : Pkt) : Bool :=
  let o := scanOps k
  inOk e k && rangeAll e k.chase k.epoch o.inp (o.nrec * o.recsz) (fun _ => true) && (folioAt e k.chase k.epoch o.inp).map (fun f => f.use) == some 4
    && rangeAll e k.chase k.epoch o.out o.outLen (ownOut k.party) && bit ((formeOf (e.comp k.chase) k.epoch).getD {}).req.services 3
    && ((formeOf (e.comp k.chase) k.epoch).getD {}).cores == [3] && (pickBy [3] (Config.leadHash k.src k.tag)).getD 0 == 3
def scanGoes (e : Dev) (id : Nat) (k : Pkt) (left : Bool) : Bool := coreServes e 3 [0x20] && (match filterCheck e id (.core 3) with
  | .ok e =>
    let r := newSvc e { kind := .scan, chase := k.chase, epoch := k.epoch, party := k.party, req := some id, die := 0, core := 3, cores := [3], k := k, stage := 1 }
    (((scanRead r.1 r.2 (scanOps k)).svc r.2).map fun s => (s.left != 0) == left).getD false
  | .error _ => false)
def scanJob (st left : Nat) (req : Option Nat) : Svc := { id := 4, kind := .scan, chase := 1, stage := st, left := left, req := req }

theorem witness_Scans :
    preOk (scanD (scanF 4 8 [3])) { scanRx scanPkt with vl := 1 } = false ∧ preOk (scanD (scanF 4 8 [3])) (scanRx scanPkt) = true ∧
    isLocal (scanD (scanF 4 8 [3])) scanPkt = true ∧
    fastHas (scanD (scanF 4 8 [3])) { die := 0, chase := 1, epoch := 0, kind := 0, key := 1 } = true ∧
    preOk (workD 0 0 {}) (scanRx scanPkt) = true ∧ fastHas (workD 0 0 {}) { die := 0, chase := 1, epoch := 0, kind := 0, key := 1 } = false ∧
    served (scanD (scanF 4 8 [3])) (scanRx { scanPkt with dst := 77 }) (fun e _ k => !isLocal e k) = true ∧
    served (scanD (scanF 4 8 [3])) (scanRx { scanPkt with ext := [0] }) (fun e _ k => isLocal e k && !scanOk k) = true ∧
    served (scanD (scanF 1 8 [3])) (scanRx scanPkt) (fun e _ k => isLocal e k && scanOk k && !inOk e k) = true ∧
    served (scanD (scanF 4 8 [3])) (scanRx { scanPkt with w3 := BitVec.ofNat 64 (3 * folioB * 256) }) (fun e _ k => inOk e k &&
      !rangeAll e k.chase k.epoch (scanOps k).out (scanOps k).outLen (ownOut k.party)) = true ∧
    served (scanD (scanF 4 7 [3])) (scanRx scanPkt) (fun e _ k => inOk e k && !bit ((formeOf (e.comp k.chase) k.epoch).getD {}).req.services 3) = true ∧
    served (faulted (scanD (scanF 4 8 [3])) 0x20) (scanRx scanPkt) (fun e _ k => scanReady e k && !coreServes e 3 [0x20]) = true ∧
    served (scanD (scanF 4 8 [3])) (scanRx scanPkt) (fun e id k => scanReady e k && scanGoes e id k true) = true ∧
    served { scanD (scanF 4 8 [3]) with flt := { bound.flt with lostDies := [dGS 0, dGS 4] } } (scanRx scanPkt)
      (fun e id k => scanReady e k && scanGoes e id k false) = true ∧
    (workD 0 0 { svcs := [scanJob 1 1 none] }).svc 4 = some (scanJob 1 1 none) ∧ (workD 0 0 { svcs := [scanJob 2 0 (some 5)] }).svc 4 =
      some (scanJob 2 0 (some 5)) := by
  refine ⟨?_, ?_, ?_, ?_, ?_, ?_, ?_, ?_, ?_, ?_, ?_, ?_, ?_, ?_, ?_, ?_⟩ <;> decide +kernel

/-! ### Plates at work -/

/-- A plate with a node of each kind, a queue from node 0 to node 6. -/
def plateW : PImage :=
  { chase := 1, id := 7, nodes := [{ type := 2 }, { type := 0x11 }, { type := 0x12 }, { type := 0x15 }, { type := 0x16 }, { type := 0x17 }, { type := 0x18 }]
    queues := [{ cnode := 6, depth := 2 }] }
def instW : PInst := { core := 3, slot := 1, chase := 1, plate := 7, queues := [[]], nodes := List.replicate 7 {} }
def instD (i : PInst) (std : List StdInst) : Dev := workD 0 0 { plates := { images := [plateW], insts := [i], std := std } }
def pieceW : PPiece := { id := 9, node := 1, done := true }
def grpW : Grp := { id := 4, cont := .plate (instKey 3 1) 9 0 }
def endedD : Dev :=
  { instD { instW with pieces := [{ pieceW with done := false }] } [] with pool := { up.pool with ev := [.ended 4], grps := [grpW] } }

theorem witness_PlatesAtWork :
    (instD instW []).inst 3 0 = none ∧ (instD { instW with fault := true } []).inst 3 1 = some { instW with fault := true } ∧
    (instD instW []).inst 3 1 = some instW ∧ (instD instW []).image 1 7 = some plateW ∧
    [0, 1, 2, 3, 4, 5, 6].map plateW.ty = [2, 0x11, 0x12, 0x15, 0x16, 0x17, 0x18] ∧
    (fireTokens (instD { instW with queues := [[{}]] } []) { instW with queues := [[{}]] } plateW 6).isSome = true ∧
    (fireTokens (instD instW []) instW plateW 6).isNone = true ∧
    ((({ instW with nodes := instW.nodes.set 6 { toks := [{}] } } : PInst).node 6).toks.find? fun t => t.item == 0) = some {} ∧
    instW.room plateW 6 0 ≠ 0 ∧ ((instW.node 6).toks.find? fun t => t.item == 0) = none ∧ (instD instW []).pool.ev = [] ∧
    (({ instW with pieces := [pieceW] } : PInst).pieces.find? fun x => x.done) = some pieceW ∧ (instW.pieces.find? fun x => x.done) = none := by
  refine ⟨?_, ?_, ?_, ?_, ?_, ?_, ?_, ?_, ?_, ?_, ?_, ?_, ?_⟩ <;> decide +kernel

theorem witness_PlatesAtWork_rest :
    endedD.pool.ev = [.ended 4] ∧ endedD.grp 4 = some grpW ∧ endedD.inst 3 1 = some { instW with pieces := [{ pieceW with done := false }] } ∧
    (((({ endedD with pool := { endedD.pool with ev := [] } } : Dev).dropGrp 4).modInst 3 1 (fun i => { i with
      pieces := mapIf (fun x => x.id == 9) (fun x => { x with done := true, st := 0, data := if x.write then x.data else grpW.data }) i.pieces })).inst 3 1).bind
      (fun i => i.pieces.find? fun x => x.id == 9) = some pieceW ∧
    (instD instW []).press.plates.std = [] ∧ (instD instW [{ core := 4, slot := 1, plate := 0x10 }]).inst 4 1 = none ∧
    isRequest gatherPkt = true ∧ served (embD (embHere .idle)) (gatherRx gatherPkt) (fun e _ k => isLocal e k) = true ∧
    served (embD (embHere .idle)) (gatherRx { gatherPkt with dst := 77 }) (fun e _ k => !isLocal e k) = true ∧
    isRequest resultIn = false ∧ delivered (childD heldRed) (resultRx resultIn) (fun _ id => id.isSome) = true ∧
    isRequest respPkt = false ∧ respPkt.dlv = false ∧ respPkt.opc ≠ opREDUCE_RESULT ∧
    (∃ d, hdrCheck dResp (asOp opRESP (rx 1 respPkt)) = .ok d) := by
  refine ⟨?_, ?_, ?_, ?_, ?_, ?_, ?_, ?_, ?_, ?_, ?_, ?_, ?_, ?_, ⟨_, rfl⟩⟩ <;> decide +kernel

/-! ### Marks -/

def markPkt (i mop arg : Nat) : Pkt := { reqPkt opMARK_OP with w2 := BitVec.ofNat 64 (i * 2 ^ 46 + mop * 2 ^ 40 + arg) }
def marked (m : Mark) : Dev := { bound with marks := { tbl := [(4, { m with chase := 1 })] } }
def counterM (n : Nat) : Mark := { type := 1, word := n }
def barrierM : Mark := { type := 2, word := 7 * 2 ^ 56 + 2 ^ 53, link := 2 ^ 108 }
def quoinM (owner : Nat) : Mark := { type := 3, word := 2 ^ 62 + owner * 2 ^ 39, link := 2 ^ 112 }
def opOf (mop arg : Nat) : MOp := { id := some 3, mark := 4, mop := mop, arg0 := arg, src := 9, chase := 1 }

theorem witness_MarkOperations :
    served (marked (counterM 5)) (asMop 0x01 (rx 0 (markPkt 4 0 7))) (fun e id k => isLocal e k && wbits k.w2 63 46 == 4 &&
      e.dieUp (dPT (markDie 4)) && (filterCheck e id (.mark (markDie 4))).isOk) = true ∧
    served (marked (counterM 5)) (asRead (rx 0 { markPkt 4 0 0 with dst := 77 })) (fun e _ k => !isLocal e k) = true ∧
    served { marked (counterM 5) with flt := { bound.flt with lostDies := [dPT 1] } } (asMop 0x01 (rx 0 (markPkt 16384 0 7)))
      (fun e _ k => isLocal e k && !e.dieUp (dPT (markDie (wbits k.w2 63 46)))) = true ∧
    (marked (counterM 5)).dieUp (dPT (markDie 4)) = true ∧ (marked (counterM 5)).badMark 4 = false ∧ ((marked {}).mark 4).type = 0 ∧
    ((marked { counterM 5 with plock := true, party := 2 }).mark 4).party ≠ (opOf 1 7).party ∧
    mopType 0x06 = none ∧ mopFields { opOf 1 7 with arg1 := 1 } = false ∧ mopCheck (marked (counterM 5)) (opOf 1 7) = none ∧
    (∃ e, mopEffect ((marked (counterM 5)).count .cMkops (dPT (markDie 4))) (opOf 1 7) = (e, .done .ok false)) ∧
    mopCheck (marked (counterM 5)) { opOf 5 0 with arg1 := 6 } = none ∧ waitRoom (marked (counterM 5)) (markDie 4) = true ∧
    (∃ e, mopEffect ((marked (counterM 5)).count .cMkops (dPT (markDie 4))) { opOf 5 0 with arg1 := 6 } = (e, .hold 6)) ∧
    (∀ n, 32768 ≤ ((List.replicate n ({} : MWait)).filter fun w => markDie w.mark == 0).length ↔ 32768 ≤ n) := by
  refine ⟨?_, ?_, ?_, ?_, ?_, ?_, ?_, ?_, ?_, ?_, ⟨_, rfl⟩, ?_, ?_, ⟨_, rfl⟩, ?_⟩
  on_goal 13 => intro n; rw [List.filter_replicate_of_pos (by decide)]; simp
  all_goals decide +kernel

theorem witness_MarkTable :
    ((marked (counterM 5)).mark 4).count = 5 ∧ 5 + (opOf 1 7).arg0 < 2 ^ 48 ∧ (opOf 2 5).arg0 ≤ ((marked (counterM 5)).mark 4).count ∧
    ((marked (counterM 5)).mark 4).count < (opOf 4 6).arg0 ∧ 2 ^ 48 ≤ ((marked (counterM (2 ^ 48 - 1))).mark 4).count + (opOf 1 7).arg0 ∧ ((marked barrierM).mark 4).round = 7 ∧ ((marked { type := 3 }).mark 4).qState = 0 ∧
    ((marked (quoinM 8)).mark 4).qState = 1 ∧ ((marked (quoinM 8)).mark 4).owner ≠ (opOf 0x20 0).src ∧
    ((marked (quoinM 9)).mark 4).owner = (opOf 0x22 0).src ∧ ((marked (quoinM 9)).mark 4).inc = (opOf 0x22 0).arg0 ∧
    ((waitsOn (marked (quoinM 9)) 4).find? fun w => w.mop == 0x20) = none ∧ ((marked (quoinM 9)).mark 4).lease ≠ 0 ∧
    ((marked { type := 4, word := 2 ^ 32 }).mark 4).next < 2 ^ 32 - 1 ∧ ((marked { type := 4, word := 2 ^ 32 }).mark 4).serving ≠
      ((marked { type := 4, word := 2 ^ 32 }).mark 4).next ∧ ((marked barrierM).mark 4).upWait = true ∧ bit ((marked barrierM).mark 4).flags 5 = false ∧
    (({ up with marks := { waits := [{ id := 3 }] } } : Dev).marks.waits.find? fun w => w.id == 3) = some { id := 3 } ∧
    waitsOn (marked (counterM 5)) 4 = [] := by
  refine ⟨?_, ?_, ?_, ?_, ?_, ?_, ?_, ?_, ?_, ?_, ?_, ?_, ?_, ?_, ?_, ?_, ?_, ?_, ?_⟩ <;> decide +kernel

/-! ### Tenancy -/

/-- A connection whose algorithms are agreed; a session whose handshake runs; one of the agent of party 0 of chase 1. -/
def agreed (n : Nat) : Dev := { up with mgmt := { up.mgmt with conns := [(connKey .eth 5, n)] } }
def shaking : Dev := { up with mgmt := { up.mgmt with sessions := [(1, { fin := false, mutual_ := true })] } }
def agentDev (k : PartyKeys) (blown : Bool) : Dev :=
  { up with
    mgmt := { up.mgmt with sessions := [(1, { digest := 7 })], debugLock := blown }
    pool := { keys := [(64, { k with agent := some 7 })] } }
def anon : Dev := { up with mgmt := { up.mgmt with sessions := [(1, { mutual_ := false })] } }

theorem witness_SpdmConnection :
    up.mgmt.active = some 0 ∧ (up.taken .eth || Transport.eth == .i3c) = true ∧ ((agreed 3).taken .eth || Transport.eth == .i3c) = true ∧
    3 ≤ (agreed 3).conn .eth 5 ∧ up.conn .eth 5 < 2 ∧ (agreed 3).mgmt.sessions.length < 64 := by
  refine ⟨?_, ?_, ?_, ?_, ?_, ?_⟩ <;> decide

theorem secured_up (d : Dev) (n : Nat) (se : Session) (b : Bas) (hb : b.seq = none) (h1 : d.mgmt.active.isSome = true) (h2 : d.taken b.tr = true)
    (h3 : b.bad = false) (h5 : b.sess = some n) (h6 : d.session n = some se) : Secured d b n se := by
  have : heard d b = d := by simp [heard, hb]
  exact ⟨h1, h2, h3, by simp [hb], h5, by rw [this]; exact h6⟩

theorem witness_SessionsAndAgents :
    Secured shaking own 1 { fin := false, mutual_ := true } ∧ Secured up own 1 { digest := 7 } ∧
    Secured (agentDev {} true) own 1 { digest := 7 } ∧ AgentOf (agentDev {} true) { digest := 7 } 1 0 ∧
    AgentOf (agentDev { cur := true } true) { digest := 7 } 1 0 ∧ AgentOf (agentDev {} false) { digest := 7 } 1 0 ∧
    (agentDev {} true).mgmt.debugLock = true ∧ ((agentDev {} true).partyKeys 1 0).pdk = none ∧ pdkUse (agentDev {} true) < 16384 ∧
    pskUse (agentDev {} true) < 16384 ∧ ((agentDev {} true).partyKeys 1 0).cur = false ∧
    ((agentDev { cur := true } true).partyKeys 1 0).cur = true ∧ (agentDev {} false).mgmt.debugLock = false ∧
    Secured anon own 1 { mutual_ := false } := by
  refine ⟨secured_up _ _ _ _ rfl ?_ ?_ ?_ ?_ ?_, secured_up _ _ _ _ rfl ?_ ?_ ?_ ?_ ?_, secured_up _ _ _ _ rfl ?_ ?_ ?_ ?_ ?_,
    ⟨?_, ?_, ?_, ?_, ?_⟩, ⟨?_, ?_, ?_, ?_, ?_⟩, ⟨?_, ?_, ?_, ?_, ?_⟩, ?_, ?_, ?_, ?_, ?_, ?_, ?_, secured_up _ _ _ _ rfl ?_ ?_ ?_ ?_ ?_⟩ <;> decide

/-- The PDK of party 0 keys a folio on a tray of chase 1. -/
def keyedTray : Dev :=
  { agentDev { pdk := some 5 } true with
    imp := { comps := [(1, { bound := true, cowner := 7, curF := { folios := [(0, { kind := 2, party := 0 })] } })] } }

theorem witness_LinkKeys :
    isPort up 0 = true ∧ Runs up (.portKeyset own 0 true 1 2 3 4) own (devCmd 0x0201) = true ∧ (up.link 0).encact = false ∧
    Runs { up with mgmt := { up.mgmt with policy := [1] } } (.linkDerive own 0 true (some 9)) own (devCmd 0x0202) = true ∧
    (up.link 0).st = .up ∧ (up.link 0).ptype = 0 ∧ Runs up (.linkDerive own 0 true none) own (devCmd 0x0202) = true := by
  refine ⟨?_, ?_, ?_, ?_, ?_, ?_, ?_⟩ <;> decide

theorem witness_SessionsAndAgents_tray :
    Secured keyedTray own 1 { digest := 7 } ∧ AgentOf keyedTray { digest := 7 } 1 0 ∧ keysTray keyedTray (64 * 1 + 0) = true := by
  refine ⟨secured_up _ _ _ _ rfl ?_ ?_ ?_ ?_ ?_, ⟨?_, ?_, ?_, ?_, ?_⟩, ?_⟩ <;> decide

/-! ### The meter and the snapshot -/

def metered (m : Meter) : Dev := { up with meter := { m with powered := true } }
def busyMeter : Dev :=
  { metered { notes := [(true, 1), (false, 2)], wire := [{ die := 0, exp := [(4, 8)] }], copies := [(1, 0, {})] } with exp := [(4, 8)] }

theorem witness_MeterAccounts :
    busyMeter.meter.powered = true ∧ (busyMeter.meter.notes.find? fun n => n.2 == 1) = some (true, 1) ∧
    (busyMeter.meter.notes.find? fun n => n.2 == 2) = some (false, 2) ∧ busyMeter.dieUp 0 = true ∧
    (busyMeter.exp.filter fun x => exports 0 x.1) ≠ [] ∧ (busyMeter.meter.wire.find? fun r => r.die == 0) = some { die := 0, exp := [(4, 8)] } ∧
    sumNat ((perAccount (activity busyMeter.meter.act 0)).map Prod.snd) = 0 ∧ busyMeter.mgmt.active ≠ none ∧
    busyMeter.meter.sfault.contains 5 = false ∧ (busyMeter.meter.copies.filter fun x => x.1 == 2) = [] ∧
    1 < ((upTo 16).filter busyMeter.dieUp).length / 2 ∧ (busyMeter.meter.copies.any fun x => x.1 == 1) = true := by
  refine ⟨?_, ?_, ?_, ?_, ?_, ?_, ?_, ?_, ?_, ?_, ?_, ?_⟩ <;> decide

def enrolled : Dev := metered { auth := some 3 }
def sig : MtAuth := { sigOk := true, acnt := 1 }
def stored : Dev := metered { seq := 1, store := [(true, { seq := 1 })] }

theorem witness_ColophonsAndAuthority :
    (metered {}).meter.committing = none ∧ (metered { committing := some {} }).meter.committing = some {} ∧ (metered {}).meter.pend = none ∧
    ({ up with meter := { powered := false } } : Dev).meter.powered = false ∧ sig.sigOk = true ∧ (metered {}).meter.acnt < sig.acnt ∧
    Runs (metered {}) (.mtEnrol own sig true 3) own (mtInfo 0x0B10) = true ∧ (metered {}).meter.auth = none ∧
    enrolled.meter.auth ≠ none ∧ Runs enrolled (.mtAuthkey own sig 4) own (mtInfo 0x0B11) = true ∧ enrolled.meter.repl < 15 ∧
    Runs enrolled (.mtSetint own sig 60) own (mtInfo 0x0B12) = true ∧ Runs enrolled (.mtFwlr own sig 1 2 [] true) own (mtInfo 0x0B13) = true ∧
    Runs enrolled (.mtCorr own sig [(3, 1, 2)]) own (mtInfo 0x0B14) = true ∧
    Runs stored (.mtRead own 1 0) own { opc := 0x0B01, who := .a } = true ∧
    (stored.meter.store.find? fun c => c.2.seq == 1) = some (true, { seq := 1 }) ∧ 0 < ({ seq := 1 } : Colophon).size ∧
    Runs stored (.mtAck own 1) own { opc := 0x0B02, who := .f, dom := some .meter } = true ∧ 1 ≤ stored.meter.seq := by
  refine ⟨?_, ?_, ?_, ?_, ?_, ?_, ?_, ?_, ?_, ?_, ?_, ?_, ?_, ?_, ?_, ?_, ?_, ?_, ?_⟩ <;> decide

def snapped (st : SnapSt) : Dev := { bound with snap := { st := st, id := 4, ports := [0], lanes := [(0, 1)] } }
def snapCopyPkt : Pkt := { opc := opSNAP, dst := 100, src := 9, w2 := BitVec.ofNat 64 (4 <<< 32) }

theorem witness_Snapshots :
    Runs up (.snapArm own 4 9 2000000 [1] [0]) own (devCmd 0x0803) = true ∧ (up.comp 1).bound = true ∧ tcutOk up 2000000 = true ∧
    ([0] : List Nat).all (isPort up) = true ∧ up.snap.st = .idle ∧
    (∃ e, hdrCheck (snapped .armed) (asOp opSNAP (rx 1 snapCopyPkt)) = .ok e ∧ (discard e (asOp opSNAP (rx 1 snapCopyPkt))).snap.st = .armed ∧
      wbits snapCopyPkt.w2 63 32 = (discard e (asOp opSNAP (rx 1 snapCopyPkt))).snap.id ∧
      takesPart (discard e (asOp opSNAP (rx 1 snapCopyPkt))) 0 = true) ∧
    (snapped .armed).snap.st = .armed ∧ (snapped .cut).snap.st = .cut ∧ (snapped .cut).snap.lanes ≠ [] ∧
    Runs (snapped .done) (.snapRead own 4 0) own { opc := 0x0804, who := .a } = true ∧ 4 = (snapped .done).snap.id ∧
    Runs (snapped .done) (.snapRelease own 4) own (devCmd 0x0805) = true := by
  refine ⟨?_, ?_, ?_, ?_, ?_, ⟨_, rfl, ?_, ?_, ?_⟩, ?_, ?_, ?_, ?_, ?_, ?_⟩ <;> decide

def fatalSeen : Dev := { up with flt := { up.flt with selfFatal := [3] } }
def hops : NhSet := { slots := (upTo 16).map fun _ => some 8, members := [0, 8] }
def hopDev : Dev := { up.setReg .fltFabpol 0 0x80000000 with core := { nhs := [(6, hops)] } }

theorem witness_Faults :
    sendsLiveness up 3 = true ∧ up.flt.selfFatal.contains 3 = false ∧ sendsLiveness fatalSeen 3 = true ∧ fatalSeen.flt.selfFatal.contains 3 = true ∧
    up.flt.fatal = false ∧ ({ fatal := true } : Faults).fatal = true ∧
    tfind hopDev.core.nhs 6 = some hops ∧ hopDev.flag .fltFabpol 0 31 = true ∧ hops.members.contains 8 = true ∧ hopDev.portUp 8 = false ∧
    hops.members.filter hopDev.portUp ≠ [] ∧ ([0] : List Nat) ≠ [] ∧ ¬ 8 ∈ ([0] : List Nat) ∧ hops.slots[0]? = some (some 8) ∧
    tget 0 up.flt.ceCount (32 * 0 + 13) < 2 ^ up.fld .fltThr 0 15 8 ∧
    (∃ n, 2 ^ up.fld .fltThr 0 15 8 ≤ tget 0 ({ up with flt := { up.flt with ceCount := [(13, n)] } } : Dev).flt.ceCount (32 * 0 + 13)) ∧
    up.flag .fltFabpol 0 24 = false ∧ (up.setReg .fltFabpol 0 0x01000000).flag .fltFabpol 0 24 = true := by
  refine ⟨?_, ?_, ?_, ?_, ?_, ?_, ?_, ?_, ?_, ?_, ?_, ?_, ?_, ?_, ?_, ⟨2 ^ 30, ?_⟩, ?_, ?_⟩ <;> decide

def takingOver : Dev := { up with mgmt := { up.mgmt with active := none, takeover := some 1, kp0 := { booted := true, inService := false }, kp1 := { booted := true } } }

theorem witness_KeeperTakeover :
    up.mgmt.active = some 0 ∧ takingOver.mgmt.takeover = some 1 ∧ keeperReady takingOver 1 = true ∧ keeperReady takingOver (1 - 1) = false := by
  refine ⟨?_, ?_, ?_, ?_⟩ <;> decide

/-! ### Basod -/

def rd (g : Nat) : CmdInfo := { opc := g * 256 + 0xF0, who := .a, i3c := true }
def oldGates : Dev := { up.setReg .ptPortCfg 8 0x80FFFF10 with sched := { pend := [(9, {})] } }
def gateable : Dev := (up.setReg .schGateCtl 9 0x10000).setReg .schGateEnt 576 0xFF000040

theorem witness_RegistersByName_reads :
    Runs up (.regRead own (.reg .kpMgmtCfg none) 0x0A 0 1 false) own (rd 0x0A) = true ∧
    lookName 0x0A (.reg .kpMgmtCfg none) = some (.reg .kpMgmtCfg 0) ∧ 0 + 1 ≤ elems up .kpMgmtCfg 0 ∧
    8 + 1 * (cdiv (regDesc .kpMgmtCfg).width 64 * 8) ≤ 4080 ∧ ((upTo 1).all fun i => existsElem .kpMgmtCfg (0 + i)) = true ∧
    regReach up (.reg .kpMgmtCfg 0) 0 = true ∧
    Runs up (.regRead own (.cnt .cFlittx 0) 0x02 63 1 false) own (rd 0x02) = true ∧
    lookName 0x02 (.cnt .cFlittx 0) = some (.cnt .cFlittx 0) ∧ 63 < cntElems .cFlittx ∧ dieReach up 0 = true ∧ (up.rolesOf own).owner = true ∧
    Runs up (.telemRead own 23 5 0 true) own { opc := 0x0D03, who := .a, i3c := true } = true ∧ telemKeys 23 6 0 ≠ [] := by
  refine ⟨?_, ?_, ?_, ?_, ?_, ?_, ?_, ?_, ?_, ?_, ?_, ?_, ?_⟩ <;> decide

theorem witness_RegistersByName_writes :
    (∃ e, Runs up (.regWrite own 0x0A [devEnt .kpMgmtCfg 0 0xE0800001]) own (writeCmd up 0x0A [devEnt .kpMgmtCfg 0 0xE0800001]) = true ∧
      batchVerdict 0x0A (up.rolesOf own) [devEnt .kpMgmtCfg 0 0xE0800001] 0 up = none ∧
      smallerCache up [devEnt .kpMgmtCfg 0 0xE0800001] = none ∧ applyBatch 0x0A [devEnt .kpMgmtCfg 0 0xE0800001] 0 up none = (e, none)) ∧
    batchVerdict 0x0A (up.rolesOf own) [devEnt .kpMgmtCfg 0 0] 0 up = some (0, .unsupported, 0, 0) ∧
    Runs up (.kpPaceTgtWrite own 1 0x05AAAF4B) own (writeCmd up 0x0A [devEnt .kpPaceTgt 1 0x05AAAF4B]) = true ∧
    entVerdict up 0x0A (devEnt .kpPaceTgt 1 0x05AAAF4B) (up.rolesOf own) = none ∧
    Runs up (.portEnable own 8 0x80FFFF10) own (writeCmd up 0x02 [portEnt 8 0x80FFFF10]) = true ∧
    entVerdict up 0x02 (portEnt 8 0x80FFFF10) (up.rolesOf own) = none ∧ up.enabled 8 = false ∧ up.domOn 1 = true ∧
    (up.setReg .ptPortCfg 8 (mergeWord up .ptPortCfg 8 0x80FFFF10)).enabled 8 = true ∧
    entVerdict oldGates 0x02 (portEnt 8 0x00FFFF10) (oldGates.rolesOf own) = none ∧ oldGates.enabled 8 = true ∧
    (oldGates.setReg .ptPortCfg 8 (mergeWord oldGates .ptPortCfg 8 0x00FFFF10)).enabled 8 = false ∧
    entVerdict gateable 0x08 (devEnt .schGateStart 9 2000000) (gateable.rolesOf own) = none ∧
    entVerdict oldGates 0x08 (devEnt .schGateCtl 9 0x40000000) (oldGates.rolesOf own) = none ∧
    entVerdict up 0x09 (devEnt .fltFabpol 0 0x08000000) (up.rolesOf own) = none ∧
    Runs up (.fltFabpolWrite own 0x08000000) own (writeCmd up 0x09 [devEnt .fltFabpol 0 0x08000000]) = true ∧
    entVerdict up 0x03 (devEnt .impGalleyCfg 0 0xF8010000) (up.rolesOf own) = none ∧ up.fld .impGalleyCfg 0 31 26 ≤ bits 0xF8010000 31 26 := by
  refine ⟨⟨_, ?_, ?_, ?_, rfl⟩, ?_, ?_, ?_, ?_, ?_, ?_, ?_, ?_, ?_, ?_, ?_, ?_, ?_, ?_, ?_, ?_⟩ <;> decide

def grpWord : Nat := 2 ^ 63 + 1 <<< 51 + 1 <<< 35 + 1 <<< 19

theorem witness_RoutesGroupsAndTime :
    Runs up (.routeWrite own 0 5 [(0, 6)]) own (devCmd 0x0205) = true ∧ Runs up (.routeWrite own 1 5 [(9, 6)]) own (devCmd 0x0205) = true ∧
    doubled (putExact up.core.routeX 5 [(9, 6)]) 5 [(9, 6)] = none ∧ Runs up (.nhsetWrite own 6 [0, 8] 7) own (devCmd 0x0206) = true ∧
    Runs up (.mcgrpWrite own 0 grpWord [(0, 9)]) own (devCmd 0x0207) = true ∧ grpWord < 2 ^ 64 ∧ grpWord % 2 ^ 19 = 0 ∧
    bits grpWord 50 35 = 1 ∧ bit grpWord 63 = true ∧ (up.comp (bits grpWord 62 51)).bound = true ∧
    bits grpWord 34 19 = (upTo 16).foldl (fun m i => m + if ([(0, 9)] : List (Nat × Nat)).any fun x => portDie x.1 == i then 2 ^ i else 0) 0 ∧
    groupShort up 0 [(0, 9)] = 0 ∧ Runs up (.timeStep own) own (devCmd 0x0801) = true ∧ Runs up (.timeSet own 9) own (devCmd 0x0802) = true := by
  refine ⟨?_, ?_, ?_, ?_, ?_, ?_, ?_, ?_, ?_, ?_, ?_, ?_, ?_, ?_⟩ <;> decide

/-- The device with a bundle of 2,048 bytes written, or verified, or being activated. -/
def dFw (v : Bool) : Dev :=
  { up with mgmt := { up.mgmt with kp0 := { booted := true, xfer := 2048 }, xferEnd := true, verified := v, fuseSvn := 1 } }
def dAct (h : Bool) : Dev :=
  { up with mgmt := { up.mgmt with kp1 := { restarting := true }, activating := true, actSlot := some true, handover := h } }

theorem witness_FirmwareUpdate :
    (∃ l : List Byte, l.length = 2048 ∧ ∀ last, Runs up (.fwWrite own 0 0 last l) own (fwCmd 0x0C01) = true) ∧ fwDiffer up = false ∧
    Runs (dFw false) (.fwVerify own 0 2048 true 1 1) own (fwCmd 0x0C02) = true ∧
    2048 = ((dFw false).mgmt.keeper (dFw false).mgmt.lastActive).xfer ∧ (dFw false).mgmt.xferEnd = true ∧ (dFw false).mgmt.fuseSvn ≤ 1 ∧
    Runs (dFw false) (.fwVerify own 0 2048 true 1 0) own (fwCmd 0x0C02) = true ∧ 0 < (dFw false).mgmt.fuseSvn ∧
    Runs (dFw true) (.fwActivate own 0 0) own (fwCmd 0x0C03) = true ∧ (dFw true).mgmt.verified = true ∧
    Runs (dFw true) (.fwActivate own 0 1) own (fwCmd 0x0C03) = true ∧ keeperReady (dFw true) (1 - (dFw true).mgmt.lastActive) = true ∧
    ((dAct false).mgmt.keeper (1 - 0)).restarting = true ∧ (dAct true).mgmt.active = some 0 ∧ (dAct true).mgmt.actSlot = some true ∧
    Runs up (.fwSvnRaise own) own (fwCmd 0x0C04) = true ∧ Runs up (.fwStatus own) own (readCmd 0x0C05 .a false) = true := by
  refine ⟨⟨List.replicate 2048 0, List.length_replicate, fun last => rfl⟩, ?_, ?_, ?_, ?_, ?_, ?_, ?_, ?_, ?_, ?_, ?_, ?_, ?_, ?_, ?_, ?_⟩ <;> decide

/-! ### Power -/

def noKeeper : Dev := { up with mgmt := { up.mgmt with active := none } }
def pendTgt : Dev := { noKeeper with pwr := { noKeeper.pwr with pace := [(1, { tgtPend := some 0x85AAAF4B })] } }

theorem witness_PaceHeatAndShutdown :
    domainReports 1 = true ∧ noKeeper.domOn 1 = true ∧ noKeeper.mgmt.active = none ∧ (noKeeper.pace 1).tgtPend = none ∧
    pendTgt.domOn 1 = true ∧ (pendTgt.pace 1).tgtPend = some 0x85AAAF4B ∧
    bits 0x85AAAF4B 7 0 ≤ ({ supply := 0x80 } : Pace).supply ∧ ({ supply := 0x80 } : Pace).supply ≤ bits 0x85AAAF4B 15 8 ∧
    up.domOn 1 = true ∧ up.pwr.lastTrip = none ∧ up.pwr.porst = false ∧ up.mgmt.active ≠ none ∧
    Runs up (.shutdown own) own (pwrCmd 0x0A0A) = true := by
  refine ⟨?_, ?_, ?_, ?_, ?_, ?_, ?_, ?_, ?_, ?_, ?_, ?_, ?_⟩ <;> decide

/-- Domain 2 off; domain 2 awaits PG; the self-test of press die 17 running. -/
def off2 : Dev := { unbound with pwr := { unbound.pwr with on := setBits unbound.pwr.on 2 2 0 } }
def pg2 : Dev := { off2 with pwr := { off2.pwr with waitPg := [2] } }
def testing : Dev := { unbound with pwr := { unbound.pwr with stest := [17] } }

theorem witness_DomainsAndSelfTests :
    Runs unbound (.pwrOff own 4) own (pwrCmd 0x0A01) = true ∧ maskOk (without unbound.pwr.on 4) = true ∧ unbound.pwr.level = 0 ∧
    ((maskDoms (4 &&& unbound.pwr.on)).all fun p => offOk unbound (without unbound.pwr.on 4) p) = true ∧ stacksInUse unbound 4 = false ∧
    maskDoms (4 &&& unbound.pwr.on) ≠ [] ∧ Runs unbound (.pwrOff own 8) own (pwrCmd 0x0A01) = true ∧
    maskOk (without unbound.pwr.on 8) = false ∧
    Runs off2 (.pwrOn own 4 []) own (pwrCmd 0x0A02) = true ∧ maskOk (4 ||| off2.pwr.on) = true ∧ off2.pwr.level = 0 ∧
    maskDoms (without 4 off2.pwr.on) ≠ [] ∧ unbound.mgmt.active = some 0 ∧ pg2.pwr.waitPg.contains 2 = true ∧ unbound.domOn 3 = true ∧
    Runs unbound (.selftestRun own 17) own (devCmd 0x0E12) = true ∧ testable 17 = true ∧ unbound.dieUp 17 = true ∧
    dieMayStop unbound 17 = true ∧ testing.pwr.stest.contains 17 = true ∧ testing.pwr.resetting.contains 17 = false ∧
    unbound.flt.refLost.contains 17 = false := by
  refine ⟨?_, ?_, ?_, ?_, ?_, ?_, ?_, ?_, ?_, ?_, ?_, ?_, ?_, ?_, ?_, ?_, ?_, ?_, ?_, ?_, ?_, ?_⟩ <;> decide

def sleeping (st : LinkSt) : Dev := withLink { st := st, caps := 2 }
def bare : Dev := { unbound with links := [] }
def tray0 : Dev := (bare.setReg .ptOctetCfg 96 0x80000000)

theorem witness_StandbyAndSmallResets :
    Runs (sleeping .up) (.trickle own 0) own (devCmd 0x0203) = true ∧ isPort up 0 = true ∧ ((sleeping .up).link 0).st = .up ∧
    (sleeping .up).flag .ptPortCfg 0 29 = true ∧ bit ((sleeping .up).link 0).caps 1 = true ∧ stands (sleeping .up) 0 .trickle = true ∧
    Runs (sleeping .trickle) (.wake own 0) own (devCmd 0x0204) = true ∧ ((sleeping .trickle).link 0).st = .trickle ∧
    stands (sleeping .trickle) 0 .wake = true ∧
    Runs unbound (.standbyEnter own 1 0 []) own (pwrCmd 0x0A03) = true ∧ idleComps unbound = true ∧ unbound.mgmt.running = [] ∧
    unbound.pwr.asked = [] ∧ Runs unbound (.standbyExit own) own (pwrCmd 0x0A04) = true ∧
    Runs { unbound with pwr := { unbound.pwr with level := 1 } } (.standbyExit own) own (pwrCmd 0x0A04) = true ∧
    Runs up (.resetPort own 0) own (pwrCmd 0x0A06) = true ∧ trayPort up 0 = none ∧ up.domOn (mainDomain (portDie 0)) = true ∧
    (resetLink (up.setReg .ptPortCfg 0 0xA0080410) 0).enabled 0 = true ∧ (resetLink up 0).enabled 0 = false ∧
    trayPort tray0 768 = some 0 ∧ tray0.domOn (mainDomain (portDie 768)) = true ∧
    Runs tray0 (.resetPort own 768) own (pwrCmd 0x0A06) = true := by
  refine ⟨?_, ?_, ?_, ?_, ?_, ?_, ?_, ?_, ?_, ?_, ?_, ?_, ?_, ?_, ?_, ?_, ?_, ?_, ?_, ?_, ?_, ?_, ?_⟩ <;> decide

theorem witness_StandbyAndSmallResets_dies :
    Dev.isRunning { up with mgmt := { up.mgmt with running := [{ sess := some 1, cseq := 0, dom := .device, opc := 0x0A06, key := 0 }] } } 0x0A06 0 = true ∧
    (({ up with trays := [(0, { perst := true })] } : Dev).tray 0).perst = true ∧
    Runs up (.resetChase own 1) own (pwrCmd 0x0A05) = true ∧ (up.comp 1).bound = true ∧
    Runs unbound (.resetDie own 17 false []) own (pwrCmd 0x0A07) = true ∧ unbound.lost 17 = false ∧ dieMayStop unbound 17 = true ∧
    ((dieDomains 17).any fun p => bit unbound.pwr.trip p && ([] : List Nat).contains p) = false ∧
    Runs unbound (.resetDie own 30 false []) own (pwrCmd 0x0A07) = true ∧
    ((dieDomains 30).any fun p => bit unbound.pwr.trip p && ([] : List Nat).contains p) = false ∧ unbound.mgmt.active = some (1 - 1) := by
  refine ⟨?_, ?_, ?_, ?_, ?_, ?_, ?_, ?_, ?_, ?_, ?_⟩ <;> decide

/-- A device in its boot, before any keeper runs. -/
def booting : Dev := { pwr := { toSeq := [], mode := .booting } }
def bootable : Dev := { booting with mgmt := { udsLocked := true } }
def auto : Dev := { unbound with pwr := { unbound.pwr with mode := .proof, autoDue := true, startApplied := true, autoEnd := true } }

theorem witness_PackageResetsAndBoot :
    Runs up (.resetWarm own) own (pwrCmd 0x0A08) = true ∧ up.mgmt.activating = false ∧ Runs up (.resetCold own) own (pwrCmd 0x0A09) = true ∧
    ({ rstPend := some true } : Power).rstPend = some true ∧ up.pwr.porst = false ∧ up.pwr.mode ≠ .booting ∧
    mayBoot bootable 0 = true ∧ bootable.mgmt.udsLocked = true ∧ (bootable.mgmt.keeper 0).bootTo = none ∧
    booting.mgmt.active = none ∧ booting.mgmt.takeover = none ∧ booting.mgmt.actSlot = none ∧ booting.pwr.mode = .booting ∧
    booting.meter.gens = [] ∧ booting.flt.fatal = false ∧ booting.pwr.thermShut = false ∧
    Runs up (.bootSelect own false) own (pwrCmd 0x0A0B) = true ∧ slotValid up false = true ∧ Runs up (.startSave own true) own (pwrCmd 0x0A0C) = true ∧
    Runs up (.startClear own) own (pwrCmd 0x0A0D) = true ∧ Runs up (.serviceEnter own) own (devCmd 0x0E10) = true ∧ stest up = false ∧
    up.pwr.mode ≠ .shutdown ∧ Runs up (.proofEnter own) own (devCmd 0x0E11) = true ∧
    auto.pwr.autoDue = true ∧ auto.mgmt.active ≠ none ∧ auto.pwr.mode = .proof ∧ auto.pwr.startApplied = true ∧ stest auto = false ∧
    auto.pwr.autoEnd = true := by
  refine ⟨?_, ?_, ?_, ?_, ?_, ?_, ?_, ?_, ?_, ?_, ?_, ?_, ?_, ?_, ?_, ?_, ?_, ?_, ?_, ?_, ?_, ?_, ?_, ?_, ?_, ?_, ?_, ?_, ?_, ?_⟩ <;> decide

/-! ### The block as a whole -/

theorem witness_StepRunsFront : ({ pending := [.fecLock 0, .ppsEdge] } : State).pending = .fecLock 0 :: [.ppsEdge] ∧ State.reset.pending = [] := ⟨rfl, rfl⟩

theorem witness_EveryCommandAnswers : Sent [] State.reset ∧ Sent [] ({ pending := [.fecLock 0, .ppsEdge] } : State) :=
  ⟨⟨rfl, List.prefix_rfl⟩, ⟨rfl, List.prefix_rfl⟩⟩

def rep5 : Reply := { opc := 0x0101, cseq := 5 }
def own5 : Bas := { own with cseq := 5, seq := some 9 }
def withSess (se : Session) : Dev := { up with mgmt := { up.mgmt with sessions := [(1, se)] } }

theorem witness_CommandsRunOnce :
    (Instr.shutdown own5).basod = some own5 ∧ (Instr.identGet own5).basod = some own5 ∧ (Instr.identGet {}).basod = none ∧
    State.reset.dev.mgmt.active = none ∧ up.mgmt.active.isSome = true ∧ up.mgmt.starting ≠ some (.shutdown own5) ∧
    (up.setReg .kpMgmtCfg 0 0).taken .inBand = false ∧ up.taken own5.tr = true ∧ own5.bad = false ∧
    own5.sess.bind (withSess { digest := 7, hiSeq := some 9, seen := [9] }).session = some { digest := 7, hiSeq := some 9, seen := [9] } ∧
    ({ digest := 7, hiSeq := some 9, seen := [9] } : Session).takes 9 = false ∧ ({ digest := 7, cache := [rep5] } : Session).takes 9 = true ∧
    (heard (withSess { digest := 7, cache := [rep5] }) own5).cached own5 = some rep5 ∧ (heard (withSess { digest := 7 }) own5).cached own5 = none ∧
    (heard { withSess { digest := 7 } with mgmt := { (withSess { digest := 7 }).mgmt with held := [(.device, own5, .shutdown own5)] } } own5).inProgress own5
      = true := by
  refine ⟨?_, ?_, ?_, ?_, ?_, ?_, ?_, ?_, ?_, ?_, ?_, ?_, ?_, ?_, ?_⟩ <;> decide +kernel

/-- 70 then 5: the window runs from 7 up; 5 and 6 are below it, 70 has come, 7 and 71 are new. -/
theorem witness_SequenceWindow :
    ({} : Session).hiSeq = none ∧ ({} : Session).seen = [] ∧ (([70, 5] : List Nat).foldl Session.note {}).takes 6 = false ∧
    (([70, 5] : List Nat).foldl Session.note {}).takes 70 = false ∧ (([70, 5] : List Nat).foldl Session.note {}).takes 7 = true ∧
    (([70, 5] : List Nat).foldl Session.note {}).takes 71 = true := by decide

theorem witness_SumsInAnyOrder :
    ([(.fin 1, 1), (.inf true, 1), (.nan, 2)] : List (Machine.Num × Nat)).Perm [(.nan, 2), (.fin 1, 1), (.inf true, 1)] :=
  (List.perm_append_comm (l₁ := [(Machine.Num.fin 1, 1), (.inf true, 1)]) (l₂ := [(.nan, 2)]))

def storeJob (off len : Nat) : PJob := { loc := { kind := 1 }, pva := off, len := len, op := .store, data := List.replicate len 7 }
theorem witness_GalleyMemory :
    (∃ g ∈ (storeJob 8 8).granules, readGran (up.setGbad 0 0 true) 0 (gAddr (storeJob 8 8).loc (64 * g)) false = .poisoned ∧ (storeJob 8 8).covers g = false) ∧
    (∀ g ∈ (storeJob 0 64).granules, readGran (up.setGbad 0 0 true) 0 (gAddr (storeJob 0 64).loc (64 * g)) false = .poisoned → (storeJob 0 64).covers g = true) ∧
    Memory.wf up.pool.mem = true ∧ (memGet (memWrite [] 5 [1, 0, 2]) 7 = 2) ∧ memWrite [] 5 [1, 0, 2] = [(5, 1), (7, 2)] ∧
    Memory.wf [(5, 1), (7, 2)] = true := by
  refine ⟨⟨0, ?_, ?_⟩, ?_, ?_, ?_, ?_, ?_⟩ <;> decide +kernel

def egr (hi lo : Nat) : RegEnt := devEnt .ptEgrCfg 0 (2 ^ 16 * hi + lo)
theorem witness_EgressThresholdWrites :
    writesOne up own 0x02 (egr 63 0) .ptEgrCfg = true ∧ bits (egr 63 0).value 31 16 < 64 ∧ writesOne up own 0x02 (egr 4097 0) .ptEgrCfg = true ∧
    4096 < bits (egr 4097 0).value 31 16 ∧ writesOne up own 0x02 (egr 64 64) .ptEgrCfg = true ∧
    bits (egr 64 64).value 31 16 ≤ bits (egr 64 64).value 15 0 := by
  refine ⟨?_, ?_, ?_, ?_, ?_, ?_⟩ <;> decide +kernel

def pol (cir pir cbs pbs : Nat) : RegEnt := devEnt .schPolicer 0 (cir + 2 ^ 16 * pir + 2 ^ 32 * cbs + 2 ^ 44 * pbs)
def thr (p c r : Nat) : RegEnt := devEnt .fltThr 0 (2 ^ 16 * p + 2 ^ 8 * c + r)
theorem witness_PolicerAndThresholdWrites :
    ([pol 0 1 1 1, pol 1 1 0 1, pol 0 0 1 1, pol 1 1 0 0, pol 2 1 1 1, pol 1 1 2 1].all fun e => writesOne up own 0x08 e .schPolicer) = true ∧
    ([thr 0 4 1, thr 1 3 1, thr 1 31 1, thr 1 30 0].all fun e => writesOne up own 0x09 e .fltThr) = true ∧
    bits (pol 2 1 1 1).value 31 16 < bits (pol 2 1 1 1).value 15 0 ∧ bits (pol 1 1 2 1).value 55 44 < bits (pol 1 1 2 1).value 43 32 ∧
    bits (pol 0 1 1 1).value 15 0 = 0 ∧ bits (pol 1 1 0 1).value 43 32 = 0 ∧ bits (pol 0 0 1 1).value 31 16 = 0 ∧ bits (pol 1 1 0 0).value 55 44 = 0 ∧
    bits (thr 0 4 1).value 31 16 = 0 ∧ bits (thr 1 3 1).value 15 8 < 4 ∧ 30 < bits (thr 1 31 1).value 15 8 ∧ bits (thr 1 30 0).value 7 0 = 0 := by
  refine ⟨?_, ?_, ?_, ?_, ?_, ?_, ?_, ?_, ?_, ?_, ?_, ?_⟩ <;> decide +kernel

end Sys2Proof.Tests
end

section
/-! PROOF. The scope of the model: every command is a change of the device, so it answers, keeps the queue and adds to what was sent
(EveryCommandAnswers); what the reset state holds (ResetState); identity, owner, observers, notices and logs (IdentityAndAuthorities). -/

namespace Sys2Proof
open Machine

/-! ### Every meaning is a change of the device (R3) -/

/-- One case per command: each arm of `exec` is `onDev` of a function of the device, directly or through `onPool`, `onCmd` or `onWrite`.
So every command answers the state with some device `d` put into it, whatever its effect on the device is. -/
theorem exec_eq_next_put (c : Instr) (s : State) : ∃ d, exec c s = .next (s.put d) := by
  cases c <;> exact ⟨_, rfl⟩

/-! ### What has left stays (R547, R551) -/

theorem sent_prefix_put (s : State) (d : Dev) : s.sent <+: (s.put d).sent := List.prefix_append _ _

/-- `Sent` survives every step that leaves the device in some state `d`: what it sent goes behind what had left. -/
theorem Sent.put {e : List Emit} {s : State} (h : Sent e s) (d : Dev) : Sent e (s.put d) :=
  ⟨rfl, h.2.trans (sent_prefix_put s d)⟩

/-! ### Steps and runs -/

/-- The step with a command at the front keeps `Sent` and leaves the queue's rest. -/
theorem step_cons {e : List Emit} {s : State} {c : Instr} {rest : List Instr} (hs : Sent e s) (hp : s.pending = c :: rest) :
    ∃ t, step s = .next t ∧ Sent e t ∧ t.pending = rest := by
  have hrest : Sent e { s with pending := rest } := hs
  obtain ⟨d, hd⟩ := exec_eq_next_put c { s with pending := rest }
  exact ⟨_, by simpa only [step, hp] using hd, hrest.put d, rfl⟩

theorem step_answers (s : State) : Answers s := by
  cases hp : s.pending with
  | nil => exact ⟨idle s, by simp only [step, hp]⟩
  | cons c rest =>
    obtain ⟨d, hd⟩ := exec_eq_next_put c { s with pending := rest }
    exact ⟨_, by simpa only [step, hp] using hd⟩

theorem core_run_succ {s t : State} (h : step s = .next t) (n : Nat) : core.run (n + 1) s = core.run n t := by
  have hc : core.step s = .next t := h
  simp only [Host.Core.run, hc]

/-- As many steps as commands wait serve the queue in order and leave it empty. -/
theorem run_queue (e : List Emit) (cs : List Instr) (s : State) (hs : Sent e s) (hp : s.pending = cs) :
    ∃ t, core.run cs.length s = .next t ∧ Sent e t ∧ t.pending = [] := by
  induction cs generalizing s with
  | nil => exact ⟨s, rfl, hs, hp⟩
  | cons c rest ih =>
    obtain ⟨t, ht, hst, hpt⟩ := step_cons hs hp
    obtain ⟨u, hu, hfin⟩ := ih t hst hpt
    exact ⟨u, (core_run_succ ht rest.length).trans hu, hfin⟩

theorem runsOn (n : Nat) (s : State) : RunsOn n s := by
  induction n generalizing s with
  | zero => exact ⟨s, rfl⟩
  | succ n ih =>
    obtain ⟨t, ht⟩ := step_answers s
    obtain ⟨u, hu⟩ := ih t
    exact ⟨u, (core_run_succ ht n).trans hu⟩

/-- Settles O3: a command's arm of `exec` is a change of the device, which `State.put` records behind what had been sent; the runs follow
by induction on the queue and on the number of steps. -/
theorem everyCommandAnswers : Obligations.EveryCommandAnswers := by
  refine ⟨fun c s e hs => ?_, fun cs s e => run_queue e cs s, runsOn⟩
  obtain ⟨d, hd⟩ := exec_eq_next_put c s
  exact ⟨s.put d, hd, hs.put d, rfl, sent_prefix_put s d⟩

/-! ### The reset state (R9, R93, R114, R541) -/

theorem reset_reg (r : RegName) (i : Nat) : State.reset.dev.reg r i = regReset r i := tget_nil _ _

/-- Every register but the two whose reset depends on the element holds its reset column. -/
theorem regReset_eq_desc (r : RegName) (i : Nat) (hc : r ≠ .ptClassCfg) (hm : r ≠ .impColmask) : regReset r i = (regDesc r).reset := by
  unfold regReset
  split
  · exact absurd rfl hc
  · exact absurd rfl hm
  · rfl

/-- The classes that start lossless: TC0 to TC5. -/
theorem regReset_lossless (i : Nat) : bit (regReset .ptClassCfg i) 31 = decide (i < 6) := by
  unfold regReset
  by_cases h : i < 6
  · simp only [h, if_true]; decide
  · simp only [h, if_false]; decide

theorem reset_taken (t : Transport) : State.reset.dev.taken t = true := by
  cases t <;> decide

/-- Settles O2: the registers by their reset column, every table by its being empty. -/
theorem resetState : Obligations.ResetState :=
  ⟨rfl, rfl, ⟨rfl, List.prefix_rfl⟩, reset_memory_wf, reset_reg, regReset_eq_desc, regReset_lossless, reset_taken, by decide, by decide,
    fun _ _ => rfl, fun _ => LinkSt.noConfusion, fun _ => rfl, fun _ => rfl, fun _ => rfl, rfl, rfl, rfl, fun _ => rfl⟩

/-! ### Identity and owner (R119, R543–R546) -/

/-- IDENT_GET takes the order of execution in a session, and outside one only the checks of the packet. -/
theorem leads_identGet (b : Bas) (s : State) :
    Leads (.identGet b) s (if b.sess.isNone then identAlone b s.dev
      else s.dev.command (.identGet b) b (readCmd 0x0101 .info true) (identFx b)) := rfl

section Effects

variable {b : Bas} {d : Dev} {n x : Nat}

/-- Outside a session an active keeper answers whoever asks in a well-formed packet (R543). -/
theorem identAlone_eq_identFx (hs : b.sess = none) (ha : d.mgmt.active = some n) (ht : d.taken b.tr = true) (hb : b.bad = false)
    (hf : b.fault = false) : identAlone b d = identFx b d := by
  cases hq : b.seq <;> simp [identAlone, Dev.received, hs, ha, ht, hb, hf, hq]

theorem eidSetFx_valid (hx : x < 2 ^ 20) (hf : x ≠ eidFABRIC) (hr : eidReserved x = false) :
    eidSetFx b x d = if anyBound d then d.reply b 0x0102 .busy else { d with tfp := { d.tfp with eid := x } }.reply b 0x0102 .ok := by
  have hv : ¬ (2 ^ 20 ≤ x ∨ x = eidFABRIC ∨ eidReserved x = true) := by
    rintro (h | h | h)
    · omega
    · exact hf h
    · simp [hr] at h
  exact if_neg hv

theorem ownerSetFx_ownerless {se : Session} (ho : d.mgmt.owner = none) (ht : b.tr ≠ .inBand) (hs : b.sess.bind d.session = some se) :
    ownerSetFx b true d = { d with mgmt := { d.mgmt with owner := some se.digest } }.reply b 0x0103 .ok := by
  simp [ownerSetFx, ho, ht, hs]

theorem ownerClearFx_unbound (h : anyBound d = false) :
    ownerClearFx b true d = { d with mgmt := { d.mgmt with owner := none, observers := [] } }.reply b 0x0105 .ok := by
  simp [ownerClearFx, h]

theorem observerSetFx_fits {l : List Nat} (h : l.length ≤ 16) :
    observerSetFx b l d = { d with mgmt := { d.mgmt with observers := l } }.reply b 0x0106 .ok :=
  if_neg (Nat.not_lt.2 h)

/-! ### Logs, policy, debug reads, the hellbox (R177, R444, R454, R504) -/

theorem errlogFx_inRange (h1 : 1 ≤ x) (h2 : x ≤ 170) (h3 : n + x ≤ 4096) :
    errlogFx b n x d = d.reply b 0x0903 .ok 0 0 ((upTo x).map fun i => ((tfind d.flt.ring (n + i)).map ErrRec.word).getD 0) :=
  if_neg (by omega)

theorem attestFx_fits {l : List Nat} (h1 : l ≠ []) (h2 : l.length ≤ 64) :
    attestFx b l d = { d with mgmt := { d.mgmt with policy := l } }.reply b 0x0902 .ok := by
  simp [attestFx, h1, Nat.not_lt.2 h2]

theorem dbgReadFx_proof (hm : d.pwr.mode = .proof) (hb : anyBound d = false) (hx : x ≤ 4080) :
    dbgReadFx b x d =
      { d with free := d.free + x }.reply b 0x0E01 .ok 0 0 ((upTo x).map fun i => Config.freeNat (d.free + i) % 256) := by
  simp [dbgReadFx, hm, hb, Nat.not_lt.2 hx]

theorem hellReclaimFx_reachable {l : List Nat} (hn : n < 16) (hr : dieReach d (dPT n) = true) :
    hellReclaimFx b n l d = (reclaim d n (((d.core.hell.filter fun e => e.1 / 98304 == n).map fun e => e.1 % 98304).filter fun i =>
      !l.contains i)).reply b 0x0901 .ok := by
  simp [hellReclaimFx, Nat.not_le.2 hn, hr]

/-! ### The standby, sensors (R540, R562) -/

theorem atStandbyFx_standby (hs : standby d = some n) (ht : d.taken b.tr = true) (hb : b.bad = false) :
    atStandbyFx b d = (d.count .cCmdrefuse (dKP n)).emit
      (.reply none b.tr { cseq := b.cseq, status := .busy, dcode := 0x06, data := [d.reg .kpMgmtAddr 0] }) := by
  simp [atStandbyFx, hs, ht, hb]

theorem pldmFx_sensor (hn : n < 2) (hr : n ∉ d.mgmt.romOnly) (hb : (d.mgmt.keeper n).booted = true) (hx : x < 108) :
    pldmFx n x d = d.emit (.pldm [n, 0, x, sensorValue d n x]) := by
  simp [pldmFx, Nat.not_le.2 hn, hr, hb, Nat.not_le.2 hx]

/-- A key that no write of a batch names reads as before the batch. -/
theorem tget_foldl_tput_other {α : Type} (z : α) (base k : Nat) (l : List (Nat × α)) (t : Tbl α) (h : ∀ e ∈ l, base + e.1 ≠ k) :
    tget z (l.foldl (fun t e => tput t (base + e.1) e.2) t) k = tget z t k := by
  induction l generalizing t with
  | nil => rfl
  | cons e r ih =>
    rw [List.foldl_cons, ih _ fun e' he' => h e' (List.mem_cons_of_mem e he')]
    exact tget_tput_other _ _ _ _ _ (h e List.mem_cons_self).symm

/-- A value written in a batch of writes to distinct keys is the one read back. -/
theorem tget_foldl_tput_mem {α : Type} (z : α) (base i : Nat) (v : α) (l : List (Nat × α)) (t : Tbl α) (hd : (l.map Prod.fst).Nodup)
    (h : (i, v) ∈ l) : tget z (l.foldl (fun t e => tput t (base + e.1) e.2) t) (base + i) = v := by
  induction l generalizing t with
  | nil => cases h
  | cons e r ih =>
    rw [List.map_cons, List.nodup_cons] at hd
    rw [List.foldl_cons]
    rcases List.mem_cons.1 h with rfl | hr
    · rw [tget_foldl_tput_other, tget_tput_same]
      intro e' he' hk
      have hi : e'.1 = i := Nat.add_left_cancel hk
      have hmem : e'.1 ∈ r.map Prod.fst := List.mem_map_of_mem he'
      exact hd.1 (hi ▸ hmem)
    · exact ih _ hd.2 hr

/-- What an update gives for a sensor number: 40 temperatures, 64 powers, the package's power (R562). -/
def sensorVals (temps powers : List Nat) (pkg : Nat) : List Nat :=
  (upTo 40).map (fun i => temps.getD i 0) ++ (upTo 64).map (fun i => powers.getD i 0) ++ [pkg]

theorem sensorVals_length (temps powers : List Nat) (pkg : Nat) : (sensorVals temps powers pkg).length = 105 := by
  simp [sensorVals, upTo]

theorem sensorVals_temp {i : Nat} (temps powers : List Nat) (pkg : Nat) (h : i < 40) :
    (sensorVals temps powers pkg)[i]? = some (temps.getD i 0) := by
  simp [sensorVals, upTo, List.getElem?_append, h]

theorem sensorVals_package (temps powers : List Nat) (pkg : Nat) : (sensorVals temps powers pkg)[104]? = some pkg := by
  simp [sensorVals, upTo]

/-- After an update a keeper's sensor reads the value the update gives for its number. -/
theorem sensorValue_sensorsFx {i v : Nat} {temps powers : List Nat} {pkg : Nat} (hn : n < 2) (hi : i < 105)
    (hv : (sensorVals temps powers pkg)[i]? = some v) : sensorValue (sensorsFx n temps powers pkg d) n i = v := by
  have hlen := sensorVals_length temps powers pkg
  have hkeys : (((upTo 105).zip (sensorVals temps powers pkg)).map Prod.fst).Nodup := by
    rw [List.map_fst_zip (by simp [upTo, hlen])]
    exact List.nodup_range
  have hmem : (i, v) ∈ (upTo 105).zip (sensorVals temps powers pkg) :=
    List.mem_of_getElem? (i := i) (by simp [List.getElem?_zip_eq_some, upTo, hi, hv])
  simp only [sensorValue, hi, if_true, sensorsFx, Nat.not_le.2 hn, if_false]
  exact tget_foldl_tput_mem 0 (128 * n) i v _ _ hkeys hmem

end Effects

/-- Settles O54: every command of the group runs as `onCmd`, `onPool` or `onDev` of its effect; what the effect is in each case
is a lemma above. -/
theorem identityAndAuthorities : Obligations.IdentityAndAuthorities := by
  rintro s b d n x se se' l bytes rfl
  refine ⟨fun h hs => ?identSession, fun hs ha ht hb hf => ?identAlone, fun h hx hf hr hc => ?eidSet, fun h hx hf hr hc => ?eidBusy,
    fun h ho ht hs => ?ownerSet, fun h => ?ownerChange, fun h hc => ?ownerClear, fun h hl => ?observerSet, fun h => ?sessionInfo,
    fun h => ?noticeSub, fun h => ?noticeRead, fun h h1 h2 h3 => ?errlogRead, fun h h1 h2 => ?attestPolicy, fun h hm hc hx => ?dbgRead,
    fun h hn hr => ?hellReclaim, fun hs ht hb => ?standby, fun ho => ⟨?neighbour, ?echo⟩, fun hn hr hb hx => ?pldm, fun hn => ?sensors⟩
  case identSession =>
    have hsome : b.sess.isNone = false := Option.isNone_eq_false_iff.2 (Option.isSome_iff_ne_none.2 hs)
    refine (leads_identGet b s).of_eq ?_
    rw [hsome, Dev.command_runs _ _ _ _ _ h]
    rfl
  case identAlone =>
    refine (leads_identGet b s).of_eq ?_
    rw [hs]
    exact identAlone_eq_identFx hs ha ht hb hf
  case eidSet => exact Leads.of_eq (leads_onCmd rfl h) ((eidSetFx_valid hx hf hr).trans (by simp [hc]))
  case eidBusy => exact Leads.of_eq (leads_onCmd rfl h) ((eidSetFx_valid hx hf hr).trans (by simp [hc]))
  case ownerSet => exact Leads.of_eq (leads_onCmd rfl h) (ownerSetFx_ownerless ho ht hs)
  case ownerChange => exact Leads.of_eq (leads_onCmd rfl h) rfl
  case ownerClear => exact Leads.of_eq (leads_onCmd rfl h) (ownerClearFx_unbound hc)
  case observerSet => exact Leads.of_eq (leads_onCmd rfl h) (observerSetFx_fits hl)
  case sessionInfo => exact Leads.of_eq (leads_onCmd rfl h) rfl
  case noticeSub => exact Leads.of_eq (leads_onCmd rfl h) rfl
  case noticeRead => exact Leads.of_eq (leads_onCmd rfl h) rfl
  case errlogRead => exact Leads.of_eq (leads_onCmd rfl h) (errlogFx_inRange h1 h2 h3)
  case attestPolicy => exact Leads.of_eq (leads_onCmd rfl h) (attestFx_fits h1 h2)
  case dbgRead => exact Leads.of_eq (leads_onCmd rfl h) (dbgReadFx_proof hm hc hx)
  case hellReclaim => exact Leads.of_eq (leads_onCmd rfl h) (hellReclaimFx_reachable hn hr)
  case standby => exact Does.of_eq (does_onDev rfl) (atStandbyFx_standby hs ht hb)
  case neighbour => exact Does.of_eq (does_onDev rfl) (by simp [ho])
  case echo => exact Does.of_eq (does_onDev rfl) (by simp [ho])
  case pldm => exact Does.of_eq (does_onDev rfl) (pldmFx_sensor hn hr hb hx)
  case sensors =>
    exact ⟨_, rfl, sensorValue_sensorsFx hn (by omega) (sensorVals_package l l x),
      fun i hi => sensorValue_sensorsFx hn (by omega) (sensorVals_temp l l x hi)⟩

end Sys2Proof
end

section
/-! PROOF. Registers by name: what REG_READ and TELEM_READ answer, what a REG_WRITE does when every entry passes and when one fails, and the
writes that change the device beyond the register's word (RegistersByName). -/

namespace Sys2Proof
open Machine

section Registers

variable {b : Bas} {d d1 : Dev} {ro : Roles} {ent : RegEnt} {ents : List RegEnt} {r : RegName} {cn : CntName} {st : Status}
variable {g die ix n v p k : Nat}

/-! ### Names (R554) -/

/-- A register that exists once in the device is found under its group. -/
theorem lookName_device (hg : regGroup r = g) (hu : (regDesc r).units = .dev) : lookName g (.reg r none) = some (.reg r 0) := by
  simp [lookName, hg, hu]

/-- A port's PT_PORT_CFG is found at the die that holds the port. -/
theorem lookName_portCfg (hp : p < 1024) : lookName 0x02 (portEnt p v).name = some (.reg .ptPortCfg (p / 64)) :=
  if_pos (by omega : p / 64 < 16)

/-- Outside the meter and the shard loads a register can be reached where the die that holds it, if one does, can. -/
theorem regReach_eq_all (hs : r ≠ .pxShardload) (hm : regGroup r ≠ 0x0B) :
    regReach d (.reg r die) ix = (regDie r ix).all (dieReach d) := by
  cases hx : regDie r ix <;> simp [regReach, hm, hx]

/-! ### REG_READ and TELEM_READ (R555, R561) -/

theorem foldOver_clearElem_reg (l : List Nat) : foldOver l d (fun i d => clearElem d (.reg r die) i) = d := by
  induction l with
  | nil => rfl
  | cons i l ih => exact ih

/-- A read of a register answers its words and changes nothing of it, whoever reads and with or without PEEK. -/
theorem regReadFx_reg {name : RegRef} {peek : Bool} (hn : lookName g name = some (.reg r die)) (h1 : 1 ≤ n) (h2 : n ≤ 256)
    (hi : ix + n ≤ elems d r die) (hl : 8 + n * (cdiv (regDesc r).width 64 * 8) ≤ 4080)
    (he : ((upTo n).all fun i => existsElem r (ix + i)) = true) (hr : regReach d (.reg r die) ((regDesc r).perUnit * die + ix) = true) :
    regReadFx b name g ix n peek d =
      d.reply b (g * 256 + 0xF0) .ok 0 0 ((regDesc r).width :: (upTo n).map fun i => readElem d (.reg r die) (ix + i)) := by
  have hthere : (((upTo n).map (ix + ·)).all fun i => existsElem r i) = true := by rwa [List.all_map]
  have hfits : ¬ (n = 0 ∨ 256 < n ∨ elems d r die < ix + n ∨ 4080 < 8 + n * (cdiv (regDesc r).width 64 * 8)) := by omega
  simp only [not_or] at hfits
  simp [regReadFx, hn, hthere, hfits, hr, Named.count, Named.width, foldOver_clearElem_reg, Function.comp_def]

/-- The owner's read of a counter without PEEK answers its value and leaves it at zero. -/
theorem regReadFx_cnt_owner (hn : lookName g (.cnt cn die) = some (.cnt cn die)) (hi : ix < cntElems cn) (hr : dieReach d die = true)
    (ho : (d.rolesOf b).owner = true) :
    regReadFx b (.cnt cn die) g ix 1 false d =
      { d with cnt := tput d.cnt (cntKey cn (cntUnit cn die ix)) 0 }.reply b (g * 256 + 0xF0) .ok 0 0 [64, cntRead d cn (cntUnit cn die ix)] := by
  have hfits : ¬ cntElems cn < ix + 1 := by omega
  simp [regReadFx, hn, hfits, hr, ho, ownerReads, upTo, foldOver, clearElem, readElem, regReach, Named.count, Named.width, cdiv]

theorem telemFx_peek (hd : die < 24) (hk : telemKeys die g k ≠ []) (hr : dieReach d die = true) :
    telemFx b die g k true d = d.reply b 0x0D03 .ok 0 0 (((telemKeys die g k).take 510).map fun x => cntRead d x.1 x.2) := by
  simp [telemFx, hk, hd, hr]

/-! ### REG_WRITE (R556) -/

theorem regWriteFx_applies (h0 : ents ≠ []) (hl : ents.length ≤ 32) (hv : batchVerdict g (d.rolesOf b) ents 0 d = none)
    (hc : smallerCache d ents = none) (ha : applyBatch g ents 0 d none = (d1, none)) :
    regWriteFx b g ents d = d1.reply b (g * 256 + 0xF1) .ok := by
  simp [regWriteFx, h0, Nat.not_lt.2 hl, hv, hc, ha]

/-- A batch with an entry that fails is answered with that entry's place and leaves every register. -/
theorem regWriteFx_refuses (h0 : ents ≠ []) (hl : ents.length ≤ 32) (hst : st ≠ .noFit)
    (hv : batchVerdict g (d.rolesOf b) ents 0 d = some (k, st, 0, 0)) : regWriteFx b g ents d = d.reply b (g * 256 + 0xF1) st 0x03 k := by
  cases st
  case noFit => exact absurd rfl hst
  all_goals simp [regWriteFx, h0, Nat.not_lt.2 hl, hv]

/-! ### A write of one entry -/

theorem batchVerdict_one (hv : entVerdict d g ent ro = none) : batchVerdict g ro [ent] 0 d = none := by
  simp [batchVerdict, hv]

theorem applyBatch_one (hn : lookName g ent.name = some (.reg r die))
    (hr : regReach d (.reg r die) ((regDesc r).perUnit * die + ent.index) = true) :
    applyBatch g [ent] 0 d none = (regApply d r ((regDesc r).perUnit * die + ent.index) ent.value, none) := by
  simp [applyBatch, applyEnt, hn, hr]

theorem smallerCache_other (h : ent.name ≠ .reg .impGalleyCfg none) : smallerCache d [ent] = none := by
  simp [smallerCache, h]

theorem smallerCache_devEnt_other (h : r ≠ .impGalleyCfg) : smallerCache d [devEnt r ix v] = none :=
  smallerCache_other (by simpa [devEnt] using h)

/-- A CACHE that is not lowered waits for no eviction (R253). -/
theorem smallerCache_notLowered (h : d.fld .impGalleyCfg 0 31 26 ≤ bits v 31 26) : smallerCache d [devEnt .impGalleyCfg 0 v] = none := by
  simp [smallerCache, devEnt, Nat.not_lt.2 h]

theorem regWriteFx_one (hn : lookName g ent.name = some (.reg r die))
    (hr : regReach d (.reg r die) ((regDesc r).perUnit * die + ent.index) = true) (hv : entVerdict d g ent (d.rolesOf b) = none)
    (hc : smallerCache d [ent] = none) :
    regWriteFx b g [ent] d = (regApply d r ((regDesc r).perUnit * die + ent.index) ent.value).reply b (g * 256 + 0xF1) .ok :=
  regWriteFx_applies (List.cons_ne_nil _ _) (Nat.succ_le_succ (Nat.zero_le 31)) (batchVerdict_one hv) hc (applyBatch_one hn hr)

/-- A write of one element of a register of the device. -/
theorem regWriteFx_devEnt (hg : regGroup r = g) (hu : (regDesc r).units = .dev) (hs : r ≠ .pxShardload) (hm : regGroup r ≠ 0x0B)
    (hr : (regDie r ix).all (dieReach d) = true) (hv : entVerdict d g (devEnt r ix v) (d.rolesOf b) = none)
    (hc : smallerCache d [devEnt r ix v] = none) (ha : regApply d r ix v = d1) :
    regWriteFx b g [devEnt r ix v] d = d1.reply b (g * 256 + 0xF1) .ok := by
  have hix : (regDesc r).perUnit * 0 + (devEnt r ix v).index = ix := Nat.zero_add ix
  have hreach : regReach d (.reg r 0) ((regDesc r).perUnit * 0 + (devEnt r ix v).index) = true := by rwa [hix, regReach_eq_all hs hm]
  rw [regWriteFx_one (lookName_device hg hu) hreach hv hc, hix, ← ha]
  rfl

/-- A write of a port's PT_PORT_CFG. -/
theorem regWriteFx_portEnt (hp : p < 1024) (hv : entVerdict d 0x02 (portEnt p v) (d.rolesOf b) = none) (hr : dieReach d (p / 64) = true)
    (ha : regApply d .ptPortCfg p v = d1) : regWriteFx b 0x02 [portEnt p v] d = d1.reply b 0x02F1 .ok := by
  have hix : 64 * (p / 64) + p % 64 = p := Nat.div_add_mod p 64
  have hreach : regReach d (.reg .ptPortCfg (p / 64)) (64 * (p / 64) + p % 64) = true := by rw [hix]; exact hr
  have h := regWriteFx_one (lookName_portCfg hp) hreach hv (smallerCache_other (by simp [portEnt]))
  rwa [show (regDesc .ptPortCfg).perUnit * (p / 64) + (portEnt p v).index = p from hix, show (portEnt p v).value = v from rfl, ha] at h

/-! ### What a write does to the device (R31, R93, R94, R193, R253, R495) -/

/-- A pace target of a domain that is on waits for the end of its window. -/
theorem regApply_kpPaceTgt_on (h : d.domOn p = true) :
    regApply d .kpPaceTgt p v = d.modPace p fun x => { x with tgtPend := some (mergeWord d .kpPaceTgt p v) } := if_pos h

/-- A write that sets ENABLE brings the port up. -/
theorem regApply_ptPortCfg_enable (h1 : d1 = d.setReg .ptPortCfg p (mergeWord d .ptPortCfg p v)) (ht : trayPort d1 p = none)
    (hw : d.enabled p = false) (hn : d1.enabled p = true) : regApply d .ptPortCfg p v = linkEnable d1 p := by
  subst h1
  simp [regApply, enableChange, ht, hw, hn]

/-- A write that clears ENABLE brings the port down. -/
theorem regApply_ptPortCfg_disable (h1 : d1 = d.setReg .ptPortCfg p (mergeWord d .ptPortCfg p v)) (ht : trayPort d1 p = none)
    (hw : d.enabled p = true) (hn : d1.enabled p = false) : regApply d .ptPortCfg p v = linkDisable d1 p := by
  subst h1
  simp [regApply, enableChange, ht, hw, hn]

/-- A start time makes the admin list the pending list. -/
theorem regApply_schGateStart {gl : GateList}
    (he : gl.ents = (upTo (d.fld .schGateCtl p 22 16)).map fun i => (d.fld .schGateEnt (64 * p + i) 31 24, d.fld .schGateEnt (64 * p + i) 23 0))
    (hs : gl.start = v) : regApply d .schGateStart p v = { d with sched := { d.sched with pend := tput d.sched.pend p gl } } := by
  obtain ⟨ents, start⟩ := gl
  subst he hs
  rfl

/-- CANCEL drops the pending list. -/
theorem regApply_schGateCtl_cancel (h1 : d1 = d.setReg .schGateCtl p (mergeWord d .schGateCtl p v)) (hc : bit v 30 = true) :
    regApply d .schGateCtl p v = { d1 with sched := { d1.sched with pend := tdel d1.sched.pend p } } := by
  subst h1
  exact if_pos hc

end Registers

/-- Settles O53: every read and write of a register runs as `onCmd` of its effect; a write with a row of its own is a batch of one entry, whose
effect is that of its register. -/
theorem registersByName : Obligations.RegistersByName := by
  rintro s b d e name r cn die g ix n v p k peek ents st gl rfl
  refine ⟨fun h hn h1 h2 hi hl he hr => ?regRead, fun h hn hi hr ho => ?counter, fun h h0 hl hv hc ha => ?applies,
    fun h h0 hl hst hv => ?refuses, fun h hv hon => ?paceTgt, fun h hp hv hr he ht hw hnow => ?enable,
    fun h hp hv hr he ht hw hnow => ?disable, fun h hv hr hents hstart => ?gateStart, fun h hv hr hc he => ?gateCancel, fun h hv => ?arming,
    fun h hv hc => ?cache, fun h hd hk hr => ?telem⟩
  case regRead => exact Leads.of_eq (leads_onCmd rfl h) (regReadFx_reg hn h1 h2 hi hl he hr)
  case counter => exact Leads.of_eq (leads_onCmd rfl h) (regReadFx_cnt_owner hn hi hr ho)
  case applies => exact Leads.of_eq (leads_onCmd rfl h) (regWriteFx_applies h0 hl hv hc ha)
  case refuses => exact Leads.of_eq (leads_onCmd rfl h) (regWriteFx_refuses h0 hl hst hv)
  case paceTgt =>
    exact Leads.of_eq (leads_onCmd rfl h)
      (regWriteFx_devEnt rfl rfl (by decide) (by decide) rfl hv (smallerCache_devEnt_other (by decide)) (regApply_kpPaceTgt_on hon))
  case enable => exact Leads.of_eq (leads_onCmd rfl h) (regWriteFx_portEnt hp hv hr (regApply_ptPortCfg_enable he ht hw hnow))
  case disable => exact Leads.of_eq (leads_onCmd rfl h) (regWriteFx_portEnt hp hv hr (regApply_ptPortCfg_disable he ht hw hnow))
  case gateStart =>
    exact Leads.of_eq (leads_onCmd rfl h)
      (regWriteFx_devEnt rfl rfl (by decide) (by decide) hr hv (smallerCache_devEnt_other (by decide)) (regApply_schGateStart hents hstart))
  case gateCancel =>
    exact Leads.of_eq (leads_onCmd rfl h)
      (regWriteFx_devEnt rfl rfl (by decide) (by decide) hr hv (smallerCache_devEnt_other (by decide)) (regApply_schGateCtl_cancel he hc))
  case arming =>
    exact Leads.of_eq (leads_onCmd rfl h)
      (regWriteFx_devEnt rfl rfl (by decide) (by decide) rfl hv (smallerCache_devEnt_other (by decide)) rfl)
  case cache =>
    exact Leads.of_eq (leads_onCmd rfl h) (regWriteFx_devEnt rfl rfl (by decide) (by decide) rfl hv (smallerCache_notLowered hc) rfl)
  case telem => exact Leads.of_eq (leads_onCmd rfl h) (telemFx_peek hd hk hr)

end Sys2Proof
end

section
/-! PROOF. Pace, supply and heat: what the end of a window writes, how far one step moves the supply, trips and shutdowns
(PaceHeatAndShutdown). -/

namespace Sys2Proof
open Machine

/-! ### One step of the supply (R30, R574) -/

/-- One step moves the supply by at most one code, 2 mV. -/
theorem nextSupply_near (x : Pace) (tgt : Nat) : nextSupply x tgt ≤ x.supply + 1 ∧ x.supply ≤ nextSupply x tgt + 1 := by
  dsimp only [nextSupply]
  split_ifs <;> omega

/-- A supply within the limits stays within them. -/
theorem nextSupply_within {x : Pace} {tgt : Nat} (hlo : bits tgt 7 0 ≤ x.supply) (hhi : x.supply ≤ bits tgt 15 8) :
    bits tgt 7 0 ≤ nextSupply x tgt ∧ nextSupply x tgt ≤ bits tgt 15 8 := by
  dsimp only [nextSupply]
  split_ifs <;> omega

section Power

variable {d : Dev} {p q pace tj tgt : Nat} {ack : Bool} {f : Pace → Pace}

/-! ### The end of a window (R29, R31) -/

@[simp] theorem modPace_pace_same : (d.modPace p f).pace p = f (d.pace p) := tget_tmod_same _ _ _ _

theorem modPace_pace_other (h : q ≠ p) : (d.modPace p f).pace q = d.pace q := tget_tmod_other _ _ _ _ _ h

/-- What a window reports of its domain: its word, the supply set in it and whether it was a STEP window. -/
def windowReport (tgt pace tj : Nat) (x : Pace) : Pace :=
  { x with valid := true, step := x.stepped, stepped := false, pace := pace, vcode := x.supply, tj := tj
           below := decide (100 * pace < 97 * bits tgt 27 16) }

/-- The device with a window of a domain reported. -/
def windowReported (d : Dev) (p pace tj : Nat) : Dev :=
  let d1 := d.modPace p (windowReport (d.reg .kpPaceTgt p) pace tj)
  { d1 with pwr := { d1.pwr with firstWin := d1.pwr.firstWin.filter (· != p) } }

theorem windowReported_pace_same : (windowReported d p pace tj).pace p = windowReport (d.reg .kpPaceTgt p) pace tj (d.pace p) :=
  modPace_pace_same

theorem windowReported_pace_other (h : q ≠ p) : (windowReported d p pace tj).pace q = d.pace q := modPace_pace_other h

/-- The report leaves a target that waits. -/
theorem windowReported_tgtPend : ((windowReported d p pace tj).pace p).tgtPend = (d.pace p).tgtPend := by
  rw [windowReported_pace_same]
  rfl

/-- The device with the target of a domain that waits, if one does, taken. -/
def targetTaken (d : Dev) (p : Nat) : Dev := match (d.pace p).tgtPend with
  | some v => (d.modPace p fun x => { x with tgtPend := none }).setReg .kpPaceTgt p v
  | none => d

theorem targetTaken_none (h : (d.pace p).tgtPend = none) : targetTaken d p = d := by
  simp only [targetTaken, h]

theorem targetTaken_some (h : (d.pace p).tgtPend = some tgt) :
    targetTaken d p = (d.modPace p fun x => { x with tgtPend := none }).setReg .kpPaceTgt p tgt := by
  simp only [targetTaken, h]

theorem targetTaken_mgmt : (targetTaken d p).mgmt = d.mgmt := by
  cases h : (d.pace p).tgtPend with
  | none => rw [targetTaken_none h]
  | some tgt => rw [targetTaken_some h, Dev.setReg_mgmt, Dev.modPace_mgmt]

/-- With no keeper active a window reports and takes the target that waits; heat, notices and the supply stay as they are. -/
theorem paceWindowFx_noKeeper (hr : domainReports p = true) (hon : d.domOn p = true) (ha : d.mgmt.active = none) :
    paceWindowFx p pace tj ack d = targetTaken (windowReported d p pace tj) p := by
  have hruns : ¬ ((!domainReports p) = true ∨ (!d.domOn p) = true) := by simp [hr, hon]
  have hidle : (targetTaken (windowReported d p pace tj) p).mgmt.active.isNone = true := by
    rw [targetTaken_mgmt]
    exact Option.isNone_iff_eq_none.2 ha
  unfold paceWindowFx
  rw [if_neg hruns]
  exact if_pos hidle

theorem paceWindowFx_reports (hr : domainReports p = true) (hon : d.domOn p = true) (ha : d.mgmt.active = none)
    (ht : (d.pace p).tgtPend = none) : paceWindowFx p pace tj ack d = windowReported d p pace tj := by
  rw [paceWindowFx_noKeeper hr hon ha, targetTaken_none (windowReported_tgtPend.trans ht)]

theorem paceWindowFx_takesTarget (hr : domainReports p = true) (hon : d.domOn p = true) (ha : d.mgmt.active = none)
    (ht : (d.pace p).tgtPend = some tgt) :
    paceWindowFx p pace tj ack d =
      ((windowReported d p pace tj).modPace p fun x => { x with tgtPend := none }).setReg .kpPaceTgt p tgt := by
  rw [paceWindowFx_noKeeper hr hon ha, targetTaken_some (windowReported_tgtPend.trans ht)]

/-! ### Trips and THERMSHUT_N (R575, R576) -/

/-- A first trip of a domain of a die: the die fails, the domain is off and latched, and the keeper is told; the package stays up. -/
theorem tripFx_first {d1 : Dev} (hp : p < 61) (hon : d.domOn p = true) (hl : d.pwr.lastTrip = none) (h1 : d1 = dieFails d p 18) :
    tripFx p d =
      { d1 with pwr := { d1.pwr with
          on := setBits d1.pwr.on p p 0, trip := setBits d1.pwr.trip p p 1, lastTrip := some (d1.clk, p) } }.notice
        0x0A04 (domainDie p) none p (domainDie p) 0 := by
  have hlow : ¬ 64 ≤ p := by omega
  have hkeeper : ¬ (p = 61 ∨ p = 62) := by omega
  have hmeter : p ≠ 63 := by omega
  subst h1
  simp only [tripFx, hlow, hon, hl, hp, hkeeper, hmeter, Bool.true_or, Bool.not_true, Bool.false_eq_true, or_self, if_false, if_true]

/-- With a keeper active and the reset input high THERMSHUT_N shuts the package down at once. -/
theorem thermshutFx_running (hp : d.pwr.porst = false) (ha : d.mgmt.active ≠ none) :
    thermshutFx d = shutDown { d with pwr := { d.pwr with thermShut := true } } 1 1 := by
  simp [thermshutFx, hp, ha]

end Power

/-- Settles O57: a window's effect is its report, with the target that waits; a supply step is at most one code; a trip and the shutdowns are
their effects. -/
theorem paceHeatAndShutdown : Obligations.PaceHeatAndShutdown := by
  intro s b p pace tj tgt ack x
  refine ⟨fun hr hon ha ht => ?report, fun hr hon ha ht => ?target, nextSupply_near x tgt, nextSupply_within, fun hp hon hl => ?trip,
    fun hp ha => ?thermshut, fun h => ?shutdown⟩
  case report =>
    have hw := windowReported_pace_same (d := s.dev) (p := p) (pace := pace) (tj := tj)
    refine ⟨_, Does.of_eq (does_onDev rfl) (paceWindowFx_reports hr hon ha ht), congrArg Pace.valid hw, congrArg Pace.pace hw,
      congrArg Pace.tj hw, congrArg Pace.vcode hw, congrArg Pace.step hw, fun q hq => windowReported_pace_other hq, rfl⟩
  case target =>
    exact ⟨_, Does.of_eq (does_onDev rfl) (paceWindowFx_takesTarget hr hon ha ht), Dev.setReg_reg _ _ _ _,
      congrArg Pace.tgtPend modPace_pace_same⟩
  case trip =>
    have hrun : Leads (.thermalTrip p) s (pollDomains (tripFx p s.dev)) := rfl
    rw [tripFx_first hp hon hl rfl] at hrun
    exact ⟨_, _, rfl, rfl, hrun⟩
  case thermshut => exact Leads.of_eq (leads_onPool rfl) (thermshutFx_running hp ha)
  case shutdown => exact Leads.of_eq (leads_onCmd rfl h) rfl

end Sys2Proof
end

section
/-! PROOF. Packets at their ingress: the checks before the forme is read, the entry they wait for, what an admitted packet goes on with; LOAD, STORE
and ATOMIC from there to their home (PoolRequests). -/

namespace Sys2Proof
open Machine

/-! ### Checks that go on or stop -/

@[simp] theorem ck_ok_bind {α β : Type} (a : α) (f : α → Ck β) : ((.ok a : Ck α) >>= f) = f a := rfl
@[simp] theorem ck_error_bind {α β : Type} (d : Dev) (f : α → Ck β) : ((.error d : Ck α) >>= f) = .error d := rfl
@[simp] theorem ck_dev_ok (d : Dev) : Ck.dev (.ok d) = d := rfl
@[simp] theorem ck_dev_error (d : Dev) : Ck.dev (.error d) = d := rfl

/-! ### The entry a packet waits for (R43, R51) -/

section Ingress

variable {d d0 e : Dev} {x : Rx} {cont : Bool} {kind key id : Nat} {k : Pkt} {fe : FastEnt} {body : Dev → Dev}

/-- The fast-path entry a packet needs at its arrival die. -/
abbrev neededEnt (x : Rx) (kind key : Nat) : FastEnt :=
  { die := portDie x.port, chase := x.pkt.chase, epoch := x.pkt.epoch, kind := kind, key := key }

/-- A packet passes its first checks, needs no entry or finds it, and is tracked: `ingress` answers `d`, `id` and `k`. -/
structure Admits (d0 : Dev) (x : Rx) (cont : Bool) (fe : FastEnt) (d : Dev) (id : Nat) (k : Pkt) : Prop where
  checks : preChecks d0 x cont = .ok ()
  entry : isLocal d0 x.pkt = false ∨ fastHas d0 fe = true
  tracked : ingress d0 x cont = .ok (d, id, k)

theorem withEntry_error (h : preChecks d x cont = .error e) : withEntry d x cont kind key body = e := by
  simp [withEntry, h]

theorem withEntry_parks (h : preChecks d x cont = .ok ()) (hl : isLocal d x.pkt = true)
    (hf : fastHas d (neededEnt x kind key) = false) : withEntry d x cont kind key body = park d x (neededEnt x kind key) := by
  simp [withEntry, h, hl, hf]

/-- What a command does with an admitted packet is the rest of its body on what `ingress` answers. -/
theorem withEntry_admits (h : Admits d0 x cont (neededEnt x kind key) d id k) (f : Dev × Nat × Pkt → Ck Dev) :
    withEntry d0 x cont kind key (fun d => Ck.dev (ingress d x cont >>= f)) = Ck.dev (f (d, id, k)) := by
  obtain ⟨hchecks, hentry, htracked⟩ := h
  have hgo : (isLocal d0 x.pkt && !fastHas d0 (neededEnt x kind key)) = false := by
    rcases hentry with hl | hf
    · simp [hl]
    · simp [hf]
  simp [withEntry, hchecks, hgo, htracked]

end Ingress

/-! ### LOAD, STORE and ATOMIC with their entry at hand (R209, R211, R231) -/

section Pool

variable {d d0 e : Dev} {x : Rx} {id die : Nat} {k : Pkt} {f : Folio}

theorem poolFx_forwards (h : Admits d0 x false (neededEnt x 0 (wbits x.pkt.w2 63 8 / folioB)) d id k) (hl : isLocal d k = false) :
    poolFx x d0 = forwardReq d id k (some (x.port, x.vl)) :=
  (withEntry_admits h _).trans (by simp [hl])

theorem poolFx_badEntry (h : Admits d0 x false (neededEnt x 0 (wbits x.pkt.w2 63 8 / folioB)) d id k) (hl : isLocal d k = true)
    (hb : d.imp.badEnt.contains (k.chase, 1, wbits k.w2 63 8 / folioB) = true) : poolFx x d0 = answerLost d id k :=
  (withEntry_admits h _).trans (by simp only [hl, hb]; rfl)

theorem poolFx_unmapped (h : Admits d0 x false (neededEnt x 0 (wbits x.pkt.w2 63 8 / folioB)) d id k) (hl : isLocal d k = true)
    (hb : d.imp.badEnt.contains (k.chase, 1, wbits k.w2 63 8 / folioB) = false)
    (hf : folioAt d k.chase k.epoch (wbits k.w2 63 8) = none) : poolFx x d0 = answer (chkCount d k.chase 4) id .denied :=
  (withEntry_admits h _).trans (by simp only [hl, hb, hf]; rfl)

theorem poolFx_mapped (h : Admits d0 x false (neededEnt x 0 (wbits x.pkt.w2 63 8 / folioB)) d id k) (hl : isLocal d k = true)
    (hb : d.imp.badEnt.contains (k.chase, 1, wbits k.w2 63 8 / folioB) = false)
    (hf : folioAt d k.chase k.epoch (wbits k.w2 63 8) = some f) : poolFx x d0 = toHome d id (portDie x.port) k f :=
  (withEntry_admits h _).trans (by simp only [hl, hb, hf]; rfl)

theorem toHome_denied (ha : accessOk d f k.party (k.opc != opLOAD) = false) :
    toHome d id die k f = answer (d.count .cDenycls die) id .denied := by
  simp [toHome, ha]

theorem toHome_sealed (ha : accessOk d f k.party (k.opc != opLOAD) = true) (ht : f.kind = 2 ∨ f.kind = 3 ∨ f.kind = 5)
    (hk : d.pdk (keyOf d k.chase (wbits k.w2 63 8) f) = none) : toHome d id die k f = answer d id .sealed_ := by
  simp [toHome, ha, ht, hk]

theorem toHome_badOperands (ha : accessOk d f k.party (k.opc != opLOAD) = true) (hg : f.kind = 1) (ho : operandsOk k = false) :
    toHome d id die k f = answer d id .unsupported := by
  simp [toHome, ha, hg, ho]

theorem toHome_lost (ha : accessOk d f k.party (k.opc != opLOAD) = true) (hg : f.kind = 1) (ho : operandsOk k = true)
    (hp : placeLost d f = true) (hc : f.gcache = false) : toHome d id die k f = answerLost d id k := by
  simp [toHome, ha, hg, ho, hp, hc]

/-- Bytes a pool request covers. -/
def reqLen (k : Pkt) : Nat := if k.opc = opLOAD then wbits k.w3 12 0 else if k.opc = opATOMIC then atomSize k else k.len

/-- What a pool request does with them. -/
def reqOp (k : Pkt) : PjOp := if k.opc = opLOAD then .load else if k.opc = opSTORE then .store else .atomic (wbits k.w3 3 0)

/-- A read passes no filter; a write goes on as the filter of its home leaves it (R135). -/
def Filtered (d : Dev) (id : Nat) (k : Pkt) (f : Folio) (e : Dev) : Prop :=
  k.opc = opLOAD ∧ e = d ∨ k.opc ≠ opLOAD ∧ filterCheck d id (homeOf d f) = .ok e

/-- An access of galley memory outside every layer opens its parts at its home. -/
theorem toHome_opens (ha : accessOk d f k.party (k.opc != opLOAD) = true) (hg : f.kind = 1) (ho : operandsOk k = true)
    (hp : placeLost d f = false) (hl : layerOf d k.chase (wbits k.w2 63 8) = none) (he : Filtered d id k f e) :
    toHome d id die k f = openGrp e (.request id) die k.chase k.epoch k.party (wbits k.w2 63 8) (reqLen k) (reqOp k) k.data f
      (keyOf d k.chase (wbits k.w2 63 8) f) := by
  rcases he with ⟨hopc, rfl⟩ | ⟨hopc, hf⟩
  · simp [toHome, reqLen, reqOp, hopc] at ha ⊢
    simp [ha, hg, ho, hp, hl]
  · have hw : (k.opc != opLOAD) = true := by simp [hopc]
    simp [toHome, reqLen, reqOp, ha, hg, ho, hp, hl, hopc, hf]

/-! ### STORE as the carrier of coherence messages (R270–R272) -/

theorem storeFx_other (h : x.pkt.dst ≠ d.tfp.eid) : storeFx (asOp opSTORE x) d = poolFx (asOp opSTORE x) d := if_neg h

theorem storeFx_self (h : x.pkt.dst = d.tfp.eid) : storeFx (asOp opSTORE x) d = cohStoreFx (asOp opSTORE x) d := if_pos h

/-- The address a coherence STORE speaks of. -/
def cohPva (k : Pkt) : Nat := wbits k.w2 63 8 / 4096 * 4096 + 256 * bits (leNat (k.data.take 8)) 38 35

/-- A message from a member, on its class and with room at the home, is taken: the STORE is answered and the message acts. -/
theorem cohStoreFx_takes {m : CohMsg} {px : Nat} {l : Loc} (hin : ingress d0 x false = .ok (d, id, k)) (hsw : (d.link x.port).ptype = 0)
    (hm : memberOfEid d k.src ≠ none) (hf : folioAt d k.chase k.epoch (cohPva k) = some f)
    (hpx : px = (d.stackServer f.cstack).getD f.cstack) (hloc : l = { kind := f.kind, target := f.target, frame := f.frame })
    (he : filterCheck d id (.coh px) = .ok e) (hmsg : cohOf k (selfM e) (locLine l (cohPva k % folioB)) = some m)
    (htc : cohTc e m.msg = k.tc) (hq : homeQueued e px < 8192) :
    cohStoreFx x d0 = cohRx (answer e id .ok) px f.cstack k.chase k.party (cohPva k) l m := by
  subst hpx hloc
  rw [cohPva] at hf hmsg
  simp [cohStoreFx, cohPva, hin, hsw, hm, hf, he, hmsg, htc, Nat.not_le.2 hq]

end Pool

/-- Settles O27: the three commands run the same effect at their ingress, whose steps are the lemmas above in their order; a STORE to this
switch is taken as the message it carries. -/
theorem poolRequests : Obligations.PoolRequests := by
  intro s x y i d e id pva len k f fe op m
  refine ⟨fun hi hfe => ?request, fun hdst hin hsw hm hpva hf _ he hmsg htc hq => ?message⟩
  case message =>
    subst hpva
    have hrun : Leads (.store x) s (storeFx (asOp opSTORE x) s.dev) := leads_onPool rfl
    rw [storeFx_self hdst] at hrun
    exact hrun.of_eq (cohStoreFx_takes hin hsw hm hf rfl rfl he hmsg htc hq)
  case request =>
    have hrun : Leads i s (poolFx y s.dev) := by
      rcases hi with ⟨rfl, rfl⟩ | ⟨rfl, rfl, hdst⟩ | ⟨rfl, rfl⟩
      · exact leads_onPool rfl
      · exact (leads_onPool rfl).of_eq (storeFx_other hdst)
      · exact leads_onPool rfl
    subst hfe
    refine ⟨fun hc => hrun.of_eq (withEntry_error hc), fun hc hl hf => hrun.of_eq (withEntry_parks hc hl hf), fun hc hent hin hpva => ?_⟩
    subst hpva
    have hadm : Admits s.dev y false (neededEnt y 0 (wbits y.pkt.w2 63 8 / folioB)) d id k := ⟨hc, hent, hin⟩
    refine ⟨fun hl => hrun.of_eq (poolFx_forwards hadm hl), fun hl => ⟨fun hb => hrun.of_eq (poolFx_badEntry hadm hl hb),
      fun hb hf => hrun.of_eq (poolFx_unmapped hadm hl hb hf), fun hb hf => ?_⟩⟩
    have hhome := hrun.of_eq (poolFx_mapped hadm hl hb hf)
    refine ⟨fun ha => hhome.of_eq (toHome_denied ha), fun ha => ⟨fun ht hk => hhome.of_eq (toHome_sealed ha ht hk),
      fun hg ho => hhome.of_eq (toHome_badOperands ha hg ho), fun hg ho hp hc => hhome.of_eq (toHome_lost ha hg ho hp hc),
      fun hg ho hp hlay hlen hop he => ?_⟩⟩
    subst hlen hop
    exact hhome.of_eq (toHome_opens ha hg ho hp hlay he)

end Sys2Proof
end

section
/-! PROOF. Embedding tables at work: GATHER and SCATTER_ADD with their entry at hand, the time-out of an update step, the version switch, the load
window of a shard (TablesAtWork). -/

namespace Sys2Proof
open Machine

/-- The first element that meets a test, after a change to those that meet it which keeps them meeting it. -/
theorem find?_mapIf {α : Type} (p : α → Bool) (f : α → α) (l : List α) (h : ∀ a, p a = true → p (f a) = true) :
    (mapIf p f l).find? p = (l.find? p).map f := by
  induction l with
  | nil => rfl
  | cons a l ih =>
    cases hp : p a with
    | true => simp [mapIf, hp, h a hp]
    | false => simpa [mapIf, hp] using ih

section Tables

variable {d d0 e e2 : Dev} {x : Rx} {id base chase table core b : Nat} {k : Pkt} {ks : List Pkt} {m m2 : Emb}

/-! ### GATHER and SCATTER_ADD (R352, R356, R361) -/

/-- The table a packet names. -/
abbrev tableOf (k : Pkt) : Nat := wbits k.w2 63 48

/-- A GATHER or SCATTER_ADD for this switch passes its first checks, finds its table's entry and is tracked. -/
structure TableReq (d0 : Dev) (x : Rx) (d : Dev) (id : Nat) (k : Pkt) : Prop where
  admitted : Admits d0 x (continues d0 x.pkt) (neededEnt x 2 (tableOf x.pkt)) d id k
  here : isLocal d k = true
  entry : d.imp.badEnt.contains (k.chase, 3, tableOf x.pkt) = false

/-- The fields of a GATHER or SCATTER_ADD are outside R352 and R361. -/
abbrev badTableFields (k : Pkt) : Prop :=
  11 < wbits k.w2 43 40 ∨ wbits k.w2 35 32 ≠ 0 ∨ wbits k.w3 7 0 ≠ 0 ∨ (k.opc = opSCATTER_ADD ∧ (wbits k.w2 39 36 ≠ 0 ∨ k.w3 ≠ 0))

theorem not_badTableFields (hc : wbits k.w2 43 40 ≤ 11) (hr : wbits k.w2 35 32 = 0) (hz : wbits k.w3 7 0 = 0)
    (hs : k.opc = opSCATTER_ADD → wbits k.w2 39 36 = 0 ∧ k.w3 = 0) : ¬ badTableFields k := by
  rintro (h | h | h | ⟨hopc, h | h⟩)
  · omega
  · exact h hr
  · exact h hz
  · exact h (hs hopc).1
  · exact h (hs hopc).2

/-- The table is here, and the checks of R352 and R366 pass with the version's base. -/
structure TablePasses (d : Dev) (x : Rx) (id : Nat) (k : Pkt) (cont : Bool) (m : Emb) (base : Nat) : Prop where
  fields : ¬ badTableFields k
  table : d.emb k.chase (tableOf x.pkt) = some m
  home : m.d.home ≠ 1
  checks : embChecks d id m k cont = .ok base

theorem embReqFx_error (h : preChecks d x (continues d x.pkt) = .error e) : embReqFx x d = e := by
  unfold embReqFx
  exact withEntry_error h

theorem embReqFx_parks (h : preChecks d x (continues d x.pkt) = .ok ()) (hl : isLocal d x.pkt = true)
    (hf : fastHas d (neededEnt x 2 (tableOf x.pkt)) = false) : embReqFx x d = park d x (neededEnt x 2 (tableOf x.pkt)) := by
  unfold embReqFx
  exact withEntry_parks h hl hf

theorem embReqFx_forwards (h : Admits d0 x (continues d0 x.pkt) (neededEnt x 2 (tableOf x.pkt)) d id k) (hl : isLocal d k = false) :
    embReqFx x d0 = forwardReq d id k (some (x.port, x.vl)) :=
  (withEntry_admits h _).trans (by simp [hl])

theorem embReqFx_badEntry (h : Admits d0 x (continues d0 x.pkt) (neededEnt x 2 (tableOf x.pkt)) d id k) (hl : isLocal d k = true)
    (hb : d.imp.badEnt.contains (k.chase, 3, tableOf x.pkt) = true) : embReqFx x d0 = answer d id .targetLost :=
  (withEntry_admits h _).trans (by simp only [hl, hb]; rfl)

theorem embReqFx_badFields (h : TableReq d0 x d id k) (hf : badTableFields k) : embReqFx x d0 = answer d id .unsupported :=
  (withEntry_admits h.admitted _).trans (by simp only [h.here, h.entry, if_pos hf]; rfl)

theorem embReqFx_unknown (h : TableReq d0 x d id k) (hf : ¬ badTableFields k) (hm : d.emb k.chase (tableOf x.pkt) = none) :
    embReqFx x d0 = answer d id .unsupported :=
  (withEntry_admits h.admitted _).trans (by simp only [h.here, h.entry, hm, if_neg hf]; rfl)

theorem embReqFx_remote (h : TableReq d0 x d id k) (hf : ¬ badTableFields k) (hm : d.emb k.chase (tableOf x.pkt) = some m)
    (hh : m.d.home = 1) : embReqFx x d0 = forwardTo d id m.d.homesw k :=
  (withEntry_admits h.admitted _).trans (by simp only [h.here, h.entry, hm, if_neg hf, hh]; rfl)

theorem embReqFx_refused (h : TableReq d0 x d id k) (hf : ¬ badTableFields k) (hm : d.emb k.chase (tableOf x.pkt) = some m)
    (hh : m.d.home ≠ 1) (hc : embChecks d id m k (continues d0 x.pkt) = .error e) : embReqFx x d0 = e :=
  (withEntry_admits h.admitted _).trans (by simp only [h.here, h.entry, hm, if_neg hf, if_neg hh, hc]; rfl)

theorem embReqFx_waits (h : TableReq d0 x d id k) (hp : TablePasses d x id k (continues d0 x.pkt) m base)
    (ht : trainStep d { x with pkt := k } = .ok (e, none)) : embReqFx x d0 = e :=
  (withEntry_admits h.admitted _).trans (by simp only [h.here, h.entry, hp.table, if_neg hp.fields, if_neg hp.home, hp.checks, ht]; rfl)

theorem embReqFx_gathers (h : TableReq d0 x d id k) (hp : TablePasses d x id k (continues d0 x.pkt) m base)
    (ht : trainStep d { x with pkt := k } = .ok (e, some ks)) (ho : k.opc = opGATHER) :
    embReqFx x d0 = gatherTrain e id (portDie x.port) m base ks :=
  (withEntry_admits h.admitted _).trans
    (by simp only [h.here, h.entry, hp.table, if_neg hp.fields, if_neg hp.home, hp.checks, ck_ok_bind, ht, if_pos ho]; rfl)

/-- The core a SCATTER_ADD adds at: one of those of its table's shards (R360). -/
abbrev addCore (d : Dev) (k : Pkt) (table : Nat) : Nat :=
  (pickBy (distinct ((shardsOf d k.chase k.epoch table).map fun e => e.core)) (Config.leadHash k.src k.tag)).getD 0

theorem embReqFx_noCore (h : TableReq d0 x d id k) (hp : TablePasses d x id k (continues d0 x.pkt) m base)
    (ht : trainStep d { x with pkt := k } = .ok (e, some ks)) (ho : k.opc ≠ opGATHER)
    (hs : coreServes e (addCore e k (tableOf x.pkt)) [0x0011] = false) :
    embReqFx x d0 = answer (stepFail e k.chase (tableOf x.pkt) 2) id .redFail :=
  (withEntry_admits h.admitted _).trans
    (by simp only [h.here, h.entry, hp.table, if_neg hp.fields, if_neg hp.home, hp.checks, ck_ok_bind, ht, if_neg ho, hs]; rfl)

theorem embReqFx_adds (h : TableReq d0 x d id k) (hp : TablePasses d x id k (continues d0 x.pkt) m base)
    (ht : trainStep d { x with pkt := k } = .ok (e, some ks)) (ho : k.opc ≠ opGATHER)
    (hs : coreServes e (addCore e k (tableOf x.pkt)) [0x0011] = true)
    (hflt : filterCheck e id (.core (addCore e k (tableOf x.pkt))) = .ok e2) :
    embReqFx x d0 = scatterTrain e2 id (portDie x.port) m (addCore e k (tableOf x.pkt)) ks :=
  (withEntry_admits h.admitted _).trans
    (by simp only [h.here, h.entry, hp.table, if_neg hp.fields, if_neg hp.home, hp.checks, ck_ok_bind, ht, if_neg ho, hs, hflt]; rfl)

/-! ### Steps and versions (R364, R365) -/

theorem modEmb_emb (f : Emb → Emb) (hf : ∀ a, sameEmb chase table a = true → sameEmb chase table (f a) = true) :
    (d.modEmb chase table f).emb chase table = (d.emb chase table).map f :=
  find?_mapIf _ f _ hf

/-- An open step whose mark has not reached its count fails and stays until it is drained. -/
theorem stepFail_open_emb (hm : d.emb chase table = some m) (ho : m.ust = .open_) (hc : (d.mark m.d.umark).count < m.d.uexpect) (why : Nat) :
    (stepFail d chase table why).emb chase table = some { m with ust := .failed, failwhy := why, shards := [] } := by
  have hsame : sameEmb chase table m = true := List.find?_some hm
  have hlive : ¬ (m.ust = .idle ∨ m.ust = .failed) := by simp [ho]
  simp only [stepFail, hm, hlive, if_false]
  refine (congrArg (Dev.emb · chase table) (if_neg (Nat.not_le.2 hc))).trans ?_
  refine (modEmb_emb (d := d) (fun _ => { m with ust := .failed, failwhy := why, shards := [] }) fun _ _ => hsame).trans ?_
  exact congrArg (Option.map _) hm

theorem stepTimeout_fails (hm : d.emb chase table = some m) (ho : m.ust = .open_) (he : (stepFail d chase table 1).emb chase table = some m2)
    (hf : m2.ust = .failed) : stepTimeout d chase table = stepFailEnd (stepFail d chase table 1) m2 := by
  simp [stepTimeout, hm, ho, he, hf]

theorem stepTimeout_ended (hm : d.emb chase table = some m) (ho : m.ust = .open_) (he : (stepFail d chase table 1).emb chase table = some m2)
    (hf : m2.ust ≠ .failed) : stepTimeout d chase table = stepFail d chase table 1 := by
  simp [stepTimeout, hm, ho, he, hf]

theorem stepTimeout_failed (hm : d.emb chase table = some m) (hf : m.ust = .failed) : stepTimeout d chase table = stepFailEnd d m := by
  simp [stepTimeout, hm, hf]

theorem stepTimeout_none (hm : d.emb chase table = some m) (hi : m.ust = .idle ∨ m.ust = .closing) : stepTimeout d chase table = d := by
  rcases hi with hi | hi <;> simp [stepTimeout, hm, hi]

/-- A table with version `b` in effect, the one before it draining under the bound and hold of its chase. -/
def withVersion (d : Dev) (chase b : Nat) (e : Emb) : Emb :=
  { e with cur := (e.cur + 1) % 16, curBase := b, newBase := none, drnLive := true, drn := e.cur, drnBase := e.curBase, drnClosed := false
           drnBound := bits (d.reg .impChaseCfg chase) 31 22, drnHold := bits (d.reg .impChaseCfg chase) 21 12 }

theorem versionSwitch_idle (hm : d.emb chase table = some m) (hn : m.newBase = some b) (hi : m.ust = .idle) :
    versionSwitch d chase table = d.modEmb chase table (withVersion d chase b) := by
  simp only [versionSwitch, hm, hn, hi, ne_eq, not_true_eq_false, if_false]
  rfl

theorem versionSwitch_none (hm : d.emb chase table = some m) (hn : m.newBase = none ∨ m.ust ≠ .idle) : versionSwitch d chase table = d := by
  cases hb : m.newBase with
  | none => simp [versionSwitch, hm, hb]
  | some b => simp [versionSwitch, hm, hb, hn.resolve_left (by simp [hb])]

end Tables

/-- Settles O38: both packets run the same effect at their ingress, whose checks are the lemmas above in their order; time acts on a table's
record alone. -/
theorem tablesAtWork : Obligations.TablesAtWork := by
  intro s x y i d e e2 id chase table base core b k ks fe m m2
  have htime : Leads (.updateStepTimeout chase table) s (stepTimeout s.dev chase table) :=
    leads_onPool (f := fun d => stepTimeout d chase table) rfl
  have hswitch : Leads (.versionSwitch chase table) s (versionSwitch s.dev chase table) :=
    leads_onPool (f := fun d => versionSwitch d chase table) rfl
  refine ⟨fun hi htab hfe => ?packet, fun hm => ⟨fun ho he he2 => ⟨fun hc => ?failedOnce, fun hf => ?timeout, fun hf => ?ended⟩,
    fun hf => ?failed, fun hi => ?notOpen, fun hn hi => ?switch, fun hn => ?noSwitch, ?window⟩⟩
  case packet =>
    subst htab hfe
    have hrun : Leads i s (embReqFx y s.dev) := by
      rcases hi with ⟨rfl, rfl⟩ | ⟨rfl, rfl⟩
      · exact leads_onPool rfl
      · exact leads_onPool rfl
    refine ⟨fun hc => hrun.of_eq (embReqFx_error hc), fun hc hl hf => hrun.of_eq (embReqFx_parks hc hl hf), fun hc hent hin => ?_⟩
    have hadm : Admits s.dev y (continues s.dev y.pkt) (neededEnt y 2 (tableOf y.pkt)) d id k := ⟨hc, hent, hin⟩
    refine ⟨fun hl => hrun.of_eq (embReqFx_forwards hadm hl), fun hl hb => hrun.of_eq (embReqFx_badEntry hadm hl hb), fun hl hb => ?_⟩
    have hreq : TableReq s.dev y d id k := ⟨hadm, hl, hb⟩
    refine ⟨fun hbad => hrun.of_eq (embReqFx_badFields hreq (by tauto)), fun hc hr hz hs => ?_⟩
    have hf := not_badTableFields hc hr hz hs
    refine ⟨fun hm => hrun.of_eq (embReqFx_unknown hreq hf hm), fun hm => ⟨fun hh => hrun.of_eq (embReqFx_remote hreq hf hm hh),
      fun hh hck => hrun.of_eq (embReqFx_refused hreq hf hm hh hck), fun hh hck => ?_⟩⟩
    have hp : TablePasses d y id k (continues s.dev y.pkt) m base := ⟨hf, hm, hh, hck⟩
    refine ⟨fun ht => hrun.of_eq (embReqFx_waits hreq hp ht), fun ht ho => hrun.of_eq (embReqFx_gathers hreq hp ht ho), fun ht ho hcore => ?_⟩
    subst hcore
    exact ⟨fun hs => hrun.of_eq (embReqFx_noCore hreq hp ht ho hs), fun hs hflt => hrun.of_eq (embReqFx_adds hreq hp ht ho hs hflt)⟩
  case failedOnce =>
    subst he
    exact Option.some.inj (he2.symm.trans (stepFail_open_emb hm ho hc 1))
  case timeout =>
    subst he
    exact htime.of_eq (stepTimeout_fails hm ho he2 hf)
  case ended =>
    subst he
    exact htime.of_eq (stepTimeout_ended hm ho he2 hf)
  case failed => exact htime.of_eq (stepTimeout_failed hm hf)
  case notOpen => exact htime.of_eq (stepTimeout_none hm hi)
  case switch => exact hswitch.of_eq (versionSwitch_idle hm hn hi)
  case noSwitch => exact hswitch.of_eq (versionSwitch_none hm hn)
  case window => exact does_onDev (f := fun d => shardWindow d chase table) rfl

end Sys2Proof
end

section
/-! PROOF. Mixtures at work: DISPATCH and COMBINE of endpoints with their entry at hand, deliveries on their way, the batch timer and the deadline of
a request (MixturesAtWork). -/

namespace Sys2Proof
open Machine

section Mixtures

variable {d d0 e e2 : Dev} {x : Rx} {id chase moe step expert core req n : Nat} {k : Pkt} {ks : List Pkt} {m : Moe}
variable {b : MoeBatch} {r : MoeReq} {t : Token} {ch : Choice}

/-! ### Deliveries (R142) -/

theorem moePktFx_delivery (h : x.pkt.dlv = true) : moePktFx x d = moeDlvFx x d := if_pos h

theorem moePktFx_request (h : x.pkt.dlv = false) : moePktFx x d = moeReqFx x d := if_neg (by simp [h])

theorem moeDlvFx_error (h : takeDelivery d0 x = .error d) : moeDlvFx x d0 = d := by
  simp only [moeDlvFx, h]
  rfl

theorem moeDlvFx_passes (h : takeDelivery d0 x = .ok (d, none)) : moeDlvFx x d0 = d := by
  simp only [moeDlvFx, h]
  rfl

theorem moeDlvFx_stray (h : takeDelivery d0 x = .ok (d, some id)) (ht : trainStep d x = .ok (e, some ks)) :
    moeDlvFx x d0 = answer e id .unsupported := by
  simp only [moeDlvFx, h, ck_ok_bind, ht]
  rfl

/-! ### DISPATCH and COMBINE of an endpoint (R371, R374) -/

/-- Does a packet go on with an operation already admitted: of its train, or of the DISPATCH it combines (R58)? -/
abbrev moeContinues (d : Dev) (k : Pkt) : Bool := continues d k || (k.opc == opCOMBINE && combines d k)

/-- The mixture a packet names. -/
abbrev mixtureOf (k : Pkt) : Nat := wbits k.w2 63 48

/-- A DISPATCH or COMBINE for this switch passes its first checks, finds its mixture's entry and is tracked. -/
structure MoeAdmits (d0 : Dev) (x : Rx) (d : Dev) (id : Nat) (k : Pkt) : Prop where
  admitted : Admits d0 x (moeContinues d0 x.pkt) (neededEnt x 2 (2 ^ 16 + mixtureOf x.pkt)) d id k
  here : isLocal d k = true
  entry : d.imp.badEnt.contains (k.chase, 4, mixtureOf x.pkt) = false

/-- The fields of a DISPATCH or COMBINE are outside R371. -/
abbrev badMoeFields (k : Pkt) : Prop := 11 < wbits k.w2 39 36 ∨ wbits k.w2 35 32 ≠ 0 ∨ (k.opc = opDISPATCH ∧ wbits k.w3 31 16 ≠ 0)

theorem not_badMoeFields (hc : wbits k.w2 39 36 ≤ 11) (hr : wbits k.w2 35 32 = 0) (hs : k.opc = opDISPATCH → wbits k.w3 31 16 = 0) :
    ¬ badMoeFields k := by
  rintro (h | h | ⟨hopc, h⟩)
  · omega
  · exact h hr
  · exact h (hs hopc)

/-- The mixture is here, the token format is its own, and the train is whole. -/
structure MoeWhole (d : Dev) (x : Rx) (k : Pkt) (m : Moe) (e : Dev) (ks : List Pkt) : Prop where
  fields : ¬ badMoeFields k
  mixture : d.moe k.chase (mixtureOf x.pkt) = some m
  format : (fmtRow d m.d.trow).code = wbits k.w2 39 36
  train : trainStep d { x with pkt := k } = .ok (e, some ks)

/-- The dispatch core of a request: chosen for a DISPATCH, named by the first record of a COMBINE. -/
abbrev dispatchCore (m : Moe) (k : Pkt) (ks : List Pkt) : Nat :=
  if k.opc = opDISPATCH then (pickBy m.disp (Config.leadHash k.src k.tag)).getD 0
  else bits (leNat ((ks.flatMap fun k => k.data).take 8)) 63 56

theorem moeReqFx_error (h : preChecks d x (moeContinues d x.pkt) = .error e) : moeReqFx x d = e := by
  unfold moeReqFx
  exact withEntry_error h

theorem moeReqFx_parks (h : preChecks d x (moeContinues d x.pkt) = .ok ()) (hl : isLocal d x.pkt = true)
    (hf : fastHas d (neededEnt x 2 (2 ^ 16 + mixtureOf x.pkt)) = false) :
    moeReqFx x d = park d x (neededEnt x 2 (2 ^ 16 + mixtureOf x.pkt)) := by
  unfold moeReqFx
  exact withEntry_parks h hl hf

theorem moeReqFx_forwards (h : Admits d0 x (moeContinues d0 x.pkt) (neededEnt x 2 (2 ^ 16 + mixtureOf x.pkt)) d id k)
    (hl : isLocal d k = false) : moeReqFx x d0 = forwardReq d id k (some (x.port, x.vl)) :=
  (withEntry_admits h _).trans (by simp [hl])

theorem moeReqFx_badEntry (h : Admits d0 x (moeContinues d0 x.pkt) (neededEnt x 2 (2 ^ 16 + mixtureOf x.pkt)) d id k)
    (hl : isLocal d k = true) (hb : d.imp.badEnt.contains (k.chase, 4, mixtureOf x.pkt) = true) :
    moeReqFx x d0 = answer d id .targetLost :=
  (withEntry_admits h _).trans (by simp only [hl, hb]; rfl)

theorem moeReqFx_badFields (h : MoeAdmits d0 x d id k) (hf : badMoeFields k) : moeReqFx x d0 = answer d id .unsupported :=
  (withEntry_admits h.admitted _).trans (by simp only [h.here, h.entry, if_pos hf]; rfl)

theorem moeReqFx_unknown (h : MoeAdmits d0 x d id k) (hf : ¬ badMoeFields k) (hm : d.moe k.chase (mixtureOf x.pkt) = none) :
    moeReqFx x d0 = answer d id .unsupported :=
  (withEntry_admits h.admitted _).trans (by simp only [h.here, h.entry, hm, if_neg hf]; rfl)

theorem moeReqFx_otherFormat (h : MoeAdmits d0 x d id k) (hf : ¬ badMoeFields k) (hm : d.moe k.chase (mixtureOf x.pkt) = some m)
    (hw : (fmtRow d m.d.trow).code ≠ wbits k.w2 39 36) :
    moeReqFx x d0 = answer (d.count .cFmtmism (coreDie ((pickBy m.disp (Config.leadHash k.src k.tag)).getD 0))) id .unsupported :=
  (withEntry_admits h.admitted _).trans (by simp only [h.here, h.entry, hm, if_neg hf, if_pos hw]; rfl)

theorem moeReqFx_waits (h : MoeAdmits d0 x d id k) (hf : ¬ badMoeFields k) (hm : d.moe k.chase (mixtureOf x.pkt) = some m)
    (hw : (fmtRow d m.d.trow).code = wbits k.w2 39 36) (ht : trainStep d { x with pkt := k } = .ok (e, none)) : moeReqFx x d0 = e :=
  (withEntry_admits h.admitted _).trans (by simp only [h.here, h.entry, hm, if_neg hf, if_neg (not_not.2 hw), ht]; rfl)

theorem moeReqFx_otherCore (h : MoeAdmits d0 x d id k) (hp : MoeWhole d x k m e ks) (hd : m.disp.contains (dispatchCore m k ks) = false) :
    moeReqFx x d0 = answer e id .unsupported :=
  (withEntry_admits h.admitted _).trans
    (by simp only [h.here, h.entry, hp.mixture, if_neg hp.fields, if_neg (not_not.2 hp.format), hp.train, ck_ok_bind, hd]; rfl)

theorem moeReqFx_coreLost (h : MoeAdmits d0 x d id k) (hp : MoeWhole d x k m e ks) (hd : m.disp.contains (dispatchCore m k ks) = true)
    (hs : coreServes e (dispatchCore m k ks) [0x0018] = false) : moeReqFx x d0 = answer e id .targetLost :=
  (withEntry_admits h.admitted _).trans
    (by simp only [h.here, h.entry, hp.mixture, if_neg hp.fields, if_neg (not_not.2 hp.format), hp.train, ck_ok_bind, hd, hs]; rfl)

/-- A whole train goes to its dispatch core, through that core's filter. -/
theorem moeReqFx_works (h : MoeAdmits d0 x d id k) (hp : MoeWhole d x k m e ks) (hd : m.disp.contains (dispatchCore m k ks) = true)
    (hs : coreServes e (dispatchCore m k ks) [0x0018] = true) (hflt : filterCheck e id (.core (dispatchCore m k ks)) = .ok e2) :
    moeReqFx x d0 = if k.opc = opDISPATCH then dispatchTrain e2 id (dispatchCore m k ks) ks else combineTrain e2 id (dispatchCore m k ks) ks :=
  (withEntry_admits h.admitted _).trans
    (by simp only [h.here, h.entry, hp.mixture, if_neg hp.fields, if_neg (not_not.2 hp.format), hp.train, ck_ok_bind, hd, hs, hflt]; rfl)

/-! ### The batch timer (R373) -/

theorem batchTimer_sends (hm : d.moe chase moe = some m)
    (hb : (m.batches.find? fun b => b.step == step && b.expert == expert && b.core == core) = some b) :
    batchTimer d chase moe step expert core = sendBatch d chase moe b := by
  simp only [batchTimer, hm, Option.bind_some, hb]

theorem batchTimer_none (hm : d.moe chase moe = some m)
    (hb : (m.batches.find? fun b => b.step == step && b.expert == expert && b.core == core) = none) :
    batchTimer d chase moe step expert core = d := by
  simp only [batchTimer, hm, Option.bind_some, hb]

/-! ### The deadline of a request (R374) -/

theorem combineDeadline_gone (hm : d.moe chase moe = some m) (hr : (m.reqs.find? fun r => r.id == req) = none) :
    combineDeadline d chase moe req = d := by
  simp only [combineDeadline, hm, Option.bind_some, hr, Option.map_none]

/-- The deadline of a request is behind it: it gets no further one. -/
abbrev deadlinePassed (d : Dev) (chase moe req : Nat) : Dev := d.modReq chase moe req fun r => { r with extra := true }

/-- The fallback of an expert; 0xFFF is none. -/
abbrev fallbackOf (m : Moe) (expert : Nat) : Nat := ((m.d.experts[expert]?).map fun e => e.fbexp).getD 0xFFF

/-- DLPOL 1 gives a choice its one further try: nothing of the request or the choice has had one (R374). -/
abbrev mayRetry (m : Moe) (r : MoeReq) (ch : Choice) : Prop := m.d.dlpol = 1 ∧ r.extra = false ∧ ch.late = false ∧ ch.fb = false

section OneChoice

variable (hm : d.moe chase moe = some m) (hr : (m.reqs.find? fun r => r.id == req) = some r) (ht : r.toks = [t]) (hc : t.choices = [ch])
include hm hr ht hc

theorem combineDeadline_closed (ho : ch.open_ = false) : combineDeadline d chase moe req = deadlinePassed d chase moe req := by
  simp [combineDeadline, hm, hr, ht, hc, upTo, foldOver, ho, deadlinePassed]

theorem combineDeadline_omits (ho : ch.open_ = true) (hn : ¬ mayRetry m r ch ∨ fallbackOf m ch.expert = 0xFFF) :
    combineDeadline d chase moe req = endChoice (deadlinePassed d chase moe req) chase moe req 0 0 .omitted := by
  have hno : ¬ (m.d.dlpol = 1 ∧ r.extra = false ∧ ch.late = false ∧ ch.fb = false ∧ fallbackOf m ch.expert ≠ 0xFFF) := by tauto
  simp [combineDeadline, hm, hr, ht, hc, upTo, foldOver, ho, deadlinePassed]
  exact fun hp hx hl hb hf => absurd ⟨hp, hx, hl, hb, hf⟩ hno

theorem combineDeadline_retries (ho : ch.open_ = true) (hy : mayRetry m r ch) (hn : n = fallbackOf m ch.expert) (hf : n ≠ 0xFFF) :
    combineDeadline d chase moe req =
      batchChoice ((deadlinePassed d chase moe req).modReq chase moe req fun r => r.modTok 0 fun t =>
        t.modChoice 0 fun x => { x with at_ := n, late := true }) chase moe r.step n r.core (req, 0, 0) := by
  obtain ⟨hp, hx, hl, hb⟩ := hy
  subst hn
  simp [combineDeadline, hm, hr, ht, hc, upTo, foldOver, ho, deadlinePassed, hp, hx, hl, hb, hf]

end OneChoice

end Mixtures

/-- Settles O39: the deliveries and the requests of both packets run the same two effects, whose checks are the lemmas above in their order; the
timers act on the mixture's batches and choices. -/
theorem mixturesAtWork : Obligations.MixturesAtWork := by
  intro s x y i d e e2 id chase moe step expert core req n cont k ks fe m b r t ch
  have htimer : Leads (.moeBatchTimer chase moe step expert core) s (batchTimer s.dev chase moe step expert core) :=
    leads_onPool (f := fun d => batchTimer d chase moe step expert core) rfl
  have hline : Leads (.combineDeadline chase moe req) s (combineDeadline s.dev chase moe req) :=
    leads_onPool (f := fun d => combineDeadline d chase moe req) rfl
  refine ⟨fun hi => ⟨fun hdlv => ?delivery, fun hdlv hcont hmoe hfe => ?request⟩, fun hm => ⟨fun hb => htimer.of_eq (batchTimer_sends hm hb),
    fun hb => htimer.of_eq (batchTimer_none hm hb), fun hr => hline.of_eq (combineDeadline_gone hm hr), fun hr ht hc he => ?deadline⟩⟩
  case deadline =>
    subst he
    refine ⟨fun ho => hline.of_eq (combineDeadline_closed hm hr ht hc ho), fun ho hno => ?_,
      fun ho hp hx hl hb hn => ⟨fun hf => ?_, fun hf => ?_⟩⟩
    · refine hline.of_eq (combineDeadline_omits hm hr ht hc ho (.inl fun hy => ?_))
      obtain ⟨hp, hx, hl, hb⟩ := hy
      simp [hp, hx, hl, hb] at hno
    · exact hline.of_eq (combineDeadline_omits hm hr ht hc ho (.inr (hn.symm.trans hf)))
    · exact hline.of_eq (combineDeadline_retries hm hr ht hc ho ⟨hp, hx, hl, hb⟩ hn hf)
  all_goals
    have hpkt : Leads i s (moePktFx y s.dev) := by
      rcases hi with ⟨rfl, rfl⟩ | ⟨rfl, rfl⟩
      · exact leads_onPool rfl
      · exact leads_onPool rfl
  case delivery =>
    have hrun := hpkt.of_eq (moePktFx_delivery hdlv)
    exact ⟨fun h => hrun.of_eq (moeDlvFx_error h), fun h => hrun.of_eq (moeDlvFx_passes h), fun h ht => hrun.of_eq (moeDlvFx_stray h ht)⟩
  case request =>
    subst hcont hmoe hfe
    have hrun := hpkt.of_eq (moePktFx_request hdlv)
    refine ⟨fun hc => hrun.of_eq (moeReqFx_error hc), fun hc hl hf => hrun.of_eq (moeReqFx_parks hc hl hf), fun hc hent hin => ?_⟩
    have hadm : Admits s.dev y (moeContinues s.dev y.pkt) (neededEnt y 2 (2 ^ 16 + mixtureOf y.pkt)) d id k := ⟨hc, hent, hin⟩
    refine ⟨fun hl => hrun.of_eq (moeReqFx_forwards hadm hl), fun hl hb => hrun.of_eq (moeReqFx_badEntry hadm hl hb), fun hl hb => ?_⟩
    have hreq : MoeAdmits s.dev y d id k := ⟨hadm, hl, hb⟩
    refine ⟨fun hbad => hrun.of_eq (moeReqFx_badFields hreq (by tauto)), fun hc hr hs => ?_⟩
    have hf := not_badMoeFields hc hr hs
    refine ⟨fun hm => hrun.of_eq (moeReqFx_unknown hreq hf hm), fun hm => ⟨fun hw => hrun.of_eq (moeReqFx_otherFormat hreq hf hm hw),
      fun hw => ⟨fun ht => hrun.of_eq (moeReqFx_waits hreq hf hm hw ht), fun ht hcore => ?_⟩⟩⟩
    subst hcore
    have hp : MoeWhole d y k m e ks := ⟨hf, hm, hw, ht⟩
    exact ⟨fun hd => hrun.of_eq (moeReqFx_otherCore hreq hp hd), fun hd hs => hrun.of_eq (moeReqFx_coreLost hreq hp hd hs),
      fun hd hs hflt => ⟨fun ho => hrun.of_eq ((moeReqFx_works hreq hp hd hs hflt).trans (if_pos ho)),
        fun ho => hrun.of_eq ((moeReqFx_works hreq hp hd hs hflt).trans (if_neg ho))⟩⟩

end Sys2Proof
end

section
/-! PROOF. Scans: SCAN with its entry at hand, its early answer and its end (Scans). -/

namespace Sys2Proof
open Machine

section Scans

variable {d d0 e f : Dev} {x : Rx} {id sid core : Nat} {k : Pkt} {v w : Svc}

/-! ### SCAN (R377) -/

/-- The folio entry a SCAN needs: that of its input. -/
abbrev scanEnt (x : Rx) : FastEnt := neededEnt x 0 (wbits x.pkt.w2 63 8 / folioB)

/-- The forme a SCAN runs under. -/
abbrev scanForme (d : Dev) (k : Pkt) : Forme := (formeOf (d.comp k.chase) k.epoch).getD {}

/-- The core a SCAN runs on. -/
abbrev scanCore (d : Dev) (k : Pkt) : Nat := (pickBy (scanForme d k).cores (Config.leadHash k.src k.tag)).getD 0

/-- Its whole input lies in folios that meet a test. -/
abbrev inputAll (d : Dev) (k : Pkt) (p : Folio → Bool) : Bool :=
  rangeAll d k.chase k.epoch (scanOps k).inp ((scanOps k).nrec * (scanOps k).recsz) p

/-- Its whole output lies where its party may write it. -/
abbrev outputOwn (d : Dev) (k : Pkt) : Bool := rangeAll d k.chase k.epoch (scanOps k).out (scanOps k).outLen (ownOut k.party)

/-- A SCAN for this switch within the rules of R377 passes its first checks, finds its entry and is tracked. -/
structure ScanReq (d0 : Dev) (x : Rx) (d : Dev) (id : Nat) (k : Pkt) : Prop where
  admitted : Admits d0 x false (scanEnt x) d id k
  here : isLocal d k = true
  fields : scanOk k = true

/-- Its input is records, its output its party's, and its forme has the service and cores. -/
structure ScanAllowed (d : Dev) (k : Pkt) : Prop where
  mapped : inputAll d k (fun _ => true) = true
  records : inputAll d k (fun f => f.use == 4) = true
  first : ((folioAt d k.chase k.epoch (scanOps k).inp).map fun f => f.use) = some 4
  output : outputOwn d k = true
  service : bit (scanForme d k).req.services 3 = true
  cores : (scanForme d k).cores ≠ []

theorem scanFx_error (h : preChecks d x false = .error e) : scanFx x d = e := withEntry_error h

theorem scanFx_parks (h : preChecks d x false = .ok ()) (hl : isLocal d x.pkt = true) (hf : fastHas d (scanEnt x) = false) :
    scanFx x d = park d x (scanEnt x) := withEntry_parks h hl hf

theorem scanFx_forwards (h : Admits d0 x false (scanEnt x) d id k) (hl : isLocal d k = false) :
    scanFx x d0 = forwardReq d id k (some (x.port, x.vl)) :=
  (withEntry_admits h _).trans (by simp [hl])

theorem scanFx_unsupported (h : Admits d0 x false (scanEnt x) d id k) (hl : isLocal d k = true) (hs : scanOk k = false) :
    scanFx x d0 = answer d id .unsupported :=
  (withEntry_admits h _).trans (by simp [hl, hs])

/-- The input, the output and the service are each refused with DENIED, whichever fails first. -/
theorem scanFx_denied (h : ScanReq d0 x d id k)
    (hd : inputAll d k (fun f => f.use == 4) = false ∨ outputOwn d k = false ∨ bit (scanForme d k).req.services 3 = false) :
    scanFx x d0 = answer d id .denied := by
  obtain ⟨hadm, hl, hs⟩ := h
  refine (withEntry_admits hadm _).trans ?_
  simp only [hl, hs, Bool.not_true, Bool.false_eq_true, if_false]
  split_ifs with hin hout hsvc
  · rfl
  · rfl
  · rfl
  -- past the three checks none of them has failed
  all_goals simp_all

/-- A SCAN that is allowed passes every check before its core. -/
theorem scanAllowed_checks (ha : ScanAllowed d k) :
    ¬ ((!inputAll d k fun _ => true) = true ∨ (!((folioAt d k.chase k.epoch (scanOps k).inp).map fun f => f.use == 4).getD false) = true
      ∨ (!inputAll d k fun f => f.use == 4) = true) := by
  obtain ⟨hmap, hrec, hfirst, -, -, -⟩ := ha
  obtain ⟨fo, hfo, huse⟩ := Option.map_eq_some_iff.1 hfirst
  simp [hmap, hrec, hfo, huse]

theorem scanFx_coreLost (h : ScanReq d0 x d id k) (ha : ScanAllowed d k) (hs : coreServes d (scanCore d k) [0x0020] = false) :
    scanFx x d0 = answer d id .targetLost := by
  obtain ⟨hadm, hl, hok⟩ := h
  have hchecks := scanAllowed_checks ha
  obtain ⟨-, -, -, hout, hsvc, -⟩ := ha
  exact (withEntry_admits hadm _).trans (by simp only [hl, hok, if_neg hchecks, hout, hsvc, hs]; simp)

/-- The job of a SCAN before its input is read. -/
abbrev scanSvc (x : Rx) (id core : Nat) (k : Pkt) : Svc :=
  { kind := .scan, chase := k.chase, epoch := k.epoch, party := k.party, req := some id, die := portDie x.port, core := core
    cores := [core], k := k, stage := 1 }

/-- The input is read on the core; where nothing of it has to come, its records are tested at once. -/
theorem scanFx_reads (h : ScanReq d0 x d id k) (ha : ScanAllowed d k) (hs : coreServes d (scanCore d k) [0x0020] = true)
    (hflt : filterCheck d id (.core (scanCore d k)) = .ok e) (hn : newSvc e (scanSvc x id (scanCore d k) k) = (f, sid))
    (hv : (scanRead f sid (scanOps k)).svc sid = some v) :
    scanFx x d0 = if v.left = 0 then scanRows (scanRead f sid (scanOps k)) v else scanRead f sid (scanOps k) := by
  obtain ⟨hadm, hl, hok⟩ := h
  have hchecks := scanAllowed_checks ha
  obtain ⟨-, -, -, hout, hsvc, hcores⟩ := ha
  have hempty : (scanForme d k).cores.isEmpty = false := by simpa using hcores
  exact (withEntry_admits hadm _).trans
    (by simp only [hl, hok, if_neg hchecks, hout, hsvc, hempty, hs, hflt, ck_ok_bind, hn, hv]; rfl)

/-! ### The early answer and the end (R380) -/

/-- A scan with its request answered. -/
abbrev scanAnswered (d : Dev) (svc : Nat) : Dev := d.modSvc svc fun s => { s with req := none }

theorem scanEarly_answered (hw : d.svc sid = some w) (hk : w.kind = .scan) (hr : w.req = none) : scanEarly d sid = scanAnswered d sid := by
  simp [scanEarly, hw, hk, hr, scanAnswered]

theorem scanEarly_answers (hw : d.svc sid = some w) (hk : w.kind = .scan) (hr : w.req = some id) :
    scanEarly d sid = answer (scanAnswered d sid) id .ok (2 ^ 48 - 1) := by
  simp [scanEarly, hw, hk, hr, scanAnswered]

theorem scanDone_writesHeader (hw : d.svc sid = some w) (hk : w.kind = .scan) (hs : w.stage = 2) (hl : w.left = 0) :
    scanDone d sid = svcAccess (d.modSvc sid fun s => { s with stage := 3 }) sid 0 (scanOps w.k).out 32 .store w.hdr := by
  simp [scanDone, hw, hk, hs, hl]

theorem scanDone_waits (hw : d.svc sid = some w) (hn : w.stage ≠ 2 ∨ w.left ≠ 0) : scanDone d sid = d := by
  simp only [scanDone, hw, if_pos (Or.inr hn : w.kind ≠ .scan ∨ _)]

end Scans

/-- Settles O40: a SCAN's checks are the lemmas above in their order; its timer and its end act on its own job. -/
theorem scans : Obligations.Scans := by
  intro s x d e f id core sid svc k o fm v w fe
  have hearly : Leads (.scanEarlyAnswer svc) s (scanEarly s.dev svc) := leads_onPool (f := fun d => scanEarly d svc) rfl
  have hdone : Leads (.scanDone svc) s (scanDone s.dev svc) := leads_onPool (f := fun d => scanDone d svc) rfl
  refine ⟨fun hfe => ?packet, fun hw hk he => ?job⟩
  case job =>
    subst he
    exact ⟨fun hr => hearly.of_eq (scanEarly_answered hw hk hr), fun hr => hearly.of_eq (scanEarly_answers hw hk hr),
      fun hs hl => hdone.of_eq (scanDone_writesHeader hw hk hs hl), fun hn => hdone.of_eq (scanDone_waits hw hn)⟩
  case packet =>
    subst hfe
    have hrun : Leads (.scan x) s (scanFx (asOp opSCAN x) s.dev) := leads_onPool rfl
    refine ⟨fun hc => hrun.of_eq (scanFx_error hc), fun hc hl hf => hrun.of_eq (scanFx_parks hc hl hf), fun hc hent hin ho hfm hcore => ?_⟩
    subst ho hfm hcore
    have hadm : Admits s.dev (asOp opSCAN x) false (scanEnt (asOp opSCAN x)) d id k := ⟨hc, hent, hin⟩
    refine ⟨fun hl => hrun.of_eq (scanFx_forwards hadm hl), fun hl hs => hrun.of_eq (scanFx_unsupported hadm hl hs), fun hl hs => ?_⟩
    have hreq : ScanReq s.dev (asOp opSCAN x) d id k := ⟨hadm, hl, hs⟩
    refine ⟨fun hin => hrun.of_eq (scanFx_denied hreq (.inl hin)), fun hout => hrun.of_eq (scanFx_denied hreq (.inr (.inl hout))),
      fun hsvc => hrun.of_eq (scanFx_denied hreq (.inr (.inr hsvc))), fun hmap hrec hfirst hout hsvc hcores => ?_⟩
    have hallow : ScanAllowed d k := ⟨hmap, hrec, hfirst, hout, hsvc, hcores⟩
    exact ⟨fun hs => hrun.of_eq (scanFx_coreLost hreq hallow hs), fun hs hflt hn hv =>
      ⟨fun hl => hrun.of_eq ((scanFx_reads hreq hallow hs hflt hn hv).trans (if_neg hl)),
        fun hl => hrun.of_eq ((scanFx_reads hreq hallow hs hflt hn hv).trans (if_pos hl))⟩⟩

end Sys2Proof
end

section
/-! PROOF. Creating, staging, committing and destroying compositions, freezing and sharing regions (Compositions). -/

namespace Sys2Proof
open Machine

section Commands

variable {b : Bas} {d e e1 : Dev} {chase base into x r n : Nat} {q : CompReq} {trays : List Nat} {a : Admission} {g : Staged} {st : Status}
variable {rg : Region} {force : Bool}

/-! ### COMP_CREATE (R40–R46, R57) -/

section Create

variable (hn : chase < 4096) (hq : reqOk (asAsked q) = true) (hb : (d.comp chase).bound = false)
  (ha : admitReq (setAttested d trays) chase (asAsked q) none (asAsked q).tightmax false [] = (a, e))
include hn hq hb ha

theorem compCreateFx_noFit (hs : a.st = .noFit) : compCreateFx b chase x q trays d = d.reply b 0x0301 .noFit 0x01 a.res [a.short] := by
  simp [compCreateFx, Nat.not_le.2 hn, hq, hb, ha, hs]

theorem compCreateFx_ok (hs : a.st = .ok) :
    compCreateFx b chase x q trays d = (compBind e chase x (asAsked q) a).reply b 0x0301 .ok := by
  simp [compCreateFx, Nat.not_le.2 hn, hq, hb, ha, hs]

theorem compCreateFx_tight (hs : a.st = .tight) :
    compCreateFx b chase x q trays d = (compBind e chase x (asAsked q) a).reply b 0x0301 .tight 0x05
      (predSlow q.layers a.forme.depth) (tightData (asAsked q) a) := by
  simp [compCreateFx, Nat.not_le.2 hn, hq, hb, ha, hs]

end Create

/-! ### FORME_STAGE and FORME_COMMIT (R55, R65–R67) -/

section Stage

variable (hq : reqOk (asAsked q) = true) (hs : stageComp (setAttested d trays) chase (asAsked q) false false {} = ((st, r, n), e))
include hq hs

theorem formeStageFx_staged (ht : st = .ok ∨ st = .tight) : formeStageFx b chase q trays d = answerStage e b chase 0x0303 := by
  rcases ht with rfl | rfl <;> simp [formeStageFx, hq, hs]

theorem formeStageFx_noFit (ht : st = .noFit) : formeStageFx b chase q trays d = e.reply b 0x0303 .noFit 0x01 r [n] := by
  subst ht
  simp [formeStageFx, hq, hs]

theorem formeStageFx_busy (ht : st = .busy) : formeStageFx b chase q trays d = d.reply b 0x0303 .busy := by
  subst ht
  simp [formeStageFx, hq, hs]

end Stage

theorem formeCommitFx_commits (hg : (d.comp chase).staged = some g) (hf : g.adm ≠ .noFit) (hm : g.moving = [])
    (hd : (d.comp chase).drnLive = false) :
    formeCommitFx b chase force d = commitForme (d.defer b (.chase chase) 0x0304 chase) chase false := by
  simp [formeCommitFx, hg, hf, hm, hd]

theorem formeCommitFx_drains (hg : (d.comp chase).staged = some g) (hf : g.adm ≠ .noFit) (hd : (d.comp chase).drnLive = true) :
    formeCommitFx b chase false d = d.reply b 0x0304 .busy := by
  simp [formeCommitFx, hg, hf, hd]

/-! ### REGION_FREEZE and REGION_SHARE (R210) -/

/-- The request of the current forme with one region frozen. -/
abbrev freezing (d : Dev) (chase base : Nat) : CompReq :=
  { (d.comp chase).curF.req with
    regions := mapIf (fun x => x.base == base) (fun x => { x with frozen := true }) (d.comp chase).curF.req.regions }

theorem regionFreezeFx_commits (hr : ((d.comp chase).curF.req.regions.find? fun r => r.base == base) = some rg) (hc : rg.cls = 1)
    (hf : rg.frozen = false) (hd : (d.comp chase).drnLive = false)
    (hs : stageComp (setAttested d trays) chase (freezing d chase base) false true {} = ((.ok, r, n), e)) :
    regionFreezeFx b chase base trays d = commitForme (e.defer b (.chase chase) 0x0402 chase) chase false := by
  simp [regionFreezeFx, hr, hc, hf, hd, hs]

/-- The folio entries of a region as the receiving chase takes them: cached, under the same numbers. -/
abbrev sharedEnts (d : Dev) (chase : Nat) (rg : Region) : List (Nat × Folio) :=
  ((upTo rg.size).map (rg.base / folioB + ·)).filterMap
    fun n => (tfind (d.comp chase).curF.folios n).map fun e => (n, { e with gcache := true })

/-- The staged forme of the receiving chase with them. -/
abbrev sharedForme (d e : Dev) (chase into : Nat) (rg : Region) : Forme :=
  { e.stagedF into with
    folios := (sharedEnts d chase rg).foldl (fun t e => tput t e.1 e.2) (e.stagedF into).folios
    req := { (e.stagedF into).req with regions := (e.stagedF into).req.regions ++ [rg] } }

/-- The device with the keying parties of the region kept for the receiving chase (R459). -/
abbrev sharedKeys (d e : Dev) (chase into : Nat) (rg : Region) : Dev :=
  { e with pool := { e.pool with
      fold := (sharedEnts d chase rg).foldl (fun t x => tput t (2 ^ 36 * (into + 1) + x.1) (keyOf d chase (x.1 * folioB) x.2)) e.pool.fold } }

/-- A chase takes the region: it runs, and is not the chase that gives it. -/
structure Receives (d : Dev) (chase into : Nat) : Prop where
  bound : (d.comp into).bound = true
  alive : (d.comp into).destroying = false
  running : (d.comp into).suspended = false
  other : into ≠ chase

/-- The staged forme has the region's party, room among its regions, and nothing at its addresses. -/
structure Fits (f : Forme) (rg : Region) : Prop where
  party : rg.party < f.req.parties
  apart : f.req.regions.any (regionMeets rg) = false
  count : f.req.regions.length < 4096

theorem regionShareFx_stages (hr : ((d.comp chase).curF.req.regions.find? fun r => r.base == base) = some rg) (hc : rg.cls = 1)
    (hf : rg.frozen = true) (ht : Receives d chase into) (hs : ensureStage (setAttested d trays) into = ((.ok, r, n), e))
    (hfit : Fits (e.stagedF into) rg)
    (hroom : storeUsed e + 256 * (pagesBeyond (sharedForme d e chase into rg) (some (d.comp into).curF)
      - pagesBeyond (e.stagedF into) (some (d.comp into).curF)) ≤ storeEntries) :
    regionShareFx b chase base into trays d =
      answerStage ((sharedKeys d e chase into rg).modStaged into fun _ => sharedForme d e chase into rg) b into 0x0403 := by
  obtain ⟨hb, ha, hrun, ho⟩ := ht
  obtain ⟨hp, hap, hcnt⟩ := hfit
  have htaken : ¬ ((e.stagedF into).req.parties ≤ rg.party ∨ (e.stagedF into).req.regions.any (regionMeets rg) = true
      ∨ 4096 ≤ (e.stagedF into).req.regions.length) := by
    rintro (h | h | h)
    · omega
    · simp [hap] at h
    · omega
  simp only [regionShareFx, hr, hb, ha, ho, hrun, hc, hf, hs, if_neg htaken, if_neg (Nat.not_lt.2 hroom)]
  rfl

end Commands

/-- Settles O11: every command runs as its effect on the device that heard it, and the effect in each case is a lemma above. -/
theorem compositions : Obligations.Compositions := by
  rintro s b d e e1 chase base into x r n q trays a g st rg f' ents rfl
  refine ⟨fun h hn hq hb ha => ?create, fun h => ?destroy, fun h hq hs => ?stage, fun h hg hf hm => ?commit, fun h => ?owner,
    fun h hr hc hf hd hs => ?freeze, fun h hr hc hf hb ha hrun ho hs hp hap hcnt hents hf' hroom he1 => ?share⟩
  case create =>
    have hrun : Leads (.compCreate b chase x q trays) s (compCreateFx b chase x q trays (heard s.dev b)) := leads_onCmd rfl h
    exact ⟨fun hs => hrun.of_eq (compCreateFx_noFit hn hq hb ha hs), fun hs => hrun.of_eq (compCreateFx_ok hn hq hb ha hs),
      fun hs => hrun.of_eq (compCreateFx_tight hn hq hb ha hs)⟩
  case destroy => exact Leads.of_eq (leads_onCmd rfl h) rfl
  case stage =>
    have hrun : Leads (.formeStage b chase q trays) s (formeStageFx b chase q trays (heard s.dev b)) := leads_onCmd rfl h
    exact ⟨fun ht => hrun.of_eq (formeStageFx_staged hq hs ht), fun ht => hrun.of_eq (formeStageFx_noFit hq hs ht),
      fun ht => hrun.of_eq (formeStageFx_busy hq hs ht)⟩
  case commit =>
    have hrun : Leads (.formeCommit b chase false) s (formeCommitFx b chase false (heard s.dev b)) := leads_onCmd rfl h
    exact ⟨fun hd => hrun.of_eq (formeCommitFx_commits hg hf hm hd), fun hd => hrun.of_eq (formeCommitFx_drains hg hf hd)⟩
  case owner => exact Leads.of_eq (leads_onCmd rfl h) rfl
  case freeze => exact Leads.of_eq (leads_onCmd rfl h) (regionFreezeFx_commits hr hc hf hd hs)
  case share =>
    subst hents hf' he1
    exact Leads.of_eq (leads_onCmd rfl h) (regionShareFx_stages hr hc hf ⟨hb, ha, hrun, ho⟩ hs ⟨hp, hap, hcnt⟩ hroom)

end Sys2Proof
end

section
/-! PROOF. The course of a commit and of a drain (CommitAndDrain); the Imposer's own moves and the end of a composition (MovesAndEnd). -/

namespace Sys2Proof
open Machine

section Course

variable {d : Dev} {chase die epoch kind target frame folio r n : Nat} {g : Staged} {f : Folio} {fe : FastEnt} {q : StageReq} {d1 : Dev}

/-! ### The course of a commit (R67) -/

/-- A die that is late leaves the list. -/
def lateApplied (d : Dev) (chase die : Nat) : Dev := d.modComp chase fun c => { c with late := c.late.filter (· != die) }

theorem commitOn_ports (hp : (d.comp chase).phase = .press) (hl : ((d.comp chase).late.any fun x => decide (16 ≤ x)) = false) :
    commitOn d chase = d.modComp chase fun c => { c with phase := .ports } :=
  if_pos ⟨hp, by simp only [hl]; rfl⟩

/-- A press die applies the update while the press dies are due. -/
theorem updateApplyFx_press (hl : (d.comp chase).late.contains die = true) (hp : (d.comp chase).phase = .press) (hd : 16 ≤ die) :
    updateApplyFx chase die d = lateApplied d chase die := by
  simp only [updateApplyFx, hl, hp, hd, Nat.not_lt.2 hd]
  rfl

/-- A port die applies it while the port dies are due, and takes its membership entries. -/
theorem updateApplyFx_port (hl : (d.comp chase).late.contains die = true) (hp : (d.comp chase).phase = .ports) (hd : die < 16) :
    updateApplyFx chase die d = putMembers (lateApplied d chase die) chase [die] := by
  simp only [updateApplyFx, hl, hp, hd, Nat.not_le.2 hd]
  rfl

theorem switchCompleteFx_done (hp : (d.comp chase).phase = .ports) (hl : (d.comp chase).late = []) :
    switchCompleteFx chase d = switchDone d chase :=
  if_pos ⟨hp, by simp [hl]⟩

/-! ### The drain (R58, R59, R61) -/

theorem drainholdFx_closes (hd : (d.comp chase).drnLive = true) (he : (d.comp chase).drn = epoch) (hp : (d.comp chase).phase = .idle)
    (hc : (d.comp chase).drnClosed = false) :
    drainholdFx chase (.epoch epoch) d = d.modComp chase fun c => { c with drnClosed := true, lateClose := upDies d } :=
  if_pos ⟨hd, he, hp, by simp [hc]⟩

theorem drainPollFx_releases (hd : (d.comp chase).drnLive = true) (he : (d.comp chase).drn = epoch) (hc : (d.comp chase).drnClosed = true)
    (hl : (d.comp chase).lateClose = []) (hn : countOf_ (d.comp chase) epoch = 0) :
    drainPollFx chase (.epoch epoch) d = releaseEpoch (d.modComp chase fun c => { c with inflight := 0 }) chase := by
  simp [drainPollFx, hd, he, hc, hl, hn]

theorem drainPollFx_counts (hd : (d.comp chase).drnLive = true) (he : (d.comp chase).drn = epoch) (hn : 0 < countOf_ (d.comp chase) epoch) :
    drainPollFx chase (.epoch epoch) d =
      d.modComp chase fun c => { c with inflight := min (countOf_ (d.comp chase) epoch) 524287 } := by
  simp [drainPollFx, hd, he, Nat.pos_iff_ne_zero.1 hn]

theorem drainboundFx_straggles (hd : (d.comp chase).drnLive = true) (he : (d.comp chase).drn = epoch) (hp : (d.comp chase).phase = .idle) :
    drainboundFx chase (.epoch epoch) d = releaseEpoch (straggleAll d chase epoch) chase :=
  if_pos ⟨hd, he, hp⟩

theorem releaseApplyFx_late (hl : (d.comp chase).lateRel.contains die = true) :
    releaseApplyFx chase die d =
      dropFast (d.modComp chase fun c => { c with lateRel := c.lateRel.filter (· != die) }) chase (d.comp chase).drn [die] := by
  simp only [releaseApplyFx, hl]
  rfl

/-! ### Vacated frames and fast-path fills (R51, R63) -/

theorem fencedFx_frees (hv : d.imp.vacated.contains (kind, target, frame) = true)
    (hl : (d.pool.lines.any fun c => c.loc == ({ kind := kind, target := target, frame := frame } : Loc)) = false)
    (hd : (d.pool.dir.any fun e => e.loc == ({ kind := kind, target := target, frame := frame } : Loc)) = false) :
    fencedFx kind target frame d =
      giveFrame { d with imp := { d.imp with vacated := d.imp.vacated.filter (· != (kind, target, frame)) } } (kind, target, frame) := by
  simp only [fencedFx, hv, hl, hd]
  rfl

/-- The requests that waited for the entry go on, in front of what has arrived; the others keep waiting. -/
theorem fillDoneFx_goes (hfe : fe = { die := die, chase := chase, epoch := epoch, kind := kind, key := n })
    (hw : (d.imp.waitFill.filter fun w => w.2 == fe) ≠ []) (h1 : d1 = fastPut d fe) :
    fillDoneFx die chase epoch kind n d =
      { d1 with imp := { d1.imp with waitFill := d.imp.waitFill.filter fun w => !(w.2 == fe) }
                arrived := (d.imp.waitFill.filter fun w => w.2 == fe).map Prod.fst ++ d1.arrived } := by
  subst hfe h1
  have hne : (d.imp.waitFill.filter fun w => w.2 == { die := die, chase := chase, epoch := epoch, kind := kind, key := n }).isEmpty
      = false := by simpa using hw
  simp only [fillDoneFx, List.partition_eq_filter_filter, hne]
  rfl

/-! ### The Imposer's own stages (R56) -/

/-- The Imposer may act on its own in a chase: REBAL is armed, the chase runs, drains nothing, and its domain is free. -/
structure MayRebalance (d : Dev) (chase : Nat) : Prop where
  bound : (d.comp chase).bound = true
  alive : (d.comp chase).destroying = false
  running : (d.comp chase).suspended = false
  drained : (d.comp chase).drnLive = false
  armed : d.flag .fltComppol chase 31 = true
  free : d.domBusy (.chase chase) = false

theorem rebalFx_stages (h : MayRebalance d chase) (hn : (d.comp chase).staged = none)
    (hs : stageComp d chase (d.comp chase).curF.req true false q = ((.ok, r, n), d1)) (hg : (d1.comp chase).staged = some g)
    (hm : g.moving = []) : rebalFx chase q d = selfCommit d1 chase := by
  obtain ⟨hb, ha, hr, hd, hf, hx⟩ := h
  simp [rebalFx, hb, ha, hr, hd, hf, hx, hn, hs, hg, hm]

theorem rebalFx_commits (h : MayRebalance d chase) (hg : (d.comp chase).staged = some g) (hi : g.byImposer = true) (hm : g.moving = [])
    (ha : g.adm = .ok) : rebalFx chase q d = selfCommit d chase := by
  obtain ⟨hb, hal, hr, hd, hf, hx⟩ := h
  simp [rebalFx, hb, hal, hr, hd, hf, hx, hg, hi, hm, ha]

/-! ### Moving folios (R71, R72) -/

theorem migStartFx_starts (hf : tfind (d.comp chase).curF.folios folio = some f) (hm : f.mig = true) (hd : (d.comp chase).drnLive = false)
    (hp : (d.comp chase).phase = .idle) (hn : ((d.comp chase).migs.any fun m => m.1 == folio) = false) :
    migStartFx chase folio d = copyRead (d.modComp chase fun c => { c with migs := c.migs ++ [(folio, 0)] }) chase folio 0 := by
  simp only [migStartFx, hf, hd, hp, hn, Option.map_some, Option.getD_some, hm]
  rfl

/-- Folios in dual-write under the current forme. -/
def dualFolios (d : Dev) (chase : Nat) : List Nat := ((d.comp chase).curF.folios.filter fun e => e.2.mig).map Prod.fst

/-- A chase's own move may commit: nothing drains, switches or is staged, and its domain is free. -/
structure MayMove (d : Dev) (chase : Nat) : Prop where
  drained : (d.comp chase).drnLive = false
  idle : (d.comp chase).phase = .idle
  unstaged : (d.comp chase).staged = none
  alive : (d.comp chase).destroying = false
  free : d.domBusy (.chase chase) = false

theorem migCompleteFx_commits (hm : (dualFolios d chase).contains folio = true)
    (hall : ((dualFolios d chase).all fun n => (d.comp chase).migs.any fun m => m.1 == n && m.2 == 8192) = true) (h : MayMove d chase)
    (hg : g = { forme := migForme (d.comp chase).curF, changed := (dualFolios d chase).length,
                ents := d.imp.members.filter fun m => m.chase == chase && !m.trunk, byImposer := true }) :
    migCompleteFx chase folio d = selfCommit (d.modComp chase fun c => { c with staged := some g, migs := [] }) chase := by
  obtain ⟨hd, hp, hs, ha, hb⟩ := h
  subst hg
  unfold dualFolios at hm hall ⊢
  simp only [migCompleteFx, hm, hall, hd, hp, hs, ha, hb]
  rfl

/-! ### The end of a composition (R73) -/

theorem chaseFreeFx_frees (hd : (d.comp chase).destroying = true) (hc : (d.comp chase).curDead = true) (hl : (d.comp chase).drnLive = false) :
    chaseFreeFx chase d = (meterNote (purgeChase d chase) false chase).finish 0x0302 chase .ok :=
  if_pos ⟨hd, hc, by simp [hl]⟩

end Course

/-- Settles O12: every step of the course is the effect of its command in the phase and with the counts the statement gives it. -/
theorem commitAndDrain : Obligations.CommitAndDrain := by
  rintro s chase die e t kind target frame key c rfl
  refine ⟨fun hp hl => ?pressAcks, fun hl hp hd => ?pressApplies, fun hl hp hd => ?portApplies, fun hp hl => ?complete,
    fun hd he hp hc => ?hold, ?tableHold, ?closeApplies, fun hd he hc hl hn => ?poll, fun hd he hn => ?counts, ?tablePoll,
    fun hd he hp => ?bound, ?tableBound, fun hl => ?release, fun hv hl hd => ⟨_, rfl, ?fenced⟩, ⟨_, rfl, fun hw => ⟨_, rfl, ?filled⟩⟩⟩
  case pressAcks => exact Does.of_eq (does_onDev rfl) (commitOn_ports hp hl)
  case pressApplies => exact Does.of_eq (does_onDev rfl) (updateApplyFx_press hl hp hd)
  case portApplies => exact Does.of_eq (does_onDev rfl) (updateApplyFx_port hl hp hd)
  case complete => exact Leads.of_eq (leads_onPool rfl) (switchCompleteFx_done hp hl)
  case hold => exact Does.of_eq (does_onDev rfl) (drainholdFx_closes hd he hp hc)
  case tableHold => exact Does.of_eq (does_onDev rfl) rfl
  case closeApplies => rfl
  case poll => exact Leads.of_eq (leads_onPool rfl) (drainPollFx_releases hd he hc hl hn)
  case counts => exact Leads.of_eq (leads_onPool rfl) (drainPollFx_counts hd he hn)
  case tablePoll => exact Leads.of_eq (leads_onPool rfl) rfl
  case bound => exact Leads.of_eq (leads_onPool rfl) (drainboundFx_straggles hd he hp)
  case tableBound => exact Leads.of_eq (leads_onPool rfl) rfl
  case release => exact Does.of_eq (does_onDev rfl) (releaseApplyFx_late hl)
  case fenced => exact Does.of_eq (does_onDev rfl) (fencedFx_frees hv hl hd)
  case filled => exact Does.of_eq (does_onDev rfl) (fillDoneFx_goes rfl hw rfl)

/-- Settles O13: the Imposer's moves and the end of a chase are the effects of their commands under the conditions of their rules. -/
theorem movesAndEnd : Obligations.MovesAndEnd := by
  rintro s chase folio r n q c d f g rfl
  refine ⟨fun hb ha hr hd hf hx hn hs hg hm => ?stages, fun hb ha hr hd hf hx hg hi hm hok => ?commits, fun hf hm hd hp hn => ?copyStarts,
    fun hm hall hd hp hs ha hx hg => ?copyEnds, fun hd hc hl => ?freed⟩
  case stages => exact Leads.of_eq (leads_onPool rfl) (rebalFx_stages ⟨hb, ha, hr, hd, hf, hx⟩ hn hs hg hm)
  case commits => exact Leads.of_eq (leads_onPool rfl) (rebalFx_commits ⟨hb, ha, hr, hd, hf, hx⟩ hg hi hm hok)
  case copyStarts => exact Leads.of_eq (leads_onPool rfl) (migStartFx_starts hf hm hd hp hn)
  case copyEnds => exact Leads.of_eq (leads_onPool rfl) (migCompleteFx_commits hm hall ⟨hd, hp, hs, ha, hx⟩ hg)
  case freed => exact Leads.of_eq (leads_onPool rfl) (chaseFreeFx_frees hd hc hl)

end Sys2Proof
end

section
/-! PROOF. Admission of packets and the duplicate filters of their homes (AdmissionAndDuplicates). -/

namespace Sys2Proof
open Machine

/-! ### Admission (R43, R60, R126) -/

section Admission

variable {d : Dev} {x : Rx} {m : MemberEnt} {cont : Bool}

/-- A packet's arrival leaves the links. -/
theorem arrivedPkt_link (p : Nat) : (arrivedPkt d x).link p = d.link p := by
  unfold arrivedPkt
  dsimp only
  split
  · rfl
  · rfl

theorem hdrCheck_ok (hl : laneOk x.pkt x.vl = true) (hf : fieldsOk x.pkt (d.link x.port).ptype = true) :
    hdrCheck d x = .ok (arrivedPkt d x) := by
  simp [hdrCheck, arrivedPkt_link, hl, hf]

theorem hdrCheck_badFields (hl : laneOk x.pkt x.vl = true) (hf : fieldsOk x.pkt (d.link x.port).ptype = false)
    (hr : isRequest x.pkt = true) : hdrCheck d x = .error (refuse (hdrErr (arrivedPkt d x) x.port) x .unsupported) := by
  simp [hdrCheck, arrivedPkt_link, hl, hf, hr]

/-- A request that fails a step is refused, and the step counted. -/
theorem failStep_request (hr : isRequest x.pkt = true) (step : Nat) (st : Status) :
    failStep d x step st = refuse (chkCount d x.pkt.chase step) x st := if_pos hr

theorem memberCheck_stranger (hs : (d.comp x.pkt.chase).suspended = false) (hm : memberOf d x.port x.pkt = none)
    (hr : isRequest x.pkt = true) : memberCheck d x = .error (refuse (chkCount d x.pkt.chase 1) x .denied) := by
  simp [memberCheck, hs, hm, failStep_request hr]

theorem memberCheck_otherParty (hs : (d.comp x.pkt.chase).suspended = false) (hm : memberOf d x.port x.pkt = some m)
    (ht : m.trunk = false) (hp : m.party ≠ x.pkt.party) (hr : isRequest x.pkt = true) :
    memberCheck d x = .error (refuse (chkCount d x.pkt.chase 2) x .denied) := by
  simp [memberCheck, hs, hm, ht, hp, failStep_request hr]

theorem memberCheck_ok (hs : (d.comp x.pkt.chase).suspended = false) (hm : memberOf d x.port x.pkt = some m)
    (hp : m.party = x.pkt.party) : memberCheck d x = .ok d := by
  simp [memberCheck, hs, hm, hp]

/-- A packet of an epoch that is neither current nor draining at its die is a straggler, whether it continues an operation or not. -/
theorem epochCheck_straggler (hb : (d.comp x.pkt.chase).bound = true) (hd : (d.comp x.pkt.chase).destroying = false)
    (hc : x.pkt.epoch ≠ (epochView (d.comp x.pkt.chase) (portDie x.port)).1)
    (hn : (epochView (d.comp x.pkt.chase) (portDie x.port)).2.1 ≠ some x.pkt.epoch) :
    epochCheck d x cont = .error (straggle d x) := by
  simp [epochCheck, hb, hd, hc, hn]

end Admission

/-! ### Duplicate filters (R135, R136) -/

section Filters

variable {d : Dev} {id : Nat} {home : Home} {o : Outst} {e : FilterEnt} {r : Pkt}

/-- The filter entry of a request's key at a home. -/
abbrev filterEnt (d : Dev) (home : Home) (k : Pkt) : Option FilterEnt :=
  d.tfp.filters.find? fun e => e.home == home && e.src == k.src && e.chase == k.chase && e.tag == k.tag

/-- Entries of a home. -/
abbrev filterUsed (d : Dev) (home : Home) : Nat := (d.tfp.filters.filter fun e => e.home == home).length

/-- The entry a fresh request takes. -/
abbrev freshEnt (home : Home) (k : Pkt) (id : Nat) : FilterEnt :=
  { home := home, src := k.src, chase := k.chase, tag := k.tag, opc := k.opc, w2 := k.w2, w3 := k.w3, own := id }

/-- A request is at its home. -/
abbrev atHome (d : Dev) (id : Nat) (home : Home) : Dev := d.modOutst id fun o => { o with home := home }

/-- A reissue asks for what its entry records. -/
abbrev sameOperands (e : FilterEnt) (k : Pkt) : Prop := e.opc = k.opc ∧ e.w2 = k.w2 ∧ e.w3 = k.w3

@[simp] theorem modOutst_filters (f : Outst → Outst) : (d.modOutst id f).tfp.filters = d.tfp.filters := rfl

theorem filterCheck_fresh (ho : d.outst id = some o) (hf : filterEnt d home o.pkt = none) (hr : filterUsed d home < filterCap home) :
    ∃ d', filterCheck d id home = .ok d' ∧ d'.tfp.filters = d.tfp.filters ++ [freshEnt home o.pkt id] :=
  ⟨_, by simp [filterCheck, ho, hf, Nat.not_le.2 hr]; rfl, rfl⟩

theorem filterCheck_full (ho : d.outst id = some o) (hf : filterEnt d home o.pkt = none) (hr : filterCap home ≤ filterUsed d home) :
    filterCheck d id home = .error (answer ((atHome d id home).count .cFiltfull (homeDie home)) id .retry) := by
  simp [filterCheck, ho, hf, hr, atHome]

theorem filterCheck_mismatch (ho : d.outst id = some o) (hf : filterEnt d home o.pkt = some e) (hr : o.pkt.rtry = true)
    (hm : ¬ sameOperands e o.pkt) :
    filterCheck d id home = .error (answer ((atHome d id home).count .cDupmism (homeDie home)) id .unsupported) := by
  have hother : e.opc ≠ o.pkt.opc ∨ e.w2 ≠ o.pkt.w2 ∨ e.w3 ≠ o.pkt.w3 := by tauto
  simp only [filterCheck, ho, modOutst_filters, hf, hr, if_pos hother]
  rfl

theorem filterCheck_absorbs (ho : d.outst id = some o) (hf : filterEnt d home o.pkt = some e) (hr : o.pkt.rtry = true)
    (hm : sameOperands e o.pkt) (hd : e.done = false) :
    filterCheck d id home =
      .error (((atHome d id home).modOutst id fun o => { o with absorbed := some e.own }).count .cDuphit (homeDie home)) := by
  obtain ⟨h1, h2, h3⟩ := hm
  simp [filterCheck, ho, hf, hr, h1, h2, h3, hd, atHome]

theorem filterCheck_repeats (ho : d.outst id = some o) (hf : filterEnt d home o.pkt = some e) (hr : o.pkt.rtry = true)
    (hm : sameOperands e o.pkt) (hd : e.done = true) (hresp : e.resp = some r) :
    ∃ d', filterCheck d id home = .error (sendResp d' o.die { r with dup := true }) := by
  obtain ⟨h1, h2, h3⟩ := hm
  exact ⟨_, by simp [filterCheck, ho, hf, hr, h1, h2, h3, hd, hresp]; rfl⟩

end Filters

/-- Settles O18: admission is the checks in their order; a filter's answer is that of the entry it finds. -/
theorem admissionAndDuplicates : Obligations.AdmissionAndDuplicates := by
  refine ⟨fun d x m cont => ⟨hdrCheck_ok, hdrCheck_badFields, memberCheck_stranger, memberCheck_otherParty, memberCheck_ok,
    fun hb hd hc hn hr => ?straggler⟩, fun d id home o e r ho => ⟨filterCheck_fresh ho, fun hf hr => ⟨_, filterCheck_full ho hf hr⟩,
    fun hf hr => ⟨fun hm => ?mismatch, fun h1 h2 h3 hd => ?absorbed, fun h1 h2 h3 hd hresp => ?answered⟩⟩⟩
  case straggler => rw [epochCheck_straggler hb hd hc hn, straggle, failStep_request hr]
  case mismatch =>
    have hother : ¬ sameOperands e o.pkt := by tauto
    exact ⟨_, filterCheck_mismatch ho hf hr hother, Dev.count_counter (atHome d id home) _ _⟩
  case absorbed => exact ⟨_, filterCheck_absorbs ho hf hr ⟨h1, h2, h3⟩ hd, Dev.count_counter ((atHome d id home).modOutst id _) _ _, rfl, rfl⟩
  case answered => exact filterCheck_repeats ho hf hr ⟨h1, h2, h3⟩ hd hresp

end Sys2Proof
end

section
/-! PROOF. Flits as a port receives them (FlitsAndSequenceNumbers), and the bring-up of its link (LinkBringUpAndFaults). -/

namespace Sys2Proof
open Machine

/-! ### Sequenced flits (R99, R100) -/

section Received

variable {d : Dev} {p q : Nat} {crcOk tagOk : Bool}

/-- The device that has counted a flit it cannot take (R100). -/
abbrev refusedFlit (d : Dev) (p : Nat) (crcOk : Bool) : Dev := if crcOk then d.count .cAuthfail p else d.count .cCrcerr p

/-- The device that has taken the flit it expected, before any acknowledgement (R99, R100). -/
abbrev takenFlit (d : Dev) (p : Nat) : Dev :=
  (d.modLink p fun l => { l with
    rxExp := seqAdd l.rxExp 1, nakPend := false, sinceAck := l.sinceAck + 1, rxExt := l.rxExt + 1 }).count .cFlitrx p

theorem recvSeq_closed (h : (d.link p).st = .down ∨ (d.link p).st = .fault) : recvSeq d p q crcOk tagOk = (false, d) := if_pos h

section Open

variable (hst : ¬((d.link p).st = .down ∨ (d.link p).st = .fault))
include hst

theorem recvSeq_bad (hb : (!crcOk || !tagOk) = true) :
    recvSeq d p q crcOk tagOk = if (refusedFlit d p crcOk).flag .fltPortpol p 31 then (false, nak (refusedFlit d p crcOk) p)
      else (false, enterFault (refusedFlit d p crcOk) p 0x03) :=
  (if_neg hst).trans (if_pos hb)

theorem recvSeq_unexpected (hq : q ≠ (d.link p).rxExp) : recvSeq d p q true true = (false, nak d p) :=
  (if_neg hst).trans (if_pos hq)

theorem recvSeq_expected :
    recvSeq d p (d.link p).rxExp true true =
      (true, if 32 ≤ ((takenFlit d p).link p).sinceAck then sendAck (takenFlit d p) p else takenFlit d p) :=
  (if_neg hst).trans (if_neg (not_not_intro rfl))

end Open

end Received

/-! ### Control flits (R96, R100) -/

/-- A control flit that is taken has its body's effect. -/
theorem ctlRx_took {d e : Dev} {p : Nat} {h : FlitHdr} {body : Dev → Dev} (ht : took d p h = some e) : ctlRx p h body d = body e := by
  unfold took at ht
  unfold ctlRx
  rcases hr : recvSeq d p h.fseq h.crcOk true with ⟨_ | _, e'⟩ <;> rw [hr] at ht
  · cases ht
  · cases ht
    rfl

section Flits

variable {d e : Dev} {p q : Nat} {h : FlitHdr} {f : Flit} {counts : List Nat}

/-! ### Data and idle flits, acknowledgements, credits owed (R89–R91, R99–R102, R154) -/

theorem dataFlitFx_taken (hr : recvSeq d p f.fseq (crcGood f) true = (true, e)) (he : f.enc = false) :
    dataFlitFx p f d =
      if flitReserved ((headerRx e p f.ackseq f.nak f.crvl f.crcnt).link p) f then
        protoErr ((headerRx e p f.ackseq f.nak f.crvl f.crcnt).modLink p fun l =>
          { l with asm := tmod {} l.asm f.vl fun a => { a with bytes := [], dead := true } }) p
      else assemble (headerRx e p f.ackseq f.nak f.crvl f.crcnt) p f f.payload := by
  simp [dataFlitFx, he, hr]

theorem idleFlitFx_acks (hc : h.crcOk = true) (hn : h.nak = false) : idleFlitFx p h d = ackRx d p h.ackseq := by
  simp [idleFlitFx, hc, hn]

theorem ackTimeoutFx_replays (h : (d.link p).replay ≠ []) : ackTimeoutFx p d = replay d p := by
  simp [ackTimeoutFx, h]

theorem creditReturnFx_returns (h : ∃ e ∈ (d.link p).ret, 0 < e.2) :
    creditReturnFx p d =
      sendCtl (d.modLink p fun l => { l with ret := [] }) p (.credit ((d.link p).ret.filter fun e => decide (0 < e.2))) :=
  if_pos (by simpa using h)

/-! ### What a receiver makes of a sequence number (R100) -/

/-- An acknowledgement leaves what is expected and whether a replay is asked for. -/
theorem sendAck_rxExp : ((sendAck d p).link p).rxExp = (d.link p).rxExp := by simp [sendAck]

theorem sendAck_nakPend : ((sendAck d p).link p).nakPend = (d.link p).nakPend := by simp [sendAck]

theorem sendAck_counter (c : CntName) (u : Nat) : (sendAck d p).counter c u = d.counter c u := rfl

theorem nak_nakPend : ((nak d p).link p).nakPend = true := by
  unfold nak
  split
  · assumption
  · simp [sendAck]

theorem nak_rxExp : ((nak d p).link p).rxExp = (d.link p).rxExp := by
  unfold nak
  split
  · rfl
  · simp [sendAck]

/-- Counters of one unit are kept apart. -/
theorem count_counter_other {c c' : CntName} (hc : c.ctorIdx ≠ c'.ctorIdx) : (d.count c' p).counter c p = d.counter c p :=
  tget_tput_other _ _ _ _ _ (by unfold cntKey; omega)

/-- Asking for a replay counts in NAKTX alone. -/
theorem nak_counter {c : CntName} (hc : c.ctorIdx ≠ CntName.cNaktx.ctorIdx) : (nak d p).counter c p = d.counter c p := by
  unfold nak
  split
  · rfl
  · exact count_counter_other (d := d.modLink p fun l => { l with nakPend := true }) hc

section Open

variable (hst : ¬((d.link p).st = .down ∨ (d.link p).st = .fault))
include hst

theorem recvSeq_expected_accepts :
    (recvSeq d p (d.link p).rxExp true true).1 = true
      ∧ ((recvSeq d p (d.link p).rxExp true true).2.link p).rxExp = ((d.link p).rxExp + 1) % 4096
      ∧ ((recvSeq d p (d.link p).rxExp true true).2.link p).nakPend = false
      ∧ (recvSeq d p (d.link p).rxExp true true).2.counter .cFlitrx p = satAdd64 (d.counter .cFlitrx p) 1 := by
  have htaken : ((takenFlit d p).link p).rxExp = ((d.link p).rxExp + 1) % 4096 ∧ ((takenFlit d p).link p).nakPend = false
      ∧ (takenFlit d p).counter .cFlitrx p = satAdd64 (d.counter .cFlitrx p) 1 := by
    simp [takenFlit, seqAdd]
  rw [recvSeq_expected hst]
  refine ⟨rfl, ?_⟩
  dsimp only
  split
  · rw [sendAck_rxExp, sendAck_nakPend, sendAck_counter]
    exact htaken
  · exact htaken

theorem recvSeq_unexpected_asks (hq : q ≠ (d.link p).rxExp) :
    (recvSeq d p q true true).1 = false ∧ ((recvSeq d p q true true).2.link p).rxExp = (d.link p).rxExp
      ∧ ((recvSeq d p q true true).2.link p).nakPend = true := by
  rw [recvSeq_unexpected hst hq]
  exact ⟨rfl, nak_rxExp, nak_nakPend⟩

theorem recvSeq_badCrc_asks (hf : d.flag .fltPortpol p 31 = true) :
    (recvSeq d p q false true).1 = false ∧ ((recvSeq d p q false true).2.link p).nakPend = true
      ∧ (recvSeq d p q false true).2.counter .cCrcerr p = satAdd64 (d.counter .cCrcerr p) 1 := by
  have hr : recvSeq d p q false true = (false, nak (d.count .cCrcerr p) p) := (recvSeq_bad hst rfl).trans (if_pos hf)
  rw [hr]
  exact ⟨rfl, nak_nakPend, (nak_counter (by decide)).trans (Dev.count_counter d _ _)⟩

theorem recvSeq_badCrc_faults (hf : d.flag .fltPortpol p 31 = false) :
    recvSeq d p q false true = (false, enterFault (d.count .cCrcerr p) p 3) :=
  (recvSeq_bad hst rfl).trans (if_neg (Bool.eq_false_iff.1 hf))

end Open

end Flits

/-- Settles O15: the effects of the flits and timers, and the branches of the receiver by the flit's CRC and sequence number. -/
theorem flitsAndSequenceNumbers : Obligations.FlitsAndSequenceNumbers := by
  refine ⟨fun s p h f d => ⟨fun hr he hv => ?data, fun hr he hv => ?reserved, fun hc hn => ?idle, fun hr => ?replay, fun hn => ?nak,
    fun ha => ?ack, fun hc => ?credit⟩, fun d p q hdown hfault => ?sequence⟩
  case data => exact Does.of_eq (does_onDev rfl) ((dataFlitFx_taken hr he).trans (if_neg (by simp [hv])))
  case reserved => exact Does.of_eq (does_onDev rfl) ((dataFlitFx_taken hr he).trans (if_pos hv))
  case idle => exact Does.of_eq (does_onDev rfl) (idleFlitFx_acks hc hn)
  case replay => exact Does.of_eq (does_onDev rfl) (ackTimeoutFx_replays hr)
  case nak => exact Does.of_eq (does_onDev rfl) (if_pos hn)
  case ack => exact Does.of_eq (does_onDev rfl) (if_neg ha)
  case credit => exact Does.of_eq (does_onDev rfl) (creditReturnFx_returns hc)
  case sequence =>
    have hopen : ¬((d.link p).st = .down ∨ (d.link p).st = .fault) := not_or.2 ⟨hdown, hfault⟩
    refine ⟨?_, recvSeq_unexpected_asks hopen, recvSeq_badCrc_asks hopen, recvSeq_badCrc_faults hopen⟩
    rintro rfl
    exact recvSeq_expected_accepts hopen

/-! ### Bring-up (R93, R96, R103) -/

section BringUp

variable {d e : Dev} {p eid pt caps sp n : Nat} {h : FlitHdr} {counts : List Nat}

/-- The first HELLO a port in training hears records the partner and is answered by HELLO and CREDIT_INIT. -/
theorem helloFx_first (ht : took d p h = some e) (hst : (e.link p).st = .training) (hh : (e.link p).hello = false) (hp : pt < 3) :
    helloFx p h eid pt caps sp false d =
      goUp p ((sendCtl (sendHello (e.modLink p fun l =>
          { l with st := .training, fecLock := true, hello := true, peer := eid, ptype := pt, caps := bits caps 3 0 }) p false) p
          (.creditInit (ownCredits e))).modLink p fun l =>
        { l with crSent := true, charge := (upTo 18).map fun v => (v, ((ownCredits e)[v]?).getD 0) }) := by
  refine (ctlRx_took ht).trans ?_
  simp only [hst, hh, if_neg (Nat.not_le.2 hp)]
  rfl

theorem creditInitFx_short (ht : took d p h = some e) (hst : (e.link p).st = .training) (hc : ∃ v < 18, (counts[v]?).getD 0 < 17) :
    creditInitFx p h counts d = enterFault e p 5 := by
  have hany : ((upTo 18).any fun v => decide ((counts[v]?).getD 0 < 17)) = true := by simpa [upTo] using hc
  exact (ctlRx_took ht).trans ((if_neg (not_not_intro hst)).trans (if_pos hany))

/-- The device that has the partner's CREDIT_INIT (R103). -/
abbrev credited (d : Dev) (p : Nat) (counts : List Nat) : Dev :=
  d.modLink p fun l => { l with crGot := true, credits := (upTo 18).map fun v => (v, (counts[v]?).getD 0) }

theorem creditInitFx_enough (ht : took d p h = some e) (hst : (e.link p).st = .training) (hc : ∀ v < 18, 17 ≤ (counts[v]?).getD 0) :
    creditInitFx p h counts d = goUp p (credited e p counts) := by
  have hany : ((upTo 18).any fun v => decide ((counts[v]?).getD 0 < 17)) = false := by simpa [upTo] using hc
  exact (ctlRx_took ht).trans ((if_neg (not_not_intro hst)).trans (if_neg (Bool.eq_false_iff.1 hany)))

theorem reservedCtype_counts (ht : took d p h = some e) (hn : n = 0 ∨ 0x0E ≤ n) :
    (if n = 0 ∨ 0x0E ≤ n then reservedCtypeFx p h d else d) = protoErr e p :=
  (if_pos hn).trans (ctlRx_took ht)

/-- The end of a port's reset changes no link. -/
theorem resetPortDone_link (q : Nat) : (resetPortDone d p).link q = d.link q := by
  unfold resetPortDone
  split <;> simp

/-- A port in training whose CREDIT_INIT went both ways is UP. -/
theorem goUp_link (hs : (d.link p).crSent = true) (hg : (d.link p).crGot = true) (hst : (d.link p).st = .training) :
    (goUp p d).link p = { d.link p with st := .up, encact := d.flag .ptPortCfg p 30 } := by
  have hlink : (d.modLink p fun l => { l with st := .up, encact := d.flag .ptPortCfg p 30 }).link p
      = { d.link p with st := .up, encact := d.flag .ptPortCfg p 30 } := Dev.modLink_link d p _
  have hup : (d.link p).crSent = true ∧ (d.link p).crGot = true ∧ (d.link p).st = .training := ⟨hs, hg, hst⟩
  unfold goUp
  rw [if_pos hup, resetPortDone_link, Dev.notice_link]
  exact hlink

/-- A port in training that faults is in FAULT with the cause given. -/
theorem enterFault_training_link (hst : (d.link p).st = .training) :
    ((enterFault d p n).link p).st = .fault ∧ ((enterFault d p n).link p).lastdown = n := by
  have hlive : ¬((d.link p).st = .down ∨ (d.link p).st = .fault) := by simp [hst]
  have hcarry : (d.link p).st.carries = false := by rw [hst]; rfl
  simp [enterFault, if_neg hlive, hcarry, resetPortDone_link]

end BringUp

/-- Settles O14: the effects of the bring-up's events, and where CREDIT_INIT leaves the port. -/
theorem linkBringUpAndFaults : Obligations.LinkBringUpAndFaults := by
  refine ⟨fun s p h d eid pt caps sp ct counts => ⟨fun hst hf => ?fecLock, fun hst hf hh => ?helloRepeat, fun hst hf hh => ?helloTimeout,
    fun ht hst hh hp => ?hello, fun ht hst hc => ?creditInit, fun ht => ?credit, fun ht hc => ?reserved⟩,
    fun s p h d counts ht hst => ⟨fun hc hs => ?up, fun hc => ?fault⟩⟩
  case fecLock => exact Does.of_eq (does_onDev rfl) (if_pos ⟨hst, by simp [hf]⟩)
  case helloRepeat => exact Does.of_eq (does_onDev rfl) (if_pos ⟨hst, hf, by simp [hh]⟩)
  case helloTimeout => exact Does.of_eq (does_onDev rfl) (if_pos ⟨hst, hf, by simp [hh]⟩)
  case hello => exact ⟨_, rfl, Does.of_eq (does_onDev rfl) (helloFx_first ht hst hh hp)⟩
  case creditInit => exact Does.of_eq (does_onDev rfl) (creditInitFx_enough ht hst hc)
  case credit => exact Does.of_eq (does_onDev rfl) (ctlRx_took ht)
  case reserved => exact Does.of_eq (does_onDev rfl) (reservedCtype_counts ht hc)
  case up =>
    refine ⟨_, Does.of_eq (does_onDev rfl) (creditInitFx_enough ht hst hc), ?_⟩
    have hlink := goUp_link (d := credited d p counts) (p := p) (by simpa using hs) (by simp) (by simpa using hst)
    exact ⟨congrArg Link.st hlink, (congrArg Link.crGot hlink).trans (by simp)⟩
  case fault =>
    refine ⟨_, Does.of_eq (does_onDev rfl) (creditInitFx_short ht hst hc), ?_⟩
    exact enterFault_training_link hst

end Sys2Proof
end

section
/-! PROOF. The procedures of a link: spare lanes and narrowing (LaneRepair), keys in use, TRICKLE and WAKE (KeysTrickleWake). -/

namespace Sys2Proof
open Machine

section Lanes

variable {d e : Dev} {p lane n u a b half : Nat} {h : FlitHdr} {r : ProcRun}

/-! ### Failed lanes and spares (R104–R106) -/

/-- The device that has counted a lane's window (R104, R499). -/
abbrev windowCounted (d : Dev) (p n u : Nat) : Dev :=
  ((d.countN .cFeccorr p n).countN .cFecuncorr p u).corrected (dPT (portDie p)) 13 n

theorem laneWindowFx_fails (hn : 2 ^ d.fld .ptPortCfg p 7 0 < n) (hl : laneInPort (windowCounted d p n u) p lane = true) :
    laneWindowFx p lane n u d = laneFail p lane (windowCounted d p n u) := if_pos ⟨hn, hl⟩

theorem laneWindowFx_counts (hn : n ≤ 2 ^ d.fld .ptPortCfg p 7 0) : laneWindowFx p lane n u d = windowCounted d p n u :=
  if_neg fun hf => Nat.not_lt.2 hn hf.1

theorem spareReqFx_swaps (ht : took d p h = some e) (hs : stands e p .spare = true) (hsp : (octSpares e (p / 8)).contains b = true)
    (hb : (e.link p).spareBad.contains b = false) :
    spareReqFx p h a b d = swapLane (sendCtl (preempt e p) p (.spareAck a b false)) p a b :=
  (ctlRx_took ht).trans (if_pos ⟨hs, hsp, by rw [hb]; rfl⟩)

theorem spareAckFx_swaps (ht : took d p h = some e) (hr : (e.link p).proc = some { kind := .spare, a := a, b := b })
    (hl : ((swapLane e p a b).link p).replay = []) : spareAckFx p h a b false d = swapLane e p a b := by
  refine (ctlRx_took ht).trans ?_
  simp [hr, hl]

theorem spareAckTmoFx_fails (hr : (d.link p).proc = some r) (hk : r.kind = .spare) (hm : r.mine = true) :
    spareAckTmoFx p d = swapFailed d p := by
  simp [spareAckTmoFx, hr, hk, hm]

/-! ### Narrowing (R107) -/

theorem narrowReqFx_narrows (ht : took d p h = some e) (hs : stands e p .narrow = true) (hw : 2 ≤ octLanes e (p / 8))
    (hn : (e.link p).narrowed = false) (hf : (e.link p).failed = [])
    (hl : ((narrowTo (sendCtl (preempt e p) p (.narrowAck half false)) p half).link p).replay ≠ []) :
    narrowReqFx p h half d = replay (narrowTo (sendCtl (preempt e p) p (.narrowAck half false)) p half) p := by
  refine (ctlRx_took ht).trans ?_
  simp [hs, hw, hn, hf, hl]

theorem narrowAckFx_narrows (ht : took d p h = some e) (hr : (e.link p).proc = some { kind := .narrow, a := half })
    (hl : ((narrowTo e p half).link p).replay = []) : narrowAckFx p h half false d = narrowTo e p half := by
  refine (ctlRx_took ht).trans ?_
  simp [hr, hl]

theorem narrowAckTmoFx_faults (hr : (d.link p).proc = some r) (hk : r.kind = .narrow) (hm : r.mine = true) :
    narrowAckTmoFx p d = enterFault d p 0x04 := by
  simp [narrowAckTmoFx, hr, hk, hm]

end Lanes

/-- Settles O16: each event's effect in the case named, by the branch of its meaning that the case takes. -/
theorem laneRepair : Obligations.LaneRepair := by
  intro s p lane n u a b half oct h d r
  refine ⟨fun hl => ?lockLoss, fun hn hl => ?windowFails, fun hn => ?windowCounts, fun ht hs hsp hb => ?spareReq, fun ht hr hl => ?spareAck,
    fun hr hk hm => ?spareTimeout, ?spareHello, fun ht hs hw hn hf hl => ?narrowReq, fun ht hr hl => ?narrowAck,
    fun hr hk hm => ?narrowTimeout⟩
  case lockLoss => exact Does.of_eq (does_onDev rfl) (if_pos hl)
  case windowFails => exact Does.of_eq (does_onDev rfl) (laneWindowFx_fails hn hl)
  case windowCounts => exact Does.of_eq (does_onDev rfl) (laneWindowFx_counts hn)
  case spareReq => exact Does.of_eq (does_onDev rfl) (spareReqFx_swaps ht hs hsp hb)
  case spareAck => exact Does.of_eq (does_onDev rfl) (spareAckFx_swaps ht hr hl)
  case spareTimeout => exact Does.of_eq (does_onDev rfl) (spareAckTmoFx_fails hr hk hm)
  case spareHello => exact does_onDev (f := spareHelloFx oct []) rfl
  case narrowReq => exact Does.of_eq (does_onDev rfl) (narrowReqFx_narrows ht hs hw hn hf hl)
  case narrowAck => exact Does.of_eq (does_onDev rfl) (narrowAckFx_narrows ht hr hl)
  case narrowTimeout => exact Does.of_eq (does_onDev rfl) (narrowAckTmoFx_faults hr hk hm)

section Power

variable {d e : Dev} {p lane : Nat} {h : FlitHdr}

/-! ### TRICKLE and WAKE (R111–R113) -/

theorem trickleReqFx_accepts (ht : took d p h = some e) (hu : (e.link p).st = .up) (hk : e.flag .ptPortCfg p 29 = true)
    (hs : stands e p .trickle = true) :
    trickleReqFx p h d = enterTrickle (sendCtl (e.modLink p fun l => { l with proc := none }) p (.trickleAck false)) p :=
  (ctlRx_took ht).trans (if_pos ⟨hu, hk, hs⟩)

theorem trickleAckFx_enters (ht : took d p h = some e) (hr : (e.link p).proc = some { kind := .trickle }) :
    trickleAckFx p h false d = enterTrickle e p :=
  (ctlRx_took ht).trans (if_pos hr)

theorem wakeReqFx_wakes (ht : took d p h = some e) (hst : (e.link p).st = .trickle) (hs : stands e p .wake = true) :
    wakeReqFx p h d = startWaking e p false :=
  (ctlRx_took ht).trans (if_pos ⟨hst, hs⟩)

theorem wakeReadyFx_marks (ht : took d p h = some e) (hst : (e.link p).st = .waking) :
    wakeReadyFx p h d = wakeDone (e.modLink p fun l => { l with wakePeer := true }) p :=
  (ctlRx_took ht).trans (if_pos hst)

theorem linkDownFx_faults (ht : took d p h = some e) (hc : (e.link p).st.carries = true) : linkDownFx p h d = enterFault e p 0x07 :=
  (ctlRx_took ht).trans (if_pos hc)

theorem keySwitchFx_turns {slot : Bool} {first : Nat} (ht : took d p h = some e) (hs : stands e p .key = true) :
    keySwitchFx p h slot first d =
      e.modLink p fun l => { l with oldRx := some (l.rxSlot, first), rxSlot := slot, proc := none } :=
  (ctlRx_took ht).trans (if_pos hs)

end Power

/-- Settles O17: each control flit's effect once it is taken, each event's in the port state that admits it. -/
theorem keysTrickleWake : Obligations.KeysTrickleWake := by
  intro s p lane first cause slot h d
  refine ⟨fun ht hs => ?keySwitch, fun he => ?exhausted, fun ht hu hk hs => ?trickleReq, fun ht hr => ?trickleAck,
    fun ht hst hs => ?wakeReq, fun hst => ?lanesReady, fun ht hst => ?wakeReady, fun hst => ?trainingFail, fun hst => ?laneLoss,
    fun ht hc => ?linkdown⟩
  case keySwitch => exact Does.of_eq (does_onDev rfl) (keySwitchFx_turns ht hs)
  case exhausted => exact Does.of_eq (does_onDev rfl) (if_pos he)
  case trickleReq => exact Does.of_eq (does_onDev rfl) (trickleReqFx_accepts ht hu hk hs)
  case trickleAck => exact Does.of_eq (does_onDev rfl) (trickleAckFx_enters ht hr)
  case wakeReq => exact Does.of_eq (does_onDev rfl) (wakeReqFx_wakes ht hst hs)
  case lanesReady => exact Does.of_eq (does_onDev rfl) (if_pos hst)
  case wakeReady => exact Does.of_eq (does_onDev rfl) (wakeReadyFx_marks ht hst)
  case trainingFail => exact Does.of_eq (does_onDev rfl) (if_pos hst)
  case laneLoss => exact Does.of_eq (does_onDev rfl) (if_pos hst)
  case linkdown => exact Does.of_eq (does_onDev rfl) (linkDownFx_faults ht hc)

end Sys2Proof
end

section
/-! PROOF. What the commands of links and of fabric time leave as it was: memory and pool, press, marks (FramesOfLinksAndTime). -/

namespace Sys2Proof
open Machine

/-- Memory and pool, press, marks: what the commands of links and of fabric time have no part in. -/
def contents (d : Dev) : Pool × Press × Marks := (d.pool, d.press, d.marks)

theorem contents_eq_iff {d e : Dev} : contents e = contents d ↔ e.pool = d.pool ∧ e.press = d.press ∧ e.marks = d.marks := by
  simp [contents]

section Contents

variable {d : Dev} {p q n : Nat}

/-! ### The state's operations: a change of any other field leaves the contents by definition -/

theorem contents_notice (co di : Nat) (ch : Option Nat) (a b c : Nat) (l : List Nat) : contents (d.notice co di ch a b c l) = contents d := by
  simp [contents_eq_iff]
theorem contents_finish (o k : Nat) (st : Status) (x y : Nat) (l : List Nat) : contents (d.finish o k st x y l) = contents d := by
  simp [contents_eq_iff]

/-- What every step of a fold leaves, the fold leaves. -/
theorem contents_foldOver {α : Type} {f : α → Dev → Dev} (hf : ∀ x d, contents (f x d) = contents d) (l : List α) (d : Dev) :
    contents (foldOver l d f) = contents d := by
  induction l generalizing d with
  | nil => rfl
  | cons x r ih => exact (ih (f x d)).trans (hf x d)

/-- What both branches leave, the choice leaves. -/
theorem contents_ite {c : Prop} [Decidable c] {a b : Dev} (ha : contents a = contents d) (hb : contents b = contents d) :
    contents (if c then a else b) = contents d := by
  split <;> assumption

/-! ### Queues and answers of the fabric (R134, R154, R155, R335) -/

theorem contents_freeCharge (v : Nat) : contents (freeCharge d p v n) = contents d := contents_ite rfl rfl

theorem contents_freeArrival (x : Option (Nat × Nat)) : contents (freeArrival d x n) = contents d := by
  cases x with
  | none => rfl
  | some x => exact contents_freeCharge _

theorem contents_redSelect (die : Nat) : contents (redSelect d die n).2 = contents d := by
  unfold redSelect
  split
  · rfl
  · split <;> rfl

theorem contents_admitQ (k : QPkt) : contents (admitQ d k).2 = contents d := by
  rcases hr : redSelect d k.die (redProb d k.pkt.tc k.pkt.colour (tget 0 d.core.qcharge (inqKey k))) with ⟨sel, e⟩
  have he : contents e = contents d := (congrArg (fun r => contents r.2) hr).symm.trans (contents_redSelect k.die)
  simp only [admitQ, hr]
  split
  · rfl
  · split
    · split <;> exact he
    · split
      · exact he
      · split
        · exact he
        · exact (contents_freeArrival _).trans (contents_ite he he)

theorem contents_sendPktTo (die eid : Nat) (k : Pkt) (x : QPkt) : contents (sendPktTo d die eid k x).2 = contents d := by
  unfold sendPktTo
  split
  · rfl
  · rfl
  · split
    · rfl
    · exact contents_admitQ _

theorem contents_sendPkt (die : Nat) (k : Pkt) (x : QPkt) : contents (sendPkt d die k x).2 = contents d := contents_sendPktTo _ _ _ _

theorem contents_sendResp (die : Nat) (k : Pkt) (x : Option (Nat × Nat)) : contents (sendResp d die k x) = contents d := by
  unfold sendResp
  dsimp only
  split
  · exact contents_sendPkt _ _ _
  · exact (contents_freeArrival _).trans (contents_sendPkt _ _ _)

theorem contents_sendResps (die : Nat) (ks : List Pkt) : contents (sendResps d die ks) = contents d :=
  contents_foldOver (fun k _ => contents_sendResp die k none) ks d

/-- What an answered request gives back to its epoch. -/
theorem contents_uncounted (c : Bool) (die chase e : Nat) : contents (if c then uncountEpoch d die chase e else d) = contents d :=
  contents_ite rfl rfl

theorem contents_answer (id : Nat) (st : Status) (rval cause fail pois : Nat) (data : List Byte) :
    contents (answer d id st rval cause fail pois data) = contents d := by
  unfold answer
  split
  · rfl
  · refine (contents_foldOver (fun a e => ?_) _ _).trans ?_
    · exact contents_ite rfl ((contents_sendResps _ _).trans (contents_uncounted _ _ _ _))
    · exact contents_ite rfl ((contents_sendResps _ _).trans (contents_uncounted _ _ _ _))

theorem contents_sendDelivery (die tag : Nat) (ks : List Pkt) : contents (sendDelivery d die tag ks) = contents d := by
  refine contents_foldOver (fun k e => ?_) ks d
  dsimp only
  split <;> exact contents_sendPkt _ _ _

theorem contents_reissue (v : Delivery) : contents (reissue d v) = contents d := by
  unfold reissue
  refine contents_ite rfl ((contents_sendDelivery _ _ _).trans ?_)
  split <;> rfl

/-- The outcome a lost multicast copy leaves in its round. -/
theorem contents_missed (x : QPkt) : contents (match x.mc with | some (id, m) => mcSet d id m .missed | none => d) = contents d := by
  split <;> rfl

theorem contents_loseQ (x : QPkt) : contents (loseQ d x n) = contents d := by
  have hq : ∀ e : Dev, contents e = contents d →
      contents (match x.req with
        | some id => answer e id .retry
        | none => if x.pkt.opc = opRESP then e.count .cResplost (portDie x.port) else e) = contents d := by
    intro e he
    split
    · exact (contents_answer _ _ _ _ _ _ _).trans he
    · exact contents_ite he he
  exact hq _ ((contents_missed x).trans (contents_ite (contents_freeArrival _) (contents_freeArrival _)))

theorem contents_snapIncomplete : contents (snapIncomplete d) = contents d := contents_notice _ _ _ _ _ _ _

theorem contents_portLeft : contents (portLeft d p) = contents d := by
  unfold portLeft
  refine (contents_ite (contents_snapIncomplete) rfl).trans ?_
  refine (contents_foldOver (fun v _ => contents_reissue v) _ _).trans ?_
  refine (contents_foldOver (fun (o : Outst) _ => contents_answer o.id .retry 0 0 0 0 []) _ _).trans ?_
  refine (contents_foldOver (fun x e => ?_) _ _).trans ?_
  · exact contents_ite rfl rfl
  refine (contents_foldOver (fun x _ => contents_loseQ x) _ _).trans ?_
  refine (contents_foldOver (fun (x : QPkt × Nat) _ => contents_loseQ x.1) _ _).trans ?_
  exact contents_foldOver (fun x _ => contents_loseQ x) _ _

/-! ### Flits (R98–R102) -/

theorem contents_sendCtl (c : Ctl) : contents (sendCtl d p c) = contents d := contents_ite rfl rfl

theorem contents_ackRx : contents (ackRx d p q) = contents d := contents_ite rfl rfl

theorem contents_creditRx (v : Nat) : contents (creditRx d p v n) = contents d := contents_ite rfl rfl

theorem contents_sendHello (spare : Bool) : contents (sendHello d p spare) = contents d := contents_sendCtl _

theorem contents_protoErr : contents (protoErr d p) = contents d := contents_notice _ _ _ _ _ _ _

theorem contents_resetPortDone : contents (resetPortDone d p) = contents d :=
  contents_ite ((contents_finish _ _ _ _ _ _).trans (contents_notice _ _ _ _ _ _ _)) rfl

/-- A port that faults sends, notices and finishes, and then leaves what it carried to the fabric. -/
theorem contents_enterFault : contents (enterFault d p n) = contents d := by
  refine contents_ite rfl ?_
  have h : ∀ e : Dev, contents e = contents d → contents (if (d.link p).st.carries then portLeft e p else e) = contents d :=
    fun e he => contents_ite (contents_portLeft.trans he) he
  refine h _ (contents_resetPortDone.trans ((contents_finish _ _ _ _ _ _).trans ((contents_finish _ _ _ _ _ _).trans
    ((contents_notice _ _ _ _ _ _ _).trans ?_))))
  exact contents_ite (contents_sendCtl _) rfl

theorem contents_replay : contents (replay d p) = contents d :=
  contents_ite contents_enterFault (contents_foldOver (f := fun f e => e.emit (.flit p f)) (fun _ _ => rfl) _ _)

theorem contents_headerRx (nk : Bool) (v : Nat) : contents (headerRx d p q nk v n) = contents d :=
  have h : contents (creditRx (ackRx d p q) p v n) = contents d := (contents_creditRx v).trans contents_ackRx
  contents_ite (contents_replay.trans h) h

theorem contents_nak : contents (nak d p) = contents d := contents_ite rfl rfl

theorem contents_recvSeq (crcOk tagOk : Bool) : contents (recvSeq d p q crcOk tagOk).2 = contents d := by
  by_cases hst : (d.link p).st = .down ∨ (d.link p).st = .fault
  · rw [recvSeq_closed hst]
  · by_cases hb : (!crcOk || !tagOk) = true
    · have hc : contents (refusedFlit d p crcOk) = contents d := contents_ite rfl rfl
      rw [recvSeq_bad hst hb]
      split
      · exact contents_nak.trans hc
      · exact contents_enterFault.trans hc
    · obtain ⟨rfl, rfl⟩ : crcOk = true ∧ tagOk = true := by simpa using hb
      by_cases hq : q = (d.link p).rxExp
      · rw [hq, recvSeq_expected hst]
        exact contents_ite rfl rfl
      · rw [recvSeq_unexpected hst hq]
        exact contents_nak

/-- A control flit leaves what its body leaves. -/
theorem contents_ctlRx {h : FlitHdr} {body : Dev → Dev} (hb : ∀ e, contents (body e) = contents e) : contents (ctlRx p h body d) = contents d := by
  have hr := contents_recvSeq (d := d) (p := p) (q := h.fseq) h.crcOk true
  exact contents_ite ((hb _).trans ((contents_headerRx _ _).trans hr)) hr

theorem contents_assemble (f : Flit) (plain : List Byte) : contents (assemble d p f plain) = contents d := by
  refine contents_foldOver (fun e d => ?_) _ _
  exact contents_ite (contents_freeCharge _) (contents_ite (contents_freeCharge _) rfl)

/-! ### Procedures of a link (R97, R104–R113) -/

theorem contents_goUp : contents (goUp p d) = contents d :=
  contents_ite (contents_resetPortDone.trans (contents_notice _ _ _ _ _ _ _)) rfl

theorem contents_tryNarrow (cause : Nat) : contents (tryNarrow d p cause) = contents d := by
  refine contents_ite ?_ contents_enterFault
  split
  · exact contents_sendCtl _
  · exact contents_enterFault

theorem contents_preempt : contents (preempt d p) = contents d := by
  unfold preempt
  dsimp only
  split
  · split
    · rfl
    · exact contents_finish _ _ _ _ _ _
    · exact contents_finish _ _ _ _ _ _
    · rfl
  · rfl

theorem contents_laneFail (lane : Nat) : contents (laneFail p lane d) = contents d := by
  refine contents_ite (contents_ite contents_enterFault rfl) (contents_ite rfl ?_)
  dsimp only
  split
  · exact (contents_sendCtl _).trans contents_preempt
  · exact (contents_tryNarrow _).trans contents_preempt

theorem contents_startKey (slot : Bool) : contents (startKey d p slot) = contents d := contents_sendCtl _

theorem contents_procEnd : contents (procEnd d p) = contents d := by
  unfold procEnd
  dsimp only
  split
  · exact contents_startKey _
  · rfl

theorem contents_swapLane (spare : Nat) : contents (swapLane d p n spare) = contents d :=
  contents_procEnd.trans (contents_notice _ _ _ _ _ _ _)

theorem contents_swapFailed : contents (swapFailed d p) = contents d := contents_ite (contents_tryNarrow _) contents_enterFault

theorem contents_narrowTo : contents (narrowTo d p n) = contents d := contents_procEnd

/-- What was lost on the way to other lanes is sent again. -/
theorem contents_replayRest {e : Dev} (he : contents e = contents d) : contents (if (e.link p).replay.isEmpty then e else replay e p) = contents d :=
  contents_ite he (contents_replay.trans he)

theorem contents_enterTrickle : contents (enterTrickle d p) = contents d :=
  (contents_finish _ _ _ _ _ _).trans (contents_replayRest contents_procEnd)

theorem contents_wakeDone : contents (wakeDone d p) = contents d :=
  contents_ite ((contents_finish _ _ _ _ _ _).trans contents_procEnd) rfl

/-! ### Effects of the link commands -/

theorem contents_helloTimeoutFx : contents (helloTimeoutFx p d) = contents d :=
  contents_ite ((contents_notice _ _ _ _ _ _ _).trans contents_resetPortDone) rfl

theorem contents_creditInitFx (h : FlitHdr) (counts : List Nat) : contents (creditInitFx p h counts d) = contents d :=
  contents_ctlRx fun _ => contents_ite rfl (contents_ite contents_enterFault contents_goUp)

theorem contents_creditFx (h : FlitHdr) (counts : List Nat) : contents (creditFx p h counts d) = contents d :=
  contents_ctlRx fun _ => contents_foldOver (fun v _ => contents_creditRx v) _ _

theorem contents_dataFlitFx (f : Flit) : contents (dataFlitFx p f d) = contents d := by
  have hr := fun t => contents_recvSeq (d := d) (p := p) (q := f.fseq) (crcGood f) t
  refine contents_ite (hr _) (contents_ite ?_ ?_)
  · exact contents_protoErr.trans ((contents_headerRx _ _).trans (hr _))
  · exact (contents_assemble _ _).trans ((contents_headerRx _ _).trans (hr _))

theorem contents_idleFlitFx (h : FlitHdr) : contents (idleFlitFx p h d) = contents d :=
  contents_ite rfl (contents_ite (contents_replay.trans contents_ackRx) contents_ackRx)

theorem contents_laneLockFx (lane : Nat) : contents (laneLockFx p lane d) = contents d := contents_ite (contents_laneFail lane) rfl

theorem contents_spareReqFx (h : FlitHdr) (failed spare : Nat) : contents (spareReqFx p h failed spare d) = contents d :=
  contents_ctlRx fun _ => contents_ite ((contents_swapLane _).trans ((contents_sendCtl _).trans contents_preempt)) (contents_sendCtl _)

theorem contents_spareAckTmoFx : contents (spareAckTmoFx p d) = contents d := by
  unfold spareAckTmoFx
  split
  · exact contents_ite contents_swapFailed rfl
  · rfl

theorem contents_spareHelloFx (heard : List (Nat × Nat)) : contents (spareHelloFx p heard d) = contents d := by
  refine (contents_foldOver (fun e d => ?_) heard _).trans (contents_foldOver (fun _ _ => contents_sendHello _) _ _)
  have hm : ∀ (l : List Nat) (upd : Link → Link), contents (foldOver l d fun q d => d.modLink q upd) = contents d :=
    fun l upd => contents_foldOver (f := fun q d => d.modLink q upd) (fun _ _ => rfl) l d
  exact contents_ite rfl (contents_ite (hm _ _) ((contents_notice _ _ _ _ _ _ _).trans (hm _ _)))

theorem contents_narrowReqFx (h : FlitHdr) (half : Nat) : contents (narrowReqFx p h half d) = contents d :=
  contents_ctlRx fun _ => contents_ite (contents_replayRest (contents_narrowTo.trans ((contents_sendCtl _).trans contents_preempt)))
    (contents_sendCtl _)

theorem contents_narrowAckTmoFx : contents (narrowAckTmoFx p d) = contents d := by
  unfold narrowAckTmoFx
  split
  · exact contents_ite contents_enterFault rfl
  · rfl

theorem contents_trickleReqFx (h : FlitHdr) : contents (trickleReqFx p h d) = contents d :=
  contents_ctlRx fun _ => contents_ite (contents_enterTrickle.trans (contents_sendCtl _)) (contents_sendCtl _)

theorem contents_trickleAckFx (h : FlitHdr) (refuse : Bool) : contents (trickleAckFx p h refuse d) = contents d :=
  contents_ctlRx fun _ => contents_ite
    (contents_ite ((contents_finish _ _ _ _ _ _).trans contents_procEnd) contents_enterTrickle) rfl

theorem contents_wakeLanesFx (slow : Option Nat) : contents (wakeLanesFx p slow d) = contents d := by
  refine contents_ite (contents_wakeDone.trans ((contents_sendCtl _).trans ?_)) rfl
  split
  · exact contents_notice _ _ _ _ _ _ _
  · rfl

theorem contents_wakeFailFx (lane : Nat) : contents (wakeFailFx p lane d) = contents d :=
  contents_ite ((contents_finish _ _ _ _ _ _).trans ((contents_notice _ _ _ _ _ _ _).trans contents_procEnd)) rfl

/-! ### Fabric time (R195, R199–R203) -/

theorem contents_takeOver : contents (takeOver d p) = contents d := by
  unfold takeOver
  split
  · rfl
  · exact contents_notice _ _ _ _ _ _ _

theorem contents_stepTime (x : Int) : contents (stepTime d x) = contents d :=
  contents_foldOver (f := fun (e : Nat × GateList) d => takeOver d e.1) (fun _ _ => contents_takeOver) _ _

theorem contents_servo (o : Int) : contents (servo d o) = contents d := by
  have hn : ∀ e : Dev, contents e = contents d → contents (e.notice 0x0802 e.kpDie none (o % (2 : Int) ^ 64).toNat 0 0) = contents d :=
    fun e he => (contents_notice _ _ _ _ _ _ _).trans he
  refine contents_ite rfl (contents_ite (contents_stepTime _) (contents_ite ?_ (hn _ rfl)))
  exact (contents_stepTime _).trans (hn _ rfl)

theorem contents_hdrErr : contents (hdrErr d p) = contents d := contents_notice _ _ _ _ _ _ _

/-- A message of fabric time leaves what its body leaves. -/
theorem contents_ptpRx {m : PtpMsg} {body : Dev → Dev} (hb : contents (body d) = contents d) : contents (ptpRx m body d) = contents d :=
  contents_ite contents_hdrErr (contents_ite rfl hb)

theorem contents_syncFx (m : PtpMsg) : contents (syncFx m d) = contents d :=
  contents_ptpRx (contents_ite rfl (contents_ite rfl (contents_servo _)))

theorem contents_followUpFx (m : PtpMsg) : contents (followUpFx m d) = contents d := by
  refine contents_ptpRx ?_
  split
  · exact contents_ite rfl (contents_servo _)
  · rfl

theorem contents_announceFx (m : PtpMsg) : contents (announceFx m d) = contents d := by
  have hk : ∀ (c : Bool) (f : PtpPort → PtpPort), contents (if c then d.modPtp m.port f else d) = contents d := fun _ _ => contents_ite rfl rfl
  exact contents_ptpRx (contents_ite (hk _ _) (hk _ _))

theorem contents_pdelayRespFx (m : PtpMsg) : contents (pdelayRespFx m d) = contents d := by
  refine contents_ptpRx ?_
  split
  · exact contents_ite rfl rfl
  · rfl

theorem contents_pdelayFuFx (m : PtpMsg) : contents (pdelayFuFx m d) = contents d := by
  refine contents_ptpRx ?_
  split
  · exact contents_ite rfl rfl
  · rfl

theorem contents_timeLossFx : contents (timeLossFx n d) = contents d := contents_ite rfl (contents_notice _ _ _ _ _ _ _)

theorem contents_timeRegainFx (o : Int) : contents (timeRegainFx n o d) = contents d := contents_ite rfl (contents_notice _ _ _ _ _ _ _)

theorem contents_ppsFx : contents (ppsFx d) = contents d := contents_ite rfl (contents_stepTime _)

end Contents

/-- A meaning over the device whose effect leaves memory, pool, press and marks answers a state that has them as they were, and the queue. -/
theorem frame_onDev {i : Instr} {s : State} {f : Dev → Dev} (he : exec i s = onDev f s) (h : contents (f s.dev) = contents s.dev) :
    ∃ t, exec i s = .next t ∧ t.dev.pool = s.dev.pool ∧ t.dev.press = s.dev.press ∧ t.dev.marks = s.dev.marks ∧ t.pending = s.pending := by
  obtain ⟨hpool, hpress, hmarks⟩ := contents_eq_iff.1 h
  exact ⟨s.put (f s.dev), he, hpool, hpress, hmarks, rfl⟩

/-- Settles O10: each command is its effect on the device, and each effect leaves memory, pool, press and marks. -/
theorem framesOfLinksAndTime : Obligations.FramesOfLinksAndTime := by
  intro s p q h f counts ls x o m k
  simp only [List.forall_mem_cons]
  refine ⟨?fecLock, ?helloRepeat, ?helloTimeout, ?creditInit, ?credit, ?dataFlit, ?idleFlit, ?ackTimeout, ?nakResend, ?ackSend,
    ?creditReturn, ?laneLock, ?spareReq, ?spareAckTimeout, ?spareHello, ?narrowReq, ?narrowAckTimeout, ?txKey, ?trickleReq,
    ?trickleAck, ?wakeReq, ?wakeLanes, ?wakeReady, ?wakeFail, ?trickleLoss, ?linkdown, ?sync, ?followUp, ?announce, ?pdelayReq,
    ?pdelayResp, ?pdelayFollowUp, ?unsupported, ?syncInterval, ?pdelayInterval, ?announceInterval, ?timeLoss, ?timeRegain, ?pps,
    List.forall_mem_nil _⟩
  case fecLock => exact frame_onDev rfl (contents_ite (contents_sendHello _) rfl)
  case helloRepeat => exact frame_onDev rfl (contents_ite (contents_sendHello _) rfl)
  case helloTimeout => exact frame_onDev rfl contents_helloTimeoutFx
  case creditInit => exact frame_onDev rfl (contents_creditInitFx h counts)
  case credit => exact frame_onDev rfl (contents_creditFx h counts)
  case dataFlit => exact frame_onDev rfl (contents_dataFlitFx f)
  case idleFlit => exact frame_onDev rfl (contents_idleFlitFx h)
  case ackTimeout => exact frame_onDev rfl (contents_ite rfl contents_replay)
  case nakResend => exact frame_onDev rfl (contents_ite rfl rfl)
  case ackSend => exact frame_onDev rfl (contents_ite rfl rfl)
  case creditReturn => exact frame_onDev rfl (contents_ite (contents_sendCtl _) rfl)
  case laneLock => exact frame_onDev rfl (contents_laneLockFx q)
  case spareReq => exact frame_onDev rfl (contents_spareReqFx h p q)
  case spareAckTimeout => exact frame_onDev rfl contents_spareAckTmoFx
  case spareHello => exact frame_onDev rfl (contents_spareHelloFx ls)
  case narrowReq => exact frame_onDev rfl (contents_narrowReqFx h q)
  case narrowAckTimeout => exact frame_onDev rfl contents_narrowAckTmoFx
  case txKey => exact frame_onDev rfl (contents_ite contents_enterFault rfl)
  case trickleReq => exact frame_onDev rfl (contents_trickleReqFx h)
  case trickleAck => exact frame_onDev rfl (contents_trickleAckFx h k)
  case wakeReq => exact frame_onDev rfl (contents_ctlRx fun _ => contents_ite rfl rfl)
  case wakeLanes => exact frame_onDev rfl (contents_wakeLanesFx x)
  case wakeReady => exact frame_onDev rfl (contents_ctlRx fun _ => contents_ite contents_wakeDone rfl)
  case wakeFail => exact frame_onDev rfl (contents_wakeFailFx q)
  case trickleLoss => exact frame_onDev rfl (contents_ite contents_enterFault rfl)
  case linkdown => exact frame_onDev rfl (contents_ctlRx fun _ => contents_ite contents_enterFault rfl)
  case sync => exact frame_onDev rfl (contents_syncFx m)
  case followUp => exact frame_onDev rfl (contents_followUpFx m)
  case announce => exact frame_onDev rfl (contents_announceFx m)
  case pdelayReq => exact frame_onDev rfl (contents_ptpRx rfl)
  case pdelayResp => exact frame_onDev rfl (contents_pdelayRespFx m)
  case pdelayFollowUp => exact frame_onDev rfl (contents_pdelayFuFx m)
  case unsupported => exact frame_onDev rfl (contents_ite contents_hdrErr rfl)
  case syncInterval => exact frame_onDev rfl (contents_ite rfl rfl)
  case pdelayInterval => exact frame_onDev rfl (contents_ite rfl rfl)
  case announceInterval => exact frame_onDev rfl (contents_ite rfl rfl)
  case timeLoss => exact frame_onDev rfl contents_timeLossFx
  case timeRegain => exact frame_onDev rfl (contents_timeRegainFx o)
  case pps => exact frame_onDev rfl contents_ppsFx

end Sys2Proof
end

section
/-! PROOF. Agents, trunks, capacity, trays, the directory and notice regions by their commands (AgentsAndCapacity). -/

namespace Sys2Proof
open Machine

section Definitions

variable {b : Bas} {d : Dev} {chase party x port kind target n base group tc block line : Nat} {r : Region} {nb : NoticeBind} {fo : Folio}

/-! ### Agents and trunks (R121, R450) -/

theorem partyBindFx_binds (hp : party < (d.comp chase).curF.req.parties) (hk : (d.partyKeys chase party).holds = false) :
    partyBindFx b chase party x d =
      { d with pool := { d.pool with
          keys := tput d.pool.keys (64 * chase + party) { d.partyKeys chase party with agent := some x } } }.reply b 0x0305 .ok :=
  (if_neg (Nat.not_le.2 hp)).trans (if_neg (Bool.eq_false_iff.1 hk))

theorem partyBindFx_busy (hp : party < (d.comp chase).curF.req.parties) (hk : (d.partyKeys chase party).holds = true) :
    partyBindFx b chase party x d = d.reply b 0x0305 .busy :=
  (if_neg (Nat.not_le.2 hp)).trans (if_pos hk)

section Trunks

variable (hp : port < 1024)
include hp

theorem trunkBindFx_binds (hm : (d.imp.members.any fun m => m.trunk && m.port == port && m.chase == chase) = false)
    (hr : (d.imp.members.filter fun m => m.die == portDie port).length < 16384) :
    trunkBindFx b port chase true d =
      { d with imp := { d.imp with
          members := d.imp.members ++ [({ die := portDie port, port := port, chase := chase, trunk := true } : MemberEnt)] } }.reply b 0x0306 .ok :=
  (if_neg (Nat.not_le.2 hp)).trans ((if_neg Bool.false_ne_true).trans ((if_neg (Bool.eq_false_iff.1 hm)).trans (if_neg (Nat.not_le.2 hr))))

theorem trunkBindFx_noFit (hm : (d.imp.members.any fun m => m.trunk && m.port == port && m.chase == chase) = false)
    (hr : 16384 ≤ (d.imp.members.filter fun m => m.die == portDie port).length) :
    trunkBindFx b port chase true d = d.reply b 0x0306 .noFit 0x01 5 [1] :=
  (if_neg (Nat.not_le.2 hp)).trans ((if_neg Bool.false_ne_true).trans ((if_neg (Bool.eq_false_iff.1 hm)).trans (if_pos hr)))

theorem trunkBindFx_unbinds (hm : (d.imp.members.any fun m => m.trunk && m.port == port && m.chase == chase) = true) :
    trunkBindFx b port chase false d =
      { d with imp := { d.imp with
          members := d.imp.members.filter fun m => !(m.trunk && m.port == port && m.chase == chase) } }.reply b 0x0306 .ok := by
  simp only [trunkBindFx, if_neg (Nat.not_le.2 hp), hm]
  rfl

end Trunks

/-! ### Capacity and trays (R86, R207, R230, R233) -/

section Capacity

variable (he : expander kind target = true)
include he

/-- A tray link or a TFP tray passes CAP_ACCEPT's check of its operands. -/
theorem not_foreign_of_expander : ¬ (!(kind == 2 && decide (target < 32)) && !(kind == 3 && decide (target < 0xFFFF0))) = true := by
  unfold expander at he
  rw [← Bool.not_or, he]
  exact Bool.false_ne_true

theorem capAcceptFx_accepts
    (hs : sumNat ((d.imp.cap.filter fun e => e.1 != trayKey kind target).map Prod.snd) + n ≤ 281474976710656) :
    capAcceptFx b kind target n d =
      { d with imp := { d.imp with cap := tput d.imp.cap (trayKey kind target) n } }.reply b 0x0401 .ok :=
  (if_neg (not_foreign_of_expander he)).trans (if_neg (Nat.not_lt.2 hs))

theorem capAcceptFx_noFit
    (hs : 281474976710656 < sumNat ((d.imp.cap.filter fun e => e.1 != trayKey kind target).map Prod.snd) + n) :
    capAcceptFx b kind target n d = d.reply b 0x0401 .noFit 0x01 2
      [sumNat ((d.imp.cap.filter fun e => e.1 != trayKey kind target).map Prod.snd) + n - 281474976710656] :=
  (if_neg (not_foreign_of_expander he)).trans (if_pos hs)

end Capacity

theorem trayOfflineFx_holds (ht : trayNamed kind target = true) :
    trayOfflineFx b kind target d = (holdLost d kind target).reply b 0x0404 .ok := by
  simp [trayOfflineFx, ht]

/-- The device with a tray no longer held lost (R233). -/
abbrev trayBack (d : Dev) (kind target : Nat) : Dev :=
  { d with flt := { d.flt with lostTgt := d.flt.lostTgt.filter (· != (kind, target)) } }

theorem trayBack_heldLost : (trayBack d kind target).heldLost kind target = false := by
  simp [Dev.heldLost]

theorem trayOnlineFx_back (hn : target < 32) (ht : (d.tray target).trained = true) :
    trayOnlineFx b 2 target d = (trayBack d 2 target).reply b 0x0405 .ok := by
  simp [trayOnlineFx, trayNamed, hn, ht]

theorem trayOnlineFx_busy (hn : target < 32) (ht : (d.tray target).trained = false) (hl : d.heldLost 2 target = true) :
    trayOnlineFx b 2 target d = d.reply b 0x0405 .busy := by
  simp [trayOnlineFx, trayNamed, hn, ht, hl]

/-! ### The directory (R273) -/

theorem dirReadFx_word (hb : block % 4096 = 0) (hl : line < 16)
    (hf : folioAt d chase (d.comp chase).cur (block + 256 * line) = some fo) :
    dirReadFx b chase block line d =
      d.reply b 0x0502 .ok 0 0 [((d.dirEnt (locLine fo.loc ((block + 256 * line) % folioB))).map DirEnt.word).getD 0] := by
  simp [dirReadFx, hb, Nat.not_le.2 hl, hf]

/-! ### Notice regions (R284, R285) -/

section Notices

variable (ht : tc < 8) (hg : group < 65536) (hr : ((d.comp chase).curF.req.regions.find? fun r => r.base == base && r.cls == 3) = some r)
include ht hg hr

/-- A plain region of the current forme is one NOTICE_BIND can name: what is left are the checks of its group and its earlier binding. -/
theorem noticeBindFx_region :
    noticeBindFx b chase base group tc d =
      if !bit (d.reg .ptMcgrp group) 63 ∨ bits (d.reg .ptMcgrp group) 62 51 ≠ chase then d.reply b 0x0503 .denied
      else if d.pool.notices.any fun x => x.chase == chase && x.base == base then d.reply b 0x0503 .busy
      else { d with pool := { d.pool with
        notices := d.pool.notices ++ [({ chase := chase, base := base, size := r.size, group := group, tc := tc } : NoticeBind)] } }.reply b 0x0503 .ok := by
  have hops : ¬ (8 ≤ tc ∨ 65536 ≤ group) := by omega
  have hany : (((d.comp chase).curF.req.regions ++ (nextReq d chase).regions).any fun r => r.base == base) = true := by
    have hbase := List.find?_some hr
    rw [Bool.and_eq_true] at hbase
    exact List.any_eq_true.2 ⟨r, List.mem_append_left _ (List.mem_of_find?_eq_some hr), hbase.1⟩
  simp only [noticeBindFx, if_neg hops, hany, hr]
  rfl

theorem noticeBindFx_denied (hv : bit (d.reg .ptMcgrp group) 63 = false) :
    noticeBindFx b chase base group tc d = d.reply b 0x0503 .denied :=
  (noticeBindFx_region ht hg hr).trans (if_pos (.inl (by rw [hv]; rfl)))

section Valid

variable (hv : bit (d.reg .ptMcgrp group) 63 = true) (hc : bits (d.reg .ptMcgrp group) 62 51 = chase)
include hv hc

theorem noticeBindFx_binds (hn : (d.pool.notices.any fun x => x.chase == chase && x.base == base) = false) :
    noticeBindFx b chase base group tc d = { d with pool := { d.pool with
      notices := d.pool.notices ++ [({ chase := chase, base := base, size := r.size, group := group, tc := tc } : NoticeBind)] } }.reply b 0x0503 .ok := by
  refine (noticeBindFx_region ht hg hr).trans ?_
  simp [hv, hc, hn]

theorem noticeBindFx_busy (hn : (d.pool.notices.any fun x => x.chase == chase && x.base == base) = true) :
    noticeBindFx b chase base group tc d = d.reply b 0x0503 .busy := by
  refine (noticeBindFx_region ht hg hr).trans ?_
  simp [hv, hc, hn]

end Valid

end Notices

theorem noticeUnbindFx_unbinds (hn : (d.pool.notices.find? fun x => x.chase == chase && x.base == base) = some nb) :
    noticeUnbindFx b chase base d =
      { flushNotice d nb with pool := { (flushNotice d nb).pool with
          notices := (flushNotice d nb).pool.notices.filter fun x => !(x.chase == chase && x.base == base) } }.reply b 0x0504 .ok := by
  simp only [noticeUnbindFx, hn]

end Definitions

/-! ### The directory entry word (R273) -/

section Word

variable {e : DirEnt}

theorem b2n_le (c : Bool) : b2n c ≤ 1 := by cases c <;> decide

theorem dstateCode_lt (s : Option DState) : dstateCode s < 4 := by
  rcases s with _ | _ | _ | _ <;> decide

/-- The pointer in slot `i` of an entry. -/
abbrev pointer (e : DirEnt) (i : Nat) : Option Nat := (e.ptrs[i]?).join

/-- Where the pointers name members, a slot's number is a member number, or 0 where there is none. -/
theorem pointer_lt (hp : ∀ p ∈ e.ptrs, ∀ q, p = some q → q < 32) (i : Nat) : (pointer e i).getD 0 < 32 := by
  cases hi : pointer e i with
  | none => decide
  | some q => exact hp _ (List.mem_of_getElem? (Option.join_eq_some_iff.1 hi)) q rfl

/-- The three pointers of the word, each behind the bit that says whether it is there. -/
def pointerBits (e : DirEnt) : Nat :=
  b2n (pointer e 0).isSome * 2 ^ 54 + (pointer e 0).getD 0 * 2 ^ 49 + b2n (pointer e 1).isSome * 2 ^ 48
    + (pointer e 1).getD 0 * 2 ^ 43 + b2n (pointer e 2).isSome * 2 ^ 42 + (pointer e 2).getD 0 * 2 ^ 37

/-- The fields of a busy entry: its requester and the state it takes. -/
def busyBits (e : DirEnt) : Nat := match e.busy with
  | some (r, n) => r <<< 32 + dstateCode (some n) <<< 29
  | none => 0

theorem pointerBits_le (hp : ∀ p ∈ e.ptrs, ∀ q, p = some q → q < 32) : pointerBits e + 2 ^ 37 ≤ 2 ^ 55 := by
  have h0 := pointer_lt hp 0
  have h1 := pointer_lt hp 1
  have h2 := pointer_lt hp 2
  have hv0 := b2n_le (pointer e 0).isSome
  have hv1 := b2n_le (pointer e 1).isSome
  have hv2 := b2n_le (pointer e 2).isSome
  unfold pointerBits
  omega

theorem busyBits_lt (hb : ∀ q m, e.busy = some (q, m) → q < 32) : busyBits e < 2 ^ 37 := by
  unfold busyBits
  split
  · next r n hr =>
    have hq := hb r n hr
    have hs := dstateCode_lt (some n)
    rw [Nat.shiftLeft_eq, Nat.shiftLeft_eq]
    omega
  · decide

/-- The word is the state, OVF and the owner over the pointers and the busy fields. -/
theorem word_eq :
    e.word = (if e.busy.isSome then 4 else dstateCode e.st) * 2 ^ 61 + b2n e.ovf * 2 ^ 60 + e.owner * 2 ^ 55
      + (pointerBits e + busyBits e) := by
  rcases hb : e.busy with _ | ⟨r, n⟩ <;> simp only [DirEnt.word, pointerBits, busyBits, pointer, hb, Nat.shiftLeft_eq, Nat.add_assoc]

section Members

variable (ho : e.owner < 32) (hp : ∀ p ∈ e.ptrs, ∀ q, p = some q → q < 32) (hb : ∀ q m, e.busy = some (q, m) → q < 32)
include ho hp hb

/-- The word's fields are kept apart while its numbers are member numbers. -/
theorem word_fields :
    e.word / 2 ^ 61 = (if e.busy.isSome then 4 else dstateCode e.st) ∧ e.word / 2 ^ 60 % 2 = b2n e.ovf ∧ e.word / 2 ^ 55 % 32 = e.owner := by
  have hpl := pointerBits_le hp
  have hbl := busyBits_lt hb
  have hv := b2n_le e.ovf
  rw [word_eq]
  omega

theorem word_state : e.word / 2 ^ 61 = (if e.busy.isSome then 4 else dstateCode e.st) := (word_fields ho hp hb).1

theorem word_ovf : bit e.word 60 = e.ovf := by
  obtain ⟨-, h, -⟩ := word_fields ho hp hb
  unfold bit
  rw [Nat.testBit_eq_decide_div_mod_eq, h]
  cases e.ovf <;> rfl

theorem word_owner : bits e.word 59 55 = e.owner := by
  obtain ⟨-, -, h⟩ := word_fields ho hp hb
  unfold bits
  rw [Nat.shiftRight_eq_div_pow]
  exact h

end Members

end Word

/-- Settles O24: each command runs as its effect on the device that heard it, and the effect in each case is a lemma above; the fields of
the directory entry word are read off its sum. -/
theorem agentsAndCapacity : Obligations.AgentsAndCapacity := by
  rintro s b d chase party x port kind target n base group tc block line loc r nb fo rfl
  refine ⟨fun h hp => ?party, fun h hp hm => ?trunk, fun h hp hm => ?untrunk, fun h he => ?capacity, fun h ht => ?offline,
    fun h hn => ?online, fun h hb hl hf hloc => ?dirRead, fun e ho hp hb => ?word, fun h ht hg hr => ?notice, fun h hn => ?unbind⟩
  case party =>
    have hrun : Leads (.partyBind b chase party x) s (partyBindFx b chase party x (heard s.dev b)) := leads_onCmd rfl h
    exact ⟨fun hk => ⟨_, rfl, hrun.of_eq (partyBindFx_binds hp hk)⟩, fun hk => hrun.of_eq (partyBindFx_busy hp hk)⟩
  case trunk =>
    have hrun : Leads (.trunkBind b port chase true) s (trunkBindFx b port chase true (heard s.dev b)) := leads_onCmd rfl h
    exact ⟨fun hr => ⟨_, rfl, hrun.of_eq (trunkBindFx_binds hp hm hr)⟩, fun hr => hrun.of_eq (trunkBindFx_noFit hp hm hr)⟩
  case untrunk => exact ⟨_, rfl, Leads.of_eq (leads_onCmd rfl h) (trunkBindFx_unbinds hp hm)⟩
  case capacity =>
    have hrun : Leads (.capAccept b kind target n) s (capAcceptFx b kind target n (heard s.dev b)) := leads_onCmd rfl h
    exact ⟨fun hs => ⟨_, rfl, hrun.of_eq (capAcceptFx_accepts he hs)⟩, fun hs => hrun.of_eq (capAcceptFx_noFit he hs)⟩
  case offline => exact Leads.of_eq (leads_onCmd rfl h) (trayOfflineFx_holds ht)
  case online =>
    have hrun : Leads (.trayOnline b 2 target) s (trayOnlineFx b 2 target (heard s.dev b)) := leads_onCmd rfl h
    exact ⟨fun ht => ⟨_, rfl, trayBack_heldLost, hrun.of_eq (trayOnlineFx_back hn ht)⟩, fun ht hl => hrun.of_eq (trayOnlineFx_busy hn ht hl)⟩
  case dirRead =>
    subst hloc
    have hrun : Leads (.dirRead b chase block line) s (dirReadFx b chase block line (heard s.dev b)) := leads_onCmd rfl h
    exact ⟨fun hn => hrun.of_eq ((dirReadFx_word hb hl hf).trans (by rw [hn]; rfl)),
      fun e he => hrun.of_eq ((dirReadFx_word hb hl hf).trans (by rw [he]; rfl))⟩
  case word => exact ⟨word_state ho hp hb, word_ovf ho hp hb, word_owner ho hp hb⟩
  case notice =>
    have hrun : Leads (.noticeBind b chase base group tc) s (noticeBindFx b chase base group tc (heard s.dev b)) := leads_onCmd rfl h
    exact ⟨fun hv hc hn => ⟨_, rfl, hrun.of_eq (noticeBindFx_binds ht hg hr hv hc hn)⟩, fun hv => hrun.of_eq (noticeBindFx_denied ht hg hr hv),
      fun hv hc hn => hrun.of_eq (noticeBindFx_busy ht hg hr hv hc hn)⟩
  case unbind => exact ⟨_, rfl, Leads.of_eq (leads_onCmd rfl h) (noticeUnbindFx_unbinds hn)⟩

end Sys2Proof
end

section
/-! PROOF. What comes back from galley and trays (GalleyAndTrays). -/

namespace Sys2Proof
open Machine

section Returns

variable {d : Dev} {job stack sv link rate width cap first frames cid line chase base : Nat} {ce ue : List Nat} {data : List Byte} {poison : Bool}
variable {j : PJob} {l : CLine} {r : TrayReq} {e : DirEnt} {nb : NoticeBind}

/-! ### Galley accesses (R251, R255, R257) -/

section Read

variable (hj : d.job job = some j) (hs : j.st = .galley)
include hj hs

theorem galleyReadFx_returns (hc : j.cached = none) (hv : d.stackServer j.loc.target = some sv) :
    galleyReadFx job ce ue d = galleyReturn d j sv ce ue := by
  simp [galleyReadFx, hj, hs, hc, hv]

theorem galleyReadFx_stackLost (hc : j.cached = none) (hv : d.stackServer j.loc.target = none) :
    galleyReadFx job ce ue d = jobEnd d j .targetLost := by
  simp [galleyReadFx, hj, hs, hc, hv]

theorem galleyReadFx_serves (hc : j.cached = some stack) (hv : d.stackServer stack = some sv) (hl : d.line (locLine j.loc j.off) = some l) :
    galleyReadFx job ce ue d = cachedServe d j l ce ue := by
  simp [galleyReadFx, hj, hs, hc, hv, hl]

end Read

theorem mirrorDoneFx_ends (hj : d.job job = some j) (hs : j.st = .mirror) : mirrorDoneFx job d = jobEnd d j .ok := by
  simp [mirrorDoneFx, hj, hs]

/-- The device whose scrub has gone on to the next line of a stack and counted what it corrected (R257, R499). -/
abbrev scrubbed (d : Dev) (stack : Nat) (ce : List Nat) : Dev :=
  (({ d with pool := { d.pool with
      scrub := tput d.pool.scrub stack ((tget 0 d.pool.scrub stack + 1) % 268435456) } } : Dev).countN .cScrubce (dPX stack)
    ce.length).corrected (dGS stack) 1 ce.length

theorem scrubFx_reads (hn : stack < 8) (hu : d.stackUp stack = true) :
    scrubFx stack ce ue d = foldOver ue (scrubbed d stack ce) fun g e =>
      newBad e stack (stack % 4 * 2 ^ 36 + 256 * tget 0 d.pool.scrub stack + 64 * (g % 4)) := by
  have hthere : ¬ (8 ≤ stack ∨ (!d.stackUp stack) = true) := by simp [hn, hu]
  exact if_neg hthere

/-! ### Tray links (R83, R86, R214, R230, R232) -/

/-- The device whose tray link has trained to `rate` GT/s over `width` lanes (R83). -/
abbrev trayTrained (d : Dev) (link rate width : Nat) : Dev :=
  d.modTray link fun t =>
    { t with trained := true, fullRate := rate == 64 && width == trayWidth d link, rateGot := rate, widthGot := width }

/-- A tray link that may train keeps the rate and width it trained to, and sends a notice unless they are full. -/
theorem trayTrainedFx_trains (hi : isTray d link = true) (hp : (d.tray link).perst = false) (he : d.enabled (8 * trayOct link) = true)
    (hu : d.dieUp (dPT (trayDie link)) = true) :
    trayTrainedFx link rate width d =
      if rate == 64 && width == trayWidth d link then trayTrained d link rate width
      else (trayTrained d link rate width).notice 0x020A (dPT (trayDie link)) none link rate width := by
  have hmay : ¬ ((!isTray d link) = true ∨ (d.tray link).perst = true ∨ (!d.enabled (8 * trayOct link)) = true
      ∨ (!d.dieUp (dPT (trayDie link))) = true) := by simp [hi, hp, he, hu]
  exact if_neg hmay

theorem trayDownFx_loses (ht : (d.tray link).trained = true) :
    trayDownFx link d = holdLost (d.modTray link fun t => { t with trained := false, fullRate := false }) 2 link := by
  simp [trayDownFx, ht]

theorem trayAddFx_offers (ht : (d.tray link).trained = true) :
    trayAddFx link cap d =
      (d.modTray link fun t => { t with offered := t.offered + cap }).notice 0x020B (dPT (trayDie link)) none link cap 0 := by
  simp [trayAddFx, ht]

/-- The frames of a tray a removal names. -/
abbrev goneFrame (first frames f : Nat) : Bool := decide (first ≤ f) && decide (f < first + frames)

/-- The device without a tray's frames that were removed by force (R86). -/
abbrev framesGone (d : Dev) (link first frames : Nat) : Dev :=
  { d with
    flt := { d.flt with lostFr := d.flt.lostFr ++ [(link, first, frames)] }
    imp := { d.imp with freeFr := d.imp.freeFr.filter fun x => !(x.1 == 2 && x.2.1 == link && goneFrame first frames x.2.2) } }

/-- With no access under way a forced removal takes the frames and names the folios it hits. -/
theorem trayRemoveFx_idle (ht : (d.tray link).trained = true) (hf : frames ≠ 0) (hj : d.pool.jobs = []) :
    trayRemoveFx link first frames d =
      (framesGone d link first frames).notice 0x0401 (dPT (trayDie link)) none link 2 0
        ((liveFormes (framesGone d link first frames)).map fun f =>
          (f.folios.filter fun e => e.2.locs.any fun l => l.1 == 2 && l.2.1 == link && goneFrame first frames l.2.2).length) := by
  have hmay : ¬ ((!(d.tray link).trained) = true ∨ frames = 0) := by simp [ht, hf]
  refine (if_neg hmay).trans ?_
  dsimp only
  rw [Dev.notice_pool, hj]
  rfl

/-! ### Answers of trays (R214, R232) -/

section Answers

variable (hr : jobOfReq d cid = some (j, r))
include hr

section Tray

variable (hk : j.loc.kind = 2) (ht : j.loc.target = link)
include hk ht

theorem cxlDoneFx_tray :
    cxlDoneFx link cid data poison d = cxlEnd d j r (.ok (data.take 64 ++ zeros (64 - data.length), poison)) := by
  simp [cxlDoneFx, hr, reqLink, hk, ht]

theorem cxlTimeoutFx_tray : cxlTimeoutFx link cid d = cxlEnd (d.count .cTraytmo (dPT (trayDie link))) j r (.error .timeout) := by
  simp [cxlTimeoutFx, hr, reqLink, hk, ht]

end Tray

section Stripe

variable (hk : j.loc.kind = 5) (ht : (stripeReqAt d j r).1 = link)
include hk ht

theorem cxlDoneFx_member (hp : poison = false) :
    cxlDoneFx link cid data poison d =
      memberEnd d j r link (stripeReqAt d j r).2 (.ok (data.take 64 ++ zeros (64 - data.length), [])) := by
  simp [cxlDoneFx, hr, reqLink, hk, ht, hp]

theorem cxlTimeoutFx_member :
    cxlTimeoutFx link cid d = memberEnd (d.count .cTraytmo (dPT (trayDie link))) j r 0 0 (.error .timeout) := by
  simp [cxlTimeoutFx, hr, reqLink, hk, ht]

end Stripe

end Answers

/-! ### The directory and notices (R274, R285) -/

theorem directoryErrorFx_discards (he : d.dirEnt line = some e) : directoryErrorFx line d = dirError d e := by
  simp [directoryErrorFx, he]

/-- The entry found bad is gone: what follows its removal counts and notifies. -/
theorem dirError_dirEnt : (dirError d e).dirEnt e.key = none := by
  unfold dirError Dev.dirEnt
  rw [Dev.notice_pool, Dev.count_pool]
  simp

theorem noticeFlushFx_sends (hn : (d.pool.notices.find? fun b => b.chase == chase && b.base == base) = some nb) :
    noticeFlushFx chase base d = flushNotice d nb := by
  simp [noticeFlushFx, hn]

end Returns

/-- Settles O28: each event is its effect on the device, and the effect in each case is a lemma above. -/
theorem galleyAndTrays : Obligations.GalleyAndTrays := by
  intro s job stack sv link rate width cap first frames cid line chase base ce ue data poison j l r e nb
  refine ⟨fun hj hs => ?read, fun hj hs => ?mirror, fun hn hu => ?scrub, fun hi hp he hu => ?trained, fun ht => ?down,
    fun ht hf hj => ?removal, fun hr hk ht => ?tray, fun hr hk ht => ?stripe, fun he => ?directory, fun hn => ?notice⟩
  case read =>
    have hrun : Leads (.galleyReadReturn job ce ue) s (galleyReadFx job ce ue s.dev) := leads_onPool rfl
    exact ⟨fun hc hv => hrun.of_eq (galleyReadFx_returns hj hs hc hv), fun hc hv => hrun.of_eq (galleyReadFx_stackLost hj hs hc hv),
      fun hc hv hl => hrun.of_eq (galleyReadFx_serves hj hs hc hv hl)⟩
  case mirror => exact Leads.of_eq (leads_onPool rfl) (mirrorDoneFx_ends hj hs)
  case scrub =>
    have hrun : Does (.patrolScrub stack ce ue) s (scrubFx stack ce ue s.dev) := does_onDev rfl
    refine ⟨_, rfl, fun he => ?_, hrun.of_eq (scrubFx_reads hn hu)⟩
    subst he
    exact hrun.of_eq (scrubFx_reads hn hu)
  case trained =>
    have hrun : Does (.trayLinkTrained link rate width) s (trayTrainedFx link rate width s.dev) := does_onDev rfl
    refine ⟨_, rfl, fun hr hw => hrun.of_eq ((trayTrainedFx_trains hi hp he hu).trans (if_pos ?full)),
      fun hd => hrun.of_eq ((trayTrainedFx_trains hi hp he hu).trans (if_neg ?degraded))⟩
    case full => simp [hr, hw]
    case degraded =>
      rw [Bool.and_eq_true, beq_iff_eq, beq_iff_eq, not_and_or]
      exact hd
  case down =>
    exact ⟨Leads.of_eq (leads_onPool rfl) (trayDownFx_loses ht), Does.of_eq (does_onDev rfl) (trayAddFx_offers ht)⟩
  case removal => exact ⟨_, rfl, Leads.of_eq (leads_onPool rfl) (trayRemoveFx_idle ht hf hj)⟩
  case tray =>
    exact ⟨Leads.of_eq (leads_onPool rfl) (cxlDoneFx_tray hr hk ht), Leads.of_eq (leads_onPool rfl) (cxlTimeoutFx_tray hr hk ht)⟩
  case stripe =>
    exact ⟨fun hp => Leads.of_eq (leads_onPool rfl) (cxlDoneFx_member hr hk ht hp),
      Leads.of_eq (leads_onPool rfl) (cxlTimeoutFx_member hr hk ht)⟩
  case directory => exact ⟨Leads.of_eq (leads_onPool rfl) (directoryErrorFx_discards he), dirError_dirEnt⟩
  case notice => exact Leads.of_eq (leads_onPool rfl) (noticeFlushFx_sends hn)

end Sys2Proof
end

section
/-! PROOF. Keys of a link by command (LinkKeys); standby and the resets of a port, a chase and a die (StandbyAndSmallResets). -/

namespace Sys2Proof
open Machine

section Keys

variable {b : Bas} {d : Dev} {p secret : Nat} {slot : Bool} {k : KeySlot}

/-! ### Key slots (R109, R110, R454) -/

/-- In a port that is not encrypted a filled slot is all that changes. -/
theorem fillSlot_link (he : (d.link p).encact = false) :
    (fillSlot d p slot k).link p = if slot then { d.link p with slot1 := some k } else { d.link p with slot0 := some k } := by
  cases slot <;> simp [fillSlot, he]

theorem portKeysetFx_fills (hp : isPort d p = true) : portKeysetFx b p slot k d = (fillSlot d p slot k).reply b 0x0201 .ok := by
  simp [portKeysetFx, hp]

theorem linkDeriveFx_derives (hp : isPort d p = true) (hu : (d.link p).st = .up) (ht : (d.link p).ptype = 0) (hm : d.mgmt.policy ≠ []) :
    linkDeriveFx b p slot (some secret) d = (fillSlot d p slot (derivedKeys d p secret)).reply b 0x0202 .ok := by
  simp [linkDeriveFx, hp, hu, ht, hm]

theorem linkDeriveFx_noSecret (hp : isPort d p = true) : linkDeriveFx b p slot none d = d.reply b 0x0202 .denied := by
  simp [linkDeriveFx, hp]

end Keys

/-- Settles O47: the commands fill the slot named or answer DENIED; in a port that is not encrypted the slot is all they change. -/
theorem linkKeys : Obligations.LinkKeys := by
  rintro s b d p tk rk ts rs secret slot rfl hp
  exact ⟨fun h => Leads.of_eq (leads_onCmd rfl h) (portKeysetFx_fills hp), fillSlot_link,
    fun h hu ht hm => Leads.of_eq (leads_onCmd rfl h) (linkDeriveFx_derives hp hu ht hm),
    fun h => Leads.of_eq (leads_onCmd rfl h) (linkDeriveFx_noSecret hp)⟩

section Resets

variable {b : Bas} {d e : Dev} {p die n link chase level w : Nat} {ports hot : List Nat}

/-! ### TRICKLE and WAKE (R111, R112) -/

theorem trickleFx_asks (hp : isPort d p = true) (hu : (d.link p).st = .up) (hk : d.flag .ptPortCfg p 29 = true)
    (hc : bit (d.link p).caps 1 = true) (hs : stands d p .trickle = true) :
    trickleFx b p d = (askTrickle d p).defer b .device 0x0203 p := by
  simp [trickleFx, hp, hu, hk, hc, hs]

theorem wakeFx_asks (hp : isPort d p = true) (ht : (d.link p).st = .trickle) (hs : stands d p .wake = true) :
    wakeFx b p d = (askWake d p).defer b .device 0x0204 p := by
  simp [wakeFx, hp, ht, hs]

/-! ### Standby (R577–R579) -/

/-- The ports in UP, which a LEVEL 1 entry asks to trickle. -/
abbrev portsUp (d : Dev) : List Nat := (d.links.filter fun e => e.2.st == .up).map Prod.fst

/-- The device that has begun a LEVEL 1 entry (R578). -/
abbrev entering (d : Dev) : Dev := { d with pwr := { d.pwr with asked := portsUp d, saved := [], exitPh := false } }

theorem standbyEnterFx_level1 (hi : idleComps d = true) (hl : d.pwr.level = 0) :
    standbyEnterFx b 1 die ports d =
      pollEntry ((foldOver ((portsUp d).filter (trickleOk (entering d))) (entering d) fun p d => askTrickle d p).defer b .device 0x0A03 1 die) := by
  have hidle : ¬ ((!idleComps d) = true ∨ d.pwr.level ≠ 0) := by simp [hi, hl]
  exact (if_neg hidle).trans (if_neg (by simp))

/-- An entry that asked no port to trickle goes on at once. -/
theorem pollEntry_noneAsked (hr : d.mgmt.running = []) (ha : d.pwr.asked = []) :
    pollEntry (d.defer b .device 0x0A03 level w) =
      (pwrNotice (standbyOff (d.defer b .device 0x0A03 level w) level w)).finish 0x0A03 level .ok 0 0
        (notTrickled (standbyOff (d.defer b .device 0x0A03 level w) level w)) := by
  have hfind : (d.defer b .device 0x0A03 level w).mgmt.running.find? (fun r => r.opc == 0x0A03) =
      some { dom := .device, sess := b.sess, tr := b.tr, cseq := b.cseq, opc := 0x0A03, key := level, aux := w } := by
    simp [Dev.defer, hr]
  unfold pollEntry
  rw [hfind]
  simp [ha]

theorem standbyExitFx_level0 (hl : d.pwr.level = 0) : standbyExitFx b d = d.reply b 0x0A04 .ok := if_pos hl

theorem standbyExitFx_exits (hl : d.pwr.level ≠ 0) :
    standbyExitFx b d = pollExit ({ d with pwr := { d.pwr with
      toSeq := seqOrder.filter fun p => d.pwr.toSeq.contains p || (d.pwr.offByLevel.contains p && !d.domOn p)
      exitPh := false } }.defer b .device 0x0A04 0) := if_neg hl

/-! ### Resets of a port (R583) -/

section Port

variable (hp : p < 1024) (ho : d.domOn (mainDomain (portDie p)) = true)
include hp ho

theorem resetPortFx_link (ht : trayPort d p = none) (hi : isPort d p = true) :
    resetPortFx b p d =
      if (resetLink d p).enabled p then (linkEnable (resetLink d p) p).defer b .device 0x0A06 p
      else ((resetLink d p).notice 0x0A06 (resetLink d p).kpDie none 2 p 0).reply b 0x0A06 .ok := by
  simp [resetPortFx, hp, ht, hi, ho]

theorem resetPortFx_tray (ht : trayPort d p = some link) : resetPortFx b p d = (resetTray d link).defer b .device 0x0A06 p := by
  simp [resetPortFx, hp, ht, ho]

end Port

theorem resetPortDone_running (hr : d.isRunning 0x0A06 p = true) :
    resetPortDone d p = (d.notice 0x0A06 d.kpDie none 2 p 0).finish 0x0A06 p .ok := if_pos hr

theorem perstEndFx_releases (hp : (d.tray link).perst = true) :
    perstEndFx link d = resetPortDone (d.modTray link fun t => { t with perst := false }) (8 * trayOct link) := if_pos hp

/-! ### Resets of a chase and of a die (R581, R584) -/

theorem resetChaseFx_suspends (hb : (d.comp chase).bound = true) :
    resetChaseFx b chase d = pollChaseReset ((d.modComp chase fun x => { x with suspended := true }).defer b .device 0x0A05 chase) := by
  simp [resetChaseFx, hb]

section Die

variable (hh : ((dieDomains die).any fun p => bit d.pwr.trip p && hot.contains p) = false)
include hh

theorem resetDieFx_cycles (hn : die < 29) (hl : d.lost die = false) (hs : dieMayStop d die = true) :
    resetDieFx b die false hot d = (cycleDie d die).defer b .device 0x0A07 die := by
  have hthere : die < 31 := by omega
  have hpress : ¬ 32 ≤ die := by omega
  have hkeeper : ¬ (die = 29 ∨ die = 30) := by omega
  simp only [resetDieFx, hthere, hpress, hkeeper, hh, hl, hs]
  rfl

theorem resetDieFx_keeper (hd : die = 29 + n) (hn : n < 2) (ha : d.mgmt.active = some (1 - n)) :
    resetDieFx b die false hot d = (cycleKeeper d n).defer b .device 0x0A07 die := by
  have hthere : die < 31 := by omega
  have hpress : ¬ 32 ≤ die := by omega
  have hkeeper : die = 29 ∨ die = 30 := by omega
  have hnum : die - 29 = n := by omega
  have hother : d.mgmt.active ≠ some n := by
    rw [ha]
    simp only [ne_eq, Option.some.injEq]
    omega
  simp only [resetDieFx, hthere, hpress, hkeeper, hnum, hh, hother]
  rfl

end Die

end Resets

/-- Settles O59: each command runs as its effect on the device that heard it, each event as its effect, and the effect in each case is a
lemma above. -/
theorem standbyAndSmallResets : Obligations.StandbyAndSmallResets := by
  rintro s b d e p die n link chase level w ports hot rfl
  refine ⟨fun h hp hu hk hc hs => ?trickle, fun h hp ht hs => ?wake, fun h hi hl he => ?enter, fun _ hr ha => ?entry, fun h hl => ?exited,
    fun h hl he => ?exit, fun h hp ht hi ho hd => ?enabled, fun h hp ht hi ho hd => ?disabled, fun h hp ht ho => ?tray, fun hr => ?replied,
    fun hp => ?perst, fun h hb => ?chase, fun h hn hh hl hs => ?die, fun h hd hn hh ha => ?keeper⟩
  case trickle => exact Leads.of_eq (leads_onCmd rfl h) (trickleFx_asks hp hu hk hc hs)
  case wake => exact Leads.of_eq (leads_onCmd rfl h) (wakeFx_asks hp ht hs)
  case enter =>
    subst he
    exact Leads.of_eq (leads_onCmd rfl h) (standbyEnterFx_level1 hi hl)
  case entry => exact pollEntry_noneAsked hr ha
  case exited => exact Leads.of_eq (leads_onCmd rfl h) (standbyExitFx_level0 hl)
  case exit =>
    subst he
    exact Leads.of_eq (leads_onCmd rfl h) (standbyExitFx_exits hl)
  case enabled => exact Leads.of_eq (leads_onCmd rfl h) ((resetPortFx_link hp ho ht hi).trans (if_pos hd))
  case disabled => exact Leads.of_eq (leads_onCmd rfl h) ((resetPortFx_link hp ho ht hi).trans (if_neg (Bool.eq_false_iff.1 hd)))
  case tray => exact Leads.of_eq (leads_onCmd rfl h) (resetPortFx_tray hp ho ht)
  case replied => exact Does.of_eq (does_onDev rfl) (resetPortDone_running hr)
  case perst => exact Does.of_eq (does_onDev rfl) (perstEndFx_releases hp)
  case chase => exact Leads.of_eq (leads_onCmd rfl h) (resetChaseFx_suspends hb)
  case die => exact Leads.of_eq (leads_onCmd rfl h) (resetDieFx_cycles hh hn hl hs)
  case keeper => exact Leads.of_eq (leads_onCmd rfl h) (resetDieFx_keeper hh hd hn ha)

end Sys2Proof
end

section
/-! PROOF. A MARK_OP at its ingress, and what its home answers or holds (MarkOperations). -/

namespace Sys2Proof
open Machine

/-! ### The commands, and the way to the home (R43, R126, R417) -/

/-- The sixteen operations, each with the packet as its row reads it (R421). -/
abbrev markCommands (x : Rx) : List (Instr × Rx) :=
  [(.read x, asRead x), (.add x, asMop 0x01 x), (.sub x, asMop 0x02 x), (.set x, asMop 0x03 x), (.take x, asMop 0x04 x),
    (.waitge x, asMop 0x05 x), (.arrive x, asMop 0x10 x), (.arrivewait x, asMop 0x11 x), (.waitrnd x, asMop 0x12 x), (.acquire x, asMop 0x20 x),
    (.tryacq x, asMop 0x21 x), (.release x, asMop 0x22 x), (.renew x, asMop 0x23 x), (.ticket x, asMop 0x30 x), (.serve x, asMop 0x31 x),
    (.waitturn x, asMop 0x32 x)]

/-- All of them are one effect on the packet as read. -/
theorem leads_markOpFx {x : Rx} {s : State} {ci : Instr × Rx} (h : ci ∈ markCommands x) : Leads ci.1 s (markOpFx ci.2 s.dev) := by
  fin_cases h <;> exact leads_onPool rfl

section Ingress

variable {d d0 e : Dev} {x : Rx} {id : Nat} {k : Pkt}

/-- The operation a tracked MARK_OP asks of its mark's home (R417, R421). -/
abbrev mopOf (id : Nat) (k : Pkt) : MOp :=
  { id := some id, mark := wbits k.w2 63 46, mop := wbits k.w2 45 40, rtag := wbits k.w2 39 32, arg0 := wbits k.w2 31 0, arg1 := k.w3.toNat
    src := k.src, chase := k.chase, party := k.party }

theorem markOpFx_forwards (hin : ingress d0 x false = .ok (d, id, k)) (hl : isLocal d k = false) :
    markOpFx x d0 = forwardReq d id k (some (x.port, x.vl)) := by
  simp [markOpFx, hin, hl]

theorem markOpFx_targetLost (hin : ingress d0 x false = .ok (d, id, k)) (hl : isLocal d k = true)
    (hu : d.dieUp (dPT (markDie (mopOf id k).mark)) = false) : markOpFx x d0 = answer d id .targetLost := by
  simp [markOpFx, hin, hl, hu]

theorem markOpFx_runs (hin : ingress d0 x false = .ok (d, id, k)) (hl : isLocal d k = true)
    (hu : d.dieUp (dPT (markDie (mopOf id k).mark)) = true) (hf : filterCheck d id (.mark (markDie (mopOf id k).mark)) = .ok e) :
    markOpFx x d0 = (markRun e (mopOf id k)).1 := by
  simp [markOpFx, hin, hl, hu, hf]

end Ingress

/-! ### The checks of the home (R418) -/

section Home

variable {d e : Dev} {o : MOp} {id a : Nat} {st : Status} {g : Bool}

/-! A counter has no part in what the home checks. -/

@[simp] theorem count_badMark (c : CntName) (u i : Nat) : (d.count c u).badMark i = d.badMark i := rfl
@[simp] theorem mopCheck_count (c : CntName) (u : Nat) : mopCheck (d.count c u) o = mopCheck d o := rfl
@[simp] theorem waitRoom_count (c : CntName) (u die : Nat) : waitRoom (d.count c u) die = waitRoom d die := rfl

theorem mopCheck_stranger (h : (d.mark o.mark).type = 0 ∨ (d.mark o.mark).chase ≠ o.chase) : mopCheck d o = some .denied := if_pos h

/-- A mark that is set, of the operation's chase. -/
structure OwnMark (d : Dev) (o : MOp) : Prop where
  set : (d.mark o.mark).type ≠ 0
  chase : (d.mark o.mark).chase = o.chase

theorem mopCheck_locked (h : OwnMark d o) (hp : (d.mark o.mark).plock = true) (hn : (d.mark o.mark).party ≠ o.party) :
    mopCheck d o = some .denied := by
  simp [mopCheck, h.set, h.chase, hp, hn]

/-- An operation that is none of the table, is of another type than the mark's, or has a field out of its range. -/
def Malformed (d : Dev) (o : MOp) : Prop :=
  mopType o.mop = none ∨ (∃ t, mopType o.mop = some t ∧ t ≠ 0 ∧ t ≠ (d.mark o.mark).type) ∨ mopFields o = false

theorem mopCheck_malformed (h : OwnMark d o) (hp : (d.mark o.mark).plock = false ∨ (d.mark o.mark).party = o.party)
    (hm : Malformed d o) : mopCheck d o = some .unsupported := by
  have hparty : ¬ ((d.mark o.mark).plock = true ∧ (d.mark o.mark).party ≠ o.party) := by
    rcases hp with hp | hp <;> simp [hp]
  have hown : ¬ ((d.mark o.mark).type = 0 ∨ (d.mark o.mark).chase ≠ o.chase) := by simp [h.set, h.chase]
  simp only [mopCheck, if_neg hown, if_neg hparty]
  rcases hm with ht | ⟨t, ht, h0, hne⟩ | hf
  · simp [ht]
  · simp [ht, h0, hne]
  · cases mopType o.mop <;> simp [hf]

/-! ### What the home answers (R418, R422, R423) -/

/-- An operation of a request whose mark's die runs and whose mark's record can be read. -/
structure Readable (d : Dev) (o : MOp) (id : Nat) : Prop where
  up : d.dieUp (dPT (markDie o.mark)) = true
  good : d.badMark o.mark = false
  asked : o.id = some id

/-- The operation is counted at its home (R441). -/
abbrev mopCounted (d : Dev) (o : MOp) : Dev := d.count .cMkops (dPT (markDie o.mark))

theorem markRun_refused (h : Readable d o id) (hc : mopCheck d o = some st) :
    (markRun d o).1 = markAnswer (mopCounted d o) (some id) o.mark st false (d.mark o.mark).word := by
  simp [markRun, h.up, h.good, hc, h.asked]

/-- An operation that may go through needs no wait record. -/
theorem markRun_done (h : Readable d o id) (hc : mopCheck d o = none) (he : mopEffect (mopCounted d o) o = (e, .done st g)) :
    (markRun d o).1 = afterMop (markAnswer e (some id) o.mark st g (d.mark o.mark).word) o.mark := by
  simp [markRun, h.up, h.good, hc, h.asked, wouldHold, he]

theorem markRun_held (h : Readable d o id) (hc : mopCheck d o = none) (he : mopEffect (mopCounted d o) o = (e, .hold a))
    (hr : waitRoom d (markDie o.mark) = true) : (markRun d o).1 = afterMop (holdOp e o a) o.mark := by
  simp [markRun, h.up, h.good, hc, hr, he]

theorem markRun_full (h : Readable d o id) (hc : mopCheck d o = none) (he : mopEffect (mopCounted d o) o = (e, .hold a))
    (hr : waitRoom d (markDie o.mark) = false) :
    (markRun d o).1 = markAnswer ((mopCounted d o).count .cMkwfull (dPT (markDie o.mark))) (some id) o.mark .busy false (d.mark o.mark).word := by
  simp [markRun, h.up, h.good, hc, h.asked, wouldHold, hr, he]

end Home

/-- Settles O42: the sixteen commands run one effect at their ingress; at the home the checks answer in their order, then the room for a
wait record, then the operation. -/
theorem markOperations : Obligations.MarkOperations := by
  intro s x y d d1 e id i a w k o st g
  refine ⟨fun ci hci hy hin => ⟨fun hl => ?forward, ?home⟩, fun hu hb ho hd1 hw => ?run⟩
  case forward =>
    subst hy
    exact (leads_markOpFx hci).of_eq (markOpFx_forwards hin hl)
  case home =>
    rintro hl rfl
    subst hy
    exact ⟨fun hu => (leads_markOpFx hci).of_eq (markOpFx_targetLost hin hl hu),
      fun hu hf => (leads_markOpFx hci).of_eq (markOpFx_runs hin hl hu hf)⟩
  case run =>
    subst hd1 hw
    have hrun : Readable d o id := ⟨hu, hb, ho⟩
    exact ⟨fun h => markRun_refused hrun (mopCheck_stranger h), fun ht hc hp hn => markRun_refused hrun (mopCheck_locked ⟨ht, hc⟩ hp hn),
      fun ht hc hp hm => markRun_refused hrun (mopCheck_malformed ⟨ht, hc⟩ hp hm), markRun_done hrun, markRun_held hrun, markRun_full hrun⟩

end Sys2Proof
end

section
/-! PROOF. Fences, responses, time-outs of trains, requests and deliveries, management packets (FencesAndAnswers). -/

namespace Sys2Proof
open Machine

section Wire

variable {d d0 e : Dev} {x : Rx} {id src chase tag : Nat} {k : Pkt} {o : Outst} {f : FenceWait} {t : Train} {v : Delivery} {st : Status}

/-! ### FENCE (R132) -/

theorem fenceFx_waits (hin : ingress d0 x false = .ok (d, id, k)) (hl : isLocal d k = true) (hr : wbits k.w2 63 8 = 0)
    (hm : wbits k.w2 7 0 ≠ 0) (h3 : k.w3 = 0) :
    fenceFx x d0 = { d with tfp := { d.tfp with fences := d.tfp.fences ++ [{ id := id, waits := fenceWaits d id k }] } } := by
  simp [fenceFx, hin, hl, hr, hm, h3]

theorem fenceAnswerFx_done (hf : (d.tfp.fences.find? fun f => f.id == id) = some f) (hd : fenceDone d f = true) :
    fenceAnswerFx id d = answer { d with tfp := { d.tfp with fences := d.tfp.fences.filter fun f => f.id != id } } id .ok := by
  simp [fenceAnswerFx, hf, hd]

/-! ### RESP and MGMT (R128, R143) -/

/-- A RESP of a known STATUS arrives whole, for a request this switch tracks for another. -/
structure Completes (d0 : Dev) (x : Rx) (e : Dev) (o : Outst) : Prop where
  arrives : ∃ d, hdrCheck d0 x = .ok d ∧ memberCheck d x = .ok d ∧ respStep (admittedPkt d x) x = some e
  known : ∃ st, Status.ofCode x.pkt.status = some st
  away : x.pkt.dst ≠ e.tfp.eid
  matched : respMatch e x.pkt = some o
  unanswered : o.answered = false
  last : x.pkt.last = true

/-- With nothing to hold it back the RESP goes on, and its request is tracked no more. -/
theorem respFx_completes (h : Completes d0 x e o) (hh : respHold e o x.pkt = none) (hc : o.counted = false) :
    respFx x d0 = sendResp (e.dropOutst o.id) (portDie x.port) x.pkt (some (x.port, x.vl)) := by
  obtain ⟨⟨d, hhdr, hmem, hstep⟩, ⟨st, hst⟩, haway, hmatch, hopen, hlast⟩ := h
  simp [respFx, hhdr, hmem, hstep, hst, haway, hmatch, hopen, hlast, hh, hc]

theorem mgmtFx_forwards (hh : hdrCheck d0 x = .ok d) (hd : x.pkt.dst ≠ d.tfp.eid) :
    mgmtFx x d0 = sendResp d (portDie x.port) x.pkt (some (x.port, x.vl)) := by
  simp [mgmtFx, hh, hd]

/-! ### Time-outs (R117, R138, R335) -/

/-- A request's train is given up: nothing is held of it, and its failure is counted. -/
abbrev trainGivenUp (d : Dev) (t : Train) : Dev := (dropTrain d t.first).count .cTrainerr t.die

theorem trainTimeoutFx_request
    (hf : (d.tfp.trains.find? fun t => t.resp == false && t.first.src == src && t.first.chase == chase && t.first.tag == tag) = some t)
    (hd : t.dead = false) (hr : t.resp = false) (ho : outstOf (trainGivenUp d t) t.first = some o) :
    trainTimeoutFx src chase tag false d = answer (trainGivenUp d t) o.id .retry := by
  simp only [trainTimeoutFx, hf, hd, hr, ho]
  rfl

theorem completionFx_expires (ho : d.outst id = some o) (ha : o.answered = false) :
    completionFx id d = answerEarly (d.count .cCtoexp o.die) o (if targetGone d o.pkt then .targetLost else .timeout) := by
  simp [completionFx, ho, ha]

theorem deliveryTimeoutFx_found (hf : (d.tfp.dlv.find? fun v => v.tag == tag) = some v) : deliveryTimeoutFx tag d = deliveryMissed d v := by
  simp [deliveryTimeoutFx, hf]

/-! ### Reserved opcodes (R126) -/

theorem reservedOpFx_requestLane (ho : opcodes.contains x.pkt.opc = false) (hv : x.vl < 16) (he : x.vl % 2 = 0) :
    reservedOpFx x d = refuse (hdrErr d x.port) x .unsupported := by
  simp only [reservedOpFx, ho, if_pos (And.intro hv he)]
  rfl

end Wire

/-- Settles O19: each packet and each time-out runs as its effect on the device, and the effect in each case is a lemma above. -/
theorem fencesAndAnswers : Obligations.FencesAndAnswers := by
  intro s x d e id src chase tag k o f t v home st
  refine ⟨fun hin hl hr hm h3 => ?fence, fun hf hd => ?fenceAnswer, fun hh hm hs hst ha ho hopen hlast hhold hc => ?resp,
    fun hh hd => ?mgmt, fun hf hd hr ho => ?train, fun ho ha => ?completion, ?filter, fun hf => ?delivery, fun ho hv he => ?reserved⟩
  case fence => exact Leads.of_eq (leads_onPool rfl) (fenceFx_waits hin hl hr hm h3)
  case fenceAnswer => exact Leads.of_eq (leads_onPool rfl) (fenceAnswerFx_done hf hd)
  case resp =>
    have hcomplete : Completes s.dev (asOp opRESP x) e o := ⟨⟨d, hh, hm, hs⟩, ⟨st, hst⟩, ha, ho, hopen, hlast⟩
    exact Leads.of_eq (leads_onPool rfl) (respFx_completes hcomplete hhold hc)
  case mgmt => exact Does.of_eq (does_onDev rfl) (mgmtFx_forwards hh hd)
  case train => exact Leads.of_eq (leads_onPool rfl) (trainTimeoutFx_request hf hd hr ho)
  case completion => exact Leads.of_eq (leads_onPool rfl) (completionFx_expires ho ha)
  case filter => exact Does.of_eq (does_onDev rfl) rfl
  case delivery => exact Leads.of_eq (leads_onPool rfl) (deliveryTimeoutFx_found hf)
  case reserved => exact Leads.of_eq (leads_onPool rfl) (reservedOpFx_requestLane ho hv he)

end Sys2Proof
end

section
/-! PROOF. Planes out of use, the rounds of a multicast, the type case and the hellbox (MulticastAndTypeCase). -/

namespace Sys2Proof
open Machine

section Planes

variable {d : Dev} {k : Nat}

/-! ### Planes (R164) -/

/-- A plane's window starts anew. -/
abbrev planeFresh (d : Dev) (k : Nat) : Dev := { d with core := { d.core with planeErr := tdel d.core.planeErr k } }

theorem planeWindowFx_below (h : tget 0 d.core.planeErr k < d.fld .fltThr 0 31 16) : planeWindowFx k d = planeFresh d k := if_pos h

theorem planeWindowFx_armed (h : d.fld .fltThr 0 31 16 ≤ tget 0 d.core.planeErr k) (ha : d.flag .fltFabpol 0 30 = true) :
    planeWindowFx k d = planeOut ((planeFresh d k).notice 0x020D (dXP k) none k (tget 0 d.core.planeErr k) 0) k :=
  (if_neg (Nat.not_lt.2 h)).trans (if_pos ((Dev.notice_flag (planeFresh d k) _ _ _ _ _ _ _ _ _ _).trans ha))

end Planes

section Multicast

variable {d d0 e : Dev} {x : Rx} {id m : Nat} {q : Pkt} {r : McRun}

/-! ### MCAST and its rounds (R141, R170–R175) -/

/-- The group an MCAST names. -/
abbrev mcGroup (q : Pkt) : Nat := wbits q.w2 63 48

/-- The run an MCAST starts for the members of its group. -/
abbrev mcRunOf (e : Dev) (x : Rx) (id : Nat) (q : Pkt) : McRun :=
  { id := id, die := portDie x.port, pkt := q, members := groupMembers e (mcGroup q)
    outs := (groupMembers e (mcGroup q)).map fun _ => .waiting, left := e.fld .ptMcCfg 0 23 20
    inp := if lossless e q.tc then some (x.port, x.vl) else none, lossless := lossless e q.tc }

/-- A group is valid, its chase's, and good on a die. -/
structure GroupOk (d : Dev) (die : Nat) (q : Pkt) : Prop where
  valid : d.flag .ptMcgrp (mcGroup q) 63 = true
  chase : d.fld .ptMcgrp (mcGroup q) 62 51 = q.chase
  good : d.core.badGroups.contains (65536 * die + mcGroup q) = false

theorem mcastFx_starts (hin : ingress d0 x false = .ok (d, id, q)) (hr : wbits q.w2 47 0 = 0) (hd : q.dst = eidFABRIC)
    (hg : GroupOk d (portDie x.port) q) (hf : filterCheck d id (.repl (portDie x.port)) = .ok e) (hm : groupMembers e (mcGroup q) ≠ []) :
    mcastFx x d0 = mcRound { e with core := { e.core with mc := e.core.mc ++ [mcRunOf e x id q] } } (mcRunOf e x id q)
      (upTo (groupMembers e (mcGroup q)).length) := by
  obtain ⟨hvalid, hchase, hgood⟩ := hg
  have hfields : ¬ (wbits q.w2 47 0 ≠ 0 ∨ q.dst ≠ eidFABRIC) := by simp [hr, hd]
  have hgroup : (!d.flag .ptMcgrp (mcGroup q) 63 || d.fld .ptMcgrp (mcGroup q) 62 51 != q.chase
      || d.core.badGroups.contains (65536 * portDie x.port + mcGroup q)) = false := by
    rw [hvalid, hchase, hgood]
    simp
  have hmembers : (groupMembers e (mcGroup q)).isEmpty = false := by simpa using hm
  simp only [mcastFx, hin, ck_ok_bind, if_neg hfields, hgroup, hf, hmembers]
  rfl

/-- A port's gate is no matter of its die's multicasts. -/
theorem gateCheck_mc (p : Nat) : (gateCheck d p).core.mc = d.core.mc := by
  unfold gateCheck
  dsimp only
  split
  · rfl
  · split
    · rfl
    · rfl

theorem gateCheck_mcRun (p : Nat) : (gateCheck d p).mcRun id = d.mcRun id :=
  congrArg (List.find? fun r : McRun => r.id == id) (gateCheck_mc p)

theorem mcSet_mcRun (o : McOut) : (mcSet d id m o).mcRun id = (d.mcRun id).map fun r => { r with outs := r.outs.set m o } :=
  find?_mapIf _ _ d.core.mc fun _ h => h

/-- A delivery not begun is missed in its run. -/
theorem mcWaitFx_misses (hr : d.mcRun id = some r) (hm : r.outs[m]? = some .waiting) (hl : r.lossless = true) :
    (mcWaitFx id m d).mcRun id = some { r with outs := r.outs.set m .missed } := by
  have hopen : ¬ (r.outs[m]? ≠ some .waiting ∨ (!r.lossless) = true) := by simp [hm, hl]
  simp only [mcWaitFx, hr, if_neg hopen, mcSet_mcRun, gateCheck_mcRun]
  exact congrArg (Option.map _) hr

/-- The round after a rest: the missing are waited for, the others are left. -/
abbrev mcNextRound (r : McRun) : McRun :=
  { r with outs := r.outs.map fun o => if o == McOut.missing then McOut.waiting else McOut.idle, left := r.left - 1, resting := false }

theorem mcRetryFx_resting (hr : d.mcRun id = some r) (hrest : r.resting = true) :
    mcRetryFx id d = mcRound ((modRun d id fun _ => mcNextRound r).count .cMcretrycnt r.die) (mcNextRound r)
      ((upTo (mcNextRound r).outs.length).filter fun i => r.outs[i]? == some McOut.missing) := by
  have hlen : (mcNextRound r).outs.length = r.outs.length := List.length_map _
  rw [hlen]
  simp only [mcRetryFx, hr, hrest]
  rfl

end Multicast

section TypeCase

variable {d : Dev} {die sort chase arr port tc pos : Nat}

/-! ### The type case and the hellbox (R176, R177) -/

theorem auditFx_clean (hp : 16384 ≤ sharedPool d die) (hf : d.flag .fltFabpol 0 29 = false) :
    auditFx die [] [] d = { d with core := { d.core with leakOnce := d.core.leakOnce.filter fun e => e.1 != die } } := by
  have hpool : ¬ sharedPool { d with core := { d.core with leakOnce := d.core.leakOnce.filter fun e => e.1 != die } } die < 16384 :=
    Nat.not_lt.2 hp
  have hflag : Dev.flag { d with core := { d.core with leakOnce := d.core.leakOnce.filter fun e => e.1 != die } } .fltFabpol 0 29 = false := hf
  simp [auditFx, foldOver, hpool, hflag, hellCount]

/-- The hellbox holds no queue. -/
theorem toHell_voq (x : Nat × Nat × Nat) : (toHell d die x).core.voq = d.core.voq := by
  unfold toHell
  dsimp only
  split
  · rfl
  · rfl

theorem sramFx_unused (h : tget [] d.core.voq (voqKey die port tc) = []) :
    sramFx die sort chase arr port tc pos d = toHell (d.record 2 die 2 none sort) die (sort, chase, arr) := by
  simp [sramFx, toHell_voq, h]

end TypeCase

/-- Settles O21: each event is its effect on the device, and the effect in each case is a lemma above; a report and a withdrawn delivery
act on their own run. -/
theorem multicastAndTypeCase : Obligations.MulticastAndTypeCase := by
  intro s k m die id sort chase arr port tc pos x d e q r
  refine ⟨fun h => ?below, fun h ha => ⟨_, rfl, ?armed⟩, fun hin hr hd hv hc hb hf hm => ⟨_, rfl, ?mcast⟩, ?outcome,
    fun hr hm hl => ⟨_, rfl, ?wait⟩, fun hr hrest => ⟨_, rfl, ?retry⟩, fun hp hf => ?audit, fun h => ?sram⟩
  case below => exact Does.of_eq (does_onDev rfl) (planeWindowFx_below h)
  case armed => exact Does.of_eq (does_onDev rfl) (planeWindowFx_armed h ha)
  case mcast => exact Does.of_eq (does_onDev rfl) (mcastFx_starts hin hr hd ⟨hv, hc, hb⟩ hf hm)
  case outcome => exact does_onDev (f := fun d => report d id die) rfl
  case wait =>
    intro r' hr'
    have hrun : r' = { r with outs := r.outs.set m .missed } := Option.some.inj (hr'.symm.trans (mcWaitFx_misses hr hm hl))
    obtain ⟨hlt, -⟩ := List.getElem?_eq_some_iff.1 hm
    simp [hrun, hlt]
  case retry => exact Does.of_eq (does_onDev rfl) (mcRetryFx_resting hr hrest)
  case audit => exact Does.of_eq (does_onDev rfl) (auditFx_clean hp hf)
  case sram => exact Does.of_eq (does_onDev rfl) (sramFx_unused h)

end Sys2Proof
end

section
/-! PROOF. The snapshot: arming, the cut and its end, reading and release (Snapshots). -/

namespace Sys2Proof
open Machine

section Snapshot

variable {b : Bas} {d e : Dev} {x : Rx} {id init tcut off : Nat} {chases ports : List Nat}

/-! ### Arming, the cut, the end (R533–R536) -/

theorem snapArmFx_arms (hc : ∀ c ∈ chases, (d.comp c).bound = true) (ht : tcutOk d tcut = true) (hp : ports.all (isPort d) = true)
    (hs : d.snap.st = .idle) :
    snapArmFx b id init tcut chases ports d =
      { d with snap := { st := .armed, id := id, init := init, tcut := tcut, chases := chases, ports := ports } }.reply b 0x0803 .ok := by
  have hbound : (chases.findIdx? fun c => !(d.comp c).bound) = none := by simpa [List.findIdx?_eq_none_iff] using hc
  simp only [snapArmFx, hbound, ht, hp, hs]
  rfl

/-- A SNAP of the armed snapshot on a port that takes part takes the cut and closes its lane. -/
theorem snapFx_cuts (hh : hdrCheck d x = .ok e) (hs : (discard e x).snap.st = .armed) (hi : wbits x.pkt.w2 63 32 = (discard e x).snap.id)
    (hp : takesPart (discard e x) x.port = true) :
    snapFx x d = snapCheck ((takeCut (discard e x) true (discard e x).now).modSnap fun s =>
      { s with lanes := s.lanes.filter fun l => l != (x.port, x.vl) }) := by
  simp [snapFx, hh, hs, hi, hp]

theorem snapCutFx_armed (hs : d.snap.st = .armed) : snapCutFx d = snapCheck (takeCut d false d.snap.tcut) := if_pos hs

theorem snapSweepFx_cut (hs : d.snap.st = .cut) : snapSweepFx d = snapCheck { d with snap := { d.snap with swept := true } } := if_pos hs

theorem snapTimeoutFx_openLane (hs : d.snap.st = .cut) (hl : d.snap.lanes ≠ []) : snapTimeoutFx d = snapIncomplete d :=
  if_pos ⟨hs, by simpa using hl⟩

/-! ### Reading and release (R536) -/

/-- The piece of a snapshot's records from an offset on. -/
abbrev snapPiece (d : Dev) (off : Nat) : List Byte := ((snapBytes d.snap).drop off).take 4072

theorem snapReadFx_done (hs : d.snap.st = .done) (ho : off ≤ (snapBytes d.snap).length) :
    snapReadFx b d.snap.id off d = d.reply b 0x0804 .ok 0 0
      ((off + b2n (decide (off + (snapPiece d off).length = (snapBytes d.snap).length)) <<< 31) :: (snapPiece d off).map fun x => x.toNat) := by
  simp [snapReadFx, hs, Nat.not_lt.2 ho]

theorem snapReleaseFx_done (hs : d.snap.st = .done) :
    snapReleaseFx b d.snap.id d = { d with snap := {} }.reply b 0x0805 .ok := by
  simp [snapReleaseFx, hs]

end Snapshot

/-- Settles O50: each command runs as its effect on the device that heard it, each event as its effect, and the effect in each case is a
lemma above. -/
theorem snapshots : Obligations.Snapshots := by
  rintro s b d e f x id init tcut off chases ports l rfl
  refine ⟨fun h hc ht hp hs => ?arm, fun hh hf hs hi hp => ?snap, fun hs => ?cutTime, fun hs => ?sweep, fun hs hl => ?timeout,
    fun h hs hi ho hl => ?read, fun h hs hi => ?release⟩
  case arm => exact Leads.of_eq (leads_onCmd rfl h) (snapArmFx_arms hc ht hp hs)
  case snap =>
    subst hf
    exact Does.of_eq (does_onDev rfl) (snapFx_cuts hh hs hi hp)
  case cutTime => exact Does.of_eq (does_onDev rfl) (snapCutFx_armed hs)
  case sweep => exact Does.of_eq (does_onDev rfl) (snapSweepFx_cut hs)
  case timeout => exact Does.of_eq (does_onDev rfl) (snapTimeoutFx_openLane hs hl)
  case read =>
    subst hi hl
    exact Leads.of_eq (leads_onCmd rfl h) (snapReadFx_done hs ho)
  case release =>
    subst hi
    exact Leads.of_eq (leads_onCmd rfl h) (snapReleaseFx_done hs)

end Sys2Proof
end

section
/-! PROOF. Sorts across the planes: the scheduler, rebuild and release, acknowledgements and failed tries, credits, gates and gaps
(CrossingPlanes). -/

namespace Sys2Proof
open Machine

section Crossing

variable {d : Dev} {src dst die port pseq n : Nat} {x : Slice} {f : Flight}

/-! ### The scheduler (R160) -/

theorem xbarFx_goesOn {e : Nat × QPkt × Nat} (full : Option Nat)
    (h : (d.core.xRun.find? fun e => e.1 / 24 == src && xCredOk d src e.2.1.port) = some e) :
    xbarFx src full d = crossFrom d src e.2.1 e.2.2 full := by
  simp only [xbarFx, h]

/-! ### Slices and rebuild (R161, R163) -/

/-- A slice of a sort as R161 forms it, between dies and on a plane there are, with a good CHECK. -/
structure GoodSlice (x : Slice) : Prop where
  src : x.src < 24
  dst : x.dst < 24
  plane : x.sidx < 5
  kind : x.kind = 0
  check : x.good = true

/-- The fourth good slice rebuilds its sort. -/
theorem sliceFx_rebuilds (hx : GoodSlice x) (hf : findFlight d x.src x.dst x.pseq = some f) (hr : f.rebuilt = false) (hv : f.void = false)
    (hnew : f.good.contains x.sidx = false) (hlen : f.good.length = 3) :
    sliceFx x d = release (modFlight d x.src x.dst x.pseq fun f' => { f' with good := f.good ++ [x.sidx], rebuilt := true }) x.src x.dst := by
  obtain ⟨hs, hd, hp, hk, hc⟩ := hx
  have hform : ¬ (24 ≤ x.src ∨ 24 ≤ x.dst ∨ 5 ≤ x.sidx ∨ x.kind = 3) := by omega
  have hfresh : x.sidx ∉ f.good := by simpa using hnew
  simp only [sliceFx, if_neg hform]
  simp [hk, hc, hf, hr, hv, hfresh, hlen]

/-! ### Acknowledgements and failed tries (R148, R163) -/

/-- RACK for a sort not yet released frees it at its source. -/
theorem rackFx_frees (hf : findFlight d src dst pseq = some f) (ha : f.acked = false) (hv : f.void = false) (hr : f.rebuilt = true)
    (ho : f.out = false) : rackFx src dst pseq d = modFlight (freeSort d f.q) src dst pseq fun f => { f with acked := true } := by
  simp [rackFx, hf, ha, hv, hr, ho]

/-- A first or second failed try sends the sort again. -/
theorem crossFail_resends (hf : findFlight d src dst pseq = some f) (ha : f.acked = false) (hv : f.void = false) (hn : f.fails < 2) :
    crossFail d src dst pseq =
      (modFlight d src dst pseq fun f => { f with fails := f.fails + 1, rnak := false }).count .cXresend src := by
  simp [crossFail, hf, ha, hv, hn]

/-- Without a rebuild the missing acknowledgement is a failed try. -/
theorem does_rackTimeout_unrebuilt {s : State} (hf : findFlight s.dev src dst pseq = some f) (hr : f.rebuilt = false) :
    Does (.rackTimeout src dst pseq) s (crossFail s.dev src dst pseq) := by
  have hexec : exec (.rackTimeout src dst pseq) s = execRackTimeout src dst pseq s := rfl
  simp [Does, hexec, execRackTimeout, hf, hr]

/-! ### Credits and gates (R165) -/

/-- Credits a source regains, no more than it is owed. -/
abbrev credBack (d : Dev) (src port n : Nat) : Nat := min n (tget 0 d.core.owed (1024 * src + port))

theorem xCreditFx_owed : tget 0 (xCreditFx src port n d).core.owed (1024 * src + port) =
    tget 0 d.core.owed (1024 * src + port) - credBack d src port n :=
  tget_tmod_same 0 d.core.owed _ (· - credBack d src port n)

theorem xCreditFx_egCred : tget 0 (xCreditFx src port n d).core.egCred (1024 * src + port) =
    tget 0 d.core.egCred (1024 * src + port) - credBack d src port n :=
  tget_tmod_same 0 d.core.egCred _ (· - credBack d src port n)

/-- The die knows the port's gate as it stands. -/
theorem gateChangeFx_learns : (gateChangeFx die port d).core.gateSeen.contains (die, port) = d.core.gated.contains port := by
  by_cases h : port ∈ d.core.gated
  · simp [gateChangeFx, h]
  · simp [gateChangeFx, h]

theorem gateChangeFx_other {g : Nat × Nat} (hg : g ≠ (die, port)) :
    (gateChangeFx die port d).core.gateSeen.contains g = d.core.gateSeen.contains g := by
  by_cases h : port ∈ d.core.gated
  · simp [gateChangeFx, h, hg]
  · simp [gateChangeFx, h, hg]

/-! ### Gaps (R167) -/

/-- The PSEQ the resequencer of `dst` waits for from `src`. -/
abbrev seqWanted (d : Dev) (src dst : Nat) : Nat := tget 0 d.core.pseqRx (xKey src dst)

/-- A PSEQ no sort is under way for is skipped, counted and notified, and what waited behind it is released. -/
theorem rsqGapFx_skips
    (hw : (d.core.flights.any fun f => f.src == src && f.dst == dst && f.rebuilt && !f.out && f.pseq != seqWanted d src dst) = true)
    (hf : findFlight d src dst (seqWanted d src dst) = none) :
    rsqGapFx src dst d = release ((({ d with core := { d.core with
      pseqRx := tput d.core.pseqRx (xKey src dst) ((seqWanted d src dst + 1) % 65536) } } : Dev).count .cRsqgap dst).notice
        0x020E dst none src (seqWanted d src dst) 0) src dst := by
  simp only [rsqGapFx, hw, hf]
  rfl

end Crossing

/-- Settles O20: each event is its effect on the device, and the effect in each case is a lemma above. -/
theorem crossingPlanes : Obligations.CrossingPlanes := by
  intro s src dst pseq port n x f e
  refine ⟨fun h => ?schedule, fun hs hd hp hk hc hf hr hv hnew hlen => ?slice, ?rebuildTimeout, fun hf ha hv hr ho => ?rack,
    fun hf ha hv hn => ?rnak, fun hf ha hv hr hn => ?rackTimeout, ⟨_, rfl, xCreditFx_owed, xCreditFx_egCred⟩,
    ⟨_, rfl, ?gateLearnt, fun g hg => gateChangeFx_other hg⟩, fun hw hf => ⟨_, rfl, ?gap⟩⟩
  case schedule => exact Does.of_eq (does_onDev rfl) (xbarFx_goesOn none h)
  case slice => exact Does.of_eq (does_onDev rfl) (sliceFx_rebuilds ⟨hs, hd, hp, hk, hc⟩ hf hr hv hnew hlen)
  case rebuildTimeout => exact does_onDev (f := rebuildTmoFx src dst pseq) rfl
  case rack => exact Does.of_eq (does_onDev rfl) (rackFx_frees hf ha hv hr ho)
  case rnak => exact Does.of_eq (does_onDev (f := fun d => crossFail d src dst pseq) rfl) (crossFail_resends hf ha hv hn)
  case rackTimeout => exact Does.of_eq (does_rackTimeout_unrebuilt hf hr) (crossFail_resends hf ha hv hn)
  case gateLearnt => exact Bool.eq_iff_iff.1 gateChangeFx_learns
  case gap => exact Does.of_eq (does_onDev rfl) (rsqGapFx_skips hw hf)

end Sys2Proof
end

section
/-! PROOF. Routes, next-hop sets, multicast groups and setting fabric time (RoutesGroupsAndTime). -/

namespace Sys2Proof
open Machine

section Routes

variable {b : Bas} {d : Dev} {first n alt w : Nat} {ents grp : List (Nat × Nat)} {mem : List Nat}

/-! ### ROUTE_WRITE (R149, R501) -/

/-- The block table with one entry written. -/
abbrev blockPut (d : Dev) (first set : Nat) : Dev :=
  { d with core := { d.core with
      routeB := tput d.core.routeB first set
      badB := d.core.badB.filter fun k => !decide (first ≤ k % 65536 ∧ k % 65536 < first + 1) } }

theorem routeWriteFx_block (hf : first < 65536) (ha : alt < 4096) :
    routeWriteFx b 0 first [(n, alt)] d = (blockPut d first alt).reply b 0x0205 .ok := by
  have hset : ¬ alt = 0xFFFF := by omega
  have hfits : ¬ 65536 < first + 1 := by omega
  simp [routeWriteFx, blockPut, routeEnt, upTo, hset, hfits, ha]

/-- A written block entry is good again on every die. -/
theorem blockPut_badB (hf : first < 65536) : first ∉ (blockPut d first alt).core.badB := by
  simp [Nat.mod_eq_of_lt hf]

theorem routeWriteFx_exact (h0 : ents ≠ []) (hl : ents.length ≤ 256) (hf : first + ents.length ≤ 16384)
    (hs : (ents.all fun e => decide (e.2 < 4096) || e.2 == 0xFFFF) = true)
    (hd : doubled (putExact d.core.routeX first ents) first ents = none) :
    routeWriteFx b 1 first ents d =
      { d with core := { d.core with
          routeX := putExact d.core.routeX first ents
          badX := d.core.badX.filter fun k => !decide (first ≤ k % 65536 ∧ k % 65536 < first + ents.length) } }.reply b 0x0205 .ok := by
  simp [routeWriteFx, h0, Nat.not_lt.2 hl, Nat.not_lt.2 hf, hs, hd]

/-! ### NHSET_WRITE (R509) -/

/-- Sixteen slots filled from the members in turn. -/
abbrev nextHops (mem : List Nat) (alt : Nat) : NhSet :=
  { slots := (upTo 16).map fun i => mem[i % mem.length]?, members := mem, alt := some alt }

theorem nhsetWriteFx_fills (hn : n < 4096) (h0 : mem ≠ []) (hl : mem.length ≤ 16) (hp : ∀ p ∈ mem, p < 1024) (ha : alt < 4096) :
    nhsetWriteFx b n mem alt d =
      { d with core := { d.core with nhs := tput d.core.nhs n (nextHops mem alt) } }.reply b 0x0206 .ok := by
  have hports : mem.all (fun p => decide (p < 1024)) = true := by simpa using hp
  have hform : ¬ (4096 ≤ n ∨ mem.isEmpty = true ∨ 16 < mem.length ∨ (!mem.all fun p => decide (p < 1024)) = true ∨
      (4096 ≤ alt ∧ alt ≠ 0xFFFF)) := by
    simp [hports, h0]
    omega
  have hset : ¬ alt = 0xFFFF := by omega
  simp only [nhsetWriteFx, if_neg hform, if_neg hset]

/-! ### MCGRP_WRITE (R170, R171) -/

/-- The port dies that reach members of a group, as its descriptor's mask names them. -/
abbrev memberMask (grp : List (Nat × Nat)) : Nat :=
  (upTo 16).foldl (fun m i => m + if grp.any fun x => portDie x.1 == i then 2 ^ i else 0) 0

/-- Members in group order: by port die, and within one as they were given. -/
abbrev groupOrder (grp : List (Nat × Nat)) : List (Nat × Nat) := (upTo 16).flatMap fun i => grp.filter fun m => portDie m.1 == i

/-- A valid descriptor agrees with the members it is written with. -/
structure GroupWord (d : Dev) (w : Nat) (grp : List (Nat × Nat)) : Prop where
  width : w < 2 ^ 64
  reserved : w % 2 ^ 19 = 0
  count : bits w 50 35 = grp.length
  mask : bits w 34 19 = memberMask grp
  valid : bit w 63 = true
  chase : (d.comp (bits w 62 51)).bound = true

/-- The device with a group's descriptor and members written. -/
abbrev groupPut (d : Dev) (n w : Nat) (grp : List (Nat × Nat)) : Dev :=
  { d with core := { d.core with
      mcMem := tput d.core.mcMem n (groupOrder grp)
      badGroups := d.core.badGroups.filter fun k => k % 65536 != n } }.setReg .ptMcgrp n w

theorem mcgrpWriteFx_writes (hn : n < 65536) (hw : GroupWord d w grp) (h0 : grp ≠ []) (hl : grp.length ≤ 32768)
    (hm : ∀ m ∈ grp, m.1 < 1024 ∧ m.2 < 2 ^ 20) (hs : groupShort d n grp = 0) :
    mcgrpWriteFx b n w grp d = (groupPut d n w grp).reply b 0x0207 .ok := by
  obtain ⟨hwidth, hrsv, hcount, hmask, hvalid, hchase⟩ := hw
  have hmembers : (grp.all fun m => decide (m.1 < 1024 ∧ m.2 < 2 ^ 20)) = true := by simpa using hm
  have hform : ¬ (65536 ≤ n ∨ 2 ^ 64 ≤ w ∨ w % 2 ^ 19 ≠ 0 ∨ 32768 < bits w 50 35 ∨
      (!grp.all fun m => decide (m.1 < 1024 ∧ m.2 < 2 ^ 20)) = true) := by
    rw [hmembers, hcount]
    simp only [Bool.not_true, Bool.false_eq_true, or_false]
    omega
  simp only [mcgrpWriteFx, if_neg hform]
  simp [hvalid, hchase, hs, h0, hcount, hmask]

end Routes

/-- Settles O55: every command runs as its effect on the device that heard it, and the effect in each case is a lemma above. -/
theorem routesGroupsAndTime : Obligations.RoutesGroupsAndTime := by
  rintro s b d first n alt w tod ents mem grp nh rfl
  refine ⟨fun h hf ha => ⟨_, Leads.of_eq (leads_onCmd rfl h) (routeWriteFx_block hf ha), ?written, fun k hk => ?others, ?good⟩,
    fun h h0 hl hf hs hd => ⟨_, rfl, ?exact⟩, fun h hn h0 hl hp ha hnh => ?nextHops,
    fun h hn hwidth hrsv hcount h0 hl hm hvalid hchase hmask hs =>
      ⟨groupPut (heard s.dev b) n w grp, ?group, Dev.setReg_reg _ _ _ _, tget_tput_same _ _ _ _⟩,
    fun h => ⟨_, rfl, leads_onCmd (body := timeStepFx b) rfl h⟩, fun h => ?timeSet⟩
  case written => simp [tfind_tput_same]
  case others => simp [tfind_tput_other _ _ _ _ hk]
  case good =>
    rw [Dev.reply_core]
    exact blockPut_badB hf
  case exact => exact Leads.of_eq (leads_onCmd rfl h) (routeWriteFx_exact h0 hl hf hs hd)
  case nextHops =>
    subst hnh
    exact Leads.of_eq (leads_onCmd rfl h) (nhsetWriteFx_fills hn h0 hl hp ha)
  case group => exact Leads.of_eq (leads_onCmd rfl h) (mcgrpWriteFx_writes hn ⟨hwidth, hrsv, hcount, hmask, hvalid, hchase⟩ h0 hl hm hs)
  case timeSet => exact Leads.of_eq (leads_onCmd rfl h) rfl

end Sys2Proof
end

section
/-! PROOF. A write to PT_EGR_CFG outside its limits is refused whole (EgressThresholdWrites): what the entry of a write of one entry is
judged by, and what a reply makes of the register words. -/

namespace Sys2Proof
open Machine

section OneEntry

variable {d : Dev} {b : Bas} {g : Nat} {e : RegEnt} {r : RegName}

/-! ### Register words around a command (R541, R543) -/

theorem heard_cfg : (heard d b).cfg = d.cfg := by
  obtain ⟨ss, h⟩ := heard_eq d b
  rw [h]

theorem heard_cfgAfter : (heard d b).mgmt.cfgAfter = d.mgmt.cfgAfter := by
  obtain ⟨ss, h⟩ := heard_eq d b
  rw [h]

/-- A reply brings the words that waited for it into force, in the order they were written, and no other. -/
theorem reply_cfg (o : Nat) (st : Status) (x y : Nat) (l : List Nat) :
    (d.reply b o st x y l).cfg = d.mgmt.cfgAfter.foldl (fun c e => tput c e.1 e.2) d.cfg := by
  unfold Dev.reply Dev.sendReply
  dsimp only
  split <;> split <;> rfl

/-! ### The one entry of a write (R11, R556, R557) -/

/-- The owner's write of one well-formed entry is judged by the register's own chapter. -/
theorem writesOne_verdict (h : writesOne d b g e r = true) (ho : ownCommand r e.value = false) (hw : (regDesc r).wr.isEmpty = false) :
    ∃ ix, entVerdict (heard d b) g e ((heard d b).rolesOf b) = chapterVerdict (heard d b) r ix e.value ((heard d b).rolesOf b) := by
  simp only [writesOne, Bool.and_eq_true] at h
  obtain ⟨⟨-, howner⟩, hent⟩ := h
  split at hent
  case h_2 => cases hent
  case h_1 x die hname =>
    simp only [Bool.and_eq_true, beq_iff_eq, decide_eq_true_eq] at hent
    obtain ⟨⟨⟨⟨⟨rfl, hix⟩, hrsv⟩, hval⟩, hex⟩, hzero⟩ := hent
    refine ⟨(regDesc x).perUnit * die + e.index, ?_⟩
    simp [entVerdict, hname, hix, hrsv, hval, hex, hzero, ho, hw, writerOk, howner]

/-- The owner's write of one well-formed entry that its chapter refuses is answered with that entry and leaves the registers. -/
theorem leads_writesOne_refused {s : State} {st : Status} (h : writesOne s.dev b g e r = true) (ho : ownCommand r e.value = false)
    (hw : (regDesc r).wr.isEmpty = false) (hst : st ≠ .noFit)
    (hv : ∀ ix, chapterVerdict (heard s.dev b) r ix e.value ((heard s.dev b).rolesOf b) = some (st, 0, 0)) :
    Leads (.regWrite b g [e]) s ((heard s.dev b).reply b (g * 256 + 0xF1) st 0x03 0) := by
  obtain ⟨ix, hent⟩ := writesOne_verdict h ho hw
  have hruns : Runs s.dev (.regWrite b g [e]) b (writeCmd s.dev g [e]) = true := by
    simp only [writesOne, Bool.and_eq_true] at h
    exact h.1.1
  have hbatch : batchVerdict g ((heard s.dev b).rolesOf b) [e] 0 (heard s.dev b) = some (0, st, 0, 0) := by
    simp [batchVerdict, hent, hv]
  exact Leads.of_eq (leads_onCmd rfl hruns) (regWriteFx_refuses (List.cons_ne_nil _ _) (Nat.succ_le_succ (Nat.zero_le 31)) hst hbatch)

end OneEntry

/-- PT_EGR_CFG takes EGRHI from 64 to 4,096 and EGRLO below it alone (R166). -/
theorem chapterVerdict_ptEgrCfg_refuses {v : Nat} (d : Dev) (ix : Nat) (ro : Roles)
    (h : bits v 31 16 < 64 ∨ 4096 < bits v 31 16 ∨ bits v 31 16 ≤ bits v 15 0) :
    chapterVerdict d .ptEgrCfg ix v ro = some (.unsupported, 0, 0) := by
  have hlimits : ¬ (64 ≤ bits v 31 16 ∧ bits v 31 16 ≤ 4096 ∧ bits v 15 0 < bits v 31 16) := by omega
  simp [chapterVerdict, unlessOk, no, hlimits]

/-- Settles O8: the chapter's verdict refuses the one entry, and the reply alone changes register words. -/
theorem egressThresholdWrites : Obligations.EgressThresholdWrites := by
  rintro s b e d x rfl hone hlimits rfl
  refine ⟨leads_writesOne_refused hone rfl rfl (by decide) fun ix => chapterVerdict_ptEgrCfg_refuses _ ix _ hlimits, ?_⟩
  rw [reply_cfg, heard_cfg, heard_cfgAfter]

end Sys2Proof
end

section
/-! PROOF. Writes to SCH_POLICER and FLT_THR outside their limits are refused whole (PolicerAndThresholdWrites). -/

namespace Sys2Proof
open Machine

section Limits

variable {v : Nat} (d : Dev) (ix : Nat) (ro : Roles)

/-- SCH_POLICER takes CIR, CBS, PIR and PBS above 0 alone, with PIR at least CIR and PBS at least CBS (R189). -/
theorem chapterVerdict_schPolicer_refuses
    (h : bits v 15 0 = 0 ∨ bits v 43 32 = 0 ∨ bits v 31 16 = 0 ∨ bits v 55 44 = 0 ∨ bits v 31 16 < bits v 15 0 ∨ bits v 55 44 < bits v 43 32) :
    chapterVerdict d .schPolicer ix v ro = some (.unsupported, 0, 0) := by
  have hlimits : ¬ (1 ≤ bits v 15 0 ∧ 1 ≤ bits v 43 32 ∧ bits v 15 0 ≤ bits v 31 16 ∧ bits v 43 32 ≤ bits v 55 44) := by omega
  simp only [chapterVerdict, unlessOk, no, hlimits, decide_false, Bool.false_eq_true, if_false]

/-- FLT_THR takes PLANETHR and RECCOAL above 0 and CETHR from 4 to 30 alone (R493). -/
theorem chapterVerdict_fltThr_refuses (h : bits v 31 16 = 0 ∨ bits v 15 8 < 4 ∨ 30 < bits v 15 8 ∨ bits v 7 0 = 0) :
    chapterVerdict d .fltThr ix v ro = some (.unsupported, 0, 0) := by
  have hlimits : (bits v 31 16 != 0 && decide (4 ≤ bits v 15 8 ∧ bits v 15 8 ≤ 30) && bits v 7 0 != 0) = false := by
    rw [Bool.eq_false_iff]
    simp only [ne_eq, Bool.and_eq_true, bne_iff_ne, decide_eq_true_eq]
    omega
  simp only [chapterVerdict, unlessOk, no, hlimits, Bool.false_eq_true, if_false]

end Limits

/-- Settles O9: each register's chapter refuses the one entry, and the reply alone changes register words. -/
theorem policerAndThresholdWrites : Obligations.PolicerAndThresholdWrites := by
  rintro s b e d x rfl
  refine ⟨fun hone hlimits hx => ⟨hx ▸ ?policer, ?policerCfg⟩, fun hone hlimits hx => ⟨hx ▸ ?threshold, ?thresholdCfg⟩⟩
  case policer => exact leads_writesOne_refused hone rfl rfl (by decide) fun ix => chapterVerdict_schPolicer_refuses _ ix _ hlimits
  case threshold => exact leads_writesOne_refused hone rfl rfl (by decide) fun ix => chapterVerdict_fltThr_refuses _ ix _ hlimits
  all_goals rw [hx, reply_cfg, heard_cfg, heard_cfgAfter]

end Sys2Proof
end

section
/-! PROOF. The order of an egress port, gate lists, promotion, stalls and a shaper's bucket (EgressGatesAndShapers). -/

namespace Sys2Proof
open Machine

section Egress

variable {d : Dev} {p tc vl : Nat} {q : QPkt}

/-! ### Egress order (R98, R180, R181) -/

/-- A flit time moves the token buckets alone: the replay buffer has the room it had. -/
@[simp] theorem replayRoom_tokenTick : replayRoom (tokenTick d p) p = replayRoom d p := rfl

@[simp] theorem tokenTick_link (n : Nat) : (tokenTick d p).link n = d.link n := rfl

@[simp] theorem egHead_tokenTick : egHead (tokenTick d p) p tc = egHead d p tc := rfl

/-- The head a port has begun and can go on with, of its lowest class. -/
abbrev begunHead (d : Dev) (p : Nat) : Option (Nat × QPkt) :=
  (upTo 8).findSome? fun tc => (egHead d p tc).bind fun q => if q.sent ≠ 0 ∧ q.ready ≠ 0 then some (tc, q) else none

theorem egressFx_full (hu : d.portUp p = true) (hr : replayRoom d p = false) : egressFx p d = sendAck (tokenTick d p) p := by
  simp [egressFx, hu, hr]

/-- A port that is up may send something new: its replay buffer has room and its numbers do not pause. -/
structure MaySend (d : Dev) (p : Nat) : Prop where
  up : d.portUp p = true
  room : replayRoom d p = true
  going : (d.link p).psn = false

theorem egressFx_control {c : Ctl} {r : List Ctl} (h : MaySend d p) (hc : (d.link p).ctlQ = c :: r) :
    egressFx p d = sendSeq ((tokenTick d p).modLink p fun l => { l with ctlQ := r }) p { ftype := 2, ctl := some c } := by
  simp [egressFx, h.up, h.room, h.going, hc]

theorem egressFx_continues (h : MaySend d p) (hc : (d.link p).ctlQ = []) (hb : begunHead d p = some (tc, q)) :
    egressFx p d = sendSegment (tokenTick d p) p tc q := by
  simp only [egressFx, h.up, h.room, h.going, hc, replayRoom_tokenTick, tokenTick_link, egHead_tokenTick, hb, Bool.not_true, Bool.or_self,
    Bool.false_eq_true, if_false]

/-! ### Gate lists (R190, R193) -/

theorem entryFx_next {g : GateList} {i e : Nat} (hg : tfind d.sched.oper p = some g) (he : tget (0, g.start) d.sched.entry p = (i, e)) :
    entryFx p d = { d with
      sched := { d.sched with
        entry := tput d.sched.entry p ((i + 1) % max 1 g.ents.length, e + ((g.ents[(i + 1) % max 1 g.ents.length]?).getD (0, 0)).2) } } := by
  simp only [entryFx, hg, he]

theorem takeoverFx_due {g : GateList} (hg : tfind d.sched.pend p = some g) (hs : g.start ≤ d.now) : takeoverFx p d = takeOver d p := by
  simp only [takeoverFx, hg, if_pos hs]

/-! ### Promotion and stalls (R196, R525) -/

/-- The device once the head of an egress queue is promoted. -/
abbrev headPromoted (d : Dev) (p tc : Nat) (q : QPkt) (rest : List QPkt) : Dev :=
  { d.count .cPromote (8 * portDie p + tc) with
    core := { d.core with egq := tput d.core.egq (egqKey p tc) ({ q with prom := true } :: rest) } }

theorem promoteFx_egress {die : Nat} {rest : List QPkt} (hq : tget [] d.core.egq (egqKey p tc) = q :: rest)
    (ha : d.fld .schClassCfg tc 15 0 ≠ 0) (hp : q.prom = false) (ho : q.pkt.opc ≠ opMGMT) (hs : q.sent = 0) :
    promoteFx true die p tc d = headPromoted d p tc q rest := by
  have hmay : ¬ (d.fld .schClassCfg tc 15 0 = 0 ∨ q.prom = true ∨ q.pkt.opc = opMGMT ∨ q.sent ≠ 0) := by simp [ha, hp, ho, hs]
  simp only [promoteFx, promoteHead, hq, if_neg hmay]
  rfl

theorem stallFx_noted (hu : d.portUp p = true)
    (hw : ((upTo 8).any fun tc => ((egHead d p tc).map fun q => q.lane == vl && q.sent == 0).getD false) = true)
    (hn : (p, vl) ∈ d.core.stallNoted) : stallFx p vl d = d.count .cCredstall (portDie p) := by
  have hnoted : (d.count .cCredstall (portDie p)).core.stallNoted.contains (p, vl) = true := List.contains_iff_mem.2 hn
  simp only [stallFx, hu, hw, hnoted, Bool.not_true, Bool.or_self, Bool.false_eq_true, if_false, if_true]

end Egress

section Shaper

variable {b : Bucket} {w : Nat}

/-! ### A shaper's bucket (R185, R186) -/

theorem refillShaper_starts (hw : bit w 31 = true) (hb : bit b.word 31 = false) : (refillShaper b w).tc = bits w 27 16 := by
  simp [refillShaper, hw, hb]

theorem refillShaper_gains (hw : bit w 31 = true) (hb : bit b.word 31 = true) :
    (refillShaper b w).tc = min (bits w 27 16) (b.tc + bits w 15 0) := by
  simp [refillShaper, hw, hb]

theorem refillShaper_disabled (hw : bit w 31 = false) : refillShaper b w = { word := w, tc := b.tc, tp := b.tp } := by
  simp [refillShaper, hw]

theorem refillShaper_le_depth (hw : bit w 31 = true) : (refillShaper b w).tc ≤ bits w 27 16 := by
  cases hb : bit b.word 31 with
  | false => exact (refillShaper_starts hw hb).le
  | true => exact (refillShaper_gains hw hb).trans_le (min_le_left _ _)

theorem shaperOk_disabled {d : Dev} {p tc : Nat} (h : bit (tget {} d.sched.shaper (8 * p + tc)).word 31 = false) : shaperOk d p tc = true := by
  simp [shaperOk, h]

end Shaper

/-- Settles O22: each command is its effect on the device, and the effect in each case is a lemma above; a bucket is full at most. -/
theorem egressGatesAndShapers : Obligations.EgressGatesAndShapers := by
  refine ⟨fun s p tc vl die i e c r g q rest =>
      ⟨fun hu hr hp hc => ?control, fun hu hr hp hc hb => ?begun, fun hu hr => ?full, ?refill, fun hg he => ?entry, fun hg hs => ?takeover,
        fun hq ha hp ho hs => ⟨_, rfl, ?promoted, ?counted⟩, fun hu hw hn => ?stall⟩,
    fun b w => ⟨refillShaper_starts, refillShaper_gains, refillShaper_disabled, refillShaper_le_depth, fun _ _ _ => shaperOk_disabled⟩⟩
  case control => exact Does.of_eq (does_onDev rfl) (egressFx_control ⟨hu, hr, hp⟩ hc)
  case begun => exact Does.of_eq (does_onDev rfl) (egressFx_continues ⟨hu, hr, hp⟩ hc hb)
  case full => exact Does.of_eq (does_onDev rfl) (egressFx_full hu hr)
  case refill => exact does_onDev (f := fun d => refillPort d p) rfl
  case entry => exact Does.of_eq (does_onDev rfl) (entryFx_next hg he)
  case takeover => exact Does.of_eq (does_onDev rfl) (takeoverFx_due hg hs)
  case promoted =>
    rw [promoteFx_egress hq ha hp ho hs]
    exact tget_tput_same _ _ _ _
  case counted =>
    rw [promoteFx_egress hq ha hp ho hs]
    exact Dev.count_counter s.dev _ _
  case stall => exact Does.of_eq (does_onDev rfl) (stallFx_noted hu hw hn)

end Sys2Proof
end

section
/-! PROOF. PTP messages as a port takes and sends them, and the sources of fabric time (FabricTimeMessagesAndSources). -/

namespace Sys2Proof
open Machine

section Messages

variable {d : Dev} {m : PtpMsg} {p tx rx t1 t2 t4 : Nat}

/-! ### Messages received (R144, R199, R200) -/

/-- A framed message of the device's domain at a port that runs PTP. -/
structure PtpTaken (d : Dev) (m : PtpMsg) : Prop where
  framed : m.framed = true
  on : ptpOn d m.port = true
  domain : m.domain = d.fld .schPtpCfg 0 23 16

theorem ptpRx_taken (h : PtpTaken d m) (body : Dev → Dev) : ptpRx m body d = body d := by
  simp [ptpRx, h.framed, h.on, h.domain]

theorem ptpOtherFx_counts (h : m.framed = true) : ptpOtherFx m d = d.count .cPtpdisc (portDie m.port) := by
  simp [ptpOtherFx, h]

section Taken

variable (h : PtpTaken d m)
include h

theorem syncFx_oneStep (hs : ptpState d m.port = 2) (ht : m.twoStep = false) :
    syncFx m d = servo d (offsetOf d m.port m.ts m.time m.corr) := by
  rw [syncFx, ptpRx_taken h]
  simp [hs, ht]

theorem syncFx_twoStep (hs : ptpState d m.port = 2) (ht : m.twoStep = true) :
    syncFx m d = d.modPtp m.port fun q => { q with syncRx := some (m.seq, m.ts), syncCorr := m.corr } := by
  rw [syncFx, ptpRx_taken h]
  simp [hs, ht]

theorem followUpFx_offset (hs : ptpState d m.port = 2) (hr : (d.ptpPort m.port).syncRx = some (m.seq, rx)) :
    followUpFx m d = servo (d.modPtp m.port fun q => { q with syncRx := none })
      (offsetOf d m.port rx m.time (m.corr + (d.ptpPort m.port).syncCorr)) := by
  rw [followUpFx, ptpRx_taken h]
  simp [hs, hr]

theorem announceFx_first (hb : (d.ptpPort m.port).best = none) (he : d.flag .schPtpCfg 0 29 = false) :
    announceFx m d = runBmca (d.modPtp m.port fun q => { q with best := some (m.prio1, m.cls, m.prio2, m.ident, m.steps) }) := by
  rw [announceFx, ptpRx_taken h]
  simp [hb, he]

theorem pdelayReqFx_answers : pdelayReqFx m d = (d.emit (.ptp m.port 3 m.seq m.ts 0)).emit (.ptp m.port 10 m.seq d.now m.corr) :=
  ptpRx_taken h _

theorem pdelayRespFx_waits (ht : (d.ptpPort m.port).pdTx = some (m.seq, t1)) :
    pdelayRespFx m d = d.modPtp m.port fun q => { q with pdRx := some (m.seq, m.time, m.ts), pdCorr := m.corr } := by
  rw [pdelayRespFx, ptpRx_taken h]
  simp [ht]

theorem pdelayFuFx_delay (ht : (d.ptpPort m.port).pdTx = some (m.seq, t1)) (hr : (d.ptpPort m.port).pdRx = some (m.seq, t2, t4)) :
    pdelayFuFx m d = d.modPtp m.port fun q =>
      { q with delay := some (((t4 : Int) - t1 - ((m.time : Int) - t2) - m.corr - (d.ptpPort m.port).pdCorr) / 2).toNat, pdTx := none, pdRx := none } := by
  rw [pdelayFuFx, ptpRx_taken h]
  simp [ht, hr]

end Taken

/-! ### Messages originated (R199) -/

section Originated

variable (hon : ptpOn d p = true) (hu : d.portUp p = true)
include hon hu

theorem ptpSyncFx_sends (hs : ptpState d p = 1) :
    ptpSyncFx p tx d = ((d.modPtp p fun x => { x with seqSync := ((d.ptpPort p).seqSync + 1) % 65536 }).emit
      (.ptp p 0 (d.ptpPort p).seqSync 0 0)).emit (.ptp p 8 (d.ptpPort p).seqSync tx 0) := by
  simp [ptpSyncFx, hon, hu, hs]

theorem ptpPdelayFx_sends (hs : ptpState d p ≠ 0) :
    ptpPdelayFx p tx d =
      (d.modPtp p fun x => { x with seqPd := ((d.ptpPort p).seqPd + 1) % 65536, pdTx := some ((d.ptpPort p).seqPd, tx), pdRx := none }).emit
        (.ptp p 2 (d.ptpPort p).seqPd 0 0) := by
  simp [ptpPdelayFx, hon, hu, hs]

theorem ptpAnnounceFx_sends (hs : ptpState d p = 1) :
    ptpAnnounceFx p d =
      (d.modPtp p fun x => { x with seqAnn := ((d.ptpPort p).seqAnn + 1) % 65536 }).emit (.ptp p 11 (d.ptpPort p).seqAnn d.now 0) := by
  simp [ptpAnnounceFx, hon, hu, hs]

end Originated

end Messages

section Sources

variable {d : Dev} {tod : Nat} {o : Int}

/-! ### Time sources (R201, R203) -/

/-- Without GM the master is the source: once it is lost, fabric time holds over at the rate it had. -/
theorem timeLossFx_master (h : d.flag .schPtpCfg 0 30 = false) :
    (timeLossFx 0 d).time = { d.time with st := .holdover, slave := none } := by
  simp [timeLossFx, h]

/-- Without GM the master alone, once regained, locks. -/
theorem timeRegainFx_master (h : d.flag .schPtpCfg 0 30 = false) :
    (timeRegainFx 0 o d).time = { d.time with st := .locked, locked1 := true, offset := o } := by
  simp [timeRegainFx, h]

/-- The fabric time a PPS edge stands for: the pending time of day, else the nearest whole second. -/
def edgeTime (d : Dev) : Nat := match d.time.tod with
  | some t => t
  | none => (d.now + 500000000) / 1000000000 * 1000000000

theorem edgeTime_pending (h : d.time.tod = some tod) : edgeTime d = tod := by
  rw [edgeTime, h]

theorem edgeTime_wholeSecond (h : d.time.tod = none) : edgeTime d % 1000000000 = 0 := by
  rw [edgeTime, h]
  dsimp only
  rw [Nat.mul_mod_left]

/-- With GM a PPS edge leaves fabric time at the time it stands for, and no time of day pending. -/
theorem ppsFx_gm (h : d.flag .schPtpCfg 0 30 = true) : ∃ e : Dev, ppsFx d = { e with time := { e.time with frac := edgeTime d * 2 ^ 32, tod := none } } :=
  ⟨_, if_neg (by rw [Bool.not_eq_true', Bool.not_eq_false]; exact h)⟩

theorem ppsFx_now (h : d.flag .schPtpCfg 0 30 = true) : (ppsFx d).now = edgeTime d := by
  obtain ⟨e, he⟩ := ppsFx_gm h
  rw [he, Dev.now]
  exact Nat.mul_div_cancel _ (by decide)

theorem ppsFx_tod (h : d.flag .schPtpCfg 0 30 = true) : (ppsFx d).time.tod = none := by
  obtain ⟨e, he⟩ := ppsFx_gm h
  rw [he]

end Sources

/-- Settles O23: each command is its effect on the device, and the effect in each case is a lemma above. -/
theorem fabricTimeMessagesAndSources : Obligations.FabricTimeMessagesAndSources := by
  refine ⟨fun s m p tx rx t1 t2 t4 hf hm hd hon hu => ?messages, fun s k tod o => ?sources⟩
  case messages =>
    have ht : PtpTaken s.dev m := ⟨hf, hm, hd⟩
    exact ⟨fun hs h1 => Does.of_eq (does_onDev rfl) (syncFx_oneStep ht hs h1),
      fun hs h2 => Does.of_eq (does_onDev rfl) (syncFx_twoStep ht hs h2),
      fun hs hr => Does.of_eq (does_onDev rfl) (followUpFx_offset ht hs hr),
      fun hb he => Does.of_eq (does_onDev rfl) (announceFx_first ht hb he),
      Does.of_eq (does_onDev rfl) (pdelayReqFx_answers ht),
      fun h1 => Does.of_eq (does_onDev rfl) (pdelayRespFx_waits ht h1),
      fun h1 hr => Does.of_eq (does_onDev rfl) (pdelayFuFx_delay ht h1 hr),
      Does.of_eq (does_onDev rfl) (ptpOtherFx_counts hf),
      fun hs => Does.of_eq (does_onDev rfl) (ptpSyncFx_sends hon hu hs),
      fun hs => Does.of_eq (does_onDev rfl) (ptpPdelayFx_sends hon hu hs),
      fun hs => Does.of_eq (does_onDev rfl) (ptpAnnounceFx_sends hon hu hs)⟩
  case sources =>
    refine ⟨fun hg => ⟨_, rfl, ?_⟩, fun hg => ⟨_, rfl, ?_⟩, fun hg ht => ⟨_, rfl, ?_, ?_⟩, fun hg ht => ⟨_, rfl, ?_⟩, fun hk => ?_⟩
    · rw [State.put_time, timeLossFx_master hg]
      exact ⟨rfl, rfl, rfl⟩
    · rw [State.put_time, timeRegainFx_master hg]
      exact ⟨rfl, rfl⟩
    · exact (ppsFx_now hg).trans (edgeTime_pending ht)
    · exact ppsFx_tod hg
    · exact (congrArg (· % 1000000000) (ppsFx_now hg)).trans (edgeTime_wholeSecond ht)
    · exact Does.of_eq (does_onDev rfl) (if_pos hk)

end Sys2Proof
end


section
/-! PROOF. Writes to galley memory: what an ended access, ECC and the mirror leave of the bytes, what a store writes, and why equal memories are
equal data (GalleyMemory). -/

namespace Sys2Proof
open Machine

/-! ### Equal memories are equal data -/

theorem twf_cons {α : Type} {k : Nat} {v : α} {t : Tbl α} : twf ((k, v) :: t) = true ↔ (∀ b ∈ t.map Prod.fst, k < b) ∧ twf t = true :=
  rising_cons k (t.map Prod.fst)

/-- The least key of a canonical table is the key of its first entry: a table that reads the same has no smaller one. -/
theorem head_key_le {α : Type} {k k' : Nat} {v v' : α} {t t' : Tbl α} (hw : twf ((k, v) :: t) = true)
    (h : tfind ((k, v) :: t) k' = tfind ((k', v') :: t') k') : k ≤ k' := by
  by_contra hlt
  obtain ⟨hall, -⟩ := twf_cons.1 hw
  have hnone : tfind ((k, v) :: t) k' = none :=
    tfind_none_of_lt _ _ (List.forall_mem_cons.2 ⟨Nat.lt_of_not_le hlt, fun b hb => (Nat.lt_of_not_le hlt).trans (hall b hb)⟩)
  rw [hnone, tfind, if_pos rfl] at h
  cases h

/-- Canonical tables that read the same are equal. -/
theorem twf_ext {α : Type} {t t' : Tbl α} (hw : twf t = true) (hw' : twf t' = true) (h : ∀ k, tfind t k = tfind t' k) : t = t' := by
  induction t generalizing t' with
  | nil =>
    cases t' with
    | nil => rfl
    | cons e' r' =>
      have hhead := h e'.1
      rw [tfind, tfind, if_pos rfl] at hhead
      cases hhead
  | cons e r ih =>
    obtain ⟨k, v⟩ := e
    cases t' with
    | nil =>
      have hhead := h k
      rw [tfind, tfind, if_pos rfl] at hhead
      cases hhead
    | cons e' r' =>
      obtain ⟨k', v'⟩ := e'
      obtain rfl : k = k' := Nat.le_antisymm (head_key_le hw (h k')) (head_key_le hw' (h k).symm)
      obtain ⟨hall, hr⟩ := twf_cons.1 hw
      obtain ⟨hall', hr'⟩ := twf_cons.1 hw'
      have hv := h k
      rw [tfind, tfind, if_pos rfl, if_pos rfl, Option.some.injEq] at hv
      have htail : ∀ a, tfind r a = tfind r' a := by
        intro a
        by_cases ha : k = a
        · subst ha
          rw [tfind_none_of_lt r k hall, tfind_none_of_lt r' k hall']
        · simpa [tfind, ha] using h a
      rw [hv, ih hr hr' htail]

theorem mem_of_tfind {α : Type} {t : Tbl α} {k : Nat} {v : α} (h : tfind t k = some v) : (k, v) ∈ t := by
  induction t with
  | nil => cases h
  | cons e r ih =>
    rw [tfind] at h
    split at h
    · next hk =>
      cases h
      exact hk ▸ List.mem_cons_self
    · exact List.mem_cons_of_mem _ (ih h)

/-- In the canonical form a byte is listed exactly when it is not zero. -/
theorem tfind_of_wf {m : List Host.Cell} (hw : Memory.wf m = true) (a : Nat) :
    tfind m a = if memGet m a = 0 then none else some (memGet m a) := by
  cases h : tfind m a with
  | none => simp [memGet, tget, h]
  | some b =>
    have hb : b ≠ 0 := bne_iff_ne.1 (List.all_eq_true.1 (Bool.and_eq_true_iff.1 hw).2 _ (mem_of_tfind h))
    have hget : memGet m a = b := by simp [memGet, tget, h]
    rw [hget, if_neg hb]

theorem memory_ext {m m' : List Host.Cell} (hw : Memory.wf m = true) (hw' : Memory.wf m' = true) (h : ∀ a, memGet m a = memGet m' a) :
    m = m' := by
  refine twf_ext (Bool.and_eq_true_iff.1 hw).1 (Bool.and_eq_true_iff.1 hw').1 fun k => ?_
  rw [tfind_of_wf hw, tfind_of_wf hw', h]

/-! ### A write of bytes -/

/-- A byte behind the bytes written keeps its value. -/
theorem memGet_memWrite_above (m : List Host.Cell) (a j : Nat) (l : List Byte) (hj : a + l.length ≤ j) :
    memGet (memWrite m a l) j = memGet m j := by
  induction l generalizing m a with
  | nil => rfl
  | cons b r ih =>
    rw [List.length_cons] at hj
    rw [memWrite, ih _ _ (by omega), memGet_memPut_other _ _ _ _ (by omega)]

/-- Every byte written reads as it was written. -/
theorem memGet_memWrite_at (m : List Host.Cell) (a i : Nat) (l : List Byte) (hw : Memory.wf m = true) (hi : i < l.length) :
    memGet (memWrite m a l) (a + i) = l[i] := by
  induction l generalizing m a i with
  | nil => cases hi
  | cons b r ih =>
    rw [memWrite]
    cases i with
    | zero => exact (memGet_memWrite_below _ _ _ r (Nat.lt_succ_self a)).trans (memGet_memPut_same m a b hw)
    | succ i =>
      rw [← Nat.add_assoc, Nat.add_right_comm]
      exact ih (memPut m a b) (a + 1) i (memPut_wf m a b hw) (Nat.lt_of_succ_lt_succ hi)

/-! ### What leaves the bytes as they were -/

section Frames

variable {d : Dev} {j : PJob} {s : Nat} {st : Status}

/-- What every step of a fold leaves of the device, the fold leaves. -/
theorem foldOver_keeps {α β : Type} {f : α → Dev → Dev} {part : Dev → β} (hf : ∀ x d, part (f x d) = part d) (l : List α) (d : Dev) :
    part (foldOver l d f) = part d := by
  induction l generalizing d with
  | nil => rfl
  | cons x r ih => exact (ih (f x d)).trans (hf x d)

/-- The conditions of granules, on both stacks, are kept beside the bytes. -/
theorem setGbads_mem (addr : Nat → Nat) (b : Bool) (l : List Nat) (d : Dev) :
    (foldOver l d fun g d => (d.setGbad s (addr g) b).setGbad (pairOf s) (addr g) b).pool.mem = d.pool.mem :=
  foldOver_keeps (f := fun g d => (d.setGbad s (addr g) b).setGbad (pairOf s) (addr g) b) (part := fun d => d.pool.mem) (fun _ _ => rfl) l d

theorem setPart_mem (gid part : Nat) : (setPart d gid part st).pool.mem = d.pool.mem := by
  unfold setPart
  split <;> rfl

theorem partCount_mem (die : Nat) (write : Bool) : (partCount d die write st).pool.mem = d.pool.mem := by
  unfold partCount
  split
  · split <;> rfl
  · rfl
  · rfl

theorem grpJobEnd_mem (gid : Nat) : (grpJobEnd d gid).pool.mem = d.pool.mem := by
  unfold grpJobEnd
  split
  · rfl
  · dsimp only
    split <;> rfl

/-- An access that ends writes nothing. -/
theorem jobEnd_mem : (jobEnd d j st).pool.mem = d.pool.mem := by
  have hparts : ∀ parts : List Nat,
      (foldOver parts d fun p d => partCount (setPart d j.grp p st) j.die j.op.writes st).pool.mem = d.pool.mem :=
    fun parts => foldOver_keeps (part := fun d => d.pool.mem) (fun p e => (partCount_mem _ _).trans (setPart_mem _ _)) parts d
  unfold jobEnd
  dsimp only
  split
  · exact hparts _
  · exact (grpJobEnd_mem _).trans (hparts _)

theorem afterWrite_mem : (afterWrite d j s).pool.mem = d.pool.mem := by
  unfold afterWrite
  split
  · exact jobEnd_mem
  · split
    · rfl
    · exact jobEnd_mem

/-! ### A store at the galley -/

theorem putLine_mem (l : Loc) (off : Nat) (b : List Byte) : (putLine d s l off b).pool.mem = memWrite d.pool.mem (gAddr l off) b := by
  unfold putLine
  exact setGbads_mem (fun a => a) false _ _

/-- A part that covers a poisoned granule only in part writes nothing. -/
theorem galleyStore_refused {ce : List Nat}
    (h : ∃ g ∈ j.granules, readGran d s (gAddr j.loc (64 * g)) (j.mirrored d) = .poisoned ∧ j.covers g = false) :
    (galleyStore d j s ce).pool.mem = d.pool.mem := by
  obtain ⟨g, hg, hp, hc⟩ := h
  have hany : ((j.granules.filter fun g => readGran d s (gAddr j.loc (64 * g)) (j.mirrored d) == .poisoned).any fun g => !j.covers g) = true :=
    List.any_eq_true.2 ⟨g, List.mem_filter.2 ⟨hg, by rw [hp]; rfl⟩, by rw [hc]; rfl⟩
  unfold galleyStore
  dsimp only
  rw [if_pos hany]
  exact jobEnd_mem

/-- Any other part writes its bytes. -/
theorem galleyStore_writes {ce : List Nat}
    (h : ∀ g ∈ j.granules, readGran d s (gAddr j.loc (64 * g)) (j.mirrored d) = .poisoned → j.covers g = true) :
    (galleyStore d j s ce).pool.mem = memWrite d.pool.mem (gAddr j.loc j.off) j.data := by
  have hnone : ¬ ((j.granules.filter fun g => readGran d s (gAddr j.loc (64 * g)) (j.mirrored d) == .poisoned).any fun g => !j.covers g) = true := by
    intro hany
    obtain ⟨g, hg, hc⟩ := List.any_eq_true.1 hany
    obtain ⟨hmem, hp⟩ := List.mem_filter.1 hg
    rw [h g hmem (beq_iff_eq.1 hp)] at hc
    cases hc
  unfold galleyStore
  dsimp only
  rw [if_neg hnone, afterWrite_mem, setGbads_mem (fun g => gAddr j.loc (64 * g)), putLine_mem]
  rfl

end Frames

/-- Settles O7: a store either leaves memory as it was or is one write of its bytes, whose reads are those of `memWrite`. -/
theorem galleyMemory : Obligations.GalleyMemory := by
  refine ⟨?_, fun _ _ => memory_ext⟩
  rintro d e j st ce rfl
  refine ⟨galleyStore_refused, fun h => ?_⟩
  rw [galleyStore_writes h]
  refine ⟨fun hw => ⟨memWrite_wf _ _ _ hw, fun i hi => memGet_memWrite_at _ _ i _ hw hi⟩, ?_⟩
  rintro a (hb | ha)
  · exact memGet_memWrite_below _ _ _ _ hb
  · exact memGet_memWrite_above _ _ _ _ ha

end Sys2Proof
end

section
/-! PROOF. Spares and stripe sets by their commands (SparesAndStripeSets). -/

namespace Sys2Proof
open Machine

section Spares

variable {b : Bas} {d : Dev} {kind target base extent : Nat} {x : Spare}

/-! ### Spares (R238) -/

/-- The device with a spare more, each set that no rebuild runs on choosing again. -/
abbrev spareAdded (d : Dev) (kind target base extent : Nat) : Dev :=
  let e := takeExtent d kind target base extent
  foldOver (e.pool.stripes.map Prod.fst)
    { e with pool := { e.pool with spares := e.pool.spares ++ [{ kind := kind, target := target, base := base, extent := extent }] } }
    fun s d => if (d.stripe s).rb.isNone then rebuildStart d s else d

section Add

variable (hx : expander kind target = true) (h0 : extent ≠ 0) (hn : extent ≤ 65535)
include hx h0 hn

/-- A tray and an extent that SPARE_ADD may name. -/
theorem spareNamed : ¬ ((!expander kind target) = true ∨ extent = 0 ∨ 65535 < extent) := by
  simp [hx, h0, hn]

theorem spareAddFx_adds (hl : extentLack d kind target base extent = 0) :
    spareAddFx b kind target base extent d = (spareAdded d kind target base extent).reply b 0x0406 .ok :=
  (if_neg (spareNamed hx h0 hn)).trans (if_neg (not_not_intro hl))

theorem spareAddFx_noFit (hl : extentLack d kind target base extent ≠ 0) :
    spareAddFx b kind target base extent d = d.reply b 0x0406 .noFit 0x01 2 [extentLack d kind target base extent * folioB] :=
  (if_neg (spareNamed hx h0 hn)).trans (if_pos hl)

end Add

section Remove

variable (hf : (d.pool.spares.find? fun x => x.kind == kind && x.target == target && x.base == base) = some x)
include hf

theorem spareRemoveFx_returns (hs : d.pool.stripes = []) :
    spareRemoveFx b kind target base d = (giveExtent { d with pool := { d.pool with
      spares := d.pool.spares.filter fun y => !(y.kind == kind && y.target == target && y.base == base) } } kind target base
        x.extent).reply b 0x0407 .ok := by
  simp [spareRemoveFx, hf, hs]

/-- A spare a rebuild writes to stays. -/
theorem spareRemoveFx_busy (hw : ∃ e ∈ d.pool.stripes, ∃ n y, e.2.rb = some (n, y) ∧ y.mkind = kind ∧ y.target = target ∧ y.base = base) :
    spareRemoveFx b kind target base d = d.reply b 0x0407 .busy := by
  obtain ⟨e, he, n, y, hrb, rfl, rfl, rfl⟩ := hw
  simp only [spareRemoveFx, hf]
  refine if_pos (List.any_eq_true.2 ⟨e, he, ?_⟩)
  simp [hrb]

end Remove

end Spares

section Sets

variable {b : Bas} {d : Dev} {set extent : Nat} {mem : List (Nat × Nat × Nat)} {st : Stripe}

/-! ### Stripe sets (R234, R239) -/

theorem stripeUnsupported_twoOnOneTray (h : (mem.map fun m => (m.1, m.2.1)).eraseDups.length ≠ 10) :
    stripeUnsupported d set extent mem = true := by
  simp [stripeUnsupported, h]

theorem stripeDefineFx_unsupported (hu : stripeUnsupported d set extent mem = true) :
    stripeDefineFx b set extent mem d = d.reply b 0x0408 .unsupported := if_pos hu

section Supported

variable (hu : stripeUnsupported d set extent mem = false)
include hu

theorem stripeDefineFx_noFit (hl : stripeLack d extent mem ≠ 0) :
    stripeDefineFx b set extent mem d = d.reply b 0x0408 .noFit 0x01 2 [stripeLack d extent mem * folioB] :=
  (if_neg (Bool.eq_false_iff.1 hu)).trans (if_pos hl)

theorem stripeDefineFx_busy (hl : stripeLack d extent mem = 0) (hs : tfind d.pool.stripes set ≠ none) :
    stripeDefineFx b set extent mem d = d.reply b 0x0408 .busy :=
  (if_neg (Bool.eq_false_iff.1 hu)).trans ((if_neg (not_not_intro hl)).trans (if_pos (Option.isSome_iff_ne_none.2 hs)))

/-- The device with the members' extents taken. -/
abbrev extentsTaken (d : Dev) (extent : Nat) (mem : List (Nat × Nat × Nat)) : Dev :=
  foldOver mem d fun m d => takeExtent d m.1 m.2.1 m.2.2 extent

/-- The device with a set more on extents that have been taken. -/
abbrev setPut (d : Dev) (set extent : Nat) (mem : List (Nat × Nat × Nat)) : Dev :=
  { d with pool := { d.pool with stripes := tput d.pool.stripes set (newStripe d extent mem) } }

theorem stripeDefineFx_defines (hl : stripeLack d extent mem = 0) (hs : tfind d.pool.stripes set = none) :
    stripeDefineFx b set extent mem d =
      (stripeNote (extentsTaken d extent mem) (setPut (extentsTaken d extent mem) set extent mem) set).reply b 0x0408 .ok := by
  have hnew : ¬ thas d.pool.stripes set = true := by simp [thas, hs]
  exact (if_neg (Bool.eq_false_iff.1 hu)).trans ((if_neg (not_not_intro hl)).trans (if_neg hnew))

end Supported

/-- The device without a set: its frames are of no set any more. -/
abbrev setGone (d : Dev) (set : Nat) : Dev :=
  { d with
    pool := { d.pool with stripes := tdel d.pool.stripes set }
    imp := { d.imp with
      freeFr := d.imp.freeFr.filter fun x => !(x.1 == 5 && x.2.1 == set)
      vacated := d.imp.vacated.filter fun x => !(x.1 == 5 && x.2.1 == set)
      nextFr := tdel d.imp.nextFr (frameKey 5 set) } }

section Delete

variable (hs : tfind d.pool.stripes set = some st)
include hs

theorem stripeDeleteFx_busy (hm : (framesUsed (liveFormes d)).any (fun x => x.1 == 5 && x.2.1 == set) = true) :
    stripeDeleteFx b set d = d.reply b 0x0409 .busy := by
  simp only [stripeDeleteFx, hs]
  exact if_pos hm

theorem stripeDeleteFx_deletes (hm : (framesUsed (liveFormes d)).any (fun x => x.1 == 5 && x.2.1 == set) = false) :
    stripeDeleteFx b set d =
      (foldOver st.mem (setGone d set) fun m d => giveExtent d m.mkind m.target m.base st.extent).reply b 0x0409 .ok := by
  simp only [stripeDeleteFx, hs]
  exact if_neg (Bool.eq_false_iff.1 hm)

end Delete

end Sets

/-- Settles O25: each command runs as its effect on the device that heard it, and the effect in each case is a lemma above. -/
theorem sparesAndStripeSets : Obligations.SparesAndStripeSets := by
  rintro s b d kind target base extent set mem x st rfl
  refine ⟨fun h hx h0 hn => ?add, fun h hf => ?remove, fun h => ?define, fun h hs => ?delete⟩
  case add =>
    have hrun : Leads (.spareAdd b kind target base extent) s (spareAddFx b kind target base extent (heard s.dev b)) := leads_onCmd rfl h
    exact ⟨fun hl => ⟨_, rfl, hrun.of_eq (spareAddFx_adds hx h0 hn hl)⟩, fun hl => hrun.of_eq (spareAddFx_noFit hx h0 hn hl)⟩
  case remove =>
    have hrun : Leads (.spareRemove b kind target base) s (spareRemoveFx b kind target base (heard s.dev b)) := leads_onCmd rfl h
    exact ⟨fun hs => hrun.of_eq (spareRemoveFx_returns hf hs), fun hw => hrun.of_eq (spareRemoveFx_busy hf hw)⟩
  case define =>
    have hrun : Leads (.stripeDefine b set extent mem) s (stripeDefineFx b set extent mem (heard s.dev b)) := leads_onCmd rfl h
    exact ⟨fun ht => hrun.of_eq (stripeDefineFx_unsupported (stripeUnsupported_twoOnOneTray ht)),
      fun hu hl => hrun.of_eq (stripeDefineFx_noFit hu hl), fun hu hl hs => hrun.of_eq (stripeDefineFx_busy hu hl hs),
      fun hu hl hs => ⟨_, _, rfl, rfl, tfind_tput_same _ _ _, hrun.of_eq (stripeDefineFx_defines hu hl hs)⟩⟩
  case delete =>
    have hrun : Leads (.stripeDelete b set) s (stripeDeleteFx b set (heard s.dev b)) := leads_onCmd rfl h
    exact ⟨fun hm => hrun.of_eq (stripeDeleteFx_busy hs hm), fun hm => ⟨_, rfl, hrun.of_eq (stripeDeleteFx_deletes hs hm)⟩⟩

end Sys2Proof
end

section
/-! PROOF. Mover rings and layers as they join the staged forme (RingsAndLayers). -/

namespace Sys2Proof
open Machine

section Rings

variable {b : Bas} {d d1 d2 : Dev} {chase party ring core : Nat} {r : RingDef} {x : Ring}

/-! ### Rings (R241, R393) -/

/-- A ring as it joins the staged forme, on the core that will serve it. -/
abbrev newRing (chase party core : Nat) (r : RingDef) : Ring :=
  { chase := chase, party := party, ring := r.ring, pva := r.pva, ents := r.ents, mark := r.mark, core := core, staged := true }

/-- The device with a ring more. -/
abbrev ringPut (d : Dev) (x : Ring) : Dev := { d with pool := { d.pool with rings := d.pool.rings ++ [x] } }

/-- What MOVER_BIND puts into the staged forme: the ring, on the least loaded core with a mover plate. -/
def ringPlace (chase party : Nat) (r : RingDef) (d : Dev) : Except (Nat × Nat) Dev :=
  match leastCore d chase (d.stagedF chase) [0x28] { sram := 1024 } fun _ => true with
  | none => .error (3, 1)
  | some c => .ok (ringPut d (newRing chase party c r))

theorem ringPlace_none (h : leastCore d chase (d.stagedF chase) [0x28] { sram := 1024 } (fun _ => true) = none) :
    ringPlace chase party r d = .error (3, 1) := by
  simp only [ringPlace, h]

theorem ringPlace_some (h : leastCore d chase (d.stagedF chase) [0x28] { sram := 1024 } (fun _ => true) = some core) :
    ringPlace chase party r d = .ok (ringPut d (newRing chase party core r)) := by
  simp only [ringPlace, h]

theorem moverBindFx_unsupported (h : ringOk r = false) : moverBindFx b chase party r d = d.reply b 0x040A .unsupported :=
  if_pos (.inl (by rw [h]; rfl))

section Named

variable (hk : ringOk r = true) (hp : party < (nextReq d chase).parties)
include hk hp

theorem moverBindFx_denied (h : ringDenied d chase party 64 r = true) : moverBindFx b chase party r d = d.reply b 0x040A .denied := by
  simp [moverBindFx, hk, Nat.not_le.2 hp, h]

/-- A ring in range and allowed joins the staged forme. -/
theorem moverBindFx_joins (h : ringDenied d chase party 64 r = false) :
    moverBindFx b chase party r d = joinStage d b chase 0x040A (ringTaken d chase r.ring) (ringPlace chase party r) := by
  have hnamed : ¬ ((!ringOk r) = true ∨ (nextReq d chase).parties ≤ party) := by simp [hk, hp]
  exact (if_neg hnamed).trans (if_neg (Bool.eq_false_iff.1 h))

section Staged

variable (ha : ringDenied d chase party 64 r = false) (hs : Stages d chase d1)
include ha hs

theorem moverBindFx_noCore (hc : leastCore d1 chase (d1.stagedF chase) [0x28] { sram := 1024 } (fun _ => true) = none) :
    moverBindFx b chase party r d = d.reply b 0x040A .noFit 0x01 3 [1] :=
  (moverBindFx_joins hk hp ha).trans (joinStage_error hs (ringPlace_none hc))

variable (hc : leastCore d1 chase (d1.stagedF chase) [0x28] { sram := 1024 } (fun _ => true) = some core)
  (hr : Roomy (ringPut d1 (newRing chase party core r)) chase)
include hc hr

theorem moverBindFx_busy (ht : ringTaken d chase r.ring = true) : moverBindFx b chase party r d = d.reply b 0x040A .busy := by
  rw [moverBindFx_joins hk hp ha, ht]
  exact joinStage_busy hs (ringPlace_some hc) hr

theorem moverBindFx_binds (ht : ringTaken d chase r.ring = false) :
    moverBindFx b chase party r d = joined (ringPut d1 (newRing chase party core r)) b chase 0x040A := by
  rw [moverBindFx_joins hk hp ha, ht]
  exact joinStage_stages hs (ringPlace_some hc) hr

end Staged

end Named

/-- A ring of a chase that has not been unbound. -/
abbrev boundRing (chase ring : Nat) (r : Ring) : Bool := r.chase == chase && r.ring == ring && !r.leaving && !r.gone

/-- The device whose ring leaves at the next commit; one that was only staged is gone. -/
abbrev ringLeaves (d : Dev) (chase ring : Nat) : Dev :=
  { d with pool := { d.pool with
      rings := (d.pool.rings.filter fun r => !(boundRing chase ring r && r.staged)).map fun r =>
        if boundRing chase ring r then { r with leaving := true } else r } }

theorem moverUnbindFx_unknown (h : d.pool.rings.find? (boundRing chase ring) = none) :
    moverUnbindFx b chase ring d = d.reply b 0x040B .unsupported 0x02 2 := by
  simp only [moverUnbindFx, h]

theorem moverUnbindFx_unbinds (h : d.pool.rings.find? (boundRing chase ring) = some x) (hs : Stages d chase d1)
    (hr : Roomy (ringLeaves d1 chase ring) chase) :
    moverUnbindFx b chase ring d = joined (ringLeaves d1 chase ring) b chase 0x040B := by
  simp only [moverUnbindFx, h]
  exact joinStage_stages hs rfl hr

end Rings

section Layers

variable {b : Bas} {d d1 : Dev} {chase : Nat} {l : LayerDef}

/-! ### Layers (R261) -/

/-- The device whose staged definition of a layer is `l`. -/
abbrev layerPut (d : Dev) (chase : Nat) (l : LayerDef) : Dev :=
  { d with pool := { d.pool with layers := d.pool.layers.filter (fun y => !(y.chase == chase && y.layer == l.layer && y.staged)) ++
    [{ newLayer chase l with stack := layerStack d (d.stagedF chase) l.layer,
                             shres := l.arm == 1 && !(d.stagedF chase).dropped.contains l.layer }] } }

theorem layerPlace_noWindow {others : List Layer} (hw : (d.stagedF chase).windowB < 4096 * l.lpages) :
    layerPlace chase l others d = .error (1, 4096 * l.lpages - (d.stagedF chase).windowB) := if_pos hw

/-- A layer within the window whose shadow, if it asks for one, is free takes its place. -/
theorem layerPlace_fits {others : List Layer} (hw : 4096 * l.lpages ≤ (d.stagedF chase).windowB)
    (hs : l.arm ≠ 1 ∨ shadowTaken others + 4096 * l.shpages ≤ (d.stagedF chase).shadowB) :
    layerPlace chase l others d = .ok (layerPut d chase l) := by
  refine (if_neg (Nat.not_lt.2 hw)).trans (if_neg ?_)
  rintro ⟨hlack, harm, -⟩
  rcases hs with hn | hfree
  · exact hn harm
  · simp only [newLayer, harm, if_true] at hlack
    omega

theorem layerDefFx_unsupported (h : layerUnsupported d chase l = true) : layerDefFx b chase l d = d.reply b 0x0501 .unsupported := if_pos h

section Named

variable (hu : layerUnsupported d chase l = false)
include hu

theorem layerDefFx_denied (hd : layerDenied d chase l = true) : layerDefFx b chase l d = d.reply b 0x0501 .denied :=
  (if_neg (Bool.eq_false_iff.1 hu)).trans (if_pos hd)

variable (hd : layerDenied d chase l = false)
include hd

/-- A layer in range and allowed joins the staged forme. -/
theorem layerDefFx_joins :
    layerDefFx b chase l d = joinStage d b chase 0x0501 false (layerPlace chase l (layersBeside d chase l.layer)) :=
  (if_neg (Bool.eq_false_iff.1 hu)).trans (if_neg (Bool.eq_false_iff.1 hd))

variable (hs : Stages d chase d1)
include hs

theorem layerDefFx_noWindow (hw : (d1.stagedF chase).windowB < 4096 * l.lpages) :
    layerDefFx b chase l d = d.reply b 0x0501 .noFit 0x01 1 [4096 * l.lpages - (d1.stagedF chase).windowB] :=
  (layerDefFx_joins hu hd).trans (joinStage_error hs (layerPlace_noWindow hw))

theorem layerDefFx_defines (hw : 4096 * l.lpages ≤ (d1.stagedF chase).windowB)
    (hf : l.arm ≠ 1 ∨ shadowTaken (layersBeside d chase l.layer) + 4096 * l.shpages ≤ (d1.stagedF chase).shadowB)
    (hr : Roomy (layerPut d1 chase l) chase) : layerDefFx b chase l d = joined (layerPut d1 chase l) b chase 0x0501 :=
  (layerDefFx_joins hu hd).trans (joinStage_stages hs (layerPlace_fits hw hf) hr)

end Named

end Layers

/-- Settles O26: each command runs as its effect on the device that heard it; what joins the stage does so by the laws of `joinStage`. -/
theorem ringsAndLayers : Obligations.RingsAndLayers := by
  rintro s b d d1 d2 chase party ring core r l x rfl
  refine ⟨fun h => ?bind, fun h => ?unbind, fun h => ?layer⟩
  case bind =>
    have hrun : Leads (.moverBind b chase party r) s (moverBindFx b chase party r (heard s.dev b)) := leads_onCmd rfl h
    refine ⟨fun hk => hrun.of_eq (moverBindFx_unsupported hk), fun hk hp => ⟨fun ha => hrun.of_eq (moverBindFx_denied hk hp ha),
      fun ha hs => ⟨fun hc => hrun.of_eq (moverBindFx_noCore hk hp ha hs hc), ?_⟩⟩⟩
    rintro hc rfl hr
    exact ⟨fun ht => hrun.of_eq (moverBindFx_busy hk hp ha hs hc hr ht), fun ht => hrun.of_eq (moverBindFx_binds hk hp ha hs hc hr ht)⟩
  case unbind =>
    have hrun : Leads (.moverUnbind b chase ring) s (moverUnbindFx b chase ring (heard s.dev b)) := leads_onCmd rfl h
    refine ⟨fun hf => hrun.of_eq (moverUnbindFx_unknown hf), ?_⟩
    rintro hf hs rfl hr
    exact hrun.of_eq (moverUnbindFx_unbinds hf hs hr)
  case layer =>
    have hrun : Leads (.layerDef b chase l) s (layerDefFx b chase l (heard s.dev b)) := leads_onCmd rfl h
    refine ⟨fun hu => hrun.of_eq (layerDefFx_unsupported hu), fun hu hd => hrun.of_eq (layerDefFx_denied hu hd),
      fun hu hd hs => ⟨fun hw => hrun.of_eq (layerDefFx_noWindow hu hd hs hw), ?_⟩⟩
    rintro hw hf rfl hr
    exact hrun.of_eq (layerDefFx_defines hu hd hs hw hf hr)

end Sys2Proof
end

section
/-! PROOF. Where a stripe's units lie, the stripe engine's answers, rebuilds (StripesAndRebuild). -/

namespace Sys2Proof
open Machine

section Geometry

variable {g u v : Nat}

/-! ### A stripe's units (R234) -/

theorem unitMember_lt : unitMember g u < 10 := by
  unfold unitMember
  split_ifs <;> omega

/-- P, Q and the eight data units follow one another around the ten members: data unit `u` two places behind P's. -/
theorem unitMember_eq : unitMember g u = (g + (u + 2) % 10) % 10 := by
  unfold unitMember
  split_ifs <;> omega

theorem unitMember_inj (hu : u < 10) (hv : v < 10) (h : unitMember g u = unitMember g v) : u = v := by
  rw [unitMember_eq, unitMember_eq] at h
  omega

end Geometry

section Engine

variable {d : Dev} {job member : Nat} {j : PJob} {a : Member}

/-! ### The stripe engine (R235) -/

/-- An answer of a member that is here and has not been taken. -/
abbrev readyAnswer (member : Nat) (m : Member) : Bool := m.m == member && m.here && !m.taken

/-- The access with that answer taken. -/
abbrev answerTaken (j : PJob) (member : Nat) : PJob :=
  { j with mem := mapFirst (readyAnswer member) (fun m => { m with taken := true }) j.mem }

theorem stripeAnswerFx_takes (hj : d.job job = some j) (ha : j.mem.find? (readyAnswer member) = some a) :
    stripeAnswerFx job member d =
      if (answerTaken j member).mem.all fun m => m.taken then
        stripeNext (d.modJob j.id fun _ => answerTaken j member) (answerTaken j member)
      else d.modJob j.id fun _ => answerTaken j member := by
  simp only [stripeAnswerFx, hj, takeAnswer, ha]

end Engine

section Rebuild

variable {d : Dev} {set m v : Nat} {x : Spare} {y : StripeMem}

/-! ### Rebuild (R238, R495, R496) -/

/-- A set a rebuild may begin on: it is defined, REBUILD is armed, a keeper is active, it has not failed and no rebuild runs on it. -/
structure MayRebuild (d : Dev) (set : Nat) : Prop where
  defined : tfind d.pool.stripes set ≠ none
  armed : d.flag .fltFabpol 0 27 = true
  keeper : d.mgmt.active ≠ none
  serves : (d.stripe set).lost.length < 3
  idle : (d.stripe set).rb = none

/-- The device with a set rebuilding its member `m` onto a spare. -/
abbrev rebuilding (d : Dev) (set m : Nat) (x : Spare) : Dev :=
  d.modStripe set fun s => { s with
    rb := some (m, { mkind := x.kind, sparein := true, target := x.target, base := x.base }), prog := 0, waited := false, stopped := false }

/-- Nothing keeps such a set from choosing a spare. -/
theorem MayRebuild.not_refused (h : MayRebuild d set) :
    ¬ ((!thas d.pool.stripes set) = true ∨ (!d.flag .fltFabpol 0 27) = true ∨ d.mgmt.active.isNone = true
      ∨ 3 ≤ (d.stripe set).lost.length) := by
  obtain ⟨hdef, harm, hkp, hserves, -⟩ := h
  simp [thas, Option.isSome_iff_ne_none.2 hdef, harm, hkp, hserves]

theorem rebuildStart_spare (h : MayRebuild d set) (hl : (d.stripe set).lost.head? = some m) (hp : pickSpare d (d.stripe set) m = some x) :
    rebuildStart d set = stripeNote d (rebuilding d set m x) set := by
  obtain ⟨rest, hlost⟩ := List.head?_eq_some_iff.1 hl
  refine (if_neg h.not_refused).trans ?_
  simp only [h.idle, hlost, hp]

theorem rebuildStart_waits (h : MayRebuild d set) (hl : (d.stripe set).lost.head? = some m) (hp : pickSpare d (d.stripe set) m = none)
    (hw : (d.stripe set).waited = false) :
    rebuildStart d set = (d.modStripe set fun s => { s with waited := true }).notice 0x0403 d.kpDie none set m 0 := by
  obtain ⟨rest, hlost⟩ := List.head?_eq_some_iff.1 hl
  refine (if_neg h.not_refused).trans ?_
  simp only [h.idle, hlost, hp]
  exact if_neg (Bool.eq_false_iff.1 hw)

section Slot

variable (hr : (d.stripe set).rb = some (m, y))
include hr

theorem rebuildSlot_stops (ha : d.flag .fltFabpol 0 27 = false) : rebuildSlot d set = d.modStripe set fun s => { s with stopped := true } := by
  simp [rebuildSlot, hr, ha]

/-- The device with a slot more rebuilt. -/
abbrev slotDone (d : Dev) (set v : Nat) : Dev := (d.modStripe set fun s => { s with prog := s.prog + 1 }).count .cRbslot (dPX v)

/-- A rebuild that is armed and not stopped, with no access under way, does one slot. -/
theorem rebuildSlot_goesOn (ha : d.flag .fltFabpol 0 27 = true) (hs : (d.stripe set).stopped = false) (hj : d.pool.jobs = [])
    (hv : stripeDie d set = some v) :
    rebuildSlot d set =
      if (d.stripe set).prog + 1 < 4096 * (d.stripe set).extent then slotDone d set v else rebuildEnd (slotDone d set v) set m y := by
  simp only [rebuildSlot, hr, ha, hs, hj, hv, Stripe.slots]
  rfl

end Slot

end Rebuild

/-- Settles O29: the units lie on the members in a circle; each event is its effect on the device, and the effect in each case is a
lemma above. -/
theorem stripesAndRebuild : Obligations.StripesAndRebuild := by
  rintro s job member set m g u v j j' a x y st rfl
  refine ⟨fun hu hv => ⟨unitMember_lt, unitMember_inj hu hv⟩, ?answer, fun hdef harm hkp hserves hidle hl => ?start, fun hr => ?slot⟩
  case answer =>
    rintro hj ha rfl
    have hrun : Leads (.stripeMemberAnswer job member) s (stripeAnswerFx job member s.dev) := leads_onPool rfl
    rw [stripeAnswerFx_takes hj ha] at hrun
    exact ⟨fun hall => hrun.of_eq (if_neg (Bool.eq_false_iff.1 hall)), fun hall => hrun.of_eq (if_pos hall)⟩
  case start =>
    have hmay : MayRebuild s.dev set := ⟨hdef, harm, hkp, hserves, hidle⟩
    have hrun : Does (.rebuildStart set) s (rebuildStart s.dev set) := does_onDev (f := fun d => rebuildStart d set) rfl
    exact ⟨fun hp => ⟨_, rfl, hrun.of_eq (rebuildStart_spare hmay hl hp)⟩, fun hp hw => hrun.of_eq (rebuildStart_waits hmay hl hp hw)⟩
  case slot =>
    have hrun : Leads (.rebuildSlot set) s (rebuildSlot s.dev set) := leads_onPool (f := fun d => rebuildSlot d set) rfl
    refine ⟨fun ha => hrun.of_eq (rebuildSlot_stops hr ha), fun ha hs hj hv => ⟨_, rfl, ?_⟩⟩
    rw [rebuildSlot_goesOn hr ha hs hj hv] at hrun
    exact ⟨fun hmore => hrun.of_eq (if_pos hmore), fun hlast => hrun.of_eq (if_neg (Nat.not_lt.2 hlast))⟩

end Sys2Proof
end

section
/-! PROOF. Movers: pieces, descriptors, the status write (Movers). -/

namespace Sys2Proof
open Machine

section Pieces

variable {m : MoverDesc} {off : Nat}

/-! ### Pieces (R243) -/

/-- Bytes from `a + off` to the end of its 4 KiB block. -/
def toBlockEnd (a off : Nat) : Nat := 4096 - (a + off) % 4096

theorem mod_add_toBlockEnd (a off : Nat) : (a + off) % 4096 + toBlockEnd a off = 4096 := by
  unfold toBlockEnd
  omega

theorem moverPiece_eq :
    moverPiece m off = min (m.len - off) (min (toBlockEnd m.dst off) (if m.mop = 1 then toBlockEnd m.src off else 4096)) := rfl

theorem moverPiece_copy (hc : m.mop = 1) : moverPiece m off = min (m.len - off) (min (toBlockEnd m.dst off) (toBlockEnd m.src off)) := by
  rw [moverPiece_eq, if_pos hc]

theorem moverPiece_pos (hc : m.mop = 1) (hl : off < m.len) : 0 < moverPiece m off := by
  have hdst := mod_add_toBlockEnd m.dst off
  have hsrc := mod_add_toBlockEnd m.src off
  rw [moverPiece_copy hc]
  omega

theorem moverPiece_within (hl : off < m.len) : off + moverPiece m off ≤ m.len := by
  rw [moverPiece_eq]
  omega

/-- A piece stays in the 4 KiB block its destination begins in. -/
theorem moverPiece_dst : (m.dst + off) % 4096 + moverPiece m off ≤ 4096 := by
  have hdst := mod_add_toBlockEnd m.dst off
  rw [moverPiece_eq]
  omega

/-- A piece of a copy stays in the 4 KiB block its source begins in. -/
theorem moverPiece_src (hc : m.mop = 1) : (m.src + off) % 4096 + moverPiece m off ≤ 4096 := by
  have hsrc := mod_add_toBlockEnd m.src off
  rw [moverPiece_copy hc]
  omega

end Pieces

section Rings

variable {d d1 e : Dev} {chase ring off : Nat} {r : Ring} {g : Grp}

/-! ### Descriptors (R242) -/

/-- A bound ring between jobs, on a core that serves its mover. -/
structure IdleRing (d : Dev) (chase ring : Nat) (r : Ring) : Prop where
  found : d.ring chase ring = some r
  noJob : r.job = false
  notTaking : r.taking = false
  bound : r.staged = false
  stays : r.gone = false
  serves : coreServes d r.core [0x28] = true

/-- The device whose mover has begun to read its next descriptor. -/
abbrev descTaking (d : Dev) (chase ring : Nat) : Dev :=
  d.modRing chase ring fun r =>
    { r with taking := true, desc := [], movout := d.fld .impPoolCfg 0 19 12, pos := 0, pieces := [], failN := 0, dstat := .ok, failOff := 0
             ending := false }

section Take

variable (h : IdleRing d chase ring r)
include h

/-- A doorbell that counts nothing leaves the mover idle. -/
theorem moverTake_noDoorbell (hm : markSignal d chase r.mark 0x04 1 0 = (d1, .ok, false)) : moverTake d chase ring = d1 := by
  obtain ⟨hf, hj, ht, hs, hg, hc⟩ := h
  simp [moverTake, hf, hj, ht, hs, hg, hc, hm]

/-- With its doorbell's count one less the mover reads the descriptor at the ring's next entry. -/
theorem moverTake_reads (hm : markSignal d chase r.mark 0x04 1 0 = (d1, .ok, true))
    (ho : ownAccess (descTaking d1 chase ring) (.moverDesc chase ring) (coreDie r.core) chase ((descTaking d1 chase ring).comp chase).cur
      r.party (r.pva + 64 * (r.next % r.ents)) 64 .load [] [] = .ok e) : moverTake d chase ring = e := by
  obtain ⟨hf, hj, ht, hs, hg, hc⟩ := h
  simp only [moverTake, hf, hj, ht, hs, hg, hc, hm, ho]
  rfl

end Take

/-! ### Accesses that end (R243, R245) -/

theorem moverPieceDone_read (he : takeEnded d (Cont.ofPiece chase ring) = some (g, e)) (hr : e.ring chase ring = some r)
    (hc : g.cont = .moverRead chase ring off) :
    moverPieceDone d chase ring = moverIssue chase ring 128 (moverPieceEnded e r g off false) := by
  simp only [moverPieceDone, he, hr, hc]

theorem moverPieceDone_write (he : takeEnded d (Cont.ofPiece chase ring) = some (g, e)) (hr : e.ring chase ring = some r)
    (hc : g.cont = .moverWrite chase ring off) :
    moverPieceDone d chase ring = moverIssue chase ring 128 (moverPieceEnded e r g off true) := by
  simp only [moverPieceDone, he, hr, hc]

/-- The device whose ring has gone on to its next entry, or has gone if it was unbound. -/
abbrev jobOver (d : Dev) (chase ring : Nat) : Dev :=
  let d1 := d.modRing chase ring fun r => { r with job := false, ending := false, next := (r.next + 1) % r.ents }
  { d1 with pool := { d1.pool with rings := d1.pool.rings.filter fun r => !(r.chase == chase && r.ring == ring && r.gone) } }

/-- The end of the status write ends the job and raises the mark its descriptor names. -/
theorem moverStatusDone_ends (he : takeEnded d (Cont.ofStatus chase ring) = some (g, e)) (hr : d.ring chase ring = some r) :
    moverStatusDone d chase ring =
      if (readMoverDesc r.desc).cmen ∧ markOfChase (jobOver e chase ring) chase (readMoverDesc r.desc).cmark then
        markAdd (jobOver e chase ring) chase (readMoverDesc r.desc).cmark 1
      else jobOver e chase ring := by
  simp only [moverStatusDone, he, hr]

end Rings

/-- Settles O30: a piece is the least of what is left and of the two runs to a boundary; each event is its effect on the device, and the
effect in each case is a lemma above. -/
theorem movers : Obligations.Movers := by
  intro s chase ring off r m d d1 d2 e g
  refine ⟨fun hc hl => ⟨moverPiece_pos hc hl, moverPiece_within hl, moverPiece_dst, moverPiece_src hc⟩, fun hf hj ht hs hg hc => ?take,
    fun he hr => ?piece, ?status⟩
  case take =>
    have hidle : IdleRing s.dev chase ring r := ⟨hf, hj, ht, hs, hg, hc⟩
    have hrun : Leads (.moverDescriptorTake chase ring) s (moverTake s.dev chase ring) := leads_onPool (f := fun d => moverTake d chase ring) rfl
    refine ⟨?_, fun hm => hrun.of_eq (moverTake_noDoorbell hidle hm)⟩
    rintro hm rfl ho
    exact hrun.of_eq (moverTake_reads hidle hm ho)
  case piece =>
    have hrun : Leads (.moverPieceDone chase ring) s (moverPieceDone s.dev chase ring) := leads_onPool (f := fun d => moverPieceDone d chase ring) rfl
    exact ⟨fun hc => hrun.of_eq (moverPieceDone_read he hr hc), fun hc => hrun.of_eq (moverPieceDone_write he hr hc)⟩
  case status =>
    rintro he hr rfl rfl
    have hrun : Leads (.moverStatusWritten chase ring) s (moverStatusDone s.dev chase ring) :=
      leads_onPool (f := fun d => moverStatusDone d chase ring) rfl
    rw [moverStatusDone_ends he hr] at hrun
    exact ⟨fun hn => hrun.of_eq (if_neg fun h => Bool.eq_false_iff.1 hn h.1), fun hn hm => hrun.of_eq (if_pos ⟨hn, hm⟩)⟩

end Sys2Proof
end

section
/-! PROOF. Layer pushes and the window (LayerPushes). -/

namespace Sys2Proof
open Machine

section Push

variable {d0 d : Dev} {x : Rx} {id die : Nat} {k : Pkt} {l : Layer} {out : List Layer}

/-! ### The PUSH at its ingress (R247, R262) -/

section Ingress

variable (hin : ingress d0 x false = .ok (d, id, k))
include hin

theorem pushFx_forwards (hl : isLocal d k = false) : pushFx x d0 = forwardReq d id k (some (x.port, x.vl)) := by
  simp [pushFx, hin, hl]

theorem pushFx_local (hl : isLocal d k = true) : pushFx x d0 = pushLayer d id (portDie x.port) k := by
  simp [pushFx, hin, hl]

end Ingress

section Fields

variable (hz : wbits k.w2 47 0 = 0)
include hz

theorem pushLayer_unknown (hn : d.layer k.chase (wbits k.w2 63 48) = none) : pushLayer d id die k = answer d id .unsupported := by
  simp [pushLayer, hz, hn]

variable (hn : d.layer k.chase (wbits k.w2 63 48) = some l)
include hn

theorem pushLayer_noService (hs : bit (d.comp k.chase).curF.req.services 5 = false) : pushLayer d id die k = answer d id .denied := by
  simp [pushLayer, hz, hn, hs]

variable (hs : bit (d.comp k.chase).curF.req.services 5 = true)
include hs

theorem pushLayer_busy (hst : l.st = .pushing ∨ l.st = .missed) : pushLayer d id die k = answer d id .busy := by
  simp only [pushLayer, hz, hn, hs]
  exact if_pos hst

/-- The layers that must go so that a layer of the chase has room in the window. -/
abbrev roomFor (d : Dev) (k : Pkt) (l : Layer) : Option (List Layer) :=
  retireList (d.comp k.chase).curF.depth (d.comp k.chase).curF.windowB (4096 * l.lpages)
    ((layersHeld d k.chase (wbits k.w2 63 48)).length + 1) (layersHeld d k.chase (wbits k.w2 63 48))

variable (hp : l.st ≠ .pushing) (hm : l.st ≠ .missed)
include hp hm

theorem pushLayer_noRoom (hr : roomFor d k l = none) : pushLayer d id die k = answer d id .busy := by
  simp [pushLayer, hz, hn, hs, hp, hm, hr]

/-- The device whose window has made room by retiring layers. -/
abbrev retired (d : Dev) (ls : List Layer) : Dev := foldOver ls d fun x d => retireLayer d x

/-- The device with a layer PUSHING for a PUSH that waits. -/
abbrev pushBegun (d : Dev) (k : Pkt) (id die : Nat) : Dev :=
  ({ d with pool := { d.pool with nextUse := d.pool.nextUse + 1 } } : Dev).modLayer k.chase (wbits k.w2 63 48) fun l =>
    { l with st := .pushing, need := k.w3.toNat, die := die, req := some id, pos := 0, grps := [], copied := [], order := d.pool.nextUse
             movout := d.fld .impPoolCfg 0 19 12 }

/-- Once the window has made room the layer's pieces are issued; one whose NEED has passed is MISSED from the start (R264). -/
theorem pushLayer_reads (hr : roomFor d k l = some out) :
    pushLayer d id die k = layerIssue k.chase (wbits k.w2 63 48) 128
      ((pushBegun (retired d (l :: out)) k id die).modLayer k.chase (wbits k.w2 63 48) fun y =>
        if y.need ≤ (pushBegun (retired d (l :: out)) k id die).now then { y with st := .missed } else y) := by
  simp only [pushLayer, hz, hn, hs, hp, hm, hr, needReached, decide_eq_true_eq]
  rfl

end Fields

end Push

section Timers

variable {d : Dev} {chase n id : Nat} {l : Layer}

/-! ### NEED and the early answer (R264, R265) -/

theorem pushEarly_answers (hn : d.layer chase n = some l) (hr : l.req = some id) :
    pushEarly d chase n = answer (d.modLayer chase n fun l => { l with req := none }) id .ok 1 := by
  simp only [pushEarly, hn, hr]

/-- A layer after a change that keeps its chase, its number and its being in effect. -/
theorem modLayer_layer {f : Layer → Layer} (hf : ∀ y, (f y).chase = y.chase ∧ (f y).layer = y.layer ∧ (f y).staged = y.staged) :
    (d.modLayer chase n f).layer chase n = (d.layer chase n).map f := by
  refine find?_mapIf _ _ _ fun y hy => ?_
  obtain ⟨hc, hl, hs⟩ := hf y
  rw [hc, hl, hs]
  exact hy

/-- What NEED does to a layer. -/
theorem layerNeed_layer (hn : d.layer chase n = some l) (hp : l.st = .pushing) :
    (layerNeed d chase n).layer chase n = some (if l.need ≤ d.now then { l with st := .missed } else l) := by
  unfold layerNeed
  rw [modLayer_layer, hn]
  · simp [hp, needReached]
  · intro y
    split <;> exact ⟨rfl, rfl, rfl⟩

end Timers

section Pieces

variable {d d0 : Dev} {chase n : Nat} {g : Grp} {l l1 : Layer}

/-! ### Pieces that end (R247, R265) -/

/-- An access of a piece has ended that the layer it belongs to still waits for. -/
structure PieceEnded (d0 : Dev) (chase n : Nat) (g : Grp) (d : Dev) (l : Layer) : Prop where
  ended : takeEnded d0 (Cont.ofLayer chase n) = some (g, d)
  found : d.layer chase n = some l
  runs : l.st = .pushing ∨ l.st = .missed
  waits : l.grps.contains ((g.pva - l.pva) / 4096) = true

/-- The device whose window holds the lines of a piece. -/
abbrev pieceHeld (d : Dev) (chase n : Nat) (g : Grp) (l : Layer) : Dev :=
  ({ d with pool := { d.pool with
      lines := mapIf (fun x => x.chase == chase && x.pva / 4096 == g.pva / 4096 && x.st == .s) (fun x => { x with window := true })
        d.pool.lines } } : Dev).modLayer chase n fun y =>
    { y with grps := y.grps.filter (· != (g.pva - l.pva) / 4096), copied := y.copied ++ (upTo 16).map (g.pva + 256 * ·) }

variable (h : PieceEnded d0 chase n g d l)
include h

theorem PieceEnded.not_stale : ¬ ((l.st ≠ .pushing ∧ l.st ≠ .missed) ∨ (!l.grps.contains ((g.pva - l.pva) / 4096)) = true) := by
  rw [h.waits]
  rintro (⟨hp, hm⟩ | hw)
  · exact h.runs.elim hp hm
  · cases hw

theorem layerPieceDone_fails (hw : g.worst ≠ .ok) : layerPieceDone d0 chase n = layerFail d l g.worst := by
  simp only [layerPieceDone, h.ended, h.found, if_neg h.not_stale, if_pos hw]

/-- A piece that ended well is the window's; the push is over with the last one. -/
theorem layerPieceDone_joins (hw : g.worst = .ok) (hl : (pieceHeld d chase n g l).layer chase n = some l1) :
    layerPieceDone d0 chase n = if l1.lpages ≤ l1.pos ∧ l1.grps.isEmpty then layerReady (pieceHeld d chase n g l) l1
      else layerIssue chase n 128 (pieceHeld d chase n g l) := by
  simp only [layerPieceDone, h.ended, h.found, if_neg h.not_stale, if_neg (not_not_intro hw), hl]

end Pieces

/-- Settles O31: a PUSH and each event run as their effect on the device, and the effect in each case is a lemma above. -/
theorem layerPushes : Obligations.LayerPushes := by
  intro s x d d1 e chase n id k l l1 out g a
  refine ⟨fun hin => ⟨fun hl => ?forward, ?push⟩, fun hn hr => ?early, fun hn hp => ?need, fun he hf hr hc => ?piece⟩
  case forward => exact Leads.of_eq (leads_onPool rfl) (pushFx_forwards hin hl)
  case push =>
    rintro hl hz rfl
    have hrun : Leads (.push x) s (pushLayer d id (portDie x.port) k) := Leads.of_eq (leads_onPool rfl) (pushFx_local hin hl)
    refine ⟨fun hn => hrun.of_eq (pushLayer_unknown hz hn), fun hn hs => hrun.of_eq (pushLayer_noService hz hn hs),
      fun hn hs => ⟨fun hst => hrun.of_eq (pushLayer_busy hz hn hs hst), ?_⟩⟩
    rintro hp hm rfl
    refine ⟨fun hr => hrun.of_eq (pushLayer_noRoom hz hn hs hp hm hr), ?_⟩
    rintro hr rfl rfl
    exact hrun.of_eq (pushLayer_reads hz hn hs hp hm hr)
  case early =>
    have hrun : Does (.pushEarlyAnswer chase n) s (pushEarly s.dev chase n) := does_onDev (f := fun d => pushEarly d chase n) rfl
    exact hrun.of_eq (pushEarly_answers hn hr)
  case need =>
    have hneed := layerNeed_layer hn hp
    refine ⟨s.put (layerNeed s.dev chase n), rfl, fun hle => hneed.trans ?_, fun hlt => hneed.trans ?_⟩
    · rw [if_pos hle]
    · rw [if_neg (Nat.not_le.2 hlt)]
  case piece =>
    have hend : PieceEnded s.dev chase n g d l := ⟨he, hf, hr, hc⟩
    have hrun : Leads (.layerPieceDone chase n) s (layerPieceDone s.dev chase n) := leads_onPool (f := fun d => layerPieceDone d chase n) rfl
    refine ⟨fun hw => hrun.of_eq (layerPieceDone_fails hend hw), ?_⟩
    rintro hw rfl rfl hl
    rw [layerPieceDone_joins hend hw hl] at hrun
    exact ⟨fun hpos hg => hrun.of_eq (if_pos ⟨hpos, by rw [hg]; rfl⟩), fun hpos => hrun.of_eq (if_neg fun h => Nat.not_le.2 hpos h.1)⟩

end Sys2Proof
end

section
/-! PROOF. The seventeen coherence messages as they reach this switch (CoherenceMessages). -/

namespace Sys2Proof
open Machine

section Messages

variable {d : Dev} {c : CMsg} {chase party pva : Nat} {m : CohMsg} {f : Folio}

/-- Where a folio is. -/
def folioLoc (f : Folio) : Loc := { kind := f.kind, target := f.target, frame := f.frame }

/-- The message as its receiver sees it: its kind, this switch, the line at the address. -/
def cohReceived (d : Dev) (c : CMsg) (pva : Nat) (f : Folio) (m : CohMsg) : CohMsg :=
  { m with msg := c, dest := selfM d, line := locLine (folioLoc f) (pva % folioB) }

theorem cohMsgFx_accepts (hf : folioAt d chase (d.comp chase).cur pva = some f) (hs : m.srcm = selfM d ∨ memberValid d m.srcm = true) :
    cohMsgFx c chase party pva m d = cohRx d ((d.stackServer f.cstack).getD f.cstack) f.cstack chase party (pva / 256 * 256) (folioLoc f)
      (cohReceived d c pva f m) := by
  have hknown : ¬(m.srcm ≠ selfM d ∧ (!memberValid d m.srcm) = true) := by
    rintro ⟨hself, hmember⟩
    rcases hs with hs | hs
    · exact hself hs
    · rw [hs] at hmember; exact Bool.noConfusion hmember
  unfold cohMsgFx
  rw [hf]
  exact if_neg hknown

theorem cohMsgFx_discards (hf : folioAt d chase (d.comp chase).cur pva = some f) (hself : m.srcm ≠ selfM d)
    (hmember : memberValid d m.srcm = false) :
    cohMsgFx c chase party pva m d = cohErr d ((d.stackServer f.cstack).getD f.cstack) (cohReceived d c pva f m) := by
  unfold cohMsgFx
  rw [hf]
  exact if_pos ⟨hself, by rw [hmember]; rfl⟩

end Messages

/-- Settles O32: all seventeen commands have one effect, told apart by the message they bring; its sender decides what becomes of it. -/
theorem coherenceMessages : Obligations.CoherenceMessages := by
  rintro s chase party pva px m f l hf rfl rfl ci hci
  have hrun : Leads ci.2 s (cohMsgFx ci.1 chase party pva m s.dev) := by
    simp only [List.mem_cons, List.not_mem_nil, or_false] at hci
    rcases hci with rfl | rfl | rfl | rfl | rfl | rfl | rfl | rfl | rfl | rfl | rfl | rfl | rfl | rfl | rfl | rfl | rfl <;>
      exact leads_onPool rfl
  exact ⟨fun hs => hrun.of_eq (cohMsgFx_accepts hf hs), fun hself hmember => hrun.of_eq (cohMsgFx_discards hf hself hmember)⟩

end Sys2Proof
end

section
/-! PROOF. What the cache and the home do with the messages of a line (CacheAndHome). -/

namespace Sys2Proof
open Machine

/-! ### The cache (R277, R279) -/

section Cache

variable {d : Dev} {l : CLine} {px : Nat} {m : CohMsg}

/-- A cache sends a message about its line, as the member `self`. -/
def lineSend (l : CLine) (self px : Nat) (d : Dev) (m : CohMsg) : Dev :=
  cohSend d l.chase l.party l.pva px { m with srcm := self, line := l.key }

/-- A cache hands its line's data on to the member a forward names (R277). -/
def handOn (l : CLine) (self px : Nat) (m : CohMsg) (grant acks : Nat) (d : Dev) : Dev :=
  lineSend l self px d
    { msg := .data, reqm := m.reqm, dest := m.reqm, grant := grant, ackcnt := acks, pmask := l.pois.foldl (fun a g => a + 2 ^ g) 0, data := l.data }

/-- A cache tells the home that a request of its own is done, and what waited for the line goes on (R277). -/
def requestDone (l : CLine) (self home px : Nat) (d : Dev) : Dev :=
  (lineSend l self px d { msg := .done, reqm := self, dest := home }).event (.wake l.key)

/-- The line with the data a message brings. -/
def withData (l : CLine) (m : CohMsg) : CLine := { l with data := m.data, pois := (upTo 4).filter fun g => bit m.pmask g }

theorem cacheRx_inv_shared (hm : m.msg = .inv) (hl : l.st = .s) (hw : l.window = false) :
    cacheRx d l px m = lineSend l (selfM d) px (d.dropLine l.key) { msg := .iack, reqm := m.reqm, dest := m.reqm } := by
  simp [cacheRx, hm, hl, hw, lineSend]

theorem cacheRx_fwds_modified (hm : m.msg = .fwds) (hl : l.st = .m) :
    cacheRx d l px m = handOn l (selfM d) px m 0 0 (d.setLine { l with st := .o, dirty := true }) := by
  simp [cacheRx, hm, hl, handOn, lineSend]

theorem cacheRx_fwds_exclusive (hm : m.msg = .fwds) (hl : l.st = .e) :
    cacheRx d l px m = handOn l (selfM d) px m 0 0 (d.setLine { l with st := .o, dirty := false }) := by
  simp [cacheRx, hm, hl, handOn, lineSend]

theorem cacheRx_fwdm_owned (hm : m.msg = .fwdm) (hl : l.st = .e ∨ l.st = .m ∨ l.st = .o) :
    cacheRx d l px m = handOn l (selfM d) px m 2 m.ackcnt (d.dropLine l.key) := by
  rcases hl with hl | hl | hl <;> simp [cacheRx, hm, hl, handOn, lineSend]

theorem cacheRx_data_read (hm : m.msg = .data) (hl : l.st = .isD) (hg : m.grant ≤ 1) :
    cacheRx d l px m = requestDone l (selfM d) ((homeM d l.loc).getD (selfM d)) px
      ((d.setLine { withData l m with st := if m.grant = 0 then .s else .e }).count .cCachefill (dPX px)) := by
  obtain hg | hg : m.grant = 0 ∨ m.grant = 1 := by omega
  all_goals simp [cacheRx, hm, hl, hg, requestDone, lineSend, withData]

/-- Once every IACK has come, the line is M and the write is done. -/
theorem complete_counted (w : Nat) (st : CState) (hn : l.need = some l.acks) :
    complete d l px w st = requestDone l (selfM (d.setLine { l with st := .m, acks := 0, need := none })) ((homeM d l.loc).getD (selfM d)) px
      (d.setLine { l with st := .m, acks := 0, need := none }) := by
  simp [complete, hn, requestDone, lineSend]

theorem setLine_selfM (d : Dev) (x : CLine) : selfM (d.setLine x) = selfM d := by
  unfold Dev.setLine
  split <;> rfl

theorem cacheRx_data_write (hm : m.msg = .data) (hl : l.st = .imAD) (hg : m.grant = 2) (ha : l.acks = m.ackcnt) :
    cacheRx d l px m = requestDone l (selfM d) ((homeM d l.loc).getD (selfM d)) px
      ((d.count .cCachefill (dPX px)).setLine { withData l m with st := .m, acks := 0, need := none }) := by
  have hrx : cacheRx d l px m = complete (d.count .cCachefill (dPX px)) { withData l m with need := some m.ackcnt } px 0 .imA := by
    simp [cacheRx, hm, hl, hg, withData]
  rw [hrx, complete_counted 0 .imA (by rw [← ha]; rfl), setLine_selfM]
  rfl

theorem cacheRx_iack_last (hm : m.msg = .iack) (hl : l.st = .imA) (hn : l.need = some (l.acks + 1)) :
    cacheRx d l px m = requestDone l (selfM d) ((homeM d l.loc).getD (selfM d)) px (d.setLine { l with st := .m, acks := 0, need := none }) := by
  have hrx : cacheRx d l px m = complete d { l with acks := l.acks + 1 } px 1 .imA := by simp [cacheRx, hm, hl]
  rw [hrx, complete_counted 1 .imA hn, setLine_selfM]
  rfl

theorem cacheRx_pack (hm : m.msg = .pack) (hl : l.st = .miA ∨ l.st = .oiA ∨ l.st = .eiA ∨ l.st = .siA ∨ l.st = .iiA) :
    cacheRx d l px m = (d.dropLine l.key).event (.wake l.key) := by
  rcases hl with hl | hl | hl | hl | hl <;> simp [cacheRx, hm, hl]

theorem cacheRx_grant_unlisted (hm : m.msg = .grant) (hs : l.st ≠ .smAD) (ho : l.st ≠ .omAD) : cacheRx d l px m = cohErr d px m := by
  cases hl : l.st
  case smAD => exact absurd hl hs
  case omAD => exact absurd hl ho
  all_goals simp [cacheRx, hm, hl]

theorem cohErr_pool : (cohErr d px m).pool = d.pool := by
  rw [cohErr, Dev.notice_pool, Dev.count_pool]

end Cache

/-! ### The home (R272, R275, R278) -/

section Home

variable {d : Dev} {e : DirEnt} {key px req : Nat} {m : CohMsg}

theorem homeReq_taken (h : e.taken = true) : homeReq d e m = d.setDir { e with queue := e.queue ++ [m] } := if_pos (.inl h)

theorem homeDone_requester (hm : m.msg = .done) (he : d.dirEnt key = some e) (hb : e.busy = some (req, .x)) (hr : m.srcm = req) :
    homeDone d key px m = homeNext
      (d.setDir { e with busy := none, cur := none, src := none, st := some .x, owner := req, ptrs := [none, none, none], ovf := false }) key := by
  simp [homeDone, he, hm, hb, hr]

theorem homeDone_otherSender {n : DState} (hm : m.msg = .done) (he : d.dirEnt key = some e) (hb : e.busy = some (req, n)) (hr : m.srcm ≠ req) :
    homeDone d key px m = cohErr d px m := by
  simp [homeDone, he, hm, hb, Ne.symm hr]

theorem mem_membersOf {x : Nat} : x ∈ membersOf d ↔ x < 32 ∧ memberValid d x = true := by
  simp [membersOf, upTo]

theorem mem_invList_overflow {x : Nat} (h : e.ovf = true) :
    x ∈ invList d e req ↔ (x < 32 ∧ memberValid d x = true ∧ x ≠ req ∧ ¬(e.st = some .o ∧ x = e.owner)) := by
  rw [invList, if_pos h, List.mem_filter, mem_membersOf]
  simp [and_assoc, imp_iff_not_or]

theorem mem_invList_pointers {x : Nat} (h : e.ovf = false) : x ∈ invList d e req ↔ (some x ∈ e.ptrs ∧ x ≠ req) := by
  simp [invList, h, DirEnt.sharers]

end Home

/-- Settles O33: each message of the cache and of the home is a lemma above. -/
theorem cacheAndHome : Obligations.CacheAndHome := by
  rintro d l px m e req self home pm key send inst rfl rfl rfl rfl rfl
  exact ⟨cacheRx_inv_shared, cacheRx_fwds_modified, cacheRx_fwds_exclusive, cacheRx_fwdm_owned, cacheRx_data_read, cacheRx_data_write,
    cacheRx_iack_last, cacheRx_pack, fun hm hs ho => ⟨cacheRx_grant_unlisted hm hs ho, cohErr_pool⟩, homeReq_taken, homeDone_requester,
    homeDone_otherSender, fun h _ => mem_invList_overflow h, fun h _ => mem_invList_pointers h⟩

end Sys2Proof
end

section
/-! PROOF. Accumulators take their addends in any order and over any split (SumsInAnyOrder). -/

namespace Sys2Proof
open Machine

/-! ### Classes (R302) -/

section Classes

variable {c k : Nat} {neg : Bool}

theorem addClass_fin (c : Nat) (x : Int) : addClass c (.fin x) = c := rfl

theorem addClass_nan (c : Nat) : addClass c .nan = 3 := rfl

theorem addClass_inf_of_three_le (h : 3 ≤ c) : addClass c (.inf neg) = 3 :=
  if_neg (by cases neg <;> simp only [Bool.false_eq_true, if_false, if_true] <;> omega)

/-- NaN's class stays, whatever comes. -/
theorem addClass_three (v : Machine.Num) : addClass 3 v = 3 := by
  cases v with
  | fin _ => rfl
  | inf neg => exact addClass_inf_of_three_le le_rfl
  | nan => rfl

/-- A second infinity of the same sign changes nothing, one of the other sign leaves NaN. -/
theorem addClass_inf_inf (c : Nat) (p q : Bool) : addClass (addClass c (.inf p)) (.inf q) = if p = q then addClass c (.inf p) else 3 := by
  obtain rfl | rfl | rfl | hc : c = 0 ∨ c = 1 ∨ c = 2 ∨ 3 ≤ c := by omega
  case inr.inr.inr => rw [addClass_inf_of_three_le hc, addClass_three, ite_self]
  all_goals cases p <;> cases q <;> rfl

theorem addClass_right_comm (c : Nat) (v w : Machine.Num) : addClass (addClass c v) w = addClass (addClass c w) v := by
  cases v with
  | fin _ => rfl
  | nan => exact addClass_three w
  | inf p =>
    cases w with
    | fin _ => rfl
    | nan => exact (addClass_three (.inf p)).symm
    | inf q =>
      rw [addClass_inf_inf, addClass_inf_inf]
      by_cases h : p = q
      · rw [h]
      · rw [if_neg h, if_neg (Ne.symm h)]

/-- The addend that stands for a class when its accumulator is combined into another (R312). -/
def classAddend (k : Nat) : Machine.Num := match k with
  | 0 => .fin 0
  | 1 => .inf false
  | 2 => .inf true
  | _ => .nan

theorem classAddend_of_three_le (h : 3 ≤ k) : classAddend k = .nan := by
  obtain ⟨n, rfl⟩ := Nat.exists_eq_add_of_le' h
  rfl

/-- A class that took one addend more leaves on `c` what the class alone and then the addend leave. -/
theorem addClass_classAddend_addClass (c k : Nat) (v : Machine.Num) :
    addClass c (classAddend (addClass k v)) = addClass (addClass c (classAddend k)) v := by
  cases v with
  | fin _ => rfl
  | nan => rfl
  | inf neg =>
    obtain rfl | rfl | rfl | hk : k = 0 ∨ k = 1 ∨ k = 2 ∨ 3 ≤ k := by omega
    case inl => cases neg <;> rfl
    case inr.inr.inr =>
      rw [addClass_inf_of_three_le hk, classAddend_of_three_le hk, addClass_nan, addClass_three]
      rfl
    all_goals
      refine Eq.trans ?_ (addClass_inf_inf c _ neg).symm
      cases neg <;> rfl

end Classes

/-! ### One addend (R301, R302) -/

/-- What an addend adds to VALUE. -/
def addendGain (prod : Bool) (v : Machine.Num) (m : Nat) : Int := match v with
  | .fin x => x * if prod then (m : Int) * 2 ^ 149 else 1
  | _ => 0

theorem accAdd_eq (prod : Bool) (a : Acc) (v : Machine.Num) (m : Nat) :
    accAdd prod a v m = { cls := addClass a.cls v, val := a.val + addendGain prod v m } := by
  cases prod <;> cases v <;> simp [accAdd, Acc.add, addendGain]

theorem combine_eq (a c : Acc) : a.combine c = { cls := addClass a.cls (classAddend c.cls), val := a.val + c.val } := rfl

theorem combine_empty (a : Acc) : a.combine {} = a := by
  rw [combine_eq, add_zero]
  rfl

theorem accAdd_right_comm (prod : Bool) (a : Acc) (v w : Machine.Num) (m n : Nat) :
    accAdd prod (accAdd prod a v m) w n = accAdd prod (accAdd prod a w n) v m := by
  simp only [accAdd_eq]
  rw [addClass_right_comm, add_right_comm]

/-- An addend may be added before or after its accumulator is combined into another. -/
theorem combine_accAdd (prod : Bool) (a c : Acc) (v : Machine.Num) (m : Nat) :
    a.combine (accAdd prod c v m) = accAdd prod (a.combine c) v m := by
  simp only [accAdd_eq, combine_eq]
  rw [addClass_classAddend_addClass, add_assoc]

theorem combine_foldl_accAdd (prod : Bool) (a c : Acc) (zs : List (Machine.Num × Nat)) :
    a.combine (zs.foldl (fun a x => accAdd prod a x.1 x.2) c) = zs.foldl (fun a x => accAdd prod a x.1 x.2) (a.combine c) :=
  (List.foldl_hom a.combine fun c x => (combine_accAdd prod a c x.1 x.2).symm).symm

/-! ### The count (R303) -/

theorem addCnt_addCnt (c m n : Nat) : addCnt (addCnt c m) n = addCnt c (m + n) := by
  unfold addCnt
  omega

theorem addCnt_right_comm (c m n : Nat) : addCnt (addCnt c m) n = addCnt (addCnt c n) m := by
  rw [addCnt_addCnt, addCnt_addCnt, Nat.add_comm]

/-- Settles O6: two addends, or two counts, may change places; combining goes past each addend. -/
theorem sumsInAnyOrder : Obligations.SumsInAnyOrder := by
  intro prod a n xs ys zs
  refine ⟨fun h => h.foldl_eq' (fun x _ y _ a => accAdd_right_comm prod a x.1 y.1 x.2 y.2) a,
    fun h => h.foldl_eq' (fun x _ y _ c => addCnt_right_comm c x.2 y.2) n, ?_⟩
  rw [combine_foldl_accAdd, combine_empty, List.foldl_append]

end Sys2Proof
end

section
/-! PROOF. Format rows, reductions and mixtures by their commands (RowsReductionsMixtures). -/

namespace Sys2Proof
open Machine

section Rows

variable {b : Bas} {d : Dev} {row v : Nat} {r : Roles} {st : Status}

/-! ### Format rows (R297) -/

theorem fmtdescWriteFx_refuses (h : fmtVerdict d row v (d.rolesOf b) = st) (hst : st ≠ .ok) :
    fmtdescWriteFx b row v d = d.reply b 0x0601 st := by
  simp only [fmtdescWriteFx, h, if_neg hst]

theorem fmtdescWriteFx_writes (h : fmtVerdict d row v (d.rolesOf b) = .ok) :
    fmtdescWriteFx b row v d = (d.setReg .pxFmtdesc row v).reply b 0x0601 .ok := by
  simp only [fmtdescWriteFx, h, if_true]

theorem fmtVerdict_standardRow (h : row < 16) : fmtVerdict d row v r = .unsupported := if_pos (.inl h)

/-- A row that commands may write, and a value within its fields and the conditions on them. -/
structure RowFits (row v : Nat) : Prop where
  notStandard : 16 ≤ row
  inTable : row < 1024
  width : v < 2 ^ 128
  reserved : v &&& regRsv .pxFmtdesc = 0
  value : fmtValueOk v = true

section Fits

variable (h : RowFits row v)
include h

theorem RowFits.not_unsupported : ¬ (row < 16 ∨ 1024 ≤ row ∨ v &&& regRsv .pxFmtdesc ≠ 0 ∨ 2 ^ 128 ≤ v ∨ (!fmtValueOk v) = true) := by
  obtain ⟨hstd, htable, hwidth, hrsv, hval⟩ := h
  rintro (hlow | hhigh | hset | hwide | hbad)
  · exact Nat.not_lt.2 hstd hlow
  · exact Nat.not_lt.2 hhigh htable
  · exact hset hrsv
  · exact Nat.not_lt.2 hwide hwidth
  · rw [hval] at hbad
    cases hbad

theorem fmtVerdict_denied (ho : r.owner = false) (hw : (fmtWriters d row v).all r.chases.contains = false) :
    fmtVerdict d row v r = .denied :=
  (if_neg h.not_unsupported).trans (if_pos (by rw [ho, hw]; rfl))

/-- For a writer R297 names, whether a loaded plate names the row decides. -/
theorem fmtVerdict_writer (hw : r.owner = true ∨ (fmtWriters d row v).all r.chases.contains = true) :
    fmtVerdict d row v r = if rowLoaded d row = true then .busy else .ok := by
  refine (if_neg h.not_unsupported).trans (if_neg ?_)
  rcases hw with hw | hw <;> simp [hw]

end Fits

end Rows

section Reductions

variable {b : Bas} {d d1 d2 : Dev} {chase rid : Nat} {q : RedDef} {r : Red}

/-! ### Reductions (R319, R320) -/

/-- A reduction as it joins the staged forme. -/
abbrev newRed (chase : Nat) (q : RedDef) : Red := { chase := chase, d := q, staged := true }

theorem redPlace_reds (h : redPlace chase q d1 = .ok d2) : d2.press.reds = d1.press.reds ++ [newRed chase q] := by
  unfold redPlace at h
  dsimp only at h
  split at h
  · cases h
  · cases h
    rfl

theorem redDefineFx_unsupported (hu : redUnsupported d chase q = true) : redDefineFx b chase q d = d.reply b 0x0602 .unsupported := if_pos hu

section Supported

variable (hu : redUnsupported d chase q = false)
include hu

theorem redDefineFx_denied (hd : redDenied d chase q = true) : redDefineFx b chase q d = d.reply b 0x0602 .denied :=
  (if_neg (Bool.eq_false_iff.1 hu)).trans (if_pos hd)

variable (hd : redDenied d chase q = false)
include hd

/-- A reduction in range and allowed joins the staged forme. -/
theorem redDefineFx_joins : redDefineFx b chase q d = joinStage d b chase 0x0602 (redBusy d chase q) (redPlace chase q) :=
  (if_neg (Bool.eq_false_iff.1 hu)).trans (if_neg (Bool.eq_false_iff.1 hd))

variable (hs : Stages d chase d1) (hp : redPlace chase q d1 = .ok d2) (hr : Roomy d2 chase)
include hs hp hr

theorem redDefineFx_busy (hb : redBusy d chase q = true) : redDefineFx b chase q d = d.reply b 0x0602 .busy := by
  rw [redDefineFx_joins hu hd, hb]
  exact joinStage_busy hs hp hr

theorem redDefineFx_defines (hb : redBusy d chase q = false) : redDefineFx b chase q d = joined d2 b chase 0x0602 := by
  rw [redDefineFx_joins hu hd, hb]
  exact joinStage_stages hs hp hr

end Supported

/-- A reduction of a chase, named by its RID without the low four bits, that has not been deleted. -/
abbrev keptRed (chase rid : Nat) (r : Red) : Bool := r.chase == chase && r.d.rid / 16 == rid / 16 && !r.leaving

/-- The device whose reduction leaves at the next commit; one that was only staged is gone, and so are its chunks in the staged forme. -/
abbrev redLeaves (d : Dev) (chase rid : Nat) : Dev :=
  ({ d with press := { d.press with
      reds := (d.press.reds.filter fun r => !(keptRed chase rid r && r.staged)).map fun r =>
        if keptRed chase rid r then { r with leaving := true } else r } } : Dev).modStaged chase fun f =>
    { f with chunks := f.chunks.filter fun e => e.rid / 16 != rid / 16 }

theorem redDeleteFx_unknown (hf : d.press.reds.find? (keptRed chase rid) = none) :
    redDeleteFx b chase rid d = d.reply b 0x0603 .unsupported 0x02 2 := by
  simp only [redDeleteFx, hf]

section Found

variable (hf : d.press.reds.find? (keptRed chase rid) = some r)
include hf

theorem redDeleteFx_busy (hr : r.rounds ≠ []) : redDeleteFx b chase rid d = d.reply b 0x0603 .busy := by
  simp [redDeleteFx, hf, hr]

theorem redDeleteFx_deletes (hr : r.rounds = []) (hs : Stages d chase d1) (hroom : Roomy (redLeaves d1 chase rid) chase) :
    redDeleteFx b chase rid d = joined (redLeaves d1 chase rid) b chase 0x0603 := by
  simp only [redDeleteFx, hf, hr, List.isEmpty_nil, Bool.not_true, Bool.false_eq_true, if_false]
  exact joinStage_stages hs rfl hroom

end Found

end Reductions

section Mixtures

variable {b : Bas} {d d1 d2 : Dev} {chase moe : Nat} {q : MoeDef} {m : Moe}

/-! ### Mixtures (R369, R370) -/

/-- The cores a mixture's dispatch is placed on: fewer than it asks for where no more qualify. -/
abbrev dispCores (d : Dev) (chase : Nat) (q : MoeDef) : List Nat := pickDisp d chase (d.stagedF chase) q.ndisp []

/-- A mixture of the same number stands in the chase. -/
abbrev moeThere (d : Dev) (chase : Nat) (q : MoeDef) : Bool := d.press.moes.any fun m => m.chase == chase && m.d.moe == q.moe

theorem moePlace_noCores (hc : (dispCores d chase q).length < q.ndisp) :
    moePlace chase q d = .error (3, q.ndisp - (dispCores d chase q).length) := if_pos hc

theorem moeDefineFx_unsupported (hu : moeUnsupported d q = true) : moeDefineFx b chase q d = d.reply b 0x0609 .unsupported := if_pos hu

section Supported

variable (hu : moeUnsupported d q = false)
include hu

theorem moeDefineFx_denied (hd : moeDenied d chase q = true) : moeDefineFx b chase q d = d.reply b 0x0609 .denied :=
  (if_neg (Bool.eq_false_iff.1 hu)).trans (if_pos hd)

variable (hd : moeDenied d chase q = false)
include hd

/-- A mixture in range and allowed joins the staged forme. -/
theorem moeDefineFx_joins : moeDefineFx b chase q d = joinStage d b chase 0x0609 (moeThere d chase q) (moePlace chase q) :=
  (if_neg (Bool.eq_false_iff.1 hu)).trans (if_neg (Bool.eq_false_iff.1 hd))

variable (hs : Stages d chase d1)
include hs

theorem moeDefineFx_noCores (hc : (dispCores d1 chase q).length < q.ndisp) :
    moeDefineFx b chase q d = d.reply b 0x0609 .noFit 0x01 3 [q.ndisp - (dispCores d1 chase q).length] :=
  (moeDefineFx_joins hu hd).trans (joinStage_error hs (moePlace_noCores hc))

variable (hp : moePlace chase q d1 = .ok d2) (hr : Roomy d2 chase)
include hp hr

theorem moeDefineFx_busy (hb : moeThere d chase q = true) : moeDefineFx b chase q d = d.reply b 0x0609 .busy := by
  rw [moeDefineFx_joins hu hd, hb]
  exact joinStage_busy hs hp hr

theorem moeDefineFx_defines (hb : moeThere d chase q = false) : moeDefineFx b chase q d = joined d2 b chase 0x0609 := by
  rw [moeDefineFx_joins hu hd, hb]
  exact joinStage_stages hs hp hr

end Supported

/-- A mixture of a chase that has not been deleted. -/
abbrev keptMoe (chase moe : Nat) (m : Moe) : Bool := m.chase == chase && m.d.moe == moe && !m.leaving

/-- The device whose mixture leaves at the next commit; one that was only staged is gone, and so are its experts in the staged forme. -/
abbrev moeLeaves (d : Dev) (chase moe : Nat) : Dev :=
  ({ d with press := { d.press with
      moes := (d.press.moes.filter fun m => !(keptMoe chase moe m && m.staged)).map fun m =>
        if keptMoe chase moe m then { m with leaving := true } else m } } : Dev).modStaged chase fun f =>
    { f with experts := f.experts.filter fun e => e.moe != moe }

theorem moeDeleteFx_unknown (hf : d.press.moes.find? (keptMoe chase moe) = none) :
    moeDeleteFx b chase moe d = d.reply b 0x060A .unsupported 0x02 2 := by
  simp only [moeDeleteFx, hf]

section Found

variable (hf : d.press.moes.find? (keptMoe chase moe) = some m)
include hf

theorem moeDeleteFx_busy (hq : m.reqs ≠ []) : moeDeleteFx b chase moe d = d.reply b 0x060A .busy := by
  simp [moeDeleteFx, hf, hq]

theorem moeDeleteFx_deletes (hq : m.reqs = []) (hs : Stages d chase d1) (hroom : Roomy (moeLeaves d1 chase moe) chase) :
    moeDeleteFx b chase moe d = joined (moeLeaves d1 chase moe) b chase 0x060A := by
  simp only [moeDeleteFx, hf, hq, List.isEmpty_nil, Bool.not_true, Bool.false_eq_true, if_false]
  exact joinStage_stages hs rfl hroom

end Found

end Mixtures

/-- Settles O34: each command runs as its effect on the device that heard it; what joins the stage does so by the laws of `joinStage`. -/
theorem rowsReductionsMixtures : Obligations.RowsReductionsMixtures := by
  rintro s b d d1 d2 chase row v rid moe q mq r m rfl
  refine ⟨fun h => ?row, fun h => ?define, fun h => ?delete, fun h => ?moeDefine, fun h => ?moeDelete⟩
  case row =>
    have hrun : Leads (.fmtdescWrite b row v) s (fmtdescWriteFx b row v (heard s.dev b)) := leads_onCmd rfl h
    refine ⟨fun hstd => hrun.of_eq (fmtdescWriteFx_refuses (fmtVerdict_standardRow hstd) (by decide)), fun h16 h1024 hwidth hrsv hval hw => ?writer,
      fun h16 h1024 hwidth hrsv hval ho hw =>
        hrun.of_eq (fmtdescWriteFx_refuses (fmtVerdict_denied ⟨h16, h1024, hwidth, hrsv, hval⟩ ho hw) (by decide))⟩
    case writer =>
      have hverdict := fmtVerdict_writer ⟨h16, h1024, hwidth, hrsv, hval⟩ hw
      exact ⟨fun hl => hrun.of_eq (fmtdescWriteFx_refuses (hverdict.trans (if_pos hl)) (by decide)),
        fun hl => hrun.of_eq (fmtdescWriteFx_writes (hverdict.trans (if_neg (Bool.eq_false_iff.1 hl))))⟩
  case define =>
    have hrun : Leads (.redDefine b chase q) s (redDefineFx b chase q (heard s.dev b)) := leads_onCmd rfl h
    exact ⟨fun hu => hrun.of_eq (redDefineFx_unsupported hu), fun hu hd => hrun.of_eq (redDefineFx_denied hu hd),
      fun hu hd hs hp hr => ⟨redPlace_reds hp, fun hb => hrun.of_eq (redDefineFx_busy hu hd hs hp hr hb),
        fun hb => hrun.of_eq (redDefineFx_defines hu hd hs hp hr hb)⟩⟩
  case delete =>
    have hrun : Leads (.redDelete b chase rid) s (redDeleteFx b chase rid (heard s.dev b)) := leads_onCmd rfl h
    refine ⟨fun hf => hrun.of_eq (redDeleteFx_unknown hf), fun hf => ⟨fun hr => hrun.of_eq (redDeleteFx_busy hf hr), ?_⟩⟩
    rintro hr hs rfl hroom
    exact hrun.of_eq (redDeleteFx_deletes hf hr hs hroom)
  case moeDefine =>
    have hrun : Leads (.moeDefine b chase mq) s (moeDefineFx b chase mq (heard s.dev b)) := leads_onCmd rfl h
    exact ⟨fun hu => hrun.of_eq (moeDefineFx_unsupported hu), fun hu hd => hrun.of_eq (moeDefineFx_denied hu hd),
      fun hu hd hs => ⟨fun hc => hrun.of_eq (moeDefineFx_noCores hu hd hs hc), fun hp hr =>
        ⟨fun hb => hrun.of_eq (moeDefineFx_busy hu hd hs hp hr hb), fun hb => hrun.of_eq (moeDefineFx_defines hu hd hs hp hr hb)⟩⟩⟩
  case moeDelete =>
    have hrun : Leads (.moeDelete b chase moe) s (moeDeleteFx b chase moe (heard s.dev b)) := leads_onCmd rfl h
    refine ⟨fun hf => hrun.of_eq (moeDeleteFx_unknown hf), fun hf => ⟨fun hq => hrun.of_eq (moeDeleteFx_busy hf hq), ?_⟩⟩
    rintro hq hs rfl hroom
    exact hrun.of_eq (moeDeleteFx_deletes hf hq hs hroom)

end Sys2Proof
end

section
/-! PROOF. Contributions, carries and results at their ingress, a round whose time is up, and the checks of a contribution at its core
(ReductionRoundsAndChecks). -/

namespace Sys2Proof
open Machine

section Reductions

variable {d d0 e e2 : Dev} {x : Rx} {id chase rid core : Nat} {k : Pkt} {ks : List Pkt} {r : Red} {rr : RedRound} {en : ChunkEnt} {inp : Input}

/-- The round a packet of a reduction names: a RID. -/
abbrev roundOf (k : Pkt) : Nat := wbits k.w2 63 32

/-- The chunk a packet of a reduction names. -/
abbrev chunkOf (k : Pkt) : Nat := wbits k.w2 31 8

/-! ### REDUCE_CONTRIB and CARRY at their ingress (R325, R330) -/

/-- The key of a chunk's entry. -/
abbrev chunkKey (k : Pkt) : Nat := roundOf k / 16 * 2 ^ 24 + chunkOf k

/-- Does a contribution go on with an operation already admitted: of its open round, or of its train (R58)? -/
abbrev contribContinues (d : Dev) (k : Pkt) : Bool := roundOpen d k || continues d k

/-- What a contribution needs to pass its first checks, find its chunk's entry and be tracked. -/
abbrev ContribAdmits (d0 : Dev) (x : Rx) (d : Dev) (id : Nat) (k : Pkt) : Prop :=
  Admits d0 x (contribContinues d0 x.pkt) (neededEnt x 1 (chunkKey x.pkt)) d id k

/-- An admitted contribution for this switch whose chunk's entry is good. -/
structure ContribReq (d0 : Dev) (x : Rx) (d : Dev) (id : Nat) (k : Pkt) : Prop where
  admitted : ContribAdmits d0 x d id k
  here : isLocal d k = true
  entry : d.imp.badEnt.contains (k.chase, 2, chunkKey x.pkt) = false

/-- The fields of a REDUCE_CONTRIB or CARRY are outside R325 and R330. -/
abbrev badContribFields (k : Pkt) : Prop :=
  wbits k.w2 3 0 ≠ 0 ∨ wbits k.w3 43 32 ≠ 0 ∨ (k.opc = opCARRY ∧ wbits k.w3 63 44 ≠ 0)

theorem not_badContribFields (h2 : wbits k.w2 3 0 = 0) (h3 : wbits k.w3 43 32 = 0) (hc : k.opc = opCARRY → wbits k.w3 63 44 = 0) :
    ¬ badContribFields k := by
  rintro (h | h | ⟨hopc, h⟩)
  · exact h h2
  · exact h h3
  · exact h (hc hopc)

/-- The chunk is mapped, its definition is there, and the train is whole. -/
structure ContribWhole (d : Dev) (x : Rx) (k : Pkt) (en : ChunkEnt) (e : Dev) (ks : List Pkt) (r : Red) : Prop where
  fields : ¬ badContribFields k
  chunk : chunkEnt d k.chase k.epoch (roundOf x.pkt) (chunkOf x.pkt) = some en
  train : trainStep d { x with pkt := k } = .ok (e, some ks)
  red : e.red k.chase (roundOf x.pkt) = some r

theorem contribFx_error (h : preChecks d x (contribContinues d x.pkt) = .error e) : contribFx x d = e := by
  unfold contribFx
  exact withEntry_error h

theorem contribFx_parks (h : preChecks d x (contribContinues d x.pkt) = .ok ()) (hl : isLocal d x.pkt = true)
    (hf : fastHas d (neededEnt x 1 (chunkKey x.pkt)) = false) : contribFx x d = park d x (neededEnt x 1 (chunkKey x.pkt)) := by
  unfold contribFx
  exact withEntry_parks h hl hf

theorem contribFx_forwards (h : ContribAdmits d0 x d id k) (hl : isLocal d k = false) :
    contribFx x d0 = forwardReq d id k (some (x.port, x.vl)) :=
  (withEntry_admits h _).trans (by simp [hl])

theorem contribFx_badEntry (h : ContribAdmits d0 x d id k) (hl : isLocal d k = true)
    (hb : d.imp.badEnt.contains (k.chase, 2, chunkKey x.pkt) = true) : contribFx x d0 = answer d id .targetLost :=
  (withEntry_admits h _).trans (by simp only [hl, hb]; rfl)

theorem contribFx_badFields (h : ContribReq d0 x d id k) (hf : badContribFields k) : contribFx x d0 = answer d id .unsupported :=
  (withEntry_admits h.admitted _).trans (by simp only [h.here, h.entry, if_pos hf]; rfl)

theorem contribFx_unmapped (h : ContribReq d0 x d id k) (hf : ¬ badContribFields k)
    (hc : chunkEnt d k.chase k.epoch (roundOf x.pkt) (chunkOf x.pkt) = none) : contribFx x d0 = answer d id .unsupported :=
  (withEntry_admits h.admitted _).trans (by simp only [h.here, h.entry, if_neg hf, hc]; rfl)

theorem contribFx_waits (h : ContribReq d0 x d id k) (hf : ¬ badContribFields k)
    (hc : chunkEnt d k.chase k.epoch (roundOf x.pkt) (chunkOf x.pkt) = some en) (ht : trainStep d { x with pkt := k } = .ok (e, none)) :
    contribFx x d0 = e :=
  (withEntry_admits h.admitted _).trans (by simp only [h.here, h.entry, if_neg hf, hc, ht]; rfl)

/-- A chunk whose press die does not serve its definition fails the round, which the contribution opens if it has to. -/
theorem contribFx_coreLost (h : ContribReq d0 x d id k) (hw : ContribWhole d x k en e ks r) (hs : coreServes e en.at_ [redPlate r.d] = false) :
    contribFx x d0 = redFail (answer (openRound e k.chase (roundOf x.pkt) (roundOf x.pkt % 16) k) id .redFail) k.chase (roundOf x.pkt)
      (roundOf x.pkt % 16) 2 :=
  (withEntry_admits h.admitted _).trans (by
    simp only [h.here, h.entry, if_neg hw.fields, hw.chunk, hw.train, ck_ok_bind, hw.red, Option.map_some, Option.toList_some, hs]; rfl)

/-- A whole train goes to its chunk's core, through that core's filter. -/
theorem contribFx_works (h : ContribReq d0 x d id k) (hw : ContribWhole d x k en e ks r) (hs : coreServes e en.at_ [redPlate r.d] = true)
    (hflt : filterCheck e id (.core en.at_) = .ok e2) : contribFx x d0 = redTrain e2 id en.at_ ks :=
  (withEntry_admits h.admitted _).trans (by
    simp only [h.here, h.entry, if_neg hw.fields, hw.chunk, hw.train, ck_ok_bind, hw.red, Option.map_some, Option.toList_some, hs, hflt]; rfl)

/-! ### REDUCE_RESULT at a child switch (R334) -/

/-- The core that holds the chunk of a result, 0 where it is not mapped. -/
abbrev resultCore (d : Dev) (k : Pkt) : Nat := ((chunkEnt d k.chase k.epoch (roundOf k) (chunkOf k)).map fun e => e.at_).getD 0

theorem resultFx_error (h : takeDelivery d0 x = .error d) : resultFx x d0 = d := by
  simp only [resultFx, h]
  rfl

theorem resultFx_passes (h : takeDelivery d0 x = .ok (d, none)) : resultFx x d0 = d := by
  simp only [resultFx, h]
  rfl

theorem resultFx_waits (h : takeDelivery d0 x = .ok (d, some id)) (ht : trainStep d x = .ok (e, none)) : resultFx x d0 = e := by
  simp only [resultFx, h, ck_ok_bind, ht]
  rfl

theorem resultFx_works (h : takeDelivery d0 x = .ok (d, some id)) (ht : trainStep d x = .ok (e, some ks))
    (hflt : filterCheck e id (.core (resultCore d x.pkt)) = .ok e2) : resultFx x d0 = resultTrain e2 id (resultCore d x.pkt) ks := by
  simp only [resultFx, h, ck_ok_bind, ht, hflt]
  rfl

/-! ### A round's time is up (R341) -/

/-- A round that is over: it drains, has failed, or has reached its second target. -/
abbrev roundOver (d : Dev) (r : Red) (rr : RedRound) : Prop :=
  rr.drain = true ∨ rr.failed ≠ 0 ∨ r.d.t2 ≤ (d.mark (r.d.countMark rr.rnd)).count

theorem roundTimeout_eq (hr : d.red chase rid = some r) (hrr : r.round (rid % 16) = some rr) :
    roundTimeout d chase rid = if roundOver d r rr then d else redNext (redFail d chase rid (rid % 16) 1) chase rid := by
  simp only [roundTimeout, hr, Option.bind_some, hrr, Option.map_some]

/-! ### A contribution at its core (R325, R326, R331) -/

/-- The position of an element is found exactly where the list has it. -/
theorem isSome_find?_position {α : Type} [BEq α] [LawfulBEq α] (l : List α) (a : α) :
    ((upTo l.length).find? fun i => l[i]? == some a).isSome = l.any fun y => y == a := by
  rw [Bool.eq_iff_iff]
  simp only [upTo, List.find?_isSome, List.mem_range, List.any_eq_true, beq_iff_eq]
  constructor
  · rintro ⟨i, -, hi⟩
    exact ⟨a, List.mem_of_getElem? hi, rfl⟩
  · rintro ⟨y, hy, rfl⟩
    obtain ⟨i, hi, hget⟩ := List.getElem_of_mem hy
    exact ⟨i, hi, by rw [List.getElem?_eq_getElem hi, hget]⟩

/-- The contributor a REDUCE_CONTRIB speaks for: its rank, at its source. -/
abbrev contributor (k : Pkt) : Nat × Nat := (wbits k.w3 63 44, k.src)

/-- Is the source of a contribution one of the definition's contributors? -/
abbrev contributes (q : RedDef) (k : Pkt) : Bool := q.lranks.any fun l => l == contributor k

/-- A contribution takes its contributor's place in the round; a stranger's has none. -/
theorem isNone_contributorPlace (q : RedDef) (k : Pkt) :
    ((upTo q.lranks.length).find? fun i => q.lranks[i]? == some (contributor k)).isNone = !contributes q k := by
  rw [← Option.not_isSome, isSome_find?_position]

/-- The payloads of a train as they came, each with its element number. -/
abbrev payloads (ks : List Pkt) : List (Nat × List Byte) := ks.map fun k => (wbits k.w3 31 0, k.data)

theorem redTrain_unknown (h : d.red k.chase (roundOf k) = none) : redTrain d id core (k :: ks) = answer d id .unsupported := by
  simp only [redTrain, h]

/-- A train of REDUCE_CONTRIB finds its definition at its core. -/
structure AtCore (d : Dev) (k : Pkt) (r : Red) : Prop where
  contrib : k.opc = opREDUCE_CONTRIB
  red : d.red k.chase (roundOf k) = some r

theorem AtCore.not_carry (h : AtCore d k r) : (k.opc == opCARRY) = false := by rw [h.contrib]; rfl

theorem redTrain_otherFormat (h : AtCore d k r) (hf : wbits k.w2 7 4 ≠ (fmtRow d r.d.ifmt).code) :
    redTrain d id core (k :: ks) = answer (d.count .cFmtmism (coreDie core)) id .unsupported := by
  simp [redTrain, h.red, h.not_carry, hf]

/-- Neither a stranger nor a contributor that does not own its chunk may add to it. -/
theorem redTrain_denied (h : AtCore d k r) (hf : wbits k.w2 7 4 = (fmtRow d r.d.ifmt).code)
    (hd : contributes r.d k = false ∨ (r.d.op = 1 ∧ wbits k.w3 63 44 ≠ r.d.owner (chunkOf k))) :
    redTrain d id core (k :: ks) = answer d id .denied := by
  have hno : ((upTo r.d.lranks.length).find? fun i => r.d.lranks[i]? == some (contributor k)).isNone = true ∨
      (!(r.d.op != 1 || wbits k.w3 63 44 == r.d.owner (chunkOf k))) = true := by
    refine hd.imp (fun hs => ?_) fun ⟨hop, hown⟩ => by simp [hop, hown]
    rw [isNone_contributorPlace, hs]
    rfl
  simp only [redTrain, h.red, h.not_carry, hf, beq_self_eq_true, Bool.not_true, Bool.false_eq_true, if_false, if_pos hno]

/-- A train of a reduction that is neither COPY nor sealed, in its format and of one of its contributors. -/
structure Contribution (d : Dev) (k : Pkt) (r : Red) : Prop extends AtCore d k r where
  format : wbits k.w2 7 4 = (fmtRow d r.d.ifmt).code
  source : contributes r.d k = true
  shared : r.d.op ≠ 1
  plain : r.d.sealv ≠ 1

theorem Contribution.admitted (h : Contribution d k r) :
    ¬ (((upTo r.d.lranks.length).find? fun i => r.d.lranks[i]? == some (contributor k)).isNone = true ∨
      (!(r.d.op != 1 || wbits k.w3 63 44 == r.d.owner (chunkOf k))) = true) := by
  rw [isNone_contributorPlace, h.source]
  simp [h.shared]

/-- The next round may open: the definition has a second buffer, and no round drains. -/
abbrev nextHasBuffer (r : Red) : Bool := r.d.bufs == 2 && !r.rounds.any fun x => x.drain

/-- What the core asks, in its order, before it adds a contribution: that it can be read, then of the definition and of the round. -/
theorem redTrain_contribution (h : Contribution d k r) (id core : Nat) (ks : List Pkt) : ∃ rest : Input → Dev, redTrain d id core (k :: ks) =
    (readInput d r.d (chunkOf k) false (payloads (k :: ks))).elim (answer d id .unsupported) fun inp =>
      if r.dead then answer d id .redFail
      else if roundOf k % 16 ≠ r.cur ∧ roundOf k % 16 ≠ (r.cur + 1) % 16 then answer (d.count .cRedoverrun (coreDie core)) id .overrun
      else if roundOf k % 16 ≠ r.cur ∧ (!nextHasBuffer r) = true then answer (d.count .cRedbusy (coreDie core)) id .busy
      else rest inp := by
  simp only [redTrain, h.red, h.not_carry, h.format, beq_self_eq_true, Bool.not_true, Bool.not_false, Bool.false_eq_true, if_false,
    if_neg h.admitted, h.plain, false_and, and_false, Bool.and_false, Bool.true_or, if_true]
  cases readInput d r.d (chunkOf k) false (payloads (k :: ks)) with
  | none => exact ⟨fun _ => d, rfl⟩
  | some inp => exact ⟨fun _ => _, rfl⟩

theorem redTrain_unread (h : Contribution d k r) (hi : readInput d r.d (chunkOf k) false (payloads (k :: ks)) = none) :
    redTrain d id core (k :: ks) = answer d id .unsupported := by
  obtain ⟨rest, hrest⟩ := redTrain_contribution h id core ks
  rw [hrest, hi, Option.elim_none]

section Read

variable (h : Contribution d k r) (hi : readInput d r.d (chunkOf k) false (payloads (k :: ks)) = some inp)
include h hi

theorem redTrain_dead (hd : r.dead = true) : redTrain d id core (k :: ks) = answer d id .redFail := by
  obtain ⟨rest, hrest⟩ := redTrain_contribution h id core ks
  rw [hrest, hi, Option.elim_some, if_pos hd]

variable (hd : r.dead = false) (hcur : roundOf k % 16 ≠ r.cur)
include hd hcur

theorem redTrain_overruns (hnext : roundOf k % 16 ≠ (r.cur + 1) % 16) :
    redTrain d id core (k :: ks) = answer (d.count .cRedoverrun (coreDie core)) id .overrun := by
  obtain ⟨rest, hrest⟩ := redTrain_contribution h id core ks
  rw [hrest, hi, Option.elim_some, if_neg (by simp [hd]), if_pos ⟨hcur, hnext⟩]

/-- The next round waits for its second buffer. -/
theorem redTrain_busy (hnext : roundOf k % 16 = (r.cur + 1) % 16) (hb : r.d.bufs ≠ 2) :
    redTrain d id core (k :: ks) = answer (d.count .cRedbusy (coreDie core)) id .busy := by
  obtain ⟨rest, hrest⟩ := redTrain_contribution h id core ks
  have hnone : (!nextHasBuffer r) = true := by simp [nextHasBuffer, hb]
  rw [hrest, hi, Option.elim_some, if_neg (by simp [hd]), if_neg (fun h => h.2 hnext), if_pos ⟨hcur, hnone⟩]

end Read

end Reductions

/-- Settles O37: the two packets run one effect at their ingress, the result and the time-out each its own; at the core a contribution's
checks answer in their order. -/
theorem reductionRoundsAndChecks : Obligations.ReductionRoundsAndChecks := by
  refine ⟨fun s x y i d e e2 id chase rid c core cont k ks fe en r rr => ⟨fun hi hcont hrid hc hfe => ?ingress, fun hy hrid hcore => ?result,
    fun hr hrr => ?timeout⟩, fun d id core rid n k r inp hrid hn hopc => ?core⟩
  case ingress =>
    subst hcont hrid hc hfe
    have hrun : Leads i s (contribFx y s.dev) := by
      rcases hi with ⟨rfl, rfl⟩ | ⟨rfl, rfl⟩
      · exact leads_onPool rfl
      · exact leads_onPool rfl
    refine ⟨fun hp => hrun.of_eq (contribFx_error hp), fun hp hl hf => hrun.of_eq (contribFx_parks hp hl hf), fun hp hent hin => ?_⟩
    have hadm : ContribAdmits s.dev y d id k := ⟨hp, hent, hin⟩
    refine ⟨fun hl => hrun.of_eq (contribFx_forwards hadm hl), fun hl hb => hrun.of_eq (contribFx_badEntry hadm hl hb), fun hl hb => ?_⟩
    have hreq : ContribReq s.dev y d id k := ⟨hadm, hl, hb⟩
    refine ⟨fun hbad => hrun.of_eq (contribFx_badFields hreq (hbad.imp_right .inl)), fun h2 h3 hcarry => ?_⟩
    have hf := not_badContribFields h2 h3 hcarry
    refine ⟨fun hen => hrun.of_eq (contribFx_unmapped hreq hf hen), fun hen => ⟨fun ht => hrun.of_eq (contribFx_waits hreq hf hen ht),
      fun ht hr => ?_⟩⟩
    have hw : ContribWhole d y k en e ks r := ⟨hf, hen, ht, hr⟩
    exact ⟨fun hs => hrun.of_eq (contribFx_coreLost hreq hw hs), fun hs hflt => hrun.of_eq (contribFx_works hreq hw hs hflt)⟩
  case result =>
    subst hy hrid hcore
    have hrun : Leads (.reduceResult x) s (resultFx (asOp opREDUCE_RESULT x) s.dev) := leads_onPool rfl
    exact ⟨fun h => hrun.of_eq (resultFx_error h), fun h => hrun.of_eq (resultFx_passes h), fun h =>
      ⟨fun ht => hrun.of_eq (resultFx_waits h ht), fun ht hflt => hrun.of_eq (resultFx_works h ht hflt)⟩⟩
  case timeout =>
    have hrun : Leads (.roundTimeout chase rid) s (roundTimeout s.dev chase rid) := leads_onPool (f := fun d => roundTimeout d chase rid) rfl
    rw [roundTimeout_eq hr hrr] at hrun
    refine ⟨fun hdrain hfail hcount => hrun.of_eq (if_neg ?_), fun hover => hrun.of_eq (if_pos hover)⟩
    simp [roundOver, hdrain, hfail, hcount]
  case core =>
    subst hrid hn
    refine ⟨redTrain_unknown, fun hr => ?_⟩
    have hat : AtCore d k r := ⟨hopc, hr⟩
    refine ⟨redTrain_otherFormat hat, fun hf => ⟨fun hs => redTrain_denied hat hf (.inl hs),
      fun hop hown => redTrain_denied hat hf (.inr ⟨hop, hown⟩), fun hs hop hseal => ?_⟩⟩
    have hc : Contribution d k r := ⟨hat, hf, hs, hop, hseal⟩
    exact ⟨fun hi => redTrain_unread hc hi, fun hi => ⟨fun hd => redTrain_dead hc hi hd,
      fun hd hcur hnext => redTrain_overruns hc hi hd hcur hnext, fun hd hcur hnext hb => redTrain_busy hc hi hd hcur hnext hb⟩⟩

end Sys2Proof
end
section
/-! PROOF. Basod commands at the keeper: the front of the queue runs (StepRunsFront), a session's window of sequence numbers (SequenceWindow), and
every Basod command is taken once (CommandsRunOnce). -/

namespace Sys2Proof
open Machine

/-- Settles O1: the step is its own case split on the queue. -/
theorem stepRunsFront : Obligations.StepRunsFront :=
  fun _ _ _ => ⟨fun h => by simp only [step, h], fun h => by simp only [step, h]⟩

/-! ### The window of sequence numbers (R543) -/

/-- What a session that has received exactly the numbers `ns` remembers: the highest of them, and those no more than 63 below it. -/
structure Remembers (ns : List Nat) (se : Session) : Prop where
  highest : (se.hiSeq = none ∧ ns = []) ∨ ∃ h, se.hiSeq = some h ∧ h ∈ ns ∧ ∀ m ∈ ns, m ≤ h
  seen : ∀ x, x ∈ se.seen ↔ x ∈ ns ∧ ∀ m ∈ ns, m ≤ x + 63

variable {ns : List Nat} {se : Session}

/-- The highest number so far and one more have their maximum as the new highest. -/
theorem Remembers.highest_note (hr : Remembers ns se) (n : Nat) :
    max n (se.hiSeq.getD 0) ∈ n :: ns ∧ ∀ m ∈ n :: ns, m ≤ max n (se.hiSeq.getD 0) := by
  rcases hr.highest with ⟨hnone, rfl⟩ | ⟨h, hsome, hmem, hle⟩
  · simp [hnone]
  · simp only [hsome, Option.getD_some, List.mem_cons, forall_eq_or_imp]
    refine ⟨?_, le_max_left _ _, fun m hm => le_max_of_le_right (hle m hm)⟩
    rcases max_choice n h with he | he
    · exact .inl he
    · rw [he]
      exact .inr hmem

theorem Remembers.note (hr : Remembers ns se) (n : Nat) : Remembers (n :: ns) (se.note n) := by
  obtain ⟨hmem, hle⟩ := hr.highest_note n
  refine ⟨.inr ⟨_, rfl, hmem, hle⟩, fun x => ?_⟩
  have hwithin : max n (se.hiSeq.getD 0) ≤ x + 63 ↔ ∀ m ∈ n :: ns, m ≤ x + 63 :=
    ⟨fun h m hm => (hle m hm).trans h, fun h => h _ hmem⟩
  have hseen : x ∈ (se.note n).seen ↔ x ∈ n :: se.seen ∧ max n (se.hiSeq.getD 0) ≤ x + 63 := by
    simp [Session.note]
  rw [hseen, hwithin, List.mem_cons, List.mem_cons, hr.seen]
  refine ⟨fun ⟨hx, hall⟩ => ⟨hx.imp_right And.left, hall⟩, fun ⟨hx, hall⟩ => ⟨hx.imp_right fun hx => ⟨hx, fun m hm => ?_⟩, hall⟩⟩
  exact hall m (List.mem_cons_of_mem n hm)

theorem remembers_foldl (l : List Nat) (hr : Remembers ns se) : Remembers (l.reverse ++ ns) (l.foldl Session.note se) := by
  induction l generalizing ns se with
  | nil => exact hr
  | cons n l ih =>
    rw [List.reverse_cons, List.append_assoc]
    exact ih (hr.note n)

theorem Remembers.takes_iff (hr : Remembers ns se) (n : Nat) : se.takes n = true ↔ n ∉ ns ∧ ∀ m ∈ ns, m ≤ n + 63 := by
  rcases hr.highest with ⟨hnone, rfl⟩ | ⟨h, hsome, hmem, hle⟩
  · simp [Session.takes, hnone]
  · have htakes : se.takes n = true ↔ h < n ∨ (h ≤ n + 63 ∧ n ∉ se.seen) := by simp [Session.takes, hsome]
    rw [htakes, hr.seen]
    constructor
    · rintro (hlt | ⟨hnear, hnew⟩)
      · exact ⟨fun hn => absurd (hle n hn) (Nat.not_le.2 hlt), fun m hm => by have := hle m hm; omega⟩
      · have hall : ∀ m ∈ ns, m ≤ n + 63 := fun m hm => (hle m hm).trans hnear
        exact ⟨fun hn => hnew ⟨hn, hall⟩, hall⟩
    · exact fun ⟨hn, hall⟩ => .inr ⟨hall h hmem, fun hs => hn hs.1⟩

/-- Settles O5: a session that has received nothing remembers nothing, and remembers what it receives. -/
theorem sequenceWindow : Obligations.SequenceWindow := by
  intro ns se n hhi hseen
  have hstart : Remembers [] se := ⟨.inl ⟨hhi, rfl⟩, fun x => by simp [hseen]⟩
  simpa using (remembers_foldl ns hstart).takes_iff n

/-! ### Commands at the keeper (R37, R541–R543, R549) -/

section Received

variable {d : Dev} {b : Bas} {body : Dev → Dev} {n : Nat} {se : Session}

theorem received_untaken (ht : d.taken b.tr = false) : d.received b body = d := by
  simp [Dev.received, ht]

section Taken

variable (ht : d.taken b.tr = true)
include ht

theorem received_bad (hb : b.bad = true) : d.received b body = d.count .cBadpkt d.kpDie := by
  simp [Dev.received, ht, hb]

variable (hb : b.bad = false)
include hb

theorem received_replay (hq : b.seq = some n) (hs : b.sess.bind d.session = some se) (hk : se.takes n = false) :
    d.received b body = d.count .cSpdmreplay d.kpDie := by
  simp [Dev.received, ht, hb, hq, hs, hk]

/-- What passes the checks is heard: its sequence number is noted, and the body runs. -/
theorem received_heard (hq : (match b.seq, b.sess.bind d.session with | some k, some x => x.takes k | _, _ => true) = true) :
    d.received b body = body (heard d b) := by
  unfold Dev.received heard
  cases h1 : b.seq with
  | none => simp [ht, hb]
  | some k =>
    cases h2 : b.sess.bind d.session with
    | none => simp [ht, hb]
    | some x =>
      simp only [h1, h2] at hq
      simp [ht, hb, hq]

end Taken

end Received

section Command

variable {d : Dev} {i : Instr} {b : Bas} {info : CmdInfo} {body : Dev → Dev} {r : Reply}

theorem command_inactive (ha : d.mgmt.active = none) : d.command i b info body = d := by
  simp only [Dev.command, ha]

section Active

variable (ha : d.mgmt.active.isSome = true) (hst : d.mgmt.starting ≠ some i)
include ha hst

theorem command_untaken (ht : d.taken b.tr = false) : d.command i b info body = d := by
  obtain ⟨k, hk⟩ := Option.isSome_iff_exists.1 ha
  simp only [Dev.command, hk, if_neg hst]
  exact received_untaken ht

variable (ht : d.taken b.tr = true)
include ht

theorem command_bad (hb : b.bad = true) : d.command i b info body = d.count .cBadpkt d.kpDie := by
  obtain ⟨k, hk⟩ := Option.isSome_iff_exists.1 ha
  simp only [Dev.command, hk, if_neg hst]
  exact received_bad ht hb

variable (hb : b.bad = false)
include hb

theorem command_replay {n : Nat} {se : Session} (hq : b.seq = some n) (hs : b.sess.bind d.session = some se) (hk : se.takes n = false) :
    d.command i b info body = d.count .cSpdmreplay d.kpDie := by
  obtain ⟨k, hk'⟩ := Option.isSome_iff_exists.1 ha
  simp only [Dev.command, hk', if_neg hst]
  exact received_replay ht hb hq hs hk

variable (hq : (match b.seq, b.sess.bind d.session with | some k, some x => x.takes k | _, _ => true) = true)
include hq

theorem command_cached (hc : (heard d b).cached b = some r) :
    d.command i b info body = (heard d b).emit (.reply b.sess b.tr { r with dupr := true }) := by
  obtain ⟨k, hk⟩ := Option.isSome_iff_exists.1 ha
  simp only [Dev.command, hk, if_neg hst, received_heard ht hb hq, hc]

theorem command_inProgress (hc : (heard d b).cached b = none) (hp : (heard d b).inProgress b = true) :
    d.command i b info body = heard d b := by
  obtain ⟨k, hk⟩ := Option.isSome_iff_exists.1 ha
  simp only [Dev.command, hk, if_neg hst, received_heard ht hb hq, hc, hp, if_true]

end Active

end Command

/-- Every Basod command passes the keeper's order of execution, whatever its own effect is: its arm of `exec` is `onCmd`, for IDENT_GET
in a session only. -/
theorem leads_command {i : Instr} {b : Bas} (h : i.basod = some b) (s : State) :
    ∃ info body, Leads i s (s.dev.command i b info body) := by
  cases i <;> simp only [Instr.basod, Option.ite_none_right_eq_some, Option.some.injEq, reduceCtorEq] at h <;> obtain ⟨hsess, rfl⟩ := h
  case identGet => 
    refine ⟨_, _, (leads_identGet _ s).of_eq (if_neg ?_)⟩
    simpa using Option.isSome_iff_ne_none.1 hsess
  all_goals exact ⟨_, _, rfl⟩

/-- Settles O4: a Basod command reaches the device through `Dev.command` alone, whose checks answer before any body runs. -/
theorem commandsRunOnce : Obligations.CommandsRunOnce := by
  intro i s b d r n se hi
  obtain ⟨info, body, hrun⟩ := leads_command hi s
  refine ⟨fun ha => hrun.of_eq (command_inactive ha), fun ha hst => ⟨fun ht => hrun.of_eq (command_untaken ha hst ht),
    fun ht hb => hrun.of_eq (command_bad ha hst ht hb),
    fun ht hb hq hs hk => hrun.of_eq (command_replay ha hst ht hb hq hs hk), ?_⟩⟩
  rintro ht hb hq rfl
  exact ⟨fun hc => hrun.of_eq (command_cached ha hst ht hb hq hc),
    fun hc hp => hrun.of_eq (command_inProgress ha hst ht hb hq hc hp)⟩

end Sys2Proof
end
section
/-! PROOF. SPDM before a session, the numbers of sessions, and what a session and a party's own agent may ask for (SpdmConnection,
SessionNumbersAreNew, SessionsAndAgents). -/

namespace Sys2Proof
open Machine

section Numbers

variable {d : Dev} {n : Nat}

/-! ### A free session number (R448, R449) -/

/-- The numbers in use: of the sessions, and of the commands still running or held. -/
def usedSessions (d : Dev) : List Nat :=
  d.mgmt.sessions.map Prod.fst ++ d.mgmt.running.filterMap (fun r => r.sess) ++ d.mgmt.held.filterMap fun h => h.2.1.sess

/-- Is a number in use? -/
def sessionUsed (d : Dev) (n : Nat) : Bool :=
  (d.session n).isSome || d.mgmt.running.any (fun r => r.sess == some n) || d.mgmt.held.any fun h => h.2.1.sess == some n

theorem usedSessions_length_le :
    (usedSessions d).length ≤ d.mgmt.sessions.length + d.mgmt.running.length + d.mgmt.held.length := by
  have hr := List.length_filterMap_le (fun r : Running => r.sess) d.mgmt.running
  have hh := List.length_filterMap_le (fun h : Dom × Bas × Instr => h.2.1.sess) d.mgmt.held
  simp only [usedSessions, List.length_append, List.length_map]
  omega

theorem mem_usedSessions (h : sessionUsed d n = true) : n ∈ usedSessions d := by
  simp only [sessionUsed, Bool.or_eq_true, List.any_eq_true, beq_iff_eq] at h
  simp only [usedSessions, List.mem_append, List.mem_filterMap]
  rcases h with (hs | hr) | hh
  · obtain ⟨se, hse⟩ := Option.isSome_iff_exists.1 hs
    exact .inl (.inl (List.mem_map_of_mem (mem_of_tfind hse)))
  · exact .inl (.inr hr)
  · exact .inr hh

/-- More numbers are tried than can be in use, so one is free. -/
theorem exists_unused_session :
    ∃ n ∈ upTo (d.mgmt.sessions.length + d.mgmt.running.length + d.mgmt.held.length + 1), sessionUsed d n = false := by
  by_contra hnone
  have hall : upTo (d.mgmt.sessions.length + d.mgmt.running.length + d.mgmt.held.length + 1) ⊆ usedSessions d := fun n hn =>
    mem_usedSessions (Bool.of_not_eq_false fun hf => hnone ⟨n, hn, hf⟩)
  have hle := (List.nodup_range.subperm hall).length_le
  have hused := usedSessions_length_le (d := d)
  simp only [List.length_range] at hle
  omega

theorem freeSession_unused : sessionUsed d (freeSession d) = false := by
  obtain ⟨n, hn, hfree⟩ := exists_unused_session (d := d)
  obtain ⟨k, hk⟩ := Option.isSome_iff_exists.1 (List.find?_isSome (p := fun n => !sessionUsed d n).2 ⟨n, hn, by rw [hfree]; rfl⟩)
  have hval : freeSession d = k := congrArg (Option.getD · 0) hk
  rw [hval]
  have hnot : (!sessionUsed d k) = true := List.find?_some (p := fun n => !sessionUsed d n) hk
  simpa using hnot

end Numbers

/-- Settles O45: the number found is not in use, by the pigeonhole principle. -/
theorem sessionNumbersAreNew : Obligations.SessionNumbersAreNew := by
  intro d
  have hfree := freeSession_unused (d := d)
  simp only [sessionUsed, Bool.or_eq_false_iff, List.any_eq_false, beq_iff_eq, Option.isSome_eq_false_iff, Option.isNone_iff_eq_none]
    at hfree
  obtain ⟨⟨hsess, hrun⟩, hheld⟩ := hfree
  exact ⟨hsess, hrun, hheld⟩

section Spdm

variable {d : Dev} {tr : Transport} {peer need n : Nat} {f : Nat → Dev → Dev}

/-! ### SPDM outside a session (R446, R448, R469) -/

theorem spdmIn_taken (ha : d.mgmt.active = some n) (ht : (d.taken tr || tr == .i3c) = true) : spdmIn tr f d = f n d := by
  simp only [spdmIn, ha, ht, if_true]

theorem spdmAt_reached (ha : d.mgmt.active = some n) (ht : (d.taken tr || tr == .i3c) = true) (hc : need ≤ d.conn tr peer) :
    spdmAt tr peer need f d = f n d :=
  (spdmIn_taken ha ht).trans (if_neg (Nat.not_lt.2 hc))

theorem spdmAt_early (ha : d.mgmt.active = some n) (ht : (d.taken tr || tr == .i3c) = true) (hc : d.conn tr peer < need) :
    spdmAt tr peer need f d = say d tr peer 0x7F [eUnexpected] :=
  (spdmIn_taken ha ht).trans (if_pos hc)

section Agreed

variable (ha : d.mgmt.active = some n) (ht : (d.taken tr || tr == .i3c) = true) (hc : 3 ≤ d.conn tr peer)
include ha ht hc

theorem getCertificateFx_part {slot off len : Nat} (hs : slot < 2) (ho : off < (certOf d slot).length) :
    getCertificateFx tr peer slot off len d = say d tr peer 0x02
      (slot :: (((certOf d slot).drop off).take len).length ::
        ((certOf d slot).length - off - (((certOf d slot).drop off).take len).length) ::
        (((certOf d slot).drop off).take len).map fun x => x.toNat) :=
  (spdmAt_reached ha ht hc).trans (if_neg (by omega))

theorem challengeFx_own {nonce : Nat} :
    challengeFx tr peer n nonce d =
      say d.draw.2 tr peer 0x03 [n, Config.sha384 (certOf d.draw.2 n), Config.ecdsa n d.draw.1 (leBytes 32 nonce)] :=
  (spdmAt_reached ha ht hc).trans (if_neg (not_not.2 rfl))

theorem getMeasurementsFx_count {nonce : Nat} :
    getMeasurementsFx tr peer 0 nonce d = say d.draw.2 tr peer 0x60 [8, Config.ecdsa n d.draw.1 (leBytes 32 nonce)] := by
  refine (spdmAt_reached ha ht hc).trans ?_
  simp [aliasSign]

theorem keyExchangeFx_opens {both : Bool} (hl : d.mgmt.sessions.length < 64) :
    ∃ sig e, keyExchangeFx tr peer n both d = say e tr peer 0x64 [freeSession d, b2n both, sig] ∧
      e.mgmt.sessions = tput d.mgmt.sessions (freeSession d) { mutual_ := both, fin := false } :=
  ⟨_, _, (spdmAt_reached ha ht hc).trans ((if_neg (Nat.not_le.2 hl)).trans (if_neg (not_not.2 rfl))), rfl⟩

theorem keyExchangeFx_busy {both : Bool} (hl : 64 ≤ d.mgmt.sessions.length) :
    keyExchangeFx tr peer n both d = say d tr peer 0x7F [eBusy] :=
  (spdmAt_reached ha ht hc).trans (if_pos hl)

end Agreed

end Spdm

/-- Settles O44: each request is its effect at the stage its peer has reached. -/
theorem spdmConnection : Obligations.SpdmConnection := by
  intro s tr peer slot off len nonce n both ha ht
  refine ⟨Does.of_eq (does_onDev rfl) (spdmIn_taken ha ht), fun hc => Does.of_eq (does_onDev rfl) (spdmAt_reached ha ht hc),
    fun hc => Does.of_eq (does_onDev rfl) (spdmAt_reached ha ht hc), fun hc => Does.of_eq (does_onDev rfl) (spdmAt_early ha ht hc),
    fun hc => ⟨Does.of_eq (does_onDev rfl) (spdmAt_reached ha ht hc),
      fun hs ho => Does.of_eq (does_onDev rfl) (getCertificateFx_part ha ht hc hs ho),
      ⟨_, _, rfl, Does.of_eq (does_onDev rfl) (challengeFx_own ha ht hc)⟩,
      ⟨_, _, rfl, Does.of_eq (does_onDev rfl) (getMeasurementsFx_count ha ht hc)⟩, fun hl => ?opens,
      fun hl => Does.of_eq (does_onDev rfl) (keyExchangeFx_busy ha ht hc hl)⟩⟩
  obtain ⟨sig, e, hfx, hsess⟩ := keyExchangeFx_opens (both := both) ha ht hc hl
  have hrun : Does (.keyExchange tr peer n both) s (say e tr peer 0x64 [freeSession s.dev, b2n both, sig]) := Does.of_eq (does_onDev rfl) hfx
  refine ⟨_, hrun, (congrArg (tfind · _) hsess).trans (tfind_tput_same _ _ _), fun k hk => ?_⟩
  exact (congrArg (tfind · _) hsess).trans (tfind_tput_other _ _ _ _ hk)

section Sessions

variable {d : Dev} {b : Bas} {n key chase party reader pvis rvis nonce : Nat} {se : Session} {allow : Bool} {k : PartyKeys}

/-! ### Messages of a session (R448, R449, R544) -/

theorem finishFx_opens (h : Secured d b n se) (hf : se.fin = false) :
    finishFx b key true d =
      answerIn ((heard d b).modSession n fun x => { x with fin := true, digest := if x.mutual_ then key else 0 }) b 0x65 [] := by
  refine (inSession_secured h _).trans ?_
  simp [hf]

theorem inOpen_secured (h : Secured d b n se) (hf : se.fin = true) (f : Nat → Dev → Dev) : inOpen b f d = f n (heard d b) :=
  (inSession_secured h _).trans (if_pos hf)

theorem keyUpdateFx_own (h : Secured d b n se) (hf : se.fin = true) :
    keyUpdateFx b 1 d = answerIn ((heard d b).modSession n fun x => { x with keys := x.keys + 1 }) b 0x69 [1] :=
  inOpen_secured h hf _

/-! ### Requests of a party's own agent (R444, R450, R451, R468, R471) -/

/-- A session without mutual authentication is no party's agent. -/
theorem partyIn_notMutual (h : Secured d b n se) (hm : se.mutual_ = false) (f : Dev → Dev) :
    partyIn b chase party f d = partyAnswer (heard d b) b .sealed_ := by
  refine (inSession_secured h _).trans ?_
  simp [hm]

theorem chaseQuoteFx_notMutual (h : Secured d b n se) (hm : se.mutual_ = false) :
    chaseQuoteFx b chase nonce d = partyAnswer (heard d b) b .sealed_ := by
  refine (inSession_secured h _).trans ?_
  simp [hm]

section Agent

variable (h : Secured d b n se) (ha : AgentOf (heard d b) se chase party)
include h ha

theorem keyInstallFx_unblown (hl : (heard d b).mgmt.debugLock = false) :
    keyInstallFx b chase party 0 key d = partyAnswer (heard d b) b .sealed_ := by
  refine (partyIn_agent h ha _).trans ?_
  simp [hl]

section Blown

variable (hl : (heard d b).mgmt.debugLock = true) (hk : k = (heard d b).partyKeys chase party)
include hl hk

/-- The device whose party has a key for its data, delivered to the trays its folios lie on. -/
abbrev pdkGiven (d : Dev) (chase party key : Nat) (k : PartyKeys) : Dev :=
  foldOver (formesOf (putKeys d chase party { k with pdk := some key })) (putKeys d chase party { k with pdk := some key })
    fun f d => deliverKeys d f.1 f.2

theorem keyInstallFx_pdk (hp : k.pdk = none) (hu : pdkUse (heard d b) < 16384) :
    keyInstallFx b chase party 0 key d = partyAnswer (pdkGiven (heard d b) chase party key k) b .ok := by
  subst hk
  refine (partyIn_agent h ha _).trans ?_
  simp [hl, hp, Nat.not_le.2 hu]

theorem keyInstallFx_psk1 (hc : k.cur = false) (hu : pskUse (heard d b) < 16384) :
    keyInstallFx b chase party 1 key d =
      partyAnswer (putKeys (heard d b) chase party { k with psk1 := some key, cur := true }) b .ok := by
  subst hk
  refine (partyIn_agent h ha _).trans ?_
  simp [hl, hc, Nat.not_le.2 hu]

theorem keyInstallFx_psk0 (hc : k.cur = true) (hu : pskUse (heard d b) < 16384) :
    keyInstallFx b chase party 1 key d =
      partyAnswer (putKeys (heard d b) chase party { k with psk0 := some key, cur := false }) b .ok := by
  subst hk
  refine (partyIn_agent h ha _).trans ?_
  simp [hl, hc, Nat.not_le.2 hu]

end Blown

theorem keyRevokeFx_psk0 :
    keyRevokeFx b chase party 1 0 d =
      partyAnswer (putKeys (heard d b) chase party { (heard d b).partyKeys chase party with psk0 := none }) b .ok := by
  refine (partyIn_agent h ha _).trans ?_
  simp

theorem keyRevokeFx_busy (hk : keysTray (heard d b) (64 * chase + party) = true) :
    keyRevokeFx b chase party 0 0 d = partyAnswer (heard d b) b .busy := by
  refine (partyIn_agent h ha _).trans ?_
  simp [hk]

theorem colmaskSetFx_writes (hp : party ≠ reader) (hr : reader < 64) :
    colmaskSetFx b chase party reader allow pvis rvis d =
      partyAnswer ((heard d b).setReg .impColmask (4096 * chase + 64 * party + reader)
        (b2n allow <<< 128 + (pvis % 2 ^ 64) <<< 64 + rvis % 2 ^ 64)) b .ok :=
  (partyIn_agent h ha _).trans (if_neg (by omega))

/-- The parties of a chase an agent speaks for. -/
abbrev partiesOf (d : Dev) (chase digest : Nat) : List Nat := (upTo 64).filter fun p => (d.partyKeys chase p).agent == some digest

omit h in
theorem mem_partiesOf (hp : party < 64) : party ∈ partiesOf (heard d b) chase se.digest := by
  obtain ⟨-, -, -, hagent, -⟩ := ha
  simp [partiesOf, upTo, hp, hagent]

/-- The manifest that an agent of a party gets. -/
theorem chaseQuoteFx_signs (hp : party < 64) :
    ∃ m sig e, m = manifest (heard d b) chase (partiesOf (heard d b) chase se.digest) ∧
      aliasSign (heard d b) (heard d b).mgmt.lastActive (leBytes 32 nonce ++ m.flatMap (leBytes 48)) = (sig, e) ∧
      chaseQuoteFx b chase nonce d = partyAnswer e b .ok 0 (m ++ [sig]) := by
  have hmine := List.ne_nil_of_mem (mem_partiesOf ha hp)
  obtain ⟨hfin, hmut, hbound, -, hsusp⟩ := ha
  refine ⟨_, _, _, rfl, rfl, (inSession_secured h _).trans ((if_neg ?_).trans (if_neg (by simp [hsusp])))⟩
  simp [hfin, hmut, hbound, hmine]

end Agent

end Sessions

/-- Settles O46: a secured message is its session's, a party request its agent's; any other session is answered SEALED. -/
theorem sessionsAndAgents : Obligations.SessionsAndAgents := by
  rintro s b d n chase party key reader pvis rvis nonce se allow k rfl h hk
  refine ⟨fun hf => Does.of_eq (does_onDev rfl) (finishFx_opens h hf), fun hf => ⟨?heartbeat, ?keyUpdate, ?endSession⟩,
    fun ha => ⟨fun hl hp hu => ⟨_, rfl, ?pdk⟩, fun hl hc hu => ?psk1, fun hl hc hu => ?psk0, fun hl => ?unblown, ?revoke, fun ht => ?tray,
      fun hp hr => ?colmask, fun hp => ?quote⟩, fun hm => ⟨?_, ?_, ?_, ?_⟩⟩
  case heartbeat => exact Does.of_eq (does_onDev rfl) (inOpen_secured h hf _)
  case keyUpdate => exact Does.of_eq (does_onDev rfl) (keyUpdateFx_own h hf)
  case endSession => exact Does.of_eq (does_onDev rfl) (inOpen_secured h hf _)
  case pdk => exact Does.of_eq (does_onDev rfl) (keyInstallFx_pdk h ha hl hk hp hu)
  case psk1 => exact Does.of_eq (does_onDev rfl) (keyInstallFx_psk1 h ha hl hk hc hu)
  case psk0 => exact Does.of_eq (does_onDev rfl) (keyInstallFx_psk0 h ha hl hk hc hu)
  case unblown => exact Does.of_eq (does_onDev rfl) (keyInstallFx_unblown h ha hl)
  case revoke =>
    subst hk
    exact Does.of_eq (does_onDev rfl) (keyRevokeFx_psk0 h ha)
  case tray => exact Does.of_eq (does_onDev rfl) (keyRevokeFx_busy h ha ht)
  case colmask => exact Does.of_eq (does_onDev rfl) (colmaskSetFx_writes h ha hp hr)
  case quote =>
    obtain ⟨m, sig, e, hm, hsig, hfx⟩ := chaseQuoteFx_signs (nonce := nonce) h ha hp
    exact ⟨m, sig, e, hm, hsig, Does.of_eq (does_onDev rfl) hfx⟩
  · exact Does.of_eq (does_onDev rfl) (partyIn_notMutual h hm _)
  · exact Does.of_eq (does_onDev rfl) (partyIn_notMutual h hm _)
  · exact Does.of_eq (does_onDev rfl) (partyIn_notMutual h hm _)
  · exact Does.of_eq (does_onDev rfl) (chaseQuoteFx_notMutual h hm)

end Sys2Proof
end
section
/-! PROOF. Embedding tables by their commands (Tables); plates and marks by theirs (PlatesAndMarks). -/

namespace Sys2Proof
open Machine

section Embeddings

variable {b : Bas} {d d1 d2 : Dev} {chase table newbase lr eps : Nat} {firsts : List Nat} {q : EmbDef} {e : Emb}

/-! ### Definitions of tables (R347, R348) -/

/-- A table as it joins the staged forme. -/
abbrev newEmb (chase : Nat) (q : EmbDef) : Emb :=
  { chase := chase, d := q, staged := true, curBase := q.base, lr := q.lr, eps := q.eps, nlr := q.lr, neps := q.eps }

/-- A table of the same number stands in the chase. -/
abbrev embThere (d : Dev) (chase : Nat) (q : EmbDef) : Bool := d.press.embs.any fun e => e.chase == chase && e.d.table == q.table

theorem embPlace_embs (h : embPlace chase q d1 = .ok d2) : d2.press.embs = d1.press.embs ++ [newEmb chase q] := by
  unfold embPlace at h
  dsimp only at h
  split at h
  · cases h
    rfl
  · split at h
    · cases h
    · cases h
      rfl

theorem embDefineFx_unsupported (hu : embUnsupported d chase q = true) : embDefineFx b chase q d = d.reply b 0x0604 .unsupported := if_pos hu

section Supported

variable (hu : embUnsupported d chase q = false)
include hu

theorem embDefineFx_denied (hd : embDenied d chase q = true) : embDefineFx b chase q d = d.reply b 0x0604 .denied :=
  (if_neg (Bool.eq_false_iff.1 hu)).trans (if_pos hd)

variable (hd : embDenied d chase q = false)
include hd

/-- A table in range and allowed joins the staged forme. -/
theorem embDefineFx_joins : embDefineFx b chase q d = joinStage d b chase 0x0604 (embThere d chase q) (embPlace chase q) :=
  (if_neg (Bool.eq_false_iff.1 hu)).trans (if_neg (Bool.eq_false_iff.1 hd))

variable (hs : Stages d chase d1) (hp : embPlace chase q d1 = .ok d2) (hr : Roomy d2 chase)
include hs hp hr

theorem embDefineFx_busy (hb : embThere d chase q = true) : embDefineFx b chase q d = d.reply b 0x0604 .busy := by
  rw [embDefineFx_joins hu hd, hb]
  exact joinStage_busy hs hp hr

theorem embDefineFx_defines (hb : embThere d chase q = false) : embDefineFx b chase q d = joined d2 b chase 0x0604 := by
  rw [embDefineFx_joins hu hd, hb]
  exact joinStage_stages hs hp hr

end Supported

/-! ### Tables that go, and shards that move (R347, R368) -/

/-- A table of a chase that has not been deleted. -/
abbrev keptEmb (chase table : Nat) (e : Emb) : Bool := e.chase == chase && e.d.table == table && !e.leaving

/-- The device whose table leaves at the next commit; one that was only staged is gone, and so are its shards in the staged forme. -/
abbrev embLeaves (d : Dev) (chase table : Nat) : Dev :=
  ({ d with press := { d.press with
      embs := (d.press.embs.filter fun e => !(keptEmb chase table e && e.staged)).map fun e =>
        if keptEmb chase table e then { e with leaving := true } else e } } : Dev).modStaged chase fun f =>
    { f with shards := f.shards.filter fun s => s.table != table }

/-- The device whose staged forme gives a table's shards new first rows. -/
abbrev embMoves (d : Dev) (chase table : Nat) (firsts : List Nat) : Dev :=
  d.modStaged chase fun f => { f with shards := (f.shards.filter fun s => s.table != table) ++
    ((f.shards.filter fun s => s.table == table).zip firsts).map fun p => { p.1 with first := p.2 } }

section Found

variable (hf : d.press.embs.find? (keptEmb chase table) = some e)
include hf

theorem embDeleteFx_busy (hb : e.ust ≠ .idle ∨ e.drnLive = true) : embDeleteFx b chase table d = d.reply b 0x0605 .busy := by
  simp only [embDeleteFx, hf]
  exact if_pos hb

theorem embDeleteFx_deletes (hi : e.ust = .idle) (hl : e.drnLive = false) (hs : Stages d chase d1)
    (hroom : Roomy (embLeaves d1 chase table) chase) : embDeleteFx b chase table d = joined (embLeaves d1 chase table) b chase 0x0605 := by
  simp only [embDeleteFx, hf]
  exact (if_neg (by simp [hi, hl])).trans (joinStage_stages hs rfl hroom)

theorem embReshardFx_notFromZero (h0 : firsts.head? ≠ some 0) : embReshardFx b chase table firsts d = d.reply b 0x0608 .unsupported := by
  simp only [embReshardFx, hf]
  exact if_pos (.inr (.inr (.inl h0)))

theorem embReshardFx_moves (hh : e.d.home ≠ 1) (hn : firsts.length = e.d.nshard) (h0 : firsts.head? = some 0)
    (hrise : rising firsts = true) (hin : firsts.any (fun x => decide (e.d.nrows ≤ x)) = false) (hs : Stages d chase d1)
    (hroom : Roomy (embMoves d1 chase table firsts) chase) :
    embReshardFx b chase table firsts d = joined (embMoves d1 chase table firsts) b chase 0x0608 := by
  simp only [embReshardFx, hf]
  exact (if_neg (by simp [hh, hn, h0, hrise, hin])).trans (joinStage_stages hs rfl hroom)

end Found

/-! ### Versions and options (R363, R365) -/

/-- The bytes a version of a table fills. -/
abbrev embSize (d : Dev) (e : Emb) : Nat := e.d.nrows * e.d.stride (fmtRow d e.d.rrow)

theorem embVersionFx_unknown (hf : d.emb chase table = none) :
    embVersionFx b chase table newbase d = d.reply b 0x0606 .unsupported 0x02 2 := by
  simp only [embVersionFx, hf]

section Known

variable (hf : d.emb chase table = some e)
include hf

theorem embVersionFx_uncovered (hc : covered (d.comp chase).curF.req isTable newbase (embSize d e) = false) :
    embVersionFx b chase table newbase d = d.reply b 0x0606 .unsupported := by
  simp only [embVersionFx, hf]
  exact if_pos (.inr (.inr (by simp [hc])))

section Covered

variable (hh : e.d.home ≠ 1) (hn : newbase % 4096 = 0) (hc : covered (d.comp chase).curF.req isTable newbase (embSize d e) = true)
include hh hn hc

/-- Within the TABLE regions a draining version decides. -/
theorem embVersionFx_covered :
    embVersionFx b chase table newbase d = if e.drnLive = true then d.reply b 0x0606 .busy
      else (d.modEmb chase table fun e => { e with newBase := some newbase }).reply b 0x0606 .ok := by
  simp only [embVersionFx, hf]
  exact if_neg (by simp [hh, hn, hc])

end Covered

theorem embSetoptFx_sets (hh : e.d.home ≠ 1) (hlr : lr < 2 ^ 32) (heps : eps < 2 ^ 32) :
    embSetoptFx b chase table lr eps d =
      (d.modEmb chase table fun e => { e with nlr := lr, neps := eps }).reply b 0x0607 .ok := by
  simp only [embSetoptFx, hf]
  refine if_neg ?_
  rintro (hother | hbig | hbig)
  · exact hh hother
  · exact Nat.not_le.2 hlr hbig
  · exact Nat.not_le.2 heps hbig

end Known

end Embeddings

/-- Settles O35: each command runs as its effect on the device that heard it; what joins the stage does so by the laws of `joinStage`. -/
theorem tables : Obligations.Tables := by
  rintro s b d d1 d2 chase table newbase lr eps firsts q e rfl
  refine ⟨fun h => ?define, fun h hf => ?delete, fun h => ?version, fun h hf hh hlr heps => ?setopt, fun h hf hh => ?reshard⟩
  case define =>
    have hrun : Leads (.embDefine b chase q) s (embDefineFx b chase q (heard s.dev b)) := leads_onCmd rfl h
    exact ⟨fun hu => hrun.of_eq (embDefineFx_unsupported hu), fun hu hd => hrun.of_eq (embDefineFx_denied hu hd),
      fun hu hd hs hp hr => ⟨embPlace_embs hp, fun hb => hrun.of_eq (embDefineFx_busy hu hd hs hp hr hb),
        fun hb => hrun.of_eq (embDefineFx_defines hu hd hs hp hr hb)⟩⟩
  case delete =>
    have hrun : Leads (.embDelete b chase table) s (embDeleteFx b chase table (heard s.dev b)) := leads_onCmd rfl h
    refine ⟨fun hb => hrun.of_eq (embDeleteFx_busy hf hb), ?_⟩
    rintro hi hl hs rfl hroom
    exact hrun.of_eq (embDeleteFx_deletes hf hi hl hs hroom)
  case version =>
    have hrun : Leads (.embVersion b chase table newbase) s (embVersionFx b chase table newbase (heard s.dev b)) := leads_onCmd rfl h
    refine ⟨fun hf => hrun.of_eq (embVersionFx_unknown hf), fun hf hh hn =>
      ⟨fun hc => hrun.of_eq (embVersionFx_uncovered hf hc), fun hc => ?_⟩⟩
    have hcov := embVersionFx_covered (b := b) hf hh hn hc
    exact ⟨fun hl => hrun.of_eq (hcov.trans (if_pos hl)), fun hl => hrun.of_eq (hcov.trans (if_neg (Bool.eq_false_iff.1 hl)))⟩
  case setopt => exact Leads.of_eq (leads_onCmd rfl h) (embSetoptFx_sets hf hh hlr heps)
  case reshard =>
    have hrun : Leads (.embReshard b chase table firsts) s (embReshardFx b chase table firsts (heard s.dev b)) := leads_onCmd rfl h
    refine ⟨fun h0 => hrun.of_eq (embReshardFx_notFromZero hf h0), ?_⟩
    rintro hn h0 hrise hin hs rfl hroom
    exact hrun.of_eq (embReshardFx_moves hf hh hn h0 hrise hin hs hroom)

section Plates

variable {b : Bas} {d d1 d2 e : Dev} {chase off plate party ring size : Nat} {data : List Byte} {rings : List RingDef} {p : PImage}

/-! ### Images (R388, R389) -/

/-- What has come of a chase's image. -/
abbrev imageSoFar (d : Dev) (chase : Nat) : List Byte := ((d.press.plates.loads.find? fun l => l.chase == chase).map fun l => l.data).getD []

/-- The images of the other chases that are on their way. -/
abbrev otherLoads (d : Dev) (chase : Nat) : List PLoad := d.press.plates.loads.filter fun l => l.chase != chase

abbrev putLoads (d : Dev) (ls : List PLoad) : Dev := { d with press := { d.press with plates := { d.press.plates with loads := ls } } }

theorem plateLoadFx_outOfOrder (h0 : bits off 30 0 ≠ 0) (hl : bits off 30 0 ≠ (imageSoFar d chase).length) :
    plateLoadFx b chase off data d = d.reply b 0x060B .unsupported := if_pos ⟨h0, hl⟩

/-- A first piece starts the image again. -/
theorem plateLoadFx_first :
    plateLoadFx b chase 0 data d = (putLoads d (otherLoads d chase ++ [{ chase := chase, data := data }])).reply b 0x060B .ok := by
  have h0 : bits 0 30 0 = 0 := by decide
  have hmore : bit 0 31 = false := by decide
  simp [plateLoadFx, h0, hmore]

/-- A piece in its place follows what has come; bit 31 marks the last one. -/
theorem plateLoadFx_inPlace (hl : bits off 30 0 = (imageSoFar d chase).length) :
    plateLoadFx b chase off data d = if bit off 31 = true then plateArrived (putLoads d (otherLoads d chase)) b chase (imageSoFar d chase ++ data)
      else (putLoads d (otherLoads d chase ++ [{ chase := chase, data := imageSoFar d chase ++ data }])).reply b 0x060B .ok := by
  have himg : (if bits off 30 0 = 0 then data else imageSoFar d chase ++ data) = imageSoFar d chase ++ data := by
    split
    · rename_i h0
      rw [List.eq_nil_of_length_eq_zero (hl.symm.trans h0), List.nil_append]
    · rfl
  unfold plateLoadFx
  dsimp only
  rw [himg, if_neg fun h => h.2 hl]

theorem bits_low_of_lt (h : off < 2 ^ 31) : bits off 30 0 = off := by
  rw [bits, Nat.shiftRight_zero, Nat.mod_eq_of_lt h]

theorem bit_high_of_lt (h : off < 2 ^ 31) : bit off 31 = false := by
  simp [bit, Nat.testBit_lt_two_pow h]

theorem bits_low_of_last {n : Nat} (h : n < 2 ^ 31) : bits (2 ^ 31 + n) 30 0 = n := by
  simp only [bits]
  omega

theorem bit_high_of_last {n : Nat} (h : n < 2 ^ 31) : bit (2 ^ 31 + n) 31 = true := by
  rw [bit, Nat.testBit_two_pow_add_eq, Nat.testBit_lt_two_pow h]
  rfl

section Arrived

variable {img : List Byte} {r i : Nat}

theorem plateArrived_badPlate (hc : loadCheck e false chase img = some (r, i)) :
    plateArrived e b chase img = e.reply b 0x060B .badPlate 0x04 (r * 256 + i) := by
  unfold plateArrived
  dsimp only
  rw [hc]

theorem plateArrived_loads (hc : loadCheck e false chase img = none) (hn : e.image chase (readImage chase img).id = none)
    (hs : sumNat (e.press.plates.images.map fun i => i.bytes.length) + img.length ≤ 1073741824) :
    plateArrived e b chase img = ({ e with press := { e.press with plates := { e.press.plates with
      images := e.press.plates.images ++ [readImage chase img] } } } : Dev).reply b 0x060B .ok := by
  unfold plateArrived
  dsimp only
  rw [hc]
  exact (if_neg (by rw [hn]; exact Bool.false_ne_true)).trans (if_neg (Nat.not_lt.2 hs))

end Arrived

theorem plateUnloadFx_unknown (hi : d.image chase plate = none) : plateUnloadFx b chase plate d = d.reply b 0x060C .unsupported 0x02 2 :=
  if_pos (by simp [hi])

section Loaded

variable (hi : d.image chase plate = some p)
include hi

theorem plateUnloadFx_bound (hb : (d.press.plates.binds.any fun x => x.chase == chase && x.plate == plate) = true) :
    plateUnloadFx b chase plate d = d.reply b 0x060C .busy :=
  (if_neg (by simp [hi])).trans (if_pos (by rw [hb, Bool.true_or]))

theorem plateUnloadFx_unloads (hb : (d.press.plates.binds.any fun x => x.chase == chase && x.plate == plate) = false)
    (hn : (d.press.plates.insts.any fun i => i.chase == chase && i.plate == plate) = false) :
    plateUnloadFx b chase plate d = ({ d with press := { d.press with plates := { d.press.plates with
      images := d.press.plates.images.filter fun p => !(p.chase == chase && p.id == plate) } } } : Dev).reply b 0x060C .ok :=
  (if_neg (by simp [hi])).trans (if_neg (by simp [hb, hn]))

end Loaded

/-! ### Bindings (R391–R393) -/

/-- A binding that plates and rings allow: the plate's entry node, and rings of a party within the limits. -/
structure Bindable (d : Dev) (chase party plate : Nat) (p : PImage) (size : Nat) (rings : List RingDef) : Prop where
  image : d.image chase plate = some p
  entry : p.seqSize = some size
  some_ : rings ≠ []
  few : rings.length ≤ 16
  valid : rings.all ringOk = true
  distinct : (rings.map fun r => r.ring).eraseDups.length = rings.length
  party : party < (nextReq d chase).parties

section Bind

variable (h : Bindable d chase party plate p size rings)
include h

/-- For a bindable plate what the rings and the format rows name decides. -/
theorem plateBindFx_bindable :
    plateBindFx b chase party plate rings d =
      if rings.any (ringDenied d chase party size) ∨ !imageRowsOk d p then d.reply b 0x060D .denied
      else joinStage d b chase 0x060D (rings.any fun r => ringTaken d chase r.ring) (platePlace chase party plate p rings) := by
  obtain ⟨hi, he, hsome, hfew, hvalid, hdist, hparty⟩ := h
  simp only [plateBindFx, hi, he]
  exact if_neg (by simp [hsome, Nat.not_lt.2 hfew, hvalid, hdist, Nat.not_le.2 hparty])

theorem plateBindFx_denied (hd : rings.any (ringDenied d chase party size) = true) :
    plateBindFx b chase party plate rings d = d.reply b 0x060D .denied :=
  (plateBindFx_bindable h).trans (if_pos (.inl hd))

variable (hd : rings.any (ringDenied d chase party size) = false) (hrows : imageRowsOk d p = true) (hs : Stages d chase d1)
  (hp : platePlace chase party plate p rings d1 = .ok d2) (hr : Roomy d2 chase)
include hd hrows hs hp hr

theorem plateBindFx_busy (ht : (rings.any fun r => ringTaken d chase r.ring) = true) :
    plateBindFx b chase party plate rings d = d.reply b 0x060D .busy := by
  rw [plateBindFx_bindable h, if_neg (by simp [hd, hrows]), ht]
  exact joinStage_busy hs hp hr

theorem plateBindFx_binds (ht : (rings.any fun r => ringTaken d chase r.ring) = false) :
    plateBindFx b chase party plate rings d = joined d2 b chase 0x060D := by
  rw [plateBindFx_bindable h, if_neg (by simp [hd, hrows]), ht]
  exact joinStage_stages hs hp hr

end Bind

/-- A binding of a plate to a ring that has not been undone. -/
abbrev keptBind (chase plate ring : Nat) (x : PBind) : Bool :=
  x.chase == chase && x.plate == plate && !x.leaving && x.rings.any fun r => r.ring == ring

/-- The device whose binding leaves at the next commit; one that was only staged is gone. -/
abbrev bindLeaves (d : Dev) (chase plate ring : Nat) : Dev :=
  { d with press := { d.press with plates := { d.press.plates with
      binds := (d.press.plates.binds.filter fun x => !(keptBind chase plate ring x && x.staged)).map fun x =>
        if keptBind chase plate ring x then { x with leaving := true } else x } } }

theorem plateUnbindFx_unbinds (hb : d.press.plates.binds.any (keptBind chase plate ring) = true) (hs : Stages d chase d1)
    (hroom : Roomy (bindLeaves d1 chase plate ring) chase) :
    plateUnbindFx b chase plate ring d = joined (bindLeaves d1 chase plate ring) b chase 0x060E :=
  (if_neg (by rw [hb]; decide)).trans (joinStage_stages hs rfl hroom)

end Plates

section Marks

variable {b : Bas} {d e : Dev} {chase mark type party word link r : Nat} {plock : Bool} {st : Status}

/-! ### Marks by their commands (R434, R439) -/

theorem markSetFx_sets (h : setMark d chase mark type plock party word link = .ok e) :
    markSetFx b chase mark type plock party word link d = e.reply b 0x0701 .ok := by
  simp only [markSetFx, h]

theorem markSetFx_refuses (h : setMark d chase mark type plock party word link = .error (st, r)) (hst : st ≠ .noFit) :
    markSetFx b chase mark type plock party word link d = d.reply b 0x0701 st := by
  simp only [markSetFx, h]

theorem markSetFx_noFit (h : setMark d chase mark type plock party word link = .error (.noFit, r)) :
    markSetFx b chase mark type plock party word link d = d.reply b 0x0701 .noFit 0x01 r [1] := by
  simp only [markSetFx, h]

theorem markClearFx_clears (h : allocated d (d.mark mark).chase mark = true) :
    markClearFx b mark d = (clearMark d mark).reply b 0x0702 .ok := if_neg (by simp [h])

theorem markClearFx_denied (h : allocated d (d.mark mark).chase mark = false) : markClearFx b mark d = d.reply b 0x0702 .denied :=
  if_pos (by simp [h])

end Marks

/-- Settles O36: each command runs as its effect on the device that heard it. -/
theorem platesAndMarks : Obligations.PlatesAndMarks := by
  rintro s b d d1 d2 chase off plate party ring mark type word link eid size plock data img rings p bs rfl
  refine ⟨fun h hi => ?load, fun h => ?unload, fun h hi he hsome hfew hvalid hdist hparty => ?bind, fun h hb hs hbs => ?unbind,
    fun h => ?set, fun h => ?clear, fun h => Leads.of_eq (leads_onCmd rfl h) rfl⟩
  case load =>
    subst hi
    have hrun : Leads (.plateLoad b chase off data) s (plateLoadFx b chase off data (heard s.dev b)) := leads_onCmd rfl h
    refine ⟨fun h0 hl => hrun.of_eq (plateLoadFx_outOfOrder h0 hl), ?first, fun hoff h0 hlt => ⟨_, rfl, hrun.of_eq ?next⟩,
      fun hoff hlt => ⟨_, rfl, ?last⟩⟩
    case first =>
      rintro rfl
      exact ⟨_, rfl, hrun.of_eq plateLoadFx_first⟩
    case next =>
      exact (plateLoadFx_inPlace ((bits_low_of_lt hlt).trans hoff)).trans (if_neg (by simp [bit_high_of_lt hlt]))
    case last =>
      subst hoff
      have hlast := hrun.of_eq ((plateLoadFx_inPlace (bits_low_of_last hlt)).trans (if_pos (bit_high_of_last hlt)))
      exact ⟨fun r i hc => hlast.of_eq (plateArrived_badPlate hc), fun hc hn hs => ⟨_, rfl, hlast.of_eq (plateArrived_loads hc hn hs)⟩⟩
  case unload =>
    have hrun : Leads (.plateUnload b chase plate) s (plateUnloadFx b chase plate (heard s.dev b)) := leads_onCmd rfl h
    exact ⟨fun hi => hrun.of_eq (plateUnloadFx_unknown hi), fun hi hb => hrun.of_eq (plateUnloadFx_bound hi hb),
      fun hi hb hn => ⟨_, rfl, hrun.of_eq (plateUnloadFx_unloads hi hb hn)⟩⟩
  case bind =>
    have hrun : Leads (.plateBind b chase party plate rings) s (plateBindFx b chase party plate rings (heard s.dev b)) := leads_onCmd rfl h
    have hbind : Bindable (heard s.dev b) chase party plate p size rings := ⟨hi, he, hsome, hfew, hvalid, hdist, hparty⟩
    exact ⟨fun hd => hrun.of_eq (plateBindFx_denied hbind hd), fun hd hrows hs hp hr =>
      ⟨fun ht => hrun.of_eq (plateBindFx_busy hbind hd hrows hs hp hr ht), fun ht => hrun.of_eq (plateBindFx_binds hbind hd hrows hs hp hr ht)⟩⟩
  case unbind =>
    subst hbs
    rintro rfl hroom
    exact Leads.of_eq (leads_onCmd rfl h) (plateUnbindFx_unbinds hb hs hroom)
  case set =>
    have hrun : Leads (.markSet b chase mark type plock party word link) s (markSetFx b chase mark type plock party word link (heard s.dev b)) :=
      leads_onCmd rfl h
    exact ⟨fun e he => hrun.of_eq (markSetFx_sets he), fun st r he hst => hrun.of_eq (markSetFx_refuses he hst),
      fun r he => hrun.of_eq (markSetFx_noFit he)⟩
  case clear =>
    have hrun : Leads (.markClear b mark) s (markClearFx b mark (heard s.dev b)) := leads_onCmd rfl h
    exact ⟨fun ha => hrun.of_eq (markClearFx_clears ha), fun ha => hrun.of_eq (markClearFx_denied ha)⟩

end Sys2Proof
end
section
/-! PROOF. Stations, pieces, deadlines and faults of plates, and a full INGEST (PlatesAtWork). -/

namespace Sys2Proof
open Machine

section Stations

variable {d e : Dev} {core slot node item : Nat} {i i2 : PInst} {p : PImage} {f : Fired} {t : Tok}

/-! ### Stations and deadlines (R381, R382) -/

theorem stationFire_idle (h : d.inst core slot = none ∨ (d.inst core slot = some i ∧ i.fault = true)) : stationFire d core slot node = d := by
  rcases h with h | ⟨h, hf⟩
  · simp only [stationFire, h]
  · simp only [stationFire, h, hf, if_true]

/-- The stations of a plate that runs on its core: not in FAULT, its image loaded. -/
structure LiveInst (d : Dev) (core slot : Nat) (i : PInst) (p : PImage) : Prop where
  inst : d.inst core slot = some i
  healthy : i.fault = false
  image : d.image i.chase i.plate = some p

section Live

variable (h : LiveInst d core slot i p)
include h

/-- The types of station that move data or act on marks, with what the firing of one does. -/
abbrev dataStations (d : Dev) (i : PInst) (p : PImage) (node : Nat) : List (Nat × Dev) :=
  [(0x02, fireSeq d i p node), (0x11, fireFetch d i p node), (0x12, fireStore d i p node), (0x15, fireCompress d i p node),
    (0x16, fireExpand d i p node), (0x17, fireMark d i p node)]

theorem stationFire_data {ty : Nat} (hx : (ty, e) ∈ dataStations d i p node) (ht : p.ty node = ty) : stationFire d core slot node = e := by
  obtain ⟨hi, hf, hp⟩ := h
  simp only [List.mem_cons, List.not_mem_nil, or_false, Prod.mk.injEq] at hx
  rcases hx with ⟨rfl, rfl⟩ | ⟨rfl, rfl⟩ | ⟨rfl, rfl⟩ | ⟨rfl, rfl⟩ | ⟨rfl, rfl⟩ | ⟨rfl, rfl⟩ <;>
    simp only [stationFire, hi, hf, hp, ht, Bool.false_eq_true, if_false]

/-- A station of any other type moves tokens. -/
theorem stationFire_other (ht : p.ty node ∉ (dataStations d i p node).map Prod.fst) :
    stationFire d core slot node = (fireTokens d i p node).elim d (applyFired d core slot i p node) := by
  obtain ⟨hi, hf, hp⟩ := h
  simp only [List.map_cons, List.map_nil, List.mem_cons, List.not_mem_nil, or_false, not_or] at ht
  obtain ⟨hseq, hfetch, hstore, hcompress, hexpand, hmark⟩ := ht
  simp only [stationFire, hi, hf, hp, Bool.false_eq_true, if_false]
  cases fireTokens d i p node <;> rfl

/-- A plate on its core whose item at a DEADLINE node goes on as a timeout token. -/
abbrev timedOut (p : PImage) (node item : Nat) (t : Tok) (i : PInst) : PInst :=
  ((i.setNode node fun n => { n with toks := n.toks.filter fun x => x.item != item }).push p node 0
    [{ t with last := true, stat := Status.timeout.code }]).noteStat item Status.timeout.code

theorem deadlineExpiry_gone (ht : ((i.node node).toks.find? fun t => t.item == item) = none) : deadlineExpiry d core slot node item = d := by
  obtain ⟨hi, -, hp⟩ := h
  simp only [deadlineExpiry, hi, hp, ht]

theorem deadlineExpiry_held (hty : p.ty node = 0x18) (ht : ((i.node node).toks.find? fun t => t.item == item) = some t)
    (hr : i.room p node 0 ≠ 0) :
    deadlineExpiry d core slot node item = sweep (d.modInst core slot fun _ => timedOut p node item t i) core slot := by
  obtain ⟨hi, hf, hp⟩ := h
  simp only [deadlineExpiry, hi, hp, ht]
  exact if_neg (by simp [hf, hty, hr])

end Live

end Stations

section Pieces

variable {d e : Dev} {core slot : Nat} {i : PInst} {q : PPiece} {g : Grp} {b : Bool}

/-! ### Pieces (R398) -/

theorem platePiece_done (hev : d.pool.ev = []) (hi : d.inst core slot = some i) (hq : (i.pieces.find? fun x => x.done) = some q) :
    platePiece d core slot = pieceNext d core slot q.node := by
  simp only [platePiece, hev, List.findSome?_nil, hi, Option.bind_some, hq]

theorem platePiece_none (hev : d.pool.ev = []) (hi : d.inst core slot = some i) (hq : (i.pieces.find? fun x => x.done) = none) :
    platePiece d core slot = d := by
  simp only [platePiece, hev, List.findSome?_nil, hi, Option.bind_some, hq]

/-- A piece that the accesses of a group have ended: its data and the gravest of their statuses. -/
abbrev pieceOver (g : Grp) (id : Nat) (i : PInst) : PInst :=
  { i with pieces := mapIf (fun x => x.id == id) (fun x => { x with
      done := true, st := (g.outs.foldl (fun a o => graver a o.2) Status.ok).code, data := if x.write then x.data else g.data }) i.pieces }

/-- The device that has taken the end of a group of accesses. -/
abbrev groupTaken (d : Dev) (id : Nat) : Dev := ({ d with pool := { d.pool with ev := [] } } : Dev).dropGrp id

theorem platePiece_ended (hev : d.pool.ev = [.ended g.id]) (hg : d.grp g.id = some g) (hc : g.cont = .plate (instKey core slot) q.id b)
    (he : e = (groupTaken d g.id).modInst core slot (pieceOver g q.id))
    (hq : ((e.inst core slot).bind fun i => i.pieces.find? fun x => x.id == q.id) = some q) :
    platePiece d core slot = pieceNext e core slot q.node := by
  have hdrop : dropFirst (fun e => e == PEv.ended g.id) [PEv.ended g.id] = [] := by simp [dropFirst]
  simp only [platePiece, hev, List.findSome?_cons, hg, hc, Option.bind_some, if_true, hdrop, ← he, hq]

end Pieces

section Faulted

variable {d e : Dev} {core slot : Nat} {i : PInst} {z : StdInst}

/-! ### Faults (R398, R399) -/

/-- A fault of a plate on its core is counted and told. -/
abbrev faultTold (d : Dev) (core chase plate : Nat) : Dev :=
  (d.count .cPlfault (coreDie core)).notice 0x0609 (coreDie core) (some chase) core plate 0

/-- The device with a plate in FAULT that has given up all it held. -/
abbrev instFaulted (d : Dev) (core slot : Nat) : Dev :=
  d.modInst core slot fun i =>
    { i with fault := true, mute := true, items := [], pieces := [], queues := i.queues.map fun _ => [], nodes := i.nodes.map fun _ => {} }

/-- The device with a standard plate in FAULT. -/
abbrev stdFaulted (d : Dev) (core slot : Nat) : Dev :=
  { d with press := { d.press with plates := { d.press.plates with
      std := mapIf (fun x => x.core == core && x.slot == slot) (fun x => { x with fault := true }) d.press.plates.std } } }

section NoStandard

variable (hstd : d.press.plates.std = [])
include hstd

theorem plateFaultFx_noStandard : plateFaultFx core slot d = instFault d core slot := by
  simp only [plateFaultFx, hstd, List.find?_nil]

theorem instFault_absent (hi : d.inst core slot = none) : instFault d core slot = d := by
  simp only [instFault, hi, hstd, List.find?_nil]

end NoStandard

theorem instFault_again (hi : d.inst core slot = some i) (hf : i.fault = true) : instFault d core slot = d := by
  simp only [instFault, hi, hf, if_true]

theorem instFault_faults (hi : d.inst core slot = some i) (hf : i.fault = false) :
    instFault d core slot = instFaulted (faultTold d core i.chase i.plate) core slot := by
  simp only [instFault, hi]
  exact if_neg (Bool.eq_false_iff.1 hf)

/-- A standard plate's fault ends what it ran, as the loss of its core; only a LAYERPUSH also ends a push. -/
theorem plateFaultFx_standard (hi : d.inst core slot = none) (hstd : d.press.plates.std = [z]) (hc : z.core = core) (hs : z.slot = slot)
    (hf : z.fault = false) (hp : z.plate ≠ 0x0029) :
    plateFaultFx core slot d =
      stdLost (stdFaulted (faultTold d core z.chase z.plate) core slot) core z.chase z.plate := by
  have hfind : d.press.plates.std.find? (fun s => s.core == core && s.slot == slot && !s.fault) = some z := by
    simp [hstd, hc, hs, hf]
  have hpush : d.press.plates.std.find? (fun s => s.core == core && s.slot == slot && !s.fault && s.plate == 0x0029) = none := by
    simp [hstd, hp]
  simp only [plateFaultFx, hpush, instFault, hi, hfind]

end Faulted

section Full

variable {d e : Dev} {x : Rx} {px id : Nat} {k : Pkt}

/-! ### A full INGEST (R396) -/

/-- What an admitted request or a delivery that found no room ends with. -/
abbrev roomTimedOut (d : Dev) (x : Rx) (px id : Nat) : Dev := answer ((killTrain d x).count .cPlatefull (dPX px)) id .retry

theorem ingestWaitFx_request (hr : isRequest x.pkt = true) (hin : ingress d x (continues d x.pkt) = .ok (e, id, k)) :
    ingestWaitFx px x d = if isLocal e k = true then roomTimedOut e x px id else forwardReq e id k (some (x.port, x.vl)) := by
  cases hl : isLocal e k <;> simp [ingestWaitFx, hr, hin, hl]

theorem ingestWaitFx_delivery (hr : isRequest x.pkt = false) (hdl : x.pkt.dlv = true ∨ x.pkt.opc = opREDUCE_RESULT)
    (ht : takeDelivery d x = .ok (e, some id)) : ingestWaitFx px x d = roomTimedOut e x px id := by
  simp only [ingestWaitFx, hr, Bool.false_eq_true, if_false, if_pos hdl, ht]
  rfl

theorem ingestWaitFx_other (hr : isRequest x.pkt = false) (hdl : x.pkt.dlv = false) (ho : x.pkt.opc ≠ opREDUCE_RESULT)
    (hc : hdrCheck d x = .ok e) : ingestWaitFx px x d = (discard e x).count .cPlatefull (dPX px) := by
  have hnot : ¬ (x.pkt.dlv = true ∨ x.pkt.opc = opREDUCE_RESULT) := by simp [hdl, ho]
  simp only [ingestWaitFx, hr, Bool.false_eq_true, if_false, if_neg hnot, hc]
  rfl

end Full

section Events

variable (s : State) (x : Rx) (core slot node item px : Nat)

theorem leads_stationFire : Leads (.stationFire core slot node) s (stationFire s.dev core slot node) :=
  leads_onPool (f := fun d => stationFire d core slot node) rfl

theorem leads_deadlineExpiry : Leads (.deadlineExpiry core slot node item) s (deadlineExpiry s.dev core slot node item) :=
  leads_onPool (f := fun d => deadlineExpiry d core slot node item) rfl

theorem leads_platePieceDone : Leads (.platePieceDone core slot) s (platePiece s.dev core slot) :=
  leads_onPool (f := fun d => platePiece d core slot) rfl

theorem leads_plateInstanceFault : Leads (.plateInstanceFault core slot) s (plateFaultFx core slot s.dev) := leads_onPool rfl

theorem leads_ingestWaitTimeout : Leads (.ingestWaitTimeout px x) s (ingestWaitFx px x s.dev) := leads_onPool rfl

end Events

/-- Settles O41: each event is its effect, and the effect in each case is a lemma above. -/
theorem platesAtWork : Obligations.PlatesAtWork := by
  intro s x d e core slot node item px id k i i2 p f q t g z
  have hfire := leads_stationFire s core slot node
  have hpiece := leads_platePieceDone s core slot
  have hfault := leads_plateInstanceFault s core slot
  have hwait := leads_ingestWaitTimeout s x px
  refine ⟨fun h => hfire.of_eq (stationFire_idle h), fun hi hf hp => ?live,
    fun hev hi => ⟨fun hq => hpiece.of_eq (platePiece_done hev hi hq), fun hq => hpiece.of_eq (platePiece_none hev hi hq)⟩, ?ended,
    fun hstd => ?noStandard, ?standard, fun hr hin => ?request, fun hr hdl ht => hwait.of_eq (ingestWaitFx_delivery hr hdl ht),
    fun hr hdl ho hc => hwait.of_eq (ingestWaitFx_other hr hdl ho hc)⟩
  case live =>
    have hlive : LiveInst s.dev core slot i p := ⟨hi, hf, hp⟩
    have hexp := leads_deadlineExpiry s core slot node item
    refine ⟨fun ht => hfire.of_eq (stationFire_data hlive (by simp) ht),
      fun ht => hfire.of_eq (stationFire_data hlive (by simp) ht),
      fun ht => hfire.of_eq (stationFire_data hlive (by simp) ht),
      fun ht => hfire.of_eq (stationFire_data hlive (by simp) ht),
      fun ht => hfire.of_eq (stationFire_data hlive (by simp) ht),
      fun ht => hfire.of_eq (stationFire_data hlive (by simp) ht),
      fun ht => ⟨fun hf => hfire.of_eq ((stationFire_other hlive ht).trans (by rw [hf]; rfl)),
        fun hf => hfire.of_eq ((stationFire_other hlive ht).trans (by rw [hf]; rfl))⟩, ?_, fun ht => hexp.of_eq (deadlineExpiry_gone hlive ht)⟩
    rintro hdl ht hr rfl
    exact hexp.of_eq (deadlineExpiry_held hlive hdl ht hr)
  case ended =>
    rintro hev hg ⟨b, hc⟩ - rfl hd hq
    exact hpiece.of_eq (platePiece_ended hev hg hc hd hq)
  case noStandard =>
    have hinst := hfault.of_eq (plateFaultFx_noStandard hstd)
    exact ⟨fun hi => hinst.of_eq (instFault_absent hstd hi), fun hi hf => hinst.of_eq (instFault_again hi hf),
      fun hi hf => hinst.of_eq (instFault_faults hi hf)⟩
  case standard =>
    rintro hi hstd hc hs hf hp rfl rfl
    exact hfault.of_eq (plateFaultFx_standard hi hstd hc hs hf hp)
  case request =>
    have hfx := ingestWaitFx_request (px := px) hr hin
    exact ⟨fun hl => hwait.of_eq (hfx.trans (if_pos hl)), fun hl => hwait.of_eq (hfx.trans (if_neg (Bool.eq_false_iff.1 hl)))⟩

end Sys2Proof
end
section
/-! PROOF. What mark operations do at their home, and the events of marks (MarkTable). -/

namespace Sys2Proof
open Machine

section Operations

variable {d : Dev} {o : MOp}

/-! ### Counters (R421, R424) -/

/-- The device whose mark has another count. -/
abbrev countSet (d : Dev) (o : MOp) (v : Nat) : Dev := d.modMark o.mark fun m => m.put 47 0 v

/-- The device whose mark raises a flag of saturation, counted (R428). -/
abbrev countFlagged (d : Dev) (o : MOp) (f : Nat) : Dev := (d.modMark o.mark fun m => m.raise f).count .cMksat (dPT (markDie o.mark))

theorem mopEffect_read (h : o.mop = 0x00) : mopEffect d o = (d, .done .ok false) := by
  simp only [mopEffect, h]

theorem mopEffect_add (h : o.mop = 0x01) :
    mopEffect d o = if 2 ^ 48 - 1 < (d.mark o.mark).count + o.arg0 then (countFlagged (countSet d o (2 ^ 48 - 1)) o 0, .done .ok false)
      else (countSet d o ((d.mark o.mark).count + o.arg0), .done .ok false) := by
  simp only [mopEffect, h]

theorem mopEffect_sub (h : o.mop = 0x02) :
    mopEffect d o = if (d.mark o.mark).count < o.arg0 then (countFlagged (countSet d o 0) o 1, .done .ok false)
      else (countSet d o ((d.mark o.mark).count - o.arg0), .done .ok false) := by
  simp only [mopEffect, h]

theorem mopEffect_set (h : o.mop = 0x03) : mopEffect d o = (countSet d o o.arg1, .done .ok false) := by
  simp only [mopEffect, h]

theorem mopEffect_take (h : o.mop = 0x04) :
    mopEffect d o = if o.arg0 ≤ (d.mark o.mark).count then (countSet d o ((d.mark o.mark).count - o.arg0), .done .ok true)
      else (d, .done .ok false) := by
  simp only [mopEffect, h]

theorem mopEffect_waitge (h : o.mop = 0x05) :
    mopEffect d o = if o.arg1 ≤ (d.mark o.mark).count then (d, .done .ok false) else (d, .hold o.arg1) := by
  simp only [mopEffect, h]

/-! ### Rounds of a barrier (R429) -/

theorem mopEffect_waitrnd_holds (h : o.mop = 0x12) (hr : o.rtag = (d.mark o.mark).round ∨ o.rtag = ((d.mark o.mark).round + 1) % 256) :
    mopEffect d o = (d, .hold o.rtag) := by
  simp only [mopEffect, h]
  exact if_pos hr

/-- The round before the current one is over. -/
theorem mopEffect_waitrnd_over (h : o.mop = 0x12) (hr : (o.rtag + 1) % 256 = (d.mark o.mark).round) :
    mopEffect d o = (d, .done .ok false) := by
  simp only [mopEffect, h]
  exact (if_neg (by omega)).trans (if_pos hr)

/-! ### Quoins (R433) -/

/-- An operation of quoins by an EID that is no owner of another incarnation breaks nothing first. -/
theorem mopEffect_quoin (hm : o.mop = 0x20 ∨ o.mop = 0x21 ∨ o.mop = 0x22 ∨ o.mop = 0x23)
    (hq : ¬ ((d.mark o.mark).qState = 1 ∧ (d.mark o.mark).owner = o.src ∧ (d.mark o.mark).inc ≠ o.arg0)) : mopEffect d o = quoinOp d o := by
  rcases hm with h | h | h | h <;> simp only [mopEffect, h] <;> exact if_neg hq

theorem quoinOp_free (hm : o.mop = 0x20 ∨ o.mop = 0x21) (hq : (d.mark o.mark).qState = 0) :
    quoinOp d o = (d.modMark o.mark fun m => grantTo m o.src o.arg0, .done .ok true) := by
  rcases hm with h | h <;> simp [quoinOp, hq, h]

/-- A quoin another EID holds: the operation waits, or is refused. -/
theorem quoinOp_others (hq : (d.mark o.mark).qState = 1) (ho : (d.mark o.mark).owner ≠ o.src) :
    quoinOp d o = (d, if o.mop = 0x20 then .hold o.arg0 else if o.mop = 0x21 then .done .busy false else .done .denied false) := by
  by_cases h20 : o.mop = 0x20
  · simp [quoinOp, hq, ho, h20]
  · by_cases h21 : o.mop = 0x21
    · simp [quoinOp, hq, ho, h21]
    · simp [quoinOp, hq, ho, h20, h21]

section Mine

variable (hq : (d.mark o.mark).qState = 1) (ho : (d.mark o.mark).owner = o.src) (hi : (d.mark o.mark).inc = o.arg0)
include hq ho hi

theorem quoinOp_mine_acquires (hm : o.mop = 0x20 ∨ o.mop = 0x21) : quoinOp d o = (d, .done .denied false) := by
  rcases hm with h | h <;> simp [quoinOp, hq, ho, hi, h]

theorem quoinOp_mine_renews (h : o.mop = 0x23) : quoinOp d o = (d, .done .ok false) := by
  simp [quoinOp, hq, ho, hi, h]

/-- A quoin nobody waits for is free once its owner releases it. -/
theorem quoinOp_mine_releases (h : o.mop = 0x22) (hw : ((waitsOn d o.mark).find? fun w => w.mop == 0x20) = none) :
    quoinOp d o = (d.modMark o.mark fun m => m.put 63 62 0, .done .ok false) := by
  simp [quoinOp, hq, ho, hi, h, grantHead, hw]

end Mine

/-! ### Sequencers (R435) -/

theorem mopEffect_ticket (h : o.mop = 0x30) (hn : (d.mark o.mark).next < 2 ^ 32 - 1) :
    mopEffect d o = (d.modMark o.mark fun m => m.put 63 32 (m.next + 1), .done .ok false) := by
  simp only [mopEffect, h]
  exact if_neg hn.ne

theorem mopEffect_serve (h : o.mop = 0x31) (hn : (d.mark o.mark).serving ≠ (d.mark o.mark).next) :
    mopEffect d o = (d.modMark o.mark fun m => m.put 31 0 (m.serving + 1), .done .ok false) := by
  simp only [mopEffect, h]
  exact if_neg hn

theorem mopEffect_waitturn (h : o.mop = 0x32) :
    mopEffect d o = if o.arg1 ≤ (d.mark o.mark).serving then (d, .done .ok false) else (d, .hold o.arg1) := by
  simp only [mopEffect, h]

end Operations

section Events

variable {d : Dev} {i req : Nat} {w : MWait}

/-! ### Times, leases, parents, poisoned records (R424, R432–R434, R503) -/

theorem heldTimeout_ends (h : (d.marks.waits.find? fun w => w.id == req) = some w) :
    heldTimeout d req = endWait (d.count .cMkwtmo (dPT (markDie w.mark))) w .timeout false := by
  simp only [heldTimeout, h]

theorem leaseExpiry_breaks (ht : (d.mark i).type = 3) (hq : (d.mark i).qState = 1) (hl : (d.mark i).lease ≠ 0) :
    leaseExpiry d i = breakQuoin d i 3 := if_pos ⟨ht, hq, hl⟩

section Level

variable (ht : (d.mark i).type = 2) (hu : (d.mark i).upWait = true)
include ht hu

/-- A level that waits for its parent. -/
theorem not_idleLevel : ¬ ((d.mark i).type ≠ 2 ∨ (!(d.mark i).upWait) = true) := by simp [ht, hu]

theorem parentAnswer_ok : parentAnswer d i .ok = afterMop (releaseUp d i) i := if_neg (not_idleLevel ht hu)

theorem parentAnswer_timeout : parentAnswer d i .timeout = sendUp d i 0x12 := if_neg (not_idleLevel ht hu)

theorem parentAnswer_targetLost :
    parentAnswer d i .targetLost = ((d.modMark i fun m => m.raise 5).count .cMkupfail (dPT (markDie i))).notice 0x0702
      (dPT (markDie i)) (some (d.mark i).chase) i Status.targetLost.code 0 := if_neg (not_idleLevel ht hu)

theorem upResend_sends (hf : bit (d.mark i).flags 5 = false) : upResend d i = sendUp d i (d.mark i).upMop :=
  if_pos ⟨ht, hu, by simp [hf]⟩

end Level

/-- The device that records a poisoned mark. -/
abbrev markPoisoned (d : Dev) (i : Nat) : Dev :=
  { d with flt := { d.flt with badMarks := if d.badMark i then d.flt.badMarks else d.flt.badMarks ++ [i] } }

/-- With nothing held on it a poisoned mark is recorded, and that is all. -/
theorem markError_unheld (hw : waitsOn d i = []) :
    markError d i = markPoisoned (d.record 2 (dPT (markDie i)) 8 (some (d.mark i).chase) i) i := by
  have hkept : waitsOn (markPoisoned (d.record 2 (dPT (markDie i)) 8 (some (d.mark i).chase) i) i) i = [] := by
    simpa only [waitsOn, Dev.record_marks] using hw
  unfold markError
  dsimp only
  rw [hkept]
  rfl

section Runs

variable (s : State) (i req : Nat) (st : Status)

theorem leads_heldOpTimeout : Leads (.heldOpTimeout req) s (heldTimeout s.dev req) := leads_onPool (f := fun d => heldTimeout d req) rfl

theorem leads_quoinLeaseExpiry : Leads (.quoinLeaseExpiry i) s (leaseExpiry s.dev i) := leads_onPool (f := fun d => leaseExpiry d i) rfl

theorem leads_barrierParentAnswer : Leads (.barrierParentAnswer i st) s (parentAnswer s.dev i st) :=
  leads_onPool (f := fun d => parentAnswer d i st) rfl

theorem leads_barrierUpResend : Leads (.barrierUpResend i) s (upResend s.dev i) := leads_onPool (f := fun d => upResend d i) rfl

theorem leads_markRecordError : Leads (.markRecordError i) s (markError s.dev i) := leads_onPool (f := fun d => markError d i) rfl

end Runs

end Events

/-- Settles O43: each operation and each event is its effect, given above case by case. -/
theorem markTable : Obligations.MarkTable := by
  rintro s d o m i req w rfl
  refine ⟨mopEffect_read, fun h hn => (mopEffect_add h).trans (if_neg (by omega)), fun h hn => (mopEffect_add h).trans (if_pos (by omega)),
    fun h hn => (mopEffect_sub h).trans (if_pos hn), fun h hn => (mopEffect_sub h).trans (if_neg (Nat.not_lt.2 hn)), mopEffect_set,
    fun h hn => (mopEffect_take h).trans (if_pos hn), fun h hn => (mopEffect_take h).trans (if_neg (Nat.not_le.2 hn)),
    fun h => ⟨fun hn => (mopEffect_waitge h).trans (if_pos hn), fun hn => (mopEffect_waitge h).trans (if_neg (Nat.not_le.2 hn))⟩,
    fun h _ _ => ⟨mopEffect_waitrnd_holds h, mopEffect_waitrnd_over h⟩, fun hm hq => ?free, fun hq ho => ?others, fun hq ho hi => ?mine,
    mopEffect_ticket, mopEffect_serve,
    fun h => ⟨fun hn => (mopEffect_waitturn h).trans (if_pos hn), fun hn => (mopEffect_waitturn h).trans (if_neg (Nat.not_le.2 hn))⟩,
    fun h => (leads_heldOpTimeout s req).of_eq (heldTimeout_ends h), fun ht hq hl => (leads_quoinLeaseExpiry s i).of_eq (leaseExpiry_breaks ht hq hl),
    fun ht hu => ?level, fun hw => ⟨_, rfl, (leads_markRecordError s i).of_eq (markError_unheld hw)⟩⟩
  case free =>
    exact (mopEffect_quoin (by omega) (by omega)).trans (quoinOp_free hm hq)
  case others =>
    have hrun := fun hm => (mopEffect_quoin hm fun h => ho h.2.1).trans (quoinOp_others hq ho)
    refine ⟨fun h => (hrun (.inl h)).trans (by simp [h]), fun h => (hrun (.inr (.inl h))).trans (by simp [h]), fun h => ?_⟩
    exact (hrun (by omega)).trans (by rcases h with h | h <;> simp [h])
  case mine =>
    have hrun := fun hm => mopEffect_quoin (d := d) (o := o) hm fun h => h.2.2 hi
    exact ⟨fun h => (hrun (by omega)).trans (quoinOp_mine_acquires hq ho hi h),
      fun h => (hrun (by omega)).trans (quoinOp_mine_renews hq ho hi h),
      fun h hw => (hrun (by omega)).trans (quoinOp_mine_releases hq ho hi h hw)⟩
  case level =>
    have hrun := leads_barrierParentAnswer s i
    exact ⟨(hrun _).of_eq (parentAnswer_ok ht hu), (hrun _).of_eq (parentAnswer_timeout ht hu), (hrun _).of_eq (parentAnswer_targetLost ht hu),
      fun hf => (leads_barrierUpResend s i).of_eq (upResend_sends ht hu hf)⟩

end Sys2Proof
end
section
/-! PROOF. Firmware: pieces, verification, activation, the standby that runs it and takes over (FirmwareUpdate). -/

namespace Sys2Proof
open Machine

section Firmware

variable {b : Bas} {d : Dev} {off len ver svn a : Nat} {last slot : Bool} {data : List Byte}

/-! ### Pieces and verification (R563, R564) -/

/-- The device whose keepers both hold another piece of the bundle in the inactive slot. -/
abbrev pieceHeldTwice (d : Dev) (off : Nat) (data : List Byte) : Dev :=
  let e := d.modKeeper 0 fun k => k.piece (idleSlot d) off data
  e.modKeeper 1 fun k => k.piece (idleSlot e) off data

/-- The device whose keepers both hold a verified bundle in the inactive slot. -/
abbrev stagedTwice (d : Dev) (ver svn : Nat) : Dev :=
  (d.modKeeper 0 fun k => k.staged (idleSlot d) ver svn).modKeeper 1 fun k => k.staged (idleSlot d) ver svn

theorem fwWriteFx_holds (hn : data.length = 2048) (hd : fwDiffer d = false)
    (ho : off = 0 ∨ (off = (d.mgmt.keeper d.mgmt.lastActive).xfer ∧ d.mgmt.xferEnd = false)) (hin : off + 2048 ≤ 60 * 2 ^ 20) :
    fwWriteFx b 0 off last data d = ({ pieceHeldTwice d off data with mgmt := { (pieceHeldTwice d off data).mgmt with
      verified := false, xferEnd := last } } : Dev).reply b 0x0C01 .ok := by
  have hform : ¬ (1 < 0 ∨ data.isEmpty = true ∨ 2048 < data.length ∨ ((!last) = true ∧ data.length ≠ 2048)) := by
    have hne : data.isEmpty = false := by
      rw [List.isEmpty_eq_false_iff, ← List.length_pos_iff]
      omega
    simp [hne, hn]
  have hplace : ¬ (off ≠ 0 ∧ (off ≠ (d.mgmt.keeper d.mgmt.lastActive).xfer ∨ d.mgmt.xferEnd = true) ∨ 60 * 2 ^ 20 < off + data.length) := by
    rintro (⟨h0, hx⟩ | hlong)
    · rcases ho with ho | ⟨hx', he⟩
      · exact h0 ho
      · exact hx.elim (absurd hx') (by simp [he])
    · omega
  exact (if_neg hform).trans ((if_neg (Bool.eq_false_iff.1 hd)).trans (if_neg hplace))

theorem fwVerifyFx_stages (hl : len = (d.mgmt.keeper d.mgmt.lastActive).xfer) (he : d.mgmt.xferEnd = true) (hs : d.mgmt.fuseSvn ≤ svn) :
    fwVerifyFx b 0 len true ver svn d =
      (({ stagedTwice d ver svn with mgmt := { (stagedTwice d ver svn).mgmt with verified := true, verLen := len } } : Dev).notice 0x0C01
        ({ stagedTwice d ver svn with mgmt := { (stagedTwice d ver svn).mgmt with verified := true, verLen := len } } : Dev).kpDie
        none 0 (b2n (idleSlot d)) ver).reply b 0x0C02 .ok :=
  if_neg (by simp [hl, he, Nat.not_lt.2 hs])

/-- A bundle below the fused minimum is refused, and the keepers are told. -/
theorem fwVerifyFx_old (hs : svn < d.mgmt.fuseSvn) :
    fwVerifyFx b 0 len true ver svn d =
      (d.notice 0x0C03 d.kpDie none 0 (b2n (idleSlot d)) Status.sealed_.code).reply b 0x0C02 .sealed_ :=
  if_pos (.inr (.inr (.inr ⟨rfl, hs⟩)))

/-! ### Activation (R565) -/

/-- The device whose keepers both select a slot. -/
abbrev selectedTwice (d : Dev) (slot : Bool) : Dev :=
  (d.modKeeper 0 fun k => { k with selB := slot }).modKeeper 1 fun k => { k with selB := slot }

section Verified

variable (hv : d.mgmt.verified = true)
include hv

theorem fwActivateFx_selects :
    fwActivateFx b 0 0 d = ({ selectedTwice d (idleSlot d) with mgmt := { (selectedTwice d (idleSlot d)).mgmt with actPend := true } } : Dev).reply
      b 0x0C03 .ok := by
  simp [fwActivateFx, hv]

/-- The device whose standby keeper restarts from a slot. -/
abbrev standbyRestarts (d : Dev) (slot : Bool) : Dev :=
  d.modKeeper (1 - d.mgmt.lastActive) fun k => { k with booted := false, restarting := true, bootTo := some slot }

theorem fwActivateFx_restarts (hr : keeperReady d (1 - d.mgmt.lastActive) = true) :
    fwActivateFx b 0 1 d = ({ standbyRestarts d (idleSlot d) with mgmt := { (standbyRestarts d (idleSlot d)).mgmt with
      activating := true, actSlot := some (idleSlot d) } } : Dev).defer b .firmware 0x0C03 0 := by
  simp [fwActivateFx, hv, hr]

end Verified

section Active

variable (ha : d.mgmt.active = some a) (hs : d.mgmt.actSlot = some slot)
include ha hs

theorem standbyReadyFx_hands (hact : d.mgmt.activating = true) (hh : d.mgmt.handover = false)
    (hr : (d.mgmt.keeper (1 - a)).restarting = true) :
    standbyReadyFx true d = ({ restarted d (1 - a) slot with mgmt := { (restarted d (1 - a) slot).mgmt with handover := true } } : Dev).finish
      0x0C03 0 .ok := by
  simp [standbyReadyFx, ha, hs, hact, hh, hr]

theorem handoverFx_gives (hh : d.mgmt.handover = true) :
    handoverFx d = (giveUp d 3).modKeeper a fun k => { k with booted := false, restarting := true, bootTo := some slot } := by
  simp [handoverFx, ha, hs, hh]

end Active

end Firmware

/-- Settles O56: each command runs as its effect on the device that heard it, each event as its effect. -/
theorem firmwareUpdate : Obligations.FirmwareUpdate := by
  rintro s b d e off len ver svn a last slot data rfl
  refine ⟨fun h hn hd ho hin he => ⟨_, rfl, ?write⟩, fun h hl hend hs he => ⟨_, rfl, ?verify⟩, fun h hs => ?old, fun h hv he => ⟨_, rfl, ?select⟩,
    fun h hv hr he => ?restart, fun ha hs hact hh hr he => ?ready, fun ha hs hh => ?handover, fun h => ⟨_, rfl, ?raise⟩, fun h => ?status⟩
  case write =>
    subst he
    exact Leads.of_eq (leads_onCmd rfl h) (fwWriteFx_holds hn hd ho hin)
  case verify =>
    subst he
    exact Leads.of_eq (leads_onCmd rfl h) (fwVerifyFx_stages hl hend hs)
  case old => exact Leads.of_eq (leads_onCmd rfl h) (fwVerifyFx_old hs)
  case select =>
    subst he
    exact Leads.of_eq (leads_onCmd rfl h) (fwActivateFx_selects hv)
  case restart =>
    subst he
    exact Leads.of_eq (leads_onCmd rfl h) (fwActivateFx_restarts hv hr)
  case ready =>
    subst he
    exact Does.of_eq (does_onDev rfl) (standbyReadyFx_hands ha hs hact hh hr)
  case handover => exact Does.of_eq (does_onDev rfl) (handoverFx_gives ha hs hh)
  case raise => exact Leads.of_eq (leads_onCmd rfl h) rfl
  case status => exact Leads.of_eq (leads_onCmd rfl h) rfl

end Sys2Proof
end
section
/-! PROOF. Who is active, what the keepers run, whether the package is down and what the power block holds: notices, records and what a port
drops leave them (used for LosingDiesAndKeepers, FailoverAndTables, PackageResetsAndBoot). -/

namespace Sys2Proof
open Machine

/-- The standing of the device: its keepers, whether it is shut down for good, its power block. -/
structure Standing where
  active : Option Nat
  actSlot : Option Bool
  kp0 : Keeper
  kp1 : Keeper
  fatal : Bool
  pwr : Power

def standing (d : Dev) : Standing :=
  { active := d.mgmt.active, actSlot := d.mgmt.actSlot, kp0 := d.mgmt.kp0, kp1 := d.mgmt.kp1, fatal := d.flt.fatal, pwr := d.pwr }

section Same

variable {d e : Dev} (h : standing e = standing d)
include h

theorem active_of_standing : e.mgmt.active = d.mgmt.active := congrArg Standing.active h
theorem fatal_of_standing : e.flt.fatal = d.flt.fatal := congrArg Standing.fatal h
theorem pwr_of_standing : e.pwr = d.pwr := congrArg Standing.pwr h

end Same

section Frames

variable {d : Dev} {p n : Nat}

/-! ### Notices and records (R504, R505, R558–R560) -/

/-- A part of the device that both branches keep is kept. -/
theorem ite_keeps {β : Type} {part : Dev → β} {c : Prop} [Decidable c] {a b : Dev} (ha : part a = part d) (hb : part b = part d) :
    part (if c then a else b) = part d := by
  split <;> assumption

theorem standing_ite {c : Prop} [Decidable c] {a b : Dev} (ha : standing a = standing d) (hb : standing b = standing d) :
    standing (if c then a else b) = standing d := ite_keeps ha hb

theorem standing_notice (co di : Nat) (ch : Option Nat) (a b c : Nat) (l : List Nat) : standing (d.notice co di ch a b c l) = standing d := by
  unfold Dev.notice
  split
  · rfl
  · exact standing_ite rfl rfl

theorem standing_pushRec (r : ErrRec) : standing (d.pushRec r) = standing d :=
  standing_ite rfl (standing_notice _ _ _ _ _ _ _)

theorem standing_record (cls die unit : Nat) (ch : Option Nat) (loc : Nat) : standing (d.record cls die unit ch loc) = standing d := by
  unfold Dev.record
  dsimp only
  split
  · exact standing_ite rfl (standing_pushRec _)
  · exact standing_ite rfl (standing_ite rfl (standing_ite rfl rfl))

theorem standing_collectLogs : standing d.collectLogs = standing d :=
  foldOver_keeps (part := standing) (fun r _ => standing_pushRec r) _ _

/-! ### What a port drops as it leaves its link (R94, R134, R173, R335) -/

theorem standing_freeCharge (v : Nat) : standing (freeCharge d p v n) = standing d := standing_ite rfl rfl

theorem standing_freeArrival (x : Option (Nat × Nat)) : standing (freeArrival d x n) = standing d := by
  cases x with
  | none => rfl
  | some x => exact standing_freeCharge _

theorem standing_redSelect (die : Nat) : standing (redSelect d die n).2 = standing d := by
  unfold redSelect
  split
  · rfl
  · split <;> rfl

theorem standing_admitQ (k : QPkt) : standing (admitQ d k).2 = standing d := by
  rcases hr : redSelect d k.die (redProb d k.pkt.tc k.pkt.colour (tget 0 d.core.qcharge (inqKey k))) with ⟨sel, e⟩
  have he : standing e = standing d := (congrArg (fun r => standing r.2) hr).symm.trans (standing_redSelect k.die)
  simp only [admitQ, hr]
  split
  · rfl
  · split
    · split <;> exact he
    · split
      · exact he
      · split
        · exact he
        · exact (standing_freeArrival _).trans (standing_ite he he)

theorem standing_sendPktTo (die eid : Nat) (k : Pkt) (x : QPkt) : standing (sendPktTo d die eid k x).2 = standing d := by
  unfold sendPktTo
  split
  · rfl
  · rfl
  · split
    · rfl
    · exact standing_admitQ _

theorem standing_sendResp (die : Nat) (k : Pkt) (x : Option (Nat × Nat)) : standing (sendResp d die k x) = standing d := by
  have hs : standing (sendPkt d die k { inp := x }).2 = standing d := standing_sendPktTo _ _ _ _
  unfold sendResp
  dsimp only
  split
  · exact hs
  · exact (standing_freeArrival _).trans hs

theorem standing_sendResps (die : Nat) (ks : List Pkt) : standing (sendResps d die ks) = standing d :=
  foldOver_keeps (part := standing) (fun k _ => standing_sendResp die k none) ks d

theorem standing_answer (id : Nat) (st : Status) (rval cause fail pois : Nat) (data : List Byte) :
    standing (answer d id st rval cause fail pois data) = standing d := by
  have huncount : ∀ (e : Dev) (o : Outst), standing (if o.counted then uncountEpoch e o.die o.pkt.chase o.pkt.epoch else e) = standing e :=
    fun e o => standing_ite rfl rfl
  unfold answer
  split
  · rfl
  · refine (foldOver_keeps (part := standing) (fun a e => ?_) _ _).trans ?_
    · exact standing_ite rfl ((standing_sendResps _ _).trans (huncount _ _))
    · exact standing_ite rfl ((standing_sendResps _ _).trans (huncount _ _))

theorem standing_sendDelivery (die tag : Nat) (ks : List Pkt) : standing (sendDelivery d die tag ks) = standing d := by
  refine foldOver_keeps (part := standing) (fun k e => ?_) ks d
  dsimp only
  split <;> exact standing_sendPktTo _ _ _ _

theorem standing_reissue (v : Delivery) : standing (reissue d v) = standing d := by
  unfold reissue
  refine standing_ite rfl ((standing_sendDelivery _ _ _).trans ?_)
  split <;> rfl

theorem standing_loseQ (x : QPkt) : standing (loseQ d x n) = standing d := by
  have hround : ∀ e : Dev, standing (match x.mc with | some (id, m) => mcSet e id m .missed | none => e) = standing e := by
    intro e
    split <;> rfl
  have hend : ∀ e : Dev, standing (match x.req with
      | some id => answer e id .retry
      | none => if x.pkt.opc = opRESP then e.count .cResplost (portDie x.port) else e) = standing e := by
    intro e
    split
    · exact standing_answer _ _ _ _ _ _ _
    · exact standing_ite rfl rfl
  exact (hend _).trans ((hround _).trans (standing_ite (standing_freeArrival _) (standing_freeArrival _)))

theorem standing_snapIncomplete : standing (snapIncomplete d) = standing d := standing_notice _ _ _ _ _ _ _

theorem standing_portLeft : standing (portLeft d p) = standing d := by
  unfold portLeft
  refine (standing_ite standing_snapIncomplete rfl).trans ?_
  refine (foldOver_keeps (part := standing) (fun v _ => standing_reissue v) _ _).trans ?_
  refine (foldOver_keeps (part := standing) (fun (o : Outst) _ => standing_answer o.id .retry 0 0 0 0 []) _ _).trans ?_
  refine (foldOver_keeps (part := standing) (fun x e => ?_) _ _).trans ?_
  · exact standing_ite rfl rfl
  refine (foldOver_keeps (part := standing) (fun x _ => standing_loseQ x) _ _).trans ?_
  refine (foldOver_keeps (part := standing) (fun (x : QPkt × Nat) _ => standing_loseQ x.1) _ _).trans ?_
  exact foldOver_keeps (part := standing) (fun x _ => standing_loseQ x) _ _

theorem standing_linkDisable : standing (linkDisable d p) = standing d := standing_ite standing_portLeft rfl

end Frames

end Sys2Proof
end
section
/-! PROOF. Losing a die, the package or a keeper: the shutdown happens once, a keeper that gives up leaves nothing of its sessions
(LosingDiesAndKeepers). -/

namespace Sys2Proof
open Machine

section Losses

variable {d : Dev} {die stack loc cause n : Nat}

/-! ### Dies and stacks (R512, R514) -/

theorem livenessFx_sends (h : sendsLiveness d die = true) :
    livenessFx die d = ({ d with flt := { d.flt with heard := tput d.flt.heard die d.clk } } : Dev).emit (.liveness die) := if_pos h

theorem deadDie_records (h : sendsLiveness d die = true) (hf : d.flt.selfFatal.contains die = false) :
    deadDie loc die d = holdDieLost (d.record 3 die 16 none loc) die :=
  (if_neg (by simp [h])).trans (congrArg (holdDieLost · die) (if_neg (Bool.eq_false_iff.1 hf)))

theorem deadDie_recorded (h : sendsLiveness d die = true) (hf : d.flt.selfFatal.contains die = true) : deadDie loc die d = holdDieLost d die :=
  (if_neg (by simp [h])).trans (congrArg (holdDieLost · die) (if_pos hf))

/-! ### The shutdown of the package (R520) -/

/-- Every port disabled, as the shutdown leaves the ports' configuration. -/
@[irreducible] def portsOff (d : Dev) : Dev :=
  foldOver ((upTo 1024).filter fun p => d.enabled p) d fun p d => d.setReg .ptPortCfg p (setBits (d.reg .ptPortCfg p) 31 31 0)

/-- Every link of the device taken down. -/
@[irreducible] def linksOff (d : Dev) : Dev := foldOver ((d.links.filter fun e => e.2.st != .down).map Prod.fst) d fun p d => linkDisable d p

/-- The device marked as shut down for good. -/
abbrev markedFatal (d : Dev) : Dev := { d with flt := { d.flt with fatal := true } }

/-- The device as its shutdown has it when every port has left its link: fatal, recorded, its ports disabled. -/
def unlinked (d : Dev) (loc : Nat) : Dev :=
  linksOff (portsOff (if loc = 0 then markedFatal d else (markedFatal d).record 4 dPackage 20 none loc))

/-- A power block after the shutdown: only the keepers' domains are on, KP_FAULT_N is asserted, nothing waits. -/
def powerShut (p : Power) : Power :=
  { p with on := bits p.on 63 61 * 2 ^ 61, mode := .shutdown, faultN := true, toSeq := [], waitPg := [], stest := [], firstWin := [] }

/-- A device without its data plane and its supplies. -/
def switchedOff (d : Dev) : Dev := { dataPlaneOff d with pwr := powerShut d.pwr }

/-- The device after the shutdown, before the notices of it. -/
def offDevice (d : Dev) (loc : Nat) : Dev := switchedOff (unlinked d loc)

theorem shutDown_once (h : d.flt.fatal = true) : shutDown d cause loc = d := if_pos h

theorem shutDown_eq (h : d.flt.fatal = false) :
    shutDown d cause loc = ((offDevice d loc).notice 0x0A08 (offDevice d loc).kpDie none 3 (offDevice d loc).pwr.level 0).notice
      0x0A0A (offDevice d loc).kpDie none cause 0 0 := by
  unfold shutDown offDevice switchedOff unlinked linksOff portsOff powerShut
  rw [if_neg (Bool.eq_false_iff.1 h)]
  dsimp only [dataPlaneOff]

theorem standing_portsOff : standing (portsOff d) = standing d := by
  unfold portsOff
  exact foldOver_keeps (part := standing) (f := fun p d => d.setReg .ptPortCfg p (setBits (d.reg .ptPortCfg p) 31 31 0)) (fun _ _ => rfl) _ d

theorem standing_linksOff : standing (linksOff d) = standing d := by
  unfold linksOff
  exact foldOver_keeps (part := standing) (f := fun p d => linkDisable d p) (fun _ _ => standing_linkDisable) _ d

theorem standing_unlinked : standing (unlinked d loc) = standing (markedFatal d) :=
  standing_linksOff.trans (standing_portsOff.trans (standing_ite rfl (standing_record _ _ _ _ _)))

theorem offDevice_pwr : (offDevice d loc).pwr = powerShut d.pwr :=
  congrArg powerShut (pwr_of_standing (d := markedFatal d) standing_unlinked)

theorem offDevice_fatal : (offDevice d loc).flt.fatal = true :=
  (fatal_of_standing (e := unlinked d loc) (d := markedFatal d) standing_unlinked :)

section First

variable (h : d.flt.fatal = false)
include h

theorem shutDown_pwr : (shutDown d cause loc).pwr = powerShut d.pwr := by
  simp only [shutDown_eq h, Dev.notice_pwr, offDevice_pwr]

theorem shutDown_fatal : (shutDown d cause loc).flt.fatal = true := by
  simp only [shutDown_eq h, Dev.notice_flt, offDevice_fatal]

theorem shutDown_outst : (shutDown d cause loc).tfp.outst = [] := by
  simp only [shutDown_eq h, Dev.notice_tfp]
  rfl

end First

/-! ### Keepers (R449, R516, R550) -/

theorem keeperFails_active (h : d.mgmt.active = some n) : keeperFails cause d = giveUp (keeperOut d n) cause := by
  unfold keeperFails
  rw [h]

theorem standbyLossFx_active (h : d.mgmt.active = some n) :
    standbyLossFx d = (keeperOut d (1 - n)).record 3 (dKP (1 - n)) 10 none 0 := by
  unfold standbyLossFx
  rw [h]

/-- The management block of a keeper that gives up: no session, nothing held, a takeover when the other keeper is ready. -/
theorem giveUp_mgmt (h : d.mgmt.active = some n) :
    (giveUp d cause).mgmt = { (sessionsEnd d).mgmt with
      active := none, leaseAge := 0, handover := false, activating := false
      takeover := if keeperReady d (1 - n) then some cause else none } := by
  unfold giveUp
  rw [h]
  rfl

theorem giveUp_running {r : Running} (h : d.mgmt.active = some n) (hr : r ∈ (giveUp d cause).mgmt.running) : r.sess = none := by
  rw [giveUp_mgmt h] at hr
  have hlost := (List.mem_filter.1 hr).2
  simpa using hlost

theorem giveUp_takeover (h : d.mgmt.active = some n) : (giveUp d cause).mgmt.takeover = some cause ↔ keeperReady d (1 - n) = true := by
  rw [giveUp_mgmt h]
  show (if keeperReady d (1 - n) = true then some cause else none) = some cause ↔ _
  split <;> simp_all

/-- Of two keepers of which one is ready, that one takes over. -/
theorem takeover_ready (hn : n < 2) (hr : keeperReady d n = true) (ho : keeperReady d (1 - n) = false) :
    (if keeperReady d 1 = true ∧ ((!keeperReady d 0) = true ∨ d.mgmt.lastActive = 0) then 1 else 0) = n := by
  match n, hn with
  | 0, _ => exact if_neg fun hc => Bool.false_ne_true (ho.symm.trans hc.1)
  | 1, _ => exact if_pos ⟨hr, .inl (by rw [show keeperReady d 0 = false from ho]; rfl)⟩

/-- The device whose keeper has become active. -/
abbrev tookOver (d : Dev) (n : Nat) : Dev := { d with mgmt := { d.mgmt with active := some n, takeover := none, lastActive := n } }

theorem takeoverDone_ready (ht : d.mgmt.takeover = some cause) (hn : n < 2) (hr : keeperReady d n = true)
    (ho : keeperReady d (1 - n) = false) :
    takeoverDone d = resumeFixes (((tookOver d n).collectLogs.notice 0x0905 (dKP n) none n cause 0).emitIf
      (((tookOver d n).collectLogs.notice 0x0905 (dKP n) none n cause 0).reg .kpMgmtAddr 0 != 0)
      (.netAnswer 2 [n, ((tookOver d n).collectLogs.notice 0x0905 (dKP n) none n cause 0).reg .kpMgmtAddr 0])) := by
  unfold takeoverDone
  rw [ht]
  dsimp only
  rw [takeover_ready hn hr ho, if_neg (by simp [hr])]

end Losses

/-- Settles O51: a die that is lost is recorded unless it recorded its own fault; the shutdown keeps who is active and what the power block
holds until it sets them, once; a keeper that gives up keeps nothing of its sessions, and the one that is ready takes over. -/
theorem losingDiesAndKeepers : Obligations.LosingDiesAndKeepers := by
  refine ⟨fun s die stack cause => ⟨fun h => ?_, fun h hf => ⟨?_, ?_⟩, fun h hf => ⟨?_, ?_⟩, fun h => ?_, ?_, fun h _ => ?_, fun h => ?_⟩,
    fun s n cause hn => ⟨fun h => ?_, fun h => ?_, fun h => ?_, fun h => ⟨?_, ?_, ?_, ?_, ?_⟩, fun ht hr ho => ⟨tookOver s.dev n, rfl, ?_⟩,
      fun h => ?_⟩⟩
  · refine ⟨_, Does.of_eq (does_onDev rfl) (livenessFx_sends h), tfind_tput_same _ _ _, fun k hk => tfind_tput_other _ _ _ _ hk, ?_⟩
    exact (List.append_assoc _ _ _).symm
  · exact Leads.of_eq (leads_onPool rfl) (deadDie_records h hf)
  · exact Leads.of_eq (leads_onPool rfl) (deadDie_records h hf)
  · exact Leads.of_eq (leads_onPool rfl) (deadDie_recorded h hf)
  · exact Leads.of_eq (leads_onPool rfl) (deadDie_recorded h hf)
  · exact Leads.of_eq (leads_onPool rfl) (if_pos h)
  · exact leads_onPool (f := fun d => fatalPackage d cause) rfl
  · exact ⟨shutDown_fatal h, congrArg Power.mode (shutDown_pwr h), congrArg Power.faultN (shutDown_pwr h), congrArg Power.on (shutDown_pwr h),
      shutDown_outst h⟩
  · exact shutDown_once h
  · exact Does.of_eq (does_onDev rfl) (if_pos (by rw [h]; rfl))
  · exact Does.of_eq (does_onDev rfl) (keeperFails_active h)
  · exact Does.of_eq (does_onDev rfl) (keeperFails_active h)
  · rw [giveUp_mgmt h]
  · rw [giveUp_mgmt h]; rfl
  · rw [giveUp_mgmt h]; rfl
  · exact fun r => giveUp_running h
  · exact giveUp_takeover h
  · exact Does.of_eq (does_onDev rfl) (takeoverDone_ready ht hn hr ho)
  · exact Does.of_eq (does_onDev rfl) (standbyLossFx_active h)

end Sys2Proof
end

section
/-! PROOF. A set's slots given to its members in UP, windows of corrected errors, table and store entries that go bad (FailoverAndTables). -/

namespace Sys2Proof
open Machine

section Failover

variable {d : Dev} {set port die unit index n : Nat} {h : NhSet} {ups : List Nat}

/-! ### Next hops (R509, R510) -/

theorem giveSlots_length (l : List (Option Nat)) (k : Nat) : (giveSlots port ups l k).length = l.length := by
  induction l generalizing k with
  | nil => rfl
  | cons s r ih =>
    unfold giveSlots
    split <;> simp only [List.length_cons, ih]

theorem giveSlots_ne (hp : port ∉ ups) (l : List (Option Nat)) (k i : Nat) : (giveSlots port ups l k)[i]? ≠ some (some port) := by
  induction l generalizing k i with
  | nil => simp [giveSlots]
  | cons s r ih =>
    unfold giveSlots
    split
    case isTrue hs =>
      cases i with
      | zero => exact fun hk => hp (List.mem_of_getElem? (Option.some.inj hk))
      | succ i => exact ih _ i
    case isFalse hs =>
      cases i with
      | zero => exact fun hk => hs (Option.some.inj hk)
      | succ i => exact ih _ i

theorem giveSlots_other (l : List (Option Nat)) (k i : Nat) (hi : l[i]? ≠ some (some port)) : (giveSlots port ups l k)[i]? = l[i]? := by
  induction l generalizing k i with
  | nil => rfl
  | cons s r ih =>
    unfold giveSlots
    split
    case isTrue hs =>
      cases i with
      | zero => exact absurd (congrArg some hs) hi
      | succ i => exact ih _ i hi
    case isFalse hs =>
      cases i with
      | zero => rfl
      | succ i => exact ih _ i hi

theorem failoverFx_gives (hs : tfind d.core.nhs set = some h) (hf : d.flag .fltFabpol 0 31 = true) (hm : h.members.contains port = true)
    (hp : d.portUp port = false) (hu : h.members.filter d.portUp ≠ []) :
    failoverFx set port d = { d with core := { d.core with
      nhs := tput d.core.nhs set { h with slots := giveSlots port (h.members.filter d.portUp) h.slots 0 } } } := by
  unfold failoverFx
  rw [hs]
  have hne : (h.members.filter d.portUp).isEmpty = false := List.isEmpty_eq_false_iff.2 hu
  exact if_pos ⟨hf, hm, by rw [hp]; rfl, by rw [hne]; rfl⟩

/-! ### Corrected errors and tables (R499, R501) -/

/-- The device whose window of corrected errors of a unit has ended. -/
abbrev windowOver (d : Dev) (die unit : Nat) : Dev := { d with flt := { d.flt with ceCount := tdel d.flt.ceCount (32 * die + unit) } }

theorem ceWindowFx_below (hn : tget 0 d.flt.ceCount (32 * die + unit) < 2 ^ d.fld .fltThr 0 15 8) :
    ceWindowFx die unit d = windowOver d die unit := if_pos hn

theorem ceWindowFx_at (hn : 2 ^ d.fld .fltThr 0 15 8 ≤ tget 0 d.flt.ceCount (32 * die + unit)) :
    ceWindowFx die unit d = ((windowOver d die unit).record 0 die unit none 0).notice 0x0902 die none (die <<< 8 + unit)
      (tget 0 d.flt.ceCount (32 * die + unit)) 0 := if_neg (Nat.not_lt.2 hn)

/-- The device with the record of a table entry gone bad. -/
abbrev tableRecorded (d : Dev) (die index : Nat) : Dev := d.record 2 die 9 none (Config.tableLoc 1 index)

theorem tableErrorFx_absent (hf : d.flag .fltFabpol 0 24 = false) :
    tableErrorFx die 1 index d = { tableRecorded d die index with core := { (tableRecorded d die index).core with
      badB := (tableRecorded d die index).core.badB ++ [65536 * die + index] } } := by
  have hr : (tableRecorded d die index).flag .fltFabpol 0 24 = false := (Dev.record_flag ..).trans hf
  exact if_neg fun hc => Bool.false_ne_true (hr.symm.trans hc.1)

theorem tableErrorFx_fixed (hf : d.flag .fltFabpol 0 24 = true) (ha : d.mgmt.active ≠ none) :
    tableErrorFx die 1 index d = tableRecorded d die index := by
  have hr : (tableRecorded d die index).flag .fltFabpol 0 24 = true := (Dev.record_flag ..).trans hf
  have hactive : (tableRecorded d die index).mgmt.active = d.mgmt.active := active_of_standing (standing_record _ _ _ _ _)
  exact if_pos ⟨hr, by rw [hactive]; exact Option.isSome_iff_ne_none.2 ha⟩

end Failover

/-- Settles O52: the slots of a member out of UP go to those in UP by the recursion of `giveSlots`; a window is judged by its count; a bad entry
is absent unless TBLFIX and an active keeper rewrite it. -/
theorem failoverAndTables : Obligations.FailoverAndTables := by
  intro s set port die unit index chase part key h
  refine ⟨fun hs hf hm hp hu => ⟨_, rfl, ?_⟩, fun ups l k i _ hp => ⟨giveSlots_length _ _, giveSlots_ne hp _ _ _, giveSlots_other _ _ _⟩,
    fun hn => ?_, fun hn => ⟨_, rfl, ?_⟩, fun hf => ⟨_, rfl, ?_⟩, fun hf ha => ?_, ⟨_, rfl, ?_⟩⟩
  · exact Does.of_eq (does_onDev rfl) (failoverFx_gives hs hf hm hp hu)
  · exact Does.of_eq (does_onDev rfl) (ceWindowFx_below hn)
  · exact Does.of_eq (does_onDev rfl) (ceWindowFx_at hn)
  · exact Does.of_eq (does_onDev rfl) (tableErrorFx_absent hf)
  · exact Does.of_eq (does_onDev rfl) (tableErrorFx_fixed hf ha)
  · exact does_onDev (f := formeErrorFx chase part key) rfl

end Sys2Proof
end
section
/-! PROOF. Domains switched off, put in line and taken by the keeper, what PG decides, self-tests and references (DomainsAndSelfTests). -/

namespace Sys2Proof
open Machine

section Domains

variable {b : Bas} {d : Dev} {mask p die unit n : Nat} {sorts grans hot : List Nat}

/-! ### PWR_OFF and PWR_ON (R567–R571) -/

theorem pwrOffFx_off (hm : mask < 2 ^ 61) (hok : maskOk (without d.pwr.on mask) = true) (hl : d.pwr.level = 0)
    (ho : ((maskDoms (mask &&& d.pwr.on)).all fun p => offOk d (without d.pwr.on mask) p) = true) (hs : stacksInUse d mask = false)
    (hne : maskDoms (mask &&& d.pwr.on) ≠ []) :
    pwrOffFx b mask d = (pwrNotice (switchOff d (maskDoms (mask &&& d.pwr.on)))).reply b 0x0A01 .ok := by
  have hform : ¬ (2 ^ 61 ≤ mask ∨ (!maskOk (without d.pwr.on mask)) = true) := by
    rintro (h | h)
    · exact absurd hm (Nat.not_lt.2 h)
    · rw [hok] at h
      exact Bool.false_ne_true h
  have hbusy : ¬ (d.pwr.level ≠ 0 ∨ (!((maskDoms (mask &&& d.pwr.on)).all fun p => offOk d (without d.pwr.on mask) p)) = true) := by
    rw [ho]
    exact fun h => h.elim (· hl) Bool.false_ne_true
  have hgo : ¬ (maskDoms (mask &&& d.pwr.on)).isEmpty = true := fun h => hne (List.isEmpty_iff.1 h)
  unfold pwrOffFx
  rw [if_neg hform, if_neg hbusy, if_neg (Bool.eq_false_iff.1 hs), if_neg hgo]

theorem pwrOffFx_unsupported (hok : maskOk (without d.pwr.on mask) = false) : pwrOffFx b mask d = d.reply b 0x0A01 .unsupported := by
  unfold pwrOffFx
  rw [if_pos (.inr (by rw [hok]; rfl))]

/-- The device whose line of domains to switch on takes up those of a list. -/
abbrev inLine (d : Dev) (new : List Nat) : Dev :=
  { d with pwr := { d.pwr with toSeq := seqOrder.filter fun p => d.pwr.toSeq.contains p || new.contains p } }

theorem pwrOnFx_lines (hm : mask < 2 ^ 64) (hok : maskOk (mask ||| d.pwr.on) = true) (hl : d.pwr.level = 0)
    (hne : maskDoms (without mask d.pwr.on) ≠ [])
    (hh : ((maskDoms (without mask d.pwr.on)).any fun p => bit d.pwr.trip p && hot.contains p) = false) :
    pwrOnFx b mask hot d = (inLine d (maskDoms (without mask d.pwr.on))).defer b .device 0x0A02 mask := by
  have hform : ¬ (2 ^ 64 ≤ mask ∨ (!maskOk (mask ||| d.pwr.on)) = true) := by
    rintro (h | h)
    · exact absurd hm (Nat.not_lt.2 h)
    · rw [hok] at h
      exact Bool.false_ne_true h
  have hbusy : ¬ (d.pwr.level ≠ 0 ∨ ((maskDoms (without mask d.pwr.on)).any fun p => bit d.pwr.trip p && hot.contains p) = true) := by
    rw [hh]
    exact fun h => h.elim (· hl) Bool.false_ne_true
  have hnew : ¬ (maskDoms (without mask d.pwr.on)).isEmpty = true := fun h => hne (List.isEmpty_iff.1 h)
  unfold pwrOnFx
  rw [if_neg hform, if_neg hbusy, if_neg hnew]

/-! ### The keeper's sequence and PG (R590, R605–R607) -/

theorem startable_length (l : List Nat) : (startable d n l).length ≤ n := by
  induction n generalizing l with
  | zero => simp [startable]
  | succ n ih =>
    cases l with
    | nil => simp [startable]
    | cons p r =>
      unfold startable
      split
      · exact Nat.succ_le_succ (ih r)
      · exact Nat.zero_le _

theorem seqStepFx_pwr (ha : d.mgmt.active = some n) :
    (seqStepFx d).pwr = { d.pwr with
      toSeq := d.pwr.toSeq.filter fun p => !(startable d 4 d.pwr.toSeq).contains p
      waitPg := d.pwr.waitPg ++ startable d 4 d.pwr.toSeq } := by
  unfold seqStepFx
  rw [if_neg (by rw [ha]; exact Bool.false_ne_true)]
  exact foldOver_keeps (part := Dev.pwr) (f := fun p (d : Dev) => d.emit (.enable p true)) (fun _ _ => rfl) _ _

/-- The power block of a domain that has come up: on, not tripped, its pace fresh, its die joining with its own domain. -/
abbrev risen (d : Dev) (p : Nat) : Power :=
  { d.pwr with
    waitPg := d.pwr.waitPg.filter (· != p), on := setBits d.pwr.on p p 1, trip := setBits d.pwr.trip p p 0
    pace := tdel d.pwr.pace p, firstWin := if domainReports p then d.pwr.firstWin ++ [p] else d.pwr.firstWin
    joining := if p = mainDomain (domainDie p) ∧ !d.pwr.joining.contains (domainDie p)
      then d.pwr.joining ++ [domainDie p] else d.pwr.joining }

theorem pgRiseFx_waited (h : d.pwr.waitPg.contains p = true) : pgRiseFx p d = beginTests { d with pwr := risen d p } :=
  if_neg (by simp only [h, Bool.not_true, Bool.false_eq_true, not_false_eq_true])

/-! ### Self-tests and references (R591, R608) -/

theorem selftestRunFx_defers (ht : testable die = true) (hu : d.dieUp die = true) (hs : dieMayStop d die = true) :
    selftestRunFx b die d =
      ({ d with pwr := { d.pwr with stest := d.pwr.stest ++ [die] } } : Dev).defer b .device 0x0E12 die := by
  unfold selftestRunFx
  rw [if_neg (by simp only [ht, Bool.not_true, Bool.false_eq_true, not_false_eq_true]), if_neg (by simp [hu, hs])]

/-- The device whose die's self-test is over. -/
abbrev tested (d : Dev) (die : Nat) : Dev := { d with pwr := { d.pwr with stest := d.pwr.stest.filter (· != die) } }

/-- The device that has told how a die's self-test ended. -/
abbrev testTold (d : Dev) (die unit : Nat) : Dev :=
  { (tested d die).notice 0x0A07 die none die unit 0 with pwr := { ((tested d die).notice 0x0A07 die none die unit 0).pwr with
    resetting := (tested d die).pwr.resetting.filter (· != die) } }

theorem selftestFx_ends (hs : d.pwr.stest.contains die = true) (hlo : 16 ≤ die) (hhi : die < 32) (hr : d.pwr.resetting.contains die = false) :
    selftestFx die unit sorts grans d =
      if unit = 0 then (testTold d die unit).finish 0x0E12 die .ok else holdDieLost ((testTold d die unit).record 3 die unit none 0) die := by
  have hunit : ¬ (unit = 0 ∧ 32 ≤ die ∧ 4096 < grans.length) := fun h => absurd hhi (Nat.not_lt.2 h.2.1)
  have hpwr := Dev.notice_pwr (d := tested d die) 0x0A07 die none die unit 0 []
  unfold selftestFx
  rw [if_neg (by rw [hs]; exact Bool.false_ne_true)]
  dsimp only
  rw [if_neg hunit, if_neg (Nat.not_lt.2 hlo), if_neg (Nat.not_le.2 hhi), hpwr, if_neg (Bool.eq_false_iff.1 hr)]
  rw [testTold, hpwr]

/-- The device that has noted the loss of a die's reference. -/
abbrev refLost (d : Dev) (die : Nat) : Dev := { d with flt := { d.flt with refLost := d.flt.refLost ++ [die] } }

theorem refclkFx_press (hlo : 16 ≤ die) (hhi : die < 24) (hr : d.flt.refLost.contains die = false) :
    refclkFx die d = holdDieLost ((refLost d die).record 3 (dGS (die - 16)) 19 none 0) (dGS (die - 16)) := by
  have hfirst : ¬ (d.flt.refLost.contains die = true ∨ (!(decide (die < 24) || die == 29 || die == 30)) = true) := by
    rw [hr, decide_eq_true hhi]
    exact fun h => h.elim Bool.false_ne_true Bool.false_ne_true
  unfold refclkFx
  rw [if_neg hfirst]
  dsimp only
  rw [if_neg (Nat.not_lt.2 hlo), if_pos hhi]

end Domains

/-- Settles O58: the checks of PWR_OFF and PWR_ON pass one by one; the keeper takes what may start, at most four; PG, a self-test and a lost
reference each do what their first check leads to. -/
theorem domainsAndSelfTests : Obligations.DomainsAndSelfTests := by
  intro s b d mask p die unit n sorts grans hot hd
  subst hd
  refine ⟨fun hr hm hok hl ho hs hne => ?_, fun hr _ hok => ?_, fun hr hm hok hl hne hh => ⟨_, rfl, ?_⟩, fun ha => ?_,
    fun h => ⟨risen s.dev p, rfl, ?_⟩, fun h => ?_, fun ho hp => ?_, fun hr ht hu hs => ?_,
    fun hs hlo hhi hr => ⟨tested s.dev die, testTold s.dev die unit, rfl, rfl, ?_⟩, fun hlo hhi hr => ⟨_, rfl, ?_⟩⟩
  · exact Leads.of_eq (leads_onCmd rfl hr) (pwrOffFx_off hm hok hl ho hs hne)
  · exact Leads.of_eq (leads_onCmd rfl hr) (pwrOffFx_unsupported hok)
  · exact Leads.of_eq (leads_onCmd rfl hr) (pwrOnFx_lines hm hok hl hne hh)
  · refine ⟨_, does_onDev (f := seqStepFx) rfl, congrArg Power.waitPg (seqStepFx_pwr ha), congrArg Power.toSeq (seqStepFx_pwr ha), ?_⟩
    exact startable_length _
  · exact Leads.of_eq (leads_onPool (f := fun d => pollDomains (pgRiseFx p d)) rfl) (congrArg pollDomains (pgRiseFx_waited h))
  · exact Leads.of_eq (leads_onPool (f := fun d => pollDomains (pgTimeoutFx p d)) rfl) (congrArg pollDomains (if_pos h))
  · exact Leads.of_eq (leads_onPool (f := fun d => pollDomains (pgFallFx p d)) rfl) (congrArg pollDomains (if_pos ⟨ho, hp⟩))
  · exact Leads.of_eq (leads_onCmd rfl hr) (selftestRunFx_defers ht hu hs)
  · exact Leads.of_eq (leads_onPool (f := fun d => pollDomains (selftestFx die unit sorts grans d)) rfl)
      (congrArg pollDomains (selftestFx_ends hs hlo hhi hr))
  · exact Leads.of_eq (leads_onPool rfl) (refclkFx_press hlo hhi hr)

end Sys2Proof
end
section
/-! PROOF. Package resets, the boot of a keeper, the start record, the modes and the test port (PackageResetsAndBoot). -/

namespace Sys2Proof
open Machine

section Resets

variable {b : Bas} {d : Dev} {n k : Nat} {slot sel cold : Bool}

/-! ### Package resets (R580, R582, R585, R586) -/

theorem resetWarmFx_replies (ha : d.mgmt.activating = false) :
    resetWarmFx b cold d = { d.reply b (if cold then 0x0A09 else 0x0A08) .ok with
      pwr := { (d.reply b (if cold then 0x0A09 else 0x0A08) .ok).pwr with rstPend := some cold } } := if_neg (Bool.eq_false_iff.1 ha)

theorem resetBeginFx_cold (h : d.pwr.rstPend = some true) : resetBeginFx d = coldReset d 0x03 false := by
  unfold resetBeginFx
  rw [h]

theorem resetBeginFx_warm (h : d.pwr.rstPend = some false) : resetBeginFx d = warmReset d 0x04 := by
  unfold resetBeginFx
  rw [h]

/-- Switching domains off by name sends, and does nothing else. -/
theorem foldOver_emit (f : Nat → Emit) (l : List Nat) (d : Dev) :
    (foldOver l d fun p d => d.emit (f p)) = { d with out := d.out ++ l.map f } := by
  induction l generalizing d with
  | nil => simp [foldOver]
  | cons p r ih =>
    have hcons : (foldOver (p :: r) d fun p d => d.emit (f p)) = foldOver r (d.emit (f p)) fun p d => d.emit (f p) := rfl
    rw [hcons, ih]
    simp [Dev.emit]

theorem coldReset_meter (r : Nat) (q : Bool) : (coldReset d r q).meter = d.meter := by
  simp only [coldReset, foldOver_emit]

theorem coldReset_mgmt (r : Nat) (q : Bool) : (coldReset d r q).mgmt = d.mgmt.kept := by
  simp only [coldReset, foldOver_emit]

/-- What a warm reset keeps or counts of the device, as the ports in TRICKLE are kept. -/
def warmKept (d : Dev) : Power × Faults × Machine.Time := (d.pwr, d.flt, d.time)

theorem freeCharge_warmKept (p v : Nat) : warmKept (freeCharge d p v n) = warmKept d := ite_keeps rfl rfl

theorem keepLink_warmKept (p : Nat) : warmKept (keepLink d p) = warmKept d := by
  unfold keepLink
  exact foldOver_keeps (part := warmKept) (f := fun (h : Nat × Nat) d => freeCharge d p h.1 h.2) (fun h _ => freeCharge_warmKept p h.1) _ d

theorem warmReset_keeps (r : Nat) :
    (warmReset d r).pwr.warmCnt = d.pwr.warmCnt + 1 ∧ (warmReset d r).flt.ring = d.flt.ring ∧ (warmReset d r).flt.fatal = d.flt.fatal ∧
      (warmReset d r).time.rate = d.time.rate := by
  have hkept (l : List Nat) : warmKept (foldOver l d fun p d => keepLink d p) = warmKept d :=
    foldOver_keeps (part := warmKept) (f := fun p d => keepLink d p) (fun p _ => keepLink_warmKept p) l d
  simp only [warmKept, Prod.mk.injEq] at hkept
  simp only [warmReset, foldOver_emit, hkept, and_self]

theorem warmResetInput_resets {s : State} (hp : s.dev.pwr.porst = false) (hm : s.dev.pwr.mode ≠ .booting) :
    Does .warmResetInput s (warmReset s.dev 0x05) := by
  have hheard : ¬ (s.dev.pwr.porst = true ∨ s.dev.pwr.mode = .booting) := not_or.2 ⟨Bool.eq_false_iff.1 hp, hm⟩
  exact Does.of_eq (does_onDev (f := fun d => if d.pwr.porst ∨ d.pwr.mode = .booting then d else warmReset d 0x05) rfl) (if_neg hheard)

/-! ### Boot (R445, R447, R516, R587, R588) -/

/-- A device whose UDS is locked already is not changed by locking it. -/
theorem udsLocked_eq (h : d.mgmt.udsLocked = true) : ({ d with mgmt := { d.mgmt with udsLocked := true } } : Dev) = d := by
  rw [← h]

theorem keeperBootFx_selected (hb : mayBoot d n = true) (hu : d.mgmt.udsLocked = true) (ht : (d.mgmt.keeper n).bootTo = none) :
    keeperBootFx n true sel true d = keeperUp (runSlot d n (d.mgmt.keeper n).selB) n := by
  unfold keeperBootFx
  rw [if_neg (by simp [hb]), udsLocked_eq hu]
  dsimp only
  rw [ht]
  rfl

theorem keeperBootFx_neither (hb : mayBoot d n = true) (hu : d.mgmt.udsLocked = true) : keeperBootFx n false false true d = stayInRom d n := by
  unfold keeperBootFx
  rw [if_neg (by simp [hb]), udsLocked_eq hu]
  rfl

theorem bootTimeoutFx_stays (hb : mayBoot d n = true) (ha : (d.mgmt.keeper n).altBoot = true ∨ slot = false) :
    bootTimeoutFx n slot d = stayInRom d n := by
  unfold bootTimeoutFx
  rw [if_neg (by simp [hb])]
  exact if_neg (by rcases ha with ha | ha <;> simp [ha])

theorem standing_altNote : standing (altNote d n) = standing d := standing_ite (standing_notice _ _ _ _ _ _ _) rfl

theorem standing_modeChg : standing (modeChg d) = standing d := standing_notice _ _ _ _ _ _ _

theorem modKeeper_mgmt (f : Keeper → Keeper) :
    (d.modKeeper n f).mgmt.active = d.mgmt.active ∧ (d.modKeeper n f).mgmt.takeover = d.mgmt.takeover ∧
      (d.modKeeper n f).mgmt.actSlot = d.mgmt.actSlot := by
  unfold Dev.modKeeper
  dsimp only
  split <;> exact ⟨rfl, rfl, rfl⟩

/-- A keeper that has reported ready: it runs, in service, and its die is not held lost. -/
abbrev reported (d : Dev) (n : Nat) : Dev :=
  let e := d.modKeeper n fun k => { k with booted := true, restarting := false, inService := true }
  { e with flt := { e.flt with lostDies := e.flt.lostDies.filter (· != dKP n) }
           pwr := { e.pwr with resetting := e.pwr.resetting.filter (· != dKP n) } }

/-- The device whose keeper is active. -/
abbrev activeNow (d : Dev) (n : Nat) : Dev := { d with mgmt := { d.mgmt with active := some n, lastActive := n, leaseAge := 0 } }

/-- The device whose first keeper to report is active. -/
abbrev firstActive (d : Dev) (n : Nat) : Dev := activeNow (reported d n) n

/-- A device with the logs of its dies collected and alternate boots told. -/
def bootTold (d : Dev) : Dev := altNote (altNote d.collectLogs 0) 1

theorem becomeActive_booting (hm : d.pwr.mode = .booting) (hg : d.meter.gens = []) :
    becomeActive d n = startUp (bootTold (activeNow d n)) := by
  have hopen : openChases (activeNow d n) = [] := by
    unfold openChases
    rw [show (activeNow d n).meter.gens = [] from hg]
    rfl
  unfold becomeActive
  simp only [hm, if_true, hopen]
  rfl

theorem standing_bootTold : standing (bootTold d) = standing d :=
  standing_altNote.trans (standing_altNote.trans standing_collectLogs)

/-- A power block as a start-up leaves it: PROOF, the sequence running. -/
abbrev sequencing (p : Power) : Power :=
  { p with mode := .proof, seqRun := true, startApplied := false, autoDue := (p.start.map fun r => r.autosvc).getD false, autoEnd := false }

theorem startUp_sequences (hf : d.flt.fatal = false) (ht : d.pwr.thermShut = false) :
    startUp d = modeChg { d with pwr := sequencing d.pwr } :=
  (if_neg (Bool.eq_false_iff.1 hf)).trans (if_neg (Bool.eq_false_iff.1 ht))

section First

variable (ha : d.mgmt.active = none) (ht : d.mgmt.takeover = none) (hm : d.pwr.mode = .booting) (hg : d.meter.gens = [])
include ha ht hm hg

theorem standing_keeperUp (hs : d.mgmt.actSlot = none) (hf : d.flt.fatal = false) (hth : d.pwr.thermShut = false) :
    standing (keeperUp d n) = { standing (firstActive d n) with pwr := sequencing (firstActive d n).pwr } := by
  obtain ⟨hactive, htake, hact⟩ := modKeeper_mgmt (d := d) (n := n) fun k => { k with booted := true, restarting := false, inService := true }
  have hfirst : (reported d n).mgmt.active.isNone = true ∧ (reported d n).mgmt.takeover.isNone = true :=
    ⟨Option.isNone_iff_eq_none.2 (hactive.trans ha), Option.isNone_iff_eq_none.2 (htake.trans ht)⟩
  have htold := standing_bootTold (d := firstActive d n)
  have hstart : standing (startUp (bootTold (firstActive d n))) = { standing (firstActive d n) with pwr := sequencing (firstActive d n).pwr } := by
    rw [startUp_sequences ((fatal_of_standing htold).trans hf) ((congrArg Power.thermShut (pwr_of_standing htold)).trans hth)]
    refine standing_modeChg.trans ?_
    exact (congrArg (fun x : Standing => { x with pwr := sequencing x.pwr }) htold :)
  have hslot : (startUp (bootTold (firstActive d n))).mgmt.actSlot = none := (congrArg Standing.actSlot hstart).trans (hact.trans hs)
  have hup : keeperUp d n = startUp (bootTold (firstActive d n)) := by
    unfold keeperUp
    dsimp only
    rw [if_pos hfirst, becomeActive_booting (d := reported d n) hm hg, hslot]
  rw [hup, hstart]

end First

theorem keeper_booted (hn : n < 2) : ((firstActive d n).mgmt.keeper n).booted = true := by
  match n, hn with
  | 0, _ => rfl
  | 1, _ => rfl

/-! ### Slots, modes and the test port (R588, R592, R601) -/

/-- The device whose keepers both select a slot, no activation pending. -/
abbrev bootsFrom (d : Dev) (slot : Bool) : Dev :=
  (({ d with mgmt := { d.mgmt with actPend := false } } : Dev).modKeeper 0 fun k => { k with selB := slot }).modKeeper 1 fun k =>
    { k with selB := slot }

theorem bootSelectFx_selects (hv : slotValid d slot = true) : bootSelectFx b slot d = (bootsFrom d slot).reply b 0x0A0B .ok := by
  unfold bootSelectFx
  rw [if_neg (by simp [hv])]

/-- The device that waits no more to enter SERVICE on its own. -/
abbrev notDue (d : Dev) : Dev := { d with pwr := { d.pwr with autoDue := false } }

theorem serviceEnterFx_enters (hs : stest d = false) (hm : d.pwr.mode ≠ .shutdown) :
    serviceEnterFx b d = (setMode (notDue d) .service).reply b 0x0E10 .ok := if_neg (by simp [hs, hm])

theorem proofEnterFx_enters (hm : d.pwr.mode ≠ .shutdown) : proofEnterFx b d = setMode ((notDue d).reply b 0x0E11 .ok) .proof := if_neg hm

theorem autoServiceFx_enters (hd : d.pwr.autoDue = true) (ha : d.mgmt.active ≠ none) (hm : d.pwr.mode = .proof)
    (hr : d.pwr.startApplied = true) (hs : stest d = false) (he : d.pwr.autoEnd = true) :
    autoServiceFx d = setMode (notDue d) .service :=
  if_pos ⟨hd, Option.isSome_iff_ne_none.2 ha, hm, hr, by simp [hs], .inl he⟩

/-- The device whose time for its ports to settle is over. -/
abbrev settleOver (d : Dev) : Dev := { d with pwr := { d.pwr with autoEnd := true } }

theorem setMode_pwr {m : Mode} (h : d.pwr.mode ≠ m) : (setMode d m).pwr = { d.pwr with mode := m } := by
  unfold setMode
  rw [if_neg h]
  exact Dev.notice_pwr ..

theorem tapEffect_service (hm : d.pwr.mode = .service) (ht : 3 ≤ d.pwr.tap) : tapEffect d = 0 := by
  unfold tapEffect
  rw [if_neg (by omega), hm]
  exact if_neg fun h => Bool.false_ne_true h.2

end Resets

/-- Settles O60: the resets' fields are read off their definitions, with what is sent first and the credits of ports in TRICKLE changing none
of them; the first keeper to report leaves the standing of `standing_keeperUp`. -/
theorem packageResetsAndBoot : Obligations.PackageResetsAndBoot := by
  intro s b d n k slot power sel hd
  subst hd
  refine ⟨fun hr ha => ?_, fun hr ha => ?_, fun h => ?_, fun h => ?_, ?_, ⟨_, rfl, rfl⟩, fun hp hm => ?_, fun hb hu ht => ?_, fun hb hu => ?_,
    fun ha ht hs hn hm hg hf hth => ?_, fun hb ha => ?_, fun hr hv => ⟨bootsFrom (heard s.dev b) slot, ?_, rfl, rfl, rfl⟩, fun hr => ?_,
    fun hr => ?_, fun hr hs hm => ?_, fun hr hm => ?_, fun hd ha hm hr hs => ⟨fun he => ?_, ?_⟩, ⟨_, rfl, rfl⟩, fun hm ht => ?_⟩
  · exact Leads.of_eq (leads_onCmd rfl hr) (resetWarmFx_replies ha)
  · exact Leads.of_eq (leads_onCmd rfl hr) (resetWarmFx_replies ha)
  · exact Does.of_eq (does_onDev rfl) (resetBeginFx_cold h)
  · exact Does.of_eq (does_onDev rfl) (resetBeginFx_warm h)
  · refine ⟨_, does_onDev (f := fun d => coldReset d (if power then 0x01 else 0x02) true) rfl, rfl, rfl, rfl, rfl, rfl, rfl, rfl, rfl, rfl, rfl, rfl,
      ?_, ?_⟩
    · exact coldReset_meter (d := s.dev) (if power then 0x01 else 0x02) true
    have hmgmt := coldReset_mgmt (d := s.dev) (if power then 0x01 else 0x02) true
    have howner := congrArg Mgmt.owner hmgmt
    have hfuse := congrArg Mgmt.fuseSvn hmgmt
    exact ⟨howner, rfl, rfl, hfuse⟩
  · obtain ⟨hcnt, hring, hfatal, hrate⟩ := warmReset_keeps (d := s.dev) 0x05
    exact ⟨_, warmResetInput_resets hp hm, rfl, rfl, hcnt, hring, hfatal, rfl, rfl, hrate, rfl⟩
  · exact Leads.of_eq (leads_onPool rfl) (keeperBootFx_selected hb hu ht)
  · exact Leads.of_eq (leads_onPool rfl) (keeperBootFx_neither hb hu)
  · have hup := standing_keeperUp (n := n) ha ht hm hg hs hf hth
    have hkeeper : (keeperUp s.dev n).mgmt.keeper n = (firstActive s.dev n).mgmt.keeper n :=
      congrArg (fun x : Standing => if n = 0 then x.kp0 else x.kp1) hup
    exact ⟨congrArg Standing.active hup, (congrArg Keeper.booted hkeeper).trans (keeper_booted hn), congrArg (fun x => x.pwr.mode) hup,
      congrArg (fun x => x.pwr.seqRun) hup⟩
  · exact Leads.of_eq (leads_onPool rfl) (bootTimeoutFx_stays hb ha)
  · exact Leads.of_eq (leads_onCmd rfl hr) (bootSelectFx_selects hv)
  · exact leads_onCmd (body := fun d => ({ d with pwr := { d.pwr with start := some (startRecord d slot) } } : Dev).reply b 0x0A0C .ok) rfl hr
  · exact leads_onCmd (body := fun d => ({ d with pwr := { d.pwr with start := none } } : Dev).reply b 0x0A0D .ok) rfl hr
  · exact Leads.of_eq (leads_onCmd rfl hr) (serviceEnterFx_enters hs hm)
  · exact Leads.of_eq (leads_onCmd rfl hr) (proofEnterFx_enters hm)
  · exact Does.of_eq (does_onDev rfl) (autoServiceFx_enters hd ha hm hr hs he)
  · have hserve := autoServiceFx_enters (d := settleOver s.dev) hd ha hm hr hs rfl
    have hpwr := setMode_pwr (d := notDue (settleOver s.dev)) (m := .service) (by rw [show (notDue (settleOver s.dev)).pwr.mode = .proof from hm]; decide)
    exact ⟨_, Does.of_eq (does_onDev rfl) ((if_pos ⟨hd, hr⟩).trans hserve), congrArg Power.mode hpwr, congrArg Power.autoEnd hpwr,
      congrArg Power.autoDue hpwr⟩
  · exact tapEffect_service hm ht

end Sys2Proof
end
section
/-! PROOF. The meter: what its notices leave, accounts, exports, samples and the census (MeterAccounts). -/

namespace Sys2Proof
open Machine

section Accounts

variable {d : Dev} {m : Meter} {chase die p e lost : Nat} {c : Census} {r : ExpRec} {uj : List (Nat × Nat)}

/-! ### Notices of the meter (R489) -/

/-- A meter apart from what it keeps of its notices. -/
def unnoted (m : Meter) : Meter := { m with supp := 0, noted := [] }

/-- A notice changes nothing of the meter but what it keeps of its notices. -/
theorem unnoted_meterNotice (co di a b : Nat) : unnoted (meterNotice d co di a b).meter = unnoted d.meter :=
  ite_keeps (part := fun d => unnoted d.meter) rfl (ite_keeps (part := fun d => unnoted d.meter) rfl rfl)

/-! ### Notices of the keeper and exports (R472, R476) -/

theorem noteFx_due {o : Bool} (hp : d.meter.powered = true) (hn : (d.meter.notes.find? fun n => n.2 == chase) = some (o, chase)) :
    noteFx o chase d = d.modMeter fun m =>
      if o then ({ m with notes := dropFirst (· == (o, chase)) m.notes } : Meter).openChase chase
      else ({ m with notes := dropFirst (· == (o, chase)) m.notes } : Meter).closeChase chase :=
  if_neg (by simp [hp, hn])

theorem exportFx_exports (hp : d.meter.powered = true) (hd : die < 24) (hu : d.dieUp die = true)
    (he : (d.exp.filter fun x => exports die x.1) ≠ []) :
    exportFx die d =
      ({ d with exp := d.exp.filter (fun x => !exports die x.1), expPort := d.expPort.filter (fun x => portDie x.1 != die) } : Dev).modMeter
        fun m => { m with wire := m.wire ++
          [{ die := die, exp := d.exp.filter fun x => exports die x.1, port := d.expPort.filter fun x => portDie x.1 == die }] } := by
  have hne : (d.exp.filter fun x => exports die x.1).isEmpty = false := List.isEmpty_eq_false_iff.2 he
  unfold exportFx
  exact if_neg (by simp only [hp, hu, hne, Nat.not_le.2 hd, Bool.not_true, Bool.false_eq_true, false_and, or_self, not_false_eq_true])

/-- The meter that has taken the oldest record of a die off the link and added it. -/
abbrev recordAdded (m : Meter) (die : Nat) (r : ExpRec) : Meter :=
  let added := foldOver r.exp ({ m with wire := dropFirst (fun x => x.die == die) m.wire } : Meter) fun e m => m.increment e.1 e.2
  foldOver r.port added fun e m => m.bank fun b => b.ports e.1 e.2.1 e.2.2

theorem exportRxFx_adds (hp : d.meter.powered = true) (hr : (d.meter.wire.find? fun r => r.die == die) = some r) :
    exportRxFx die d = { d with meter := recordAdded d.meter die r } := by
  unfold exportRxFx
  rw [hr]
  exact if_neg (by simp [hp])

/-! ### Samples (R473–R475, R477) -/

theorem ite_mtime {q : Prop} [Decidable q] {x y : Meter} (hx : x.mtime = m.mtime) (hy : y.mtime = m.mtime) :
    (if q then x else y).mtime = m.mtime := by
  split <;> assumption

theorem bank_mtime (f : MBank → MBank) : (m.bank f).mtime = m.mtime := ite_mtime rfl rfl

/-- Folding what keeps meter time keeps it. -/
theorem foldl_mtime {α : Type} {f : Meter → α → Meter} (hf : ∀ m x, (f m x).mtime = m.mtime) (l : List α) (m : Meter) :
    (l.foldl f m).mtime = m.mtime := by
  induction l generalizing m with
  | nil => rfl
  | cons x r ih => exact (ih _).trans (hf m x)

theorem sampleSpace_mtime : (sampleSpace d).meter.mtime = d.meter.mtime :=
  foldl_mtime (fun _ _ => ite_mtime (bank_mtime _) rfl) _ _

/-- A sample without alarms adds its 1,000 µs to meter time, whatever its energy goes to, and begins a new window of activity. -/
theorem sampleFx_meter (hp : d.meter.powered = true) :
    (sampleFx uj [] d).meter.mtime = d.meter.mtime + 1000 ∧ (sampleFx uj [] d).meter.act = [] := by
  unfold sampleFx
  rw [if_neg (by simp [hp])]
  simp only [foldOver, List.foldl_nil, Dev.modMeter_meter]
  refine ⟨(foldl_mtime (fun _ _ => ?_) _ _).trans sampleSpace_mtime, trivial⟩
  -- A domain's energy goes to the banks, with activity in it and without.
  exact ite_mtime ((bank_mtime _).trans (bank_mtime _))
    ((bank_mtime _).trans ((foldl_mtime (fun _ _ => bank_mtime _) _ _).trans (bank_mtime _)))

theorem timeTickFx_ticks (ha : d.mgmt.active ≠ none) (hp : d.meter.powered = true) :
    timeTickFx d = { d with meter := { d.meter with ft := d.now } } := if_pos ⟨Option.isSome_iff_ne_none.2 ha, hp⟩

theorem senseFx_fails (hp : d.meter.powered = true) (h64 : p < 64) (hs : d.meter.sfault.contains p = false) :
    senseFx p d = meterNotice { d with meter := { d.meter with sfault := d.meter.sfault ++ [p] } } 0x0B02 dPackage p 0 := by
  unfold senseFx
  exact if_neg (by simp only [hp, hs, Nat.not_le.2 h64, Bool.not_true, Bool.false_eq_true, or_self, not_false_eq_true])

/-! ### The census (R478) -/

/-- The first copy of a chase's census is kept: one copy is no majority of four port dies or more. -/
theorem censusFx_first (hp : d.meter.powered = true) (hd : die < 16) (hu : d.dieUp die = true)
    (hc : (d.meter.copies.filter fun x => x.1 == chase) = []) (hn : 1 < ((upTo 16).filter d.dieUp).length / 2) :
    censusFx chase die (some c) d = { d with meter := { d.meter with copies := d.meter.copies ++ [(chase, die, c)] } } := by
  have hother (x : Nat × Nat × Census) (hx : x ∈ d.meter.copies) : (x.1 == chase) = false :=
    Bool.eq_false_iff.2 (List.filter_eq_nil_iff.1 hc x hx)
  have hkept : (d.meter.copies.filter fun x => !(x.1 == chase && x.2.1 == die)) = d.meter.copies :=
    List.filter_eq_self.2 fun x hx => by rw [hother x hx]; rfl
  have hnone : (d.meter.copies.filter fun x => x.1 == chase && x.2.2 == c) = [] :=
    List.filter_eq_nil_iff.2 fun x hx => by rw [hother x hx]; exact Bool.false_ne_true
  have hsame : ((d.meter.copies ++ [(chase, die, c)]).filter fun x => x.1 == chase && x.2.2 == c).length = 1 := by
    rw [List.filter_append, hnone]
    simp
  have hfew : ¬ ((upTo 16).filter d.dieUp).length < 2 * 1 := by omega
  unfold censusFx
  rw [if_neg (by simp only [hp, hu, Nat.not_le.2 hd, Bool.not_true, Bool.false_eq_true, or_self, not_false_eq_true])]
  simp only [hkept, Option.getD_some, hsame]
  rw [if_neg hfew]
  rfl

/-- The meter whose copies of a chase's census have not agreed in time. -/
abbrev undecided (m : Meter) (chase : Nat) : Meter :=
  { m with copies := m.copies.filter (fun x => x.1 != chase), diff := true, lastDiff := true }

theorem censusTmoFx_meter (hp : d.meter.powered = true) (hc : (d.meter.copies.any fun x => x.1 == chase) = true) :
    unnoted (censusTmoFx chase d).meter = unnoted (undecided d.meter chase) := by
  unfold censusTmoFx
  rw [if_neg (by simp only [hp, hc, Bool.not_true, Bool.false_eq_true, or_self, not_false_eq_true])]
  exact unnoted_meterNotice _ _ _ _

end Accounts

/-- Settles O48: each event passes its first check; a sample keeps meter time but for its 1,000 µs through every bank it writes; one copy of a
census is no majority. -/
theorem meterAccounts : Obligations.MeterAccounts := by
  intro s chase die p e r c m uj hp
  refine ⟨fun hn => ⟨_, rfl, ?_⟩, fun hn => ⟨_, rfl, ?_⟩, fun hd hu he => ?_, fun hr => ⟨_, rfl, ?_⟩, ?_, fun h0 => if_pos h0, fun ha => ?_,
    fun h64 hs => ?_, fun hd hu hc hn => ?_, fun hc => ?_⟩
  · exact Does.of_eq (does_onDev rfl) (noteFx_due hp hn)
  · exact Does.of_eq (does_onDev rfl) (noteFx_due hp hn)
  · exact ⟨_, Does.of_eq (does_onDev rfl) (exportFx_exports hp hd hu he), rfl, rfl, rfl⟩
  · exact Does.of_eq (does_onDev rfl) (exportRxFx_adds hp hr)
  · obtain ⟨htime, hact⟩ := sampleFx_meter (uj := uj) hp
    exact ⟨_, does_onDev (f := sampleFx uj []) rfl, htime, hact⟩
  · exact Does.of_eq (does_onDev rfl) (timeTickFx_ticks ha hp)
  · exact Does.of_eq (does_onDev rfl) (senseFx_fails hp h64 hs)
  · exact ⟨_, Does.of_eq (does_onDev rfl) (censusFx_first hp hd hu hc hn), rfl, rfl⟩
  · have hmeter := censusTmoFx_meter hp hc
    have hcensus := congrArg Meter.census hmeter
    exact ⟨_, does_onDev (f := censusTmoFx chase) rfl, congrArg Meter.diff hmeter, congrArg Meter.lastDiff hmeter, congrArg Meter.copies hmeter,
      hcensus⟩

end Sys2Proof
end
section
/-! PROOF. Colophons at a boundary, their commit, the loss and return of the meter's power, the metrology authority (ColophonsAndAuthority). -/

namespace Sys2Proof
open Machine

section Colophons

variable {d : Dev} {m : Meter} {c : Colophon} {b : Bas} {a : MtAuth} {v w seq off : Nat} {img : List Byte} {corr : List (Nat × Nat × Nat)}

/-! ### Boundaries and commits (R479, R480, R482) -/

/-- The colophon a boundary cuts. -/
abbrev boundaryColophon (d : Dev) : Colophon :=
  d.meter.colophon (if d.meter.resume then 2 else 0) d.meter.boundary (Config.freeNat d.free)

/-- The meter from a boundary on: its colophon being committed, a new interval begun. -/
abbrev atBoundary (d : Dev) : Meter :=
  { d.meter with
    committing := some (boundaryColophon d), mstart := (boundaryColophon d).mend, mtime := max d.meter.mtime (boundaryColophon d).mend
    interval := d.meter.newInt.getD d.meter.interval, newInt := none, flagInt := d.meter.newInt.isSome, finals := [], diff := false
    slow := false, lost := false, resume := false, supp := 0 }

theorem boundaryFx_cuts (hp : d.meter.powered = true) (hc : d.meter.committing = none) :
    boundaryFx d = { d.draw.2 with meter := atBoundary d } := if_neg (by simp [hp, hc])

/-- The meter that has written a colophon: the store, the chain, what a return of power starts from. -/
abbrev colophonStored (m : Meter) (c : Colophon) : Meter :=
  { m with
    store := (storeRoom c.size m.store.length m.store 0).1 ++ [(false, c)]
    lostRec := m.lostRec + (storeRoom c.size m.store.length m.store 0).2
    seq := c.seq, prevHash := Config.sha384 c.bytes, saved := m.main, savedGens := m.gens }

theorem unnoted_storeColophon : unnoted (storeColophon d c).meter = unnoted (colophonStored d.meter c) := by
  refine (unnoted_meterNotice _ _ _ _).trans ?_
  exact ite_keeps (d := { d with meter := colophonStored d.meter c }) (part := fun d => unnoted d.meter) rfl (unnoted_meterNotice _ _ _ _)

/-- The meter whose commit has ended without a retry: the shadow bank is folded into the main one. -/
abbrev committed (m : Meter) : Meter := { m with committing := none, main := m.main.fold m.shadow, shadow := {}, slow := m.slow || false }

theorem commitDoneFx_meter (hc : d.meter.committing = some c) (hp : d.meter.pend = none) :
    (commitDoneFx false d).meter = committed (storeColophon d c).meter := by
  have hpend : (storeColophon d c).meter.pend = none := (congrArg Meter.pend (unnoted_storeColophon (d := d) (c := c))).trans hp
  unfold commitDoneFx
  rw [hc]
  simp only [Dev.modMeter_meter, hpend, committed]

/-! ### The meter's power (R487, R488) -/

/-- The device whose meter is cut from its power. -/
abbrev unpowered (d : Dev) (l : Bool) : Dev :=
  { d with meter := { d.meter with powered := false, committing := none, pend := none, lost := d.meter.lost || l } }

theorem unpowered_notice {l : Bool} (co di x y : Nat) :
    (meterNotice (unpowered d l) co di x y).meter.powered = false ∧ (meterNotice (unpowered d l) co di x y).meter.committing = none :=
  ⟨congrArg Meter.powered (unnoted_meterNotice (d := unpowered d l) co di x y),
    congrArg Meter.committing (unnoted_meterNotice (d := unpowered d l) co di x y)⟩

theorem meterCut_off (l : Bool) : (meterCut d l).meter.powered = false ∧ (meterCut d l).meter.committing = none := unpowered_notice _ _ _ _

theorem supplyFailFx_off (hp : d.meter.powered = true) :
    (supplyFailFx true d).meter.powered = false ∧ (supplyFailFx true d).meter.committing = none := by
  unfold supplyFailFx
  rw [if_neg (by simp [hp])]
  exact meterCut_off _

/-- What the meter starts from as power returns: what was last committed, where it lost what it held. -/
abbrev powerBack (m : Meter) : Meter := if m.lost then { m with main := m.saved, gens := m.savedGens, finals := [] } else m

theorem powerReturnFx_meter (hp : d.meter.powered = false) :
    (powerReturnFx d).meter = { powerBack d.meter with
      powered := true, mtime := d.meter.mstart, shadow := {}, resume := true, act := [], copies := [] } := by
  unfold powerReturnFx
  rw [if_neg (Bool.eq_false_iff.1 hp)]
  rfl

theorem powerBack_kept (h : m.lost = false) : powerBack m = m := if_neg (Bool.eq_false_iff.1 h)

theorem powerBack_mstart : (powerBack m).mstart = m.mstart := by
  unfold powerBack
  split <;> rfl

/-! ### The metrology authority (R483–R486) -/

/-- The command of the authority carried out: its count taken, the meter as the command leaves it. -/
abbrev accepted (m : Meter) (a : MtAuth) : Meter := { m with acnt := a.acnt }

theorem mtFx_answers {k : MtCmd} (hp : d.meter.powered = true) (hc : d.meter.committing = none)
    (hk : d.meter.authority k = ((.ok, 0, 0), m)) : mtFx b k d = ({ d with meter := m } : Dev).reply b k.opc .ok := by
  unfold mtFx mtAnswer
  rw [if_neg (by simp [hp]), if_neg (by simp [hc]), hk]
  rfl

section Signed

variable (hs : a.sigOk = true) (hn : m.acnt < a.acnt)
include hs hn

theorem authority_enrol (h : m.auth = none) :
    m.authority { opc := 0x0B10, auth := a, pin := true, val := v } =
      ((.ok, 0, 0), { (accepted m a).sealEvent 1 with auth := some v }) := by
  simp only [Meter.authority, hs, h, Nat.not_le.2 hn]
  rfl

section Enrolled

variable (h : m.auth.isNone = false)
include h

theorem authority_authkey (hr : m.repl < 15) :
    m.authority { opc := 0x0B11, auth := a, val := v } =
      ((.ok, 0, 0), { (accepted m a).sealEvent 2 with auth := some v, repl := m.repl + 1 }) := by
  simp only [Meter.authority, hs, h, Nat.not_le.2 hn, Nat.not_le.2 hr]
  rfl

theorem authority_setint (h1 : 1 ≤ v) (h3600 : v ≤ 3600) :
    m.authority { opc := 0x0B12, auth := a, val := v } = ((.ok, 0, 0), { accepted m a with newInt := some v }) := by
  simp only [Meter.authority, hs, h, Nat.not_le.2 hn, h1, h3600]
  rfl

/-- The meter that has taken a new legal firmware: its version, its digest, a seal event. -/
abbrev relegalled (m : Meter) (a : MtAuth) (v w : Nat) (img : List Byte) : Meter :=
  { (accepted m a).sealEvent 3 with
    lrMaj := v % 256, lrMin := w % 256, lrDigest := Config.sha384 img, lrSum := Config.sha384 img % 2 ^ 32 }

theorem authority_fwlr :
    m.authority { opc := 0x0B13, auth := a, val := v, val2 := w, image := img, imgOk := true } = ((.ok, 0, 0), relegalled m a v w img) := by
  simp only [Meter.authority, hs, h, Nat.not_le.2 hn]
  rfl

theorem authority_corr (hc : (corr.all fun x => decide (x.1 < 64)) = true) :
    m.authority { opc := 0x0B14, auth := a, corr := corr } = ((.ok, 0, 0), { (accepted m a).sealEvent 4 with
      corr := corr.foldl (fun t (x : Nat × Nat × Nat) => tput t x.1 x.2) m.corr }) := by
  simp only [Meter.authority, hs, h, Nat.not_le.2 hn, hc]
  rfl

end Enrolled

end Signed

/-! ### Reading and acknowledging (R482) -/

theorem mtReadFx_reads {k : Bool} (hp : d.meter.powered = true) (h0 : seq ≠ 0)
    (hc : (d.meter.store.find? fun c => c.2.seq == seq) = some (k, c)) (ho : off < c.size) :
    mtReadFx b seq off d = d.reply b 0x0B01 .ok 0 0 (((c.bytes.drop off).take 4080).map fun x => x.toNat) := by
  unfold mtReadFx
  dsimp only
  rw [if_neg h0, hc, if_neg (by simp [hp])]
  exact if_neg (Nat.not_le.2 ho)

/-- The meter whose colophons up to one are acknowledged. -/
abbrev acknowledged (m : Meter) (seq : Nat) : Meter := { m with store := m.store.map fun c => if c.2.seq ≤ seq then (true, c.2) else c }

theorem mtAckFx_acks (hp : d.meter.powered = true) (h0 : seq ≠ 0) (hs : seq ≤ d.meter.seq) :
    mtAckFx b seq d = ({ d with meter := acknowledged d.meter seq } : Dev).reply b 0x0B02 .ok :=
  (if_neg (by simp [hp])).trans (if_neg (by omega))

end Colophons

/-- Settles O49: a commit and a cut change the meter as their notices leave it; a command of the authority passes its signature, its count and its
own check. -/
theorem colophonsAndAuthority : Obligations.ColophonsAndAuthority := by
  intro s b d a c m v w seq off img corr hd
  subst hd
  refine ⟨fun hp hc => ?_, fun hc hp => ?_, fun hp => ?_, fun hp => ?_, fun hp hc hs hn hm => ?_, fun hr hp h0 hc ho => ?_,
    fun hr hp h0 hs hm => ?_⟩
  · exact ⟨_, Config.freeNat s.dev.free, Does.of_eq (does_onDev rfl) (boundaryFx_cuts hp hc), rfl, rfl, rfl, rfl, rfl⟩
  · have hmeter := commitDoneFx_meter hc hp
    have hstored := unnoted_storeColophon (d := s.dev) (c := c)
    refine ⟨_, does_onDev (f := commitDoneFx false) rfl, congrArg Meter.committing hmeter, congrArg Meter.shadow hmeter,
      (congrArg Meter.seq hmeter).trans (congrArg Meter.seq hstored), (congrArg Meter.prevHash hmeter).trans (congrArg Meter.prevHash hstored),
      (congrArg Meter.main hmeter).trans (congrArg (fun m => m.main.fold m.shadow) hstored), ?_⟩
    have hstore : (storeColophon s.dev c).meter.store = (colophonStored s.dev.meter c).store :=
      (congrArg Meter.store hstored :)
    exact (congrArg (fun m => m.store.getLast?) hmeter).trans ((congrArg List.getLast? hstore).trans List.getLast?_concat)
  · obtain ⟨hoff, hnone⟩ := supplyFailFx_off hp
    exact ⟨_, does_onDev (f := supplyFailFx true) rfl, hoff, hnone⟩
  · have hmeter := powerReturnFx_meter hp
    have hmain : (powerReturnFx s.dev).meter.main = (powerBack s.dev.meter).main := (congrArg Meter.main hmeter :)
    have hgens : (powerReturnFx s.dev).meter.gens = (powerBack s.dev.meter).gens := (congrArg Meter.gens hmeter :)
    refine ⟨_, does_onDev (f := powerReturnFx) rfl, congrArg Meter.powered hmeter, congrArg Meter.resume hmeter, congrArg Meter.shadow hmeter,
      ?_, fun hl => ⟨?_, ?_⟩, fun hl => ⟨?_, ?_⟩⟩
    · exact (congrArg Meter.mtime hmeter).trans (powerBack_mstart.symm.trans (congrArg Meter.mstart hmeter).symm)
    · exact hmain.trans (congrArg Meter.main (if_pos hl))
    · exact hgens.trans (congrArg Meter.gens (if_pos hl))
    · exact hmain.trans (congrArg Meter.main (powerBack_kept hl))
    · exact hgens.trans (congrArg Meter.gens (powerBack_kept hl))
  · subst hm
    refine ⟨fun hr h => ?_, fun h => ?_⟩
    · exact Leads.of_eq (leads_onCmd rfl hr) (mtFx_answers hp hc (authority_enrol hs hn h))
    have henrolled : (heard s.dev b).meter.auth.isNone = false := by
      rw [Option.isNone_eq_false_iff]
      exact Option.isSome_iff_ne_none.2 h
    refine ⟨fun hr hl => ?_, fun hr h1 h3600 => ?_, fun hr => ?_, fun hr hcorr => ?_⟩
    · exact Leads.of_eq (leads_onCmd rfl hr) (mtFx_answers hp hc (authority_authkey hs hn henrolled hl))
    · exact Leads.of_eq (leads_onCmd rfl hr) (mtFx_answers hp hc (authority_setint hs hn henrolled h1 h3600))
    · exact ⟨{ heard s.dev b with meter := relegalled (heard s.dev b).meter a v w img },
        Leads.of_eq (leads_onCmd rfl hr) (mtFx_answers hp hc (authority_fwlr hs hn henrolled)), rfl, rfl, rfl, rfl, rfl⟩
    · exact Leads.of_eq (leads_onCmd rfl hr) (mtFx_answers hp hc (authority_corr hs hn henrolled hcorr))
  · exact Leads.of_eq (leads_onCmd rfl hr) (mtReadFx_reads hp h0 hc ho)
  · subst hm
    exact Leads.of_eq (leads_onCmd rfl hr) (mtAckFx_acks hp h0 hs)

end Sys2Proof
end
